-- ==== Sys2Proof/Word.lean ====
section
/-! DEFINITION. The word types of the module: what the spec treats as bits is a bit vector. -/

namespace Sys2Proof

/-- A byte (R11, 00_scope.md). -/
abbrev Byte := BitVec 8

/-- A BAR0 register word (R14). -/
abbrev Word := BitVec 32

/-- A 64-bit register or address (R15, R183). -/
abbrev DWord := BitVec 64

/-- A Bench or DSS line: 128 bytes, byte 0 in the least significant bits (R59, R146). -/
abbrev Line := BitVec 1024

/-- A device memory line: 256 bytes (R345). -/
abbrev MemLine := BitVec 2048

/-- A vector register: 1 KiB, lane 0 in the least significant bits (R152, R247). -/
abbrev VWord := BitVec 8192

/-- A bundle (R178). -/
abbrev Bundle := BitVec 256

/-- A partition number PT0 to PT15 (R155). -/
abbrev Pt := BitVec 4

/-- A logical core number within a partition (R20, R299). -/
abbrev LCore := BitVec 5

/-- A hearth die number HD0 to HD3 (R21). -/
abbrev DieNo := BitVec 2

/-- An array number A0 to A3 (R118). -/
abbrev ArrayNo := BitVec 2

/-- A Peel engine number within its die (R21). -/
abbrev EngNo := BitVec 3

/-- A context number (R417). -/
abbrev CtxNo := BitVec 6

/-- A node ID of the fabric (R388). -/
abbrev NodeId := BitVec 16

/-- A source number (R29). -/
abbrev SrcNo := BitVec 16

end Sys2Proof
end

