-- ==== Sys2Proof/Operand.lean ====
section
/-! DEFINITION. The operands of the commands. One that acts on a core names its partition and its logical core; one that
acts on an engine names its die and engine. What a rule says Abmito, a sensor, a peer or the host supplies is an operand. -/

namespace Sys2Proof

/-- The second operand of a C-slot instruction (R206): a register specifier, or a 35-bit immediate. -/
inductive Src2 where
  | reg (r : BitVec 6)
  | imm (v : BitVec 35)
deriving DecidableEq, Repr

/-- The count of a LOOP (R206, R211): a 31-bit immediate or a register specifier. -/
inductive LoopCount where
  | imm (v : BitVec 31)
  | reg (r : BitVec 6)
deriving DecidableEq, Repr

/-- The drain fields of R235. -/
structure DrainF where
  ofmt : BitVec 3
  sr : Bool
  mr : BitVec 2
  clr : Bool
  bias : Bool
  scale : Bool
  op : BitVec 2
  fn : BitVec 4
  tap : Bool
  crumb : Bool
  ca : BitVec 3
  dest : BitVec 2
  rd : BitVec 5
  rq : BitVec 5
deriving DecidableEq, Repr

/-- The WCET entry of a kernel (R305). -/
structure Wcet where
  tiles : Nat
  cPlan : Nat
  cTile : Nat
  tMem : Nat
  tMemTile : Nat
  nFab : Nat
  nFabTile : Nat
  nHost : Nat
  nHostTile : Nat
deriving DecidableEq, Repr

/-- A section of a Loaf (R189): its offset from the start of the Loaf and its length, in bytes. -/
structure LoafSect where
  off : Word
  len : Word
deriving DecidableEq, Repr

/-- A core's program in a Loaf (R189): its offset from the start of the Loaf in bytes, its length in bundles, its entry bundle. -/
structure ProgAt where
  off : Word
  len : BitVec 14
  entry : BitVec 13
deriving DecidableEq, Repr

/-- A kernel descriptor (R189). -/
structure KernelDesc where
  number : BitVec 16
  cores : BitVec 5
  budget : BitVec 17
  argc : BitVec 5
  progs : List ProgAt
deriving DecidableEq, Repr

/-- What Abmito reads of a Loaf's header and kernel descriptors (R189), whose byte layout the spec leaves open (log 13). -/
structure LoafHead where
  version : Word
  recipe : DWord
  kernels : Nat
  descs : LoafSect
  programs : LoafSect
  wcets : LoafSect
  constants : LoafSect
  signatures : LoafSect
  table : List KernelDesc
deriving DecidableEq, Repr

/-- A core's program of a kernel (R189): its entry bundle and its bundles. -/
structure CoreProg where
  entry : BitVec 13
  bundles : List Bundle
deriving DecidableEq, Repr

/-- A kernel descriptor (R189) with the kernel's WCET entry. -/
structure Kernel where
  number : BitVec 16
  cores : BitVec 5
  budget : BitVec 17
  argc : BitVec 5
  progs : List CoreProg
  wcet : Wcet
deriving DecidableEq, Repr

/-- A Loaf in service (R189, R419): its header, and its kernels as Abmito has read them. -/
structure LoafImage where
  head : LoafHead
  kernels : List Kernel
deriving DecidableEq, Repr

/-- What Abmito does in step 5 of R201. -/
inductive YieldAct where
  | none
  | switch (ctx : CtxNo)
  | repair
  | checkpoint
deriving DecidableEq, Repr

/-- Where an SRAM error is (R445). -/
inductive EccAt where
  | bench (pt : Pt) (c : LCore) (line : BitVec 16)
  | dss (die : DieNo) (line : BitVec 19)
  | proofBuffer (pt : Pt) (c : LCore) (slot : BitVec 3) (row col : BitVec 7)
  | bank (pt : Pt) (c : LCore) (a : ArrayNo) (b : BitVec 1)
  /-- Weight registers, AQ, DQ or drain path: parity. -/
  | pipeline (pt : Pt) (c : LCore)
  /-- s, p, m, an, v, Crumb accumulators, loop stack. -/
  | regs (pt : Pt) (c : LCore)
  /-- Commit store or program store; `both` says that both copies fail in one word. -/
  | store (pt : Pt) (c : LCore) (both : Bool)
  /-- A packet of the transit buffer of a port. -/
  | router (port : BitVec 6) (idx : Nat)
  /-- A payload in the buffers of the collective engine: the operation it belongs to. -/
  | coll (group idx : Word)
  | eventLog (seq : BitVec 14)
deriving DecidableEq, Repr

/-- An engine that can hang or be reset (R484, R487). -/
inductive EngUnit where
  | core (die : DieNo) (p : BitVec 5)
  | peel (die : DieNo) (e : EngNo)
  | collective
  | link (port : BitVec 6)
deriving DecidableEq, Repr

/-- An array that took part in a Tasting round (R454). -/
structure TasteAt where
  die : DieNo
  p : BitVec 5
  a : ArrayNo
deriving DecidableEq, Repr

/-- What a defect of an array makes of one test row (R454): a column whose sum is off, and flags that should not be there. -/
structure TasteErr where
  col : BitVec 7
  off : DWord
  flags : BitVec 5
deriving DecidableEq, Repr

/-- The arrays that have completed a Tasting round, which Abmito compares (R454): the two that it was given to, with a referee, with a
fourth. `spares` are, for each array that it convicts, the bypassed columns that it puts in the places of failed ones (R130). -/
inductive TasteCheck where
  | pair (x y : TasteAt)
  | referee (x y z : TasteAt) (spares : List (List Byte))
  | fourth (x y z w : TasteAt) (spares : List (List Byte))
deriving DecidableEq, Repr

/-- A record of a crash dump (R505): the unit, the pass, the status (0 OK, 1 HOLE, 2 TRUNCATED, 3 ECC error), the length of its data and
where in the unit they begin. -/
structure DumpRec where
  src : SrcNo
  pass1 : Bool
  status : BitVec 2
  len : BitVec 32
  off : DWord
deriving DecidableEq, Repr

/-- A journal record to append (R467). -/
inductive JrnlEvent where
  | undo (space : BitVec 1) (addr : BitVec 48)
  | inp (c : LCore) (kind : BitVec 3) (group : Word) (data : List Byte) (poison : Bool)
  | out (c : LCore) (kind : BitVec 3) (group : Word)
deriving DecidableEq, Repr

/-- The verdict on a suspect (R495, R496): what the replay and the tests showed. -/
inductive Verdict where
  | committed
  | hungAgain (testsConvict : Bool)
deriving DecidableEq, Repr

/-- A unit of RST and dump events named by its source number (R29). -/
inductive DumpScope where
  | module
  | hub
  | die (d : DieNo)
  | part (pt : Pt)
deriving DecidableEq, Repr


/-- The operations of XRED (R272), and XBAR, which is matched with them (R406). -/
inductive CollOp where
  | sumExact
  | sumTree
  | max
  | gather
  | scatter
  | xbar
deriving DecidableEq, Repr

/-- What one participant presents to a collective operation (R272, R407): the fields of its descriptor, its source bytes
or its running maximum, and whether its source is poisoned. -/
structure CollInput where
  op : CollOp
  n : Nat
  fmt : Nat
  anchor : Int
  lc : Nat
  first : Nat
  count : Nat
  mag : Word
  nf : Bool
  data : List Byte
  poison : Bool
deriving DecidableEq, Repr

/-- One value on its way through the collective engine (R408): of element `elem`; `lo` and `hi` name its tree node under .SUM tree,
`lo` the rank under .GATHER and .SCATTER. -/
structure CollVal where
  elem : Nat
  lo : Nat
  hi : Nat
  bytes : List Byte
deriving DecidableEq, Repr

/-- The values of a segment that a node contributes, or its owner sends back (R408), with the flags of R273 and poison. -/
structure CollShare where
  vals : List CollVal
  fl : BitVec 5
  poison : Bool
deriving DecidableEq, Repr

/-- Engine data between the nodes of a group (R407, R408): what a member presents, without its data; a contribution to a segment; an
owner's result, marked where R100 says so; a failed check. -/
inductive CollMsg where
  | member (x : CollInput)
  | share (seg : Nat) (x : CollShare)
  | result (seg : Nat) (x : CollShare) (marked : Bool)
  | mismatch
deriving DecidableEq, Repr

/-- A packet (R385, R386). `len` is the length in bytes of the payload, or that a READ asks for. -/
structure Packet where
  dst : NodeId
  src : NodeId
  kind : Byte
  flow : Byte
  len : Nat
  seq : Word
  tag : Word
  addr : DWord
  reason : Word
  poison : Bool
  hops : Nat
  payload : List Byte
deriving DecidableEq, Repr

/-- The payload of a HELLO (R390). -/
structure HelloInfo where
  uid : DWord
  node : NodeId
  port : BitVec 6
  lanes : BitVec 4
  fast : Bool
  wstate : BitVec 3
  inReset : Bool
  timeCapable : Bool
  locked : Bool
  master : Bool
  goingDown : Bool
  advMaster : NodeId
  advHops : Byte
deriving DecidableEq, Repr

/-- What comes of the fetch of a shard (R438, R439): its bytes, the word that it is in place, or a refusal. -/
inductive ShardFetch where
  | data (bytes : List Byte)
  | inPlace
  | refused
deriving DecidableEq, Repr

/-- What a completion for a read request of the module brings (R541): bytes with the EP bit, or a failure. -/
inductive HostCpl where
  | data (bytes : List Byte) (ep : Bool)
  | unsupported
  | abort
deriving DecidableEq, Repr

/-- A host configuration write (R549): Bus Master Enable, Memory Space Enable, MSI-X Enable, the D3hot state of a
function, VF Enable, and the sizes of the two BAR2s as log2 of GiB (R537). -/
inductive CfgWrite where
  | bme (b : Bool)
  | mse (b : Bool)
  | msixEnable (b : Bool)
  | d3hot (b : Bool)
  | vfEnable (b : Bool)
  | barSize (log : BitVec 4)
  | vfBarSize (log : BitVec 4)
  /-- Max_Payload_Size by its PCI Express code: 128, 256 or 512 bytes (R540). -/
  | maxPayload (code : BitVec 3)
  | relaxed (b : Bool)
deriving DecidableEq, Repr

/-- Where a register access comes from (R535, R593). -/
inductive AccessSrc where
  | pf
  | vf (n : BitVec 4)
  /-- Over I3C; `more` says that the word goes on in the burst of the access before it (R619). -/
  | i3c (more : Bool)
  /-- The configuration space of a function (R533): 0 is the PF, n + 1 is VFn. -/
  | config (fn : BitVec 5)
deriving DecidableEq, Repr

/-- The width of a register access (R14). An access over I3C is always one of words (R619). -/
inductive AccessWidth where
  | w8
  | w16
  | w32
  | w64
deriving DecidableEq, Repr

/-- A margin measurement of a sweep (R579 to R581): the unit, the measure code, its values, and whether it meets the
warning condition of R580. -/
structure Margin where
  src : SrcNo
  measure : Byte
  values : List Byte
  warn : Bool
deriving DecidableEq, Repr

/-- What sensors and units report for a telemetry bin (R599): for each hearth die the hottest sensor, the mean ACLK step,
the stretched cycles and the Tasting rounds; the lines moved by each group; the data flits of each port; the mean draw. -/
structure TelSample where
  hottest : List (BitVec 16)
  meanStep : List (BitVec 16)
  stretched : List Word
  rounds : List Word
  lines : List Word
  flits : List Word
  draw : BitVec 16
deriving DecidableEq, Repr

/-- ACLK steps of the hearth dies HD0 to HD3, each as (f − 550 MHz) / 55 MHz (R33). -/
structure AclkSteps where
  d0 : BitVec 4
  d1 : BitVec 4
  d2 : BitVec 4
  d3 : BitVec 4
deriving DecidableEq, Repr

/-- A register of a collective group entry or the node list (R416). -/
inductive CollField where
  | grpId
  | size
  | place
deriving DecidableEq, Repr
end Sys2Proof
end

