-- ==== Sys2Proof/Syntax.lean ====
section
/-! DEFINITION. The commands of the module: one constructor of `Instr` for each row of spec/opcode_table.json, with the
operands that its rules give it (Operand.lean says how they are named). -/

namespace Sys2Proof

/-- The commands of spec/opcode_table.json, one constructor for each row. -/
inductive Instr where
  -- bundles and the C slot (06)
  /-- BUNDLE_ISSUE (R181) of one core. -/
  | bundleIssue (pt : Pt) (c : LCore)
  /-- NOP (R206). -/
  | nop (pt : Pt) (c : LCore)
  /-- LI (R209): `h` selects the high-half form. -/
  | li (pt : Pt) (c : LCore) (rd : BitVec 6) (h : Bool) (imm : BitVec 41)
  | add (pt : Pt) (c : LCore) (rd ra : BitVec 6) (b : Src2)
  | sub (pt : Pt) (c : LCore) (rd ra : BitVec 6) (b : Src2)
  | and (pt : Pt) (c : LCore) (rd ra : BitVec 6) (b : Src2)
  | or (pt : Pt) (c : LCore) (rd ra : BitVec 6) (b : Src2)
  | xor (pt : Pt) (c : LCore) (rd ra : BitVec 6) (b : Src2)
  | shl (pt : Pt) (c : LCore) (rd ra : BitVec 6) (b : Src2)
  | shr (pt : Pt) (c : LCore) (rd ra : BitVec 6) (b : Src2)
  | shrA (pt : Pt) (c : LCore) (rd ra : BitVec 6) (b : Src2)
  | mul (pt : Pt) (c : LCore) (rd ra : BitVec 6) (b : Src2)
  /-- CMP (R208). -/
  | cmp (pt : Pt) (c : LCore) (pd cond : BitVec 3) (ra : BitVec 6) (b : Src2)
  /-- BRP (R194, R210): predicate, invert bit, signed offset in bundles. -/
  | brp (pt : Pt) (c : LCore) (p : BitVec 3) (inv : Bool) (off : BitVec 20)
  /-- LOOP (R195, R211). -/
  | loop (pt : Pt) (c : LCore) (len : BitVec 16) (count : LoopCount)
  /-- TILE (R201, R203): the budget field. -/
  | tile (pt : Pt) (c : LCore) (budget : BitVec 17)
  | halt (pt : Pt) (c : LCore)
  | trap (pt : Pt) (c : LCore) (code : Byte)
  /-- ANC (R214): array, two running maxima, signed delta. -/
  | anc (pt : Pt) (c : LCore) (a mx my : BitVec 2) (delta : BitVec 4)
  | steprR (pt : Pt) (c : LCore) (r : BitVec 6)
  | steprW (pt : Pt) (c : LCore) (r : BitVec 6)
  | steprInc (pt : Pt) (c : LCore)
  | seedrR (pt : Pt) (c : LCore) (r : BitVec 6)
  | seedrW (pt : Pt) (c : LCore) (r : BitVec 6)
  /-- GTBR (R216). -/
  | gtbr (pt : Pt) (c : LCore) (rd : BitVec 6)
  | hbeat (pt : Pt) (c : LCore) (progress : BitVec 16)
  -- the M slot and the paths it drives (04, 05, 07)
  | wld (pt : Pt) (c : LCore) (a : ArrayNo) (fmt : BitVec 4) (tgt mode : BitVec 2) (rw rx : BitVec 5)
  /-- WLD_LOADED (R229) of one array. -/
  | wldLoaded (pt : Pt) (c : LCore) (a : ArrayNo)
  | wswap (pt : Pt) (c : LCore) (mask : BitVec 4)
  /-- MMA (R231): modifier, array mask, bank of each array, M − 1. -/
  | mma (pt : Pt) (c : LCore) (mod : BitVec 2) (mask banks : BitVec 4) (m1 : Byte)
  | aqRowPop (pt : Pt) (c : LCore)
  /-- ARRAY_ROW_LAND (R123) of one array; `mismatch` says that a residue check of the row failed (R134). -/
  | arrayRowLand (pt : Pt) (c : LCore) (a : ArrayNo) (mismatch : Bool)
  | drain (pt : Pt) (c : LCore) (a : ArrayNo) (bank : BitVec 1) (f : DrainF)
  | drainRowRead (pt : Pt) (c : LCore) (a : ArrayNo)
  | drainRowWrite (pt : Pt) (c : LCore) (a : ArrayNo)
  | pbdrain (pt : Pt) (c : LCore) (a : ArrayNo) (slot : BitVec 3) (f : DrainF)
  /-- FOLD (R162): array, bank, first slot, second slot where named, the register with the tags. -/
  | fold (pt : Pt) (c : LCore) (a : ArrayNo) (bank : BitVec 1) (sa : BitVec 3) (sb : Option (BitVec 3))
      (rt : BitVec 5)
  | foldRowAdd (pt : Pt) (c : LCore) (a : ArrayNo)
  | zoa (pt : Pt) (c : LCore) (mask : Byte)
  | pbzero (pt : Pt) (c : LCore) (slot : BitVec 3) (rt : BitVec 5)
  | pbspillW (pt : Pt) (c : LCore) (slot eng : BitVec 3) (ri : BitVec 5)
  | pbspillA (pt : Pt) (c : LCore) (slot eng : BitVec 3) (ri : BitVec 5)
  | pbload (pt : Pt) (c : LCore) (slot eng : BitVec 3) (ri rt : BitVec 5)
  /-- PB_IMAGE_HEADER_ARRIVE (R169) at the descriptor `idx` of an engine's queue. -/
  | pbImageHeaderArrive (die : DieNo) (eng : EngNo) (idx : BitVec 5)
  /-- PB_SLOT_ROW_TRANSFER (R171): the next slot row of the descriptor `idx`. -/
  | pbSlotRowTransfer (die : DieNo) (eng : EngNo) (idx : BitVec 5)
  | idle (pt : Pt) (c : LCore) (mask : BitVec 4) (n : BitVec 20)
  /-- TASTING_ROW_INJECT (R453) into one array of a core. -/
  | tastingRowInject (x : TasteAt) (round : Word) (seed : DWord) (err : Option TasteErr)
  -- the V slot (07)
  | vld (pt : Pt) (c : LCore) (vd : BitVec 6) (rs : BitVec 5) (part : BitVec 2)
  | vst (pt : Pt) (c : LCore) (va : BitVec 6) (rs : BitVec 5) (part : BitVec 2)
  | vadd (pt : Pt) (c : LCore) (vd va vb : BitVec 6) (ty : BitVec 2)
  | vsub (pt : Pt) (c : LCore) (vd va vb : BitVec 6) (ty : BitVec 2)
  | vmul (pt : Pt) (c : LCore) (vd va vb : BitVec 6) (ty : BitVec 2)
  | vfma (pt : Pt) (c : LCore) (vd va vb vc : BitVec 6) (ty : BitVec 2)
  | vmax (pt : Pt) (c : LCore) (vd va vb : BitVec 6) (ty : BitVec 2)
  | vmin (pt : Pt) (c : LCore) (vd va vb : BitVec 6) (ty : BitVec 2)
  | vcmp (pt : Pt) (c : LCore) (vd va vb : BitVec 6) (ty : BitVec 2) (cond : BitVec 3)
  | vsel (pt : Pt) (c : LCore) (vd va vb vc : BitVec 6)
  | vand (pt : Pt) (c : LCore) (vd va vb : BitVec 6) (ty : BitVec 2)
  | vor (pt : Pt) (c : LCore) (vd va vb : BitVec 6) (ty : BitVec 2)
  | vxor (pt : Pt) (c : LCore) (vd va vb : BitVec 6) (ty : BitVec 2)
  | vshl (pt : Pt) (c : LCore) (vd va vb : BitVec 6) (ty : BitVec 2)
  | vshr (pt : Pt) (c : LCore) (vd va vb : BitVec 6) (ty : BitVec 2)
  | vshrA (pt : Pt) (c : LCore) (vd va vb : BitVec 6) (ty : BitVec 2)
  | vperm (pt : Pt) (c : LCore) (vd va vb : BitVec 6)
  | vcvt (pt : Pt) (c : LCore) (vd va : BitVec 6) (src tgt : BitVec 4) (sr : Bool) (mr : BitVec 2) (clr : Bool)
      (ri rsm : BitVec 5)
  | vfn (pt : Pt) (c : LCore) (vd va : BitVec 6) (fn : BitVec 4) (d : Bool)
  | vaxsumF32 (pt : Pt) (c : LCore) (vd va vb : BitVec 6) (clr : Bool) (ra : BitVec 5) (n1 : BitVec 9)
  | vaxsumF64 (pt : Pt) (c : LCore) (vd va vb : BitVec 6) (clr : Bool) (ra : BitVec 5) (n1 : BitVec 9)
  | vaxsumW80 (pt : Pt) (c : LCore) (vd va vb : BitVec 6) (clr : Bool) (ra : BitVec 5) (n1 : BitVec 9)
  | vaxsumW128 (pt : Pt) (c : LCore) (vd va vb : BitVec 6) (clr : Bool) (ra : BitVec 5) (n1 : BitVec 9)
  | vaxsumTap (pt : Pt) (c : LCore) (vd va vb : BitVec 6) (clr : Bool) (ra : BitVec 5) (n1 : BitVec 9)
  | vaxsumOut32 (pt : Pt) (c : LCore) (vd va vb : BitVec 6) (clr : Bool) (ra : BitVec 5) (n1 : BitVec 9)
  | vaxsumOut64 (pt : Pt) (c : LCore) (vd va vb : BitVec 6) (clr : Bool) (ra : BitVec 5) (n1 : BitVec 9)
  | vleav (pt : Pt) (c : LCore) (vd : BitVec 6) (ri rsm : BitVec 5) (u : Bool)
  | vcrumb (pt : Pt) (c : LCore) (va : BitVec 6) (ca : BitVec 3) (width : BitVec 2) (count : BitVec 10)
      (ri rk : BitVec 5)
  | vopt (pt : Pt) (c : LCore) (vd va vb vc : BitVec 6) (s : Bool)
  -- the D slot and the engines (07)
  | act (pt : Pt) (c : LCore) (rs : BitVec 5) (rows1 : Byte) (fmt : BitVec 4) (rp rx : BitVec 5)
  | actRowDeliver (pt : Pt) (c : LCore)
  | peel (pt : Pt) (c : LCore) (eng : EngNo) (rq : BitVec 5)
  | peelDescriptorStart (die : DieNo) (eng : EngNo)
  /-- PEEL_LINE_ARRIVE (R147): the data of one PENDING line of a core lands. -/
  | peelLineArrive (pt : Pt) (c : LCore) (line : BitVec 16)
  /-- ENGINE_SOURCE_LINE_READ (R223): one held source line of a core is read. -/
  | engineSourceLineRead (pt : Pt) (c : LCore) (line : BitVec 16)
  | peelTransferComplete (die : DieNo) (eng : EngNo) (idx : BitVec 5)
  | bcopy (pt : Pt) (c : LCore) (rs rt : BitVec 5) (n1 : BitVec 12)
  | dssld (pt : Pt) (c : LCore) (rs rt : BitVec 5) (n1 : BitVec 12)
  | dssst (pt : Pt) (c : LCore) (rs rt : BitVec 5) (n1 : BitVec 12)
  -- the X slot and collectives (07)
  | xsend (pt : Pt) (c : LCore) (rs rt : BitVec 5)
  /-- MESSAGE_ACCEPT (R284): the receiver takes message `idx` of a core's send XQ. -/
  | messageAccept (pt : Pt) (c : LCore) (idx : BitVec 4)
  | xrecv (pt : Pt) (c : LCore) (rs rt : BitVec 5)
  | xredSumExact (pt : Pt) (c : LCore) (rq : BitVec 5)
  | xredSumTree (pt : Pt) (c : LCore) (rq : BitVec 5)
  | xredMax (pt : Pt) (c : LCore) (rq : BitVec 5) (mx : BitVec 2)
  | xredGather (pt : Pt) (c : LCore) (rq : BitVec 5)
  | xredScatter (pt : Pt) (c : LCore) (rq : BitVec 5)
  /-- COLLECTIVE_RESULT_WRITE (R273) of a collective group. -/
  | collectiveResultWrite (group : Word)
  | xbar (pt : Pt) (c : LCore) (rg : BitVec 5)
  /-- XBAR_RELEASE (R276): group 0 is the cores of the partition. -/
  | xbarRelease (pt : Pt) (group : Word)
  | xtime (pt : Pt) (c : LCore) (rt : BitVec 5)
  | xtimeRelease (pt : Pt) (c : LCore)
  | xfence (pt : Pt) (c : LCore) (p x : Bool)
  -- freeze and tiles (08, 06)
  /-- PRODUCER_NOTICE (R286): the cause of a core that will end, at least 4 cycles ahead. -/
  | producerNotice (pt : Pt) (c : LCore) (cause : BitVec 4)
  /-- FREEZE_BEGIN (R287): the assessment of a core's next bundle and pop. -/
  | freezeBegin (pt : Pt) (c : LCore)
  | freezeEnd (pt : Pt)
  | actRowFreezeDeliver (pt : Pt) (c : LCore)
  | tileSettleMeet (pt : Pt) (c : LCore)
  | tileCommit (pt : Pt)
  | tileYield (pt : Pt) (a : YieldAct)
  | tileBudgetExpire (pt : Pt)
  -- kernels, completion, contexts (13)
  | admissionTick
  | kernelStart (pt : Pt)
  | kernelComplete (pt : Pt)
  | completionWrite
  /-- EXPRESS_COMPARE (R434) of the entry `idx`. -/
  | expressCompare (idx : BitVec 12)
  /-- EXPRESS_REPAIR (R435): the context and the healthy partition that takes the lost copy. -/
  | expressRepair (ctx : CtxNo) (pt : Pt)
  | contextSwitch (pt : Pt) (ctx : CtxNo)
  | backgroundYield (pt : Pt)
  -- faults, Crust, Tasting, spares (14)
  /-- TILE_ABANDON (R459): the source number of the unit that caused it. -/
  | tileAbandon (pt : Pt) (src : SrcNo)
  | sramEccError (at' : EccAt) (uncorrectable : Bool)
  | sramScrub
  /-- CRUST_COMMIT (R448): the entries that Abmito stages and the CRC it writes. -/
  | crustCommit (entries : List (Word × Word)) (crc : Word)
  | crustScrub
  | tastingRoundComplete (r : TasteCheck)
  /-- TASTING_PERIOD_END (R456). -/
  | tastingPeriodEnd
  | partitionQuarantine (pt : Pt)
  /-- QUARANTINE_TESTS_DONE (R455): every kernel passed, or a core of the partition is convicted. -/
  | quarantineTestsDone (pt : Pt) (convicted : Option LCore)
  /-- CORE_FAIL (R464): a physical core. -/
  | coreFail (die : DieNo) (p : BitVec 5)
  /-- REWIND (R470): the outcomes of the acceptance tests of the spares, in turn. -/
  | rewind (pt : Pt) (tests : List Bool)
  | replayEnd (pt : Pt) (c : LCore)
  | checkpoint (pt : Pt)
  /-- JOURNAL_APPEND (R467): `full` says that the record does not fit. -/
  | journalAppend (pt : Pt) (r : JrnlEvent) (full : Bool)
  -- hangs, reset ladder, dumps (15)
  | coreHangDetect (pt : Pt) (c : LCore)
  | engineHangDetect (e : EngUnit)
  | contextAbort (ctx : CtxNo)
  | engineReset (e : EngUnit)
  | partitionReset (pt : Pt)
  | moduleReset
  | powerCycle
  /-- LADDER_STEP_COMPLETE (R487) of the running step `idx`. -/
  | ladderStepComplete (idx : BitVec 8)
  | ladderStepTimeout (idx : BitVec 8)
  | hangVerdict (v : Verdict)
  | rstReqPartition (pt : Pt)
  | rstReqModule
  | rstReqPowerCycle
  | ovenTimerRestart
  | ovenTimerExpire
  /-- DUMP_START (R501) before a step: the partition for a partition reset, `cycle` for a power cycle. -/
  | dumpStart (pt : Option Pt) (cycle : Bool)
  | dumpGo
  | dumpUnitTimeout (src : SrcNo)
  /-- DUMP_END (R503): records and bytes written, and whether the limit or the space cut it. -/
  | dumpEnd (recs : List DumpRec)
  | dumpPortDataRead
  -- contexts, Loafs, the Batch Sheet, generations: register rows (13, 04, 20)
  /-- CTX_CFG_WRITE (R418) of the selected context. -/
  | ctxCfgWrite (v : Word)
  | loafLoad
  /-- LOAF_VERIFY_DONE (R419) of a slot: what Abmito read. -/
  | loafVerifyDone (slot : BitVec 4) (head : LoafHead)
  | loafUnload
  | bsAbort (entry : BitVec 12)
  | bsCfgWrite (v : Word)
  | genLoad
  | genShardArrive (slot : BitVec 4) (shard : BitVec 16) (f : ShardFetch)
  | genTimeoutExpire (slot : BitVec 4)
  | genActivate
  | genClose
  | genCancel
  /-- PT_CFG_WRITE (R157): `vf` says that a virtual function writes (R535). -/
  | ptCfgWrite (pt : Pt) (vf : Bool) (v : Word)
  | ptRstHoldWrite (pt : Pt) (vf hold : Bool)
  -- input, rails, clocks, die links (01, 21)
  /-- POWER_ON (R612): the level of SLOT_ID[3:0]. -/
  | powerOn (slotId : BitVec 4)
  | inputUndervoltage
  | overvoltageCutoff
  | overvoltageRecover
  | starterRomBoot
  | pwrEnRise (cool : Bool)
  | pwrEnFall
  | mainRailsInRegulation
  | mainRailOutOfRegulation
  /-- THERMAL_TRIP (R616): the die index of the first sensor to trip. -/
  | thermalTrip (die : BitVec 5)
  | thermTripNRelease
  | laserBayOpen (bay : BitVec 2)
  /-- LASER_SOURCE_INSERT (R609): the spare lasers the source brings. -/
  | laserSourceInsert (bay spares : BitVec 2)
  | laserFail (bay : BitVec 2) (laser : BitVec 4)
  | supplyDroop (die : DieNo)
  | droopClear (die : DieNo)
  | thermalStepDown (die : DieNo)
  /-- VIN_BELOW_MIN (R509): the measured input, its current, and the steps that hold 72 A. -/
  | vinBelowMin (mv current : BitVec 16) (steps : AclkSteps)
  /-- DIE_LINK_RETRY (R27) and the next two: the source number of the link's port. -/
  | dieLinkRetry (src : SrcNo)
  | dieLinkLaneRepair (src : SrcNo)
  | dieLinkRetrainTimeout (src : SrcNo)
  | timeSyncTimeout
  -- power shaping and wake (16)
  /-- POWER_BIN_END (R510): the bin's draw and ballast, and the ACLK steps chosen under R511. -/
  | powerBinEnd (draw ballast : BitVec 14) (steps : AclkSteps)
  | pwrBandApply
  | pwrBandForce
  /-- FORECAST_PUBLISH (R519): the 200 bins without KNOWN (R520). -/
  | forecastPublish (bins : List Word)
  | wStateEnter
  | pwrCtrlWake
  | pwrWakeTolWrite (v : Word)
  | wakeEvent
  | wStateExitDone
  -- the host port (17)
  | perstNAssert
  | perstNDeassert
  | pcieTrainRetry (lanes : BitVec 5)
  | pcieLinkUp (gen : BitVec 3) (width : BitVec 5) (flit : Bool)
  | pcieLinkDown
  | pcieReplay
  | pcieConfigWrite (fn : BitVec 5) (c : CfgWrite)
  | l0pRequest (reduced : Bool)
  | vfFlr (vf : BitVec 4)
  | pfFlr
  /-- BAR2_READ (R350): function (0 PF, n + 1 VFn), offset, length. -/
  | bar2Read (fn : BitVec 5) (off : DWord) (len : BitVec 13)
  | bar2Write (fn : BitVec 5) (off : DWord) (bytes : List Byte) (poisoned : Bool)
  | hostCompletionReceive (tag : Word) (r : HostCpl)
  | pcieCplTimeout (tag : Word)
  | msixDeliverable (fn : BitVec 5) (v : BitVec 11)
  | spdmRequest (code : Byte) (body : List Byte)
  | spdmVendorReport (nonce : List Byte)
  | doeAbort
  -- security (18)
  | fwUpdate
  | recoveryChunk
  | recoveryDone
  | pubSet (slot : BitVec 3)
  | pubClear (slot : BitVec 3)
  | dbgNonce
  | dbgUnlock
  | svnCommit
  | pubLock
  | fwActivate
  | dbgRelock
  -- the fabric (12)
  | helloSend
  | hello (port : BitVec 6) (h : HelloInfo)
  | helloTimeout (port : BitVec 6)
  | portSignalDetect (port : BitVec 6)
  /-- PORT_TRAIN_COMPLETE (R377): lanes that hold lock both ways, and whether the peer takes 212.5 Gb/s. -/
  | portTrainComplete (port : BitVec 6) (lanes : BitVec 4) (fast : Bool)
  | portTrainTimeout (port : BitVec 6)
  | trainBackoffEnd (port : BitVec 6)
  | flitReceive (port : BitVec 6) (flit : MemLine)
  | laneRetire (port : BitVec 6) (lane : BitVec 3)
  | linkLoss (port : BitVec 6)
  /-- PACKET_FORWARD (R395, R396): the port it came on; 40 and above for a packet of the module itself. -/
  | packetForward (port : BitVec 6) (p : Packet)
  | read (p : Packet)
  | write (p : Packet)
  | atomicAdd (p : Packet)
  | readData (p : Packet)
  | ack (p : Packet)
  | message (p : Packet)
  | notReady (p : Packet)
  | xqFree (p : Packet)
  | refuse (p : Packet)
  | requestResend (dst : NodeId) (seq : Word)
  | requestTimeout (dst : NodeId) (seq : Word)
  /-- COLLECTIVE (R408): the inputs of the members of a node for the k-th operation of a group. -/
  | collective (group k : Word) (node : NodeId) (m : CollMsg)
  /-- MANAGE (R392): the packet and the port it came on. -/
  | manage (port : BitVec 6) (p : Packet)
  | syncSend
  /-- SYNC (R411): the port and the parent's stamp in 0.125 ns. -/
  | sync (port : BitVec 6) (ts : BitVec 67)
  | syncTimeout
  | delayReqSend
  | delayReq (port : BitVec 6) (t1 : BitVec 67)
  | delayRsp (port : BitVec 6) (t2 t3 : BitVec 67)
  /-- FAB_OP_GO (R404): the value written to FAB_OP_CTRL. -/
  | fabOpGo (v : Word)
  | fabRtDataWrite (v : Word)
  | fabNodeIdWrite (v : Word)
  | collGroupEntryWrite (f : CollField) (v : Word)
  -- memory (11)
  /-- MEM_LINE_READ (R351): a local line, the positions flagged on this read, the unflagged symbol errors of its worst
  codeword. -/
  | memLineRead (line : DWord) (flagged : BitVec 10) (unflagged : BitVec 2)
  | memLineWrite (line : DWord) (data : MemLine) (mask : BitVec 256) (poisoned : Bool)
  /-- MEM_POSITION_FAIL (R352, R353): a position of a group, and whether its whole package has failed. -/
  | memPositionFail (group : BitVec 6) (pos : BitVec 4) (package : Bool)
  | memChanFail (group : BitVec 6) (pos : BitVec 4)
  | patrolScrubLine (line : DWord) (flagged : BitVec 10) (unflagged : BitVec 2)
  | refresh (channel : BitVec 9)
  | hotRefresh (device : BitVec 9)
  | hotRefreshEnd
  | memReformStart
  | memReformDone
  -- debug, logs, telemetry, registers (20, 19, 21)
  | dbgHaltGo (pt : Pt)
  | dbgResumeGo (pt : Pt)
  /-- DBG_ACC_WINDOW_READ (R159): the offset in the window; `bad` says that the entry's check fails. -/
  | dbgAccWindowRead (off : BitVec 19) (bad : Bool)
  | crumbLogEmpty
  /-- EVENT_DELIVER (R586) of the record `idx` that its source holds. -/
  | eventDeliver (idx : BitVec 16)
  | eventCommit
  | eventAggWindowEnd
  | evtPortSeqWrite (i3c : Bool) (v : Word)
  | ledgerRecordWrite (die : BitVec 5) (type : Byte) (src : SrcNo) (payload : List Byte)
  | ledgerHourly
  | marginSweep (ms : List Margin)
  | telemetryBinEnd (t : TelSample)
  | regPairLoRead (src : AccessSrc) (width : AccessWidth) (off : BitVec 25)
  | regPairHiRead (src : AccessSrc) (width : AccessWidth) (off : BitVec 25)
  /-- COUNTER_LO_WRITE_CLEAR (R301): a partition and the offset of the counter's LO register in its block. -/
  | counterLoWriteClear (pt : Pt) (off : BitVec 16)
  | i3cDynamicAddress (a : BitVec 7)
  | registerWrite (src : AccessSrc) (width : AccessWidth) (off : BitVec 25) (v : Word) (poisoned : Bool)
deriving DecidableEq, Repr

end Sys2Proof
end

