-- ==== Sys2Proof/Decode.lean ====
section
/-! DEFINITION. Commands have no encoding: no row of the opcode table gives bits, so no word spells a command. -/

namespace Sys2Proof

/-- The command that a word spells by the bits of the opcode table, which gives none. -/
def decodeTableWord (_nbits _w : Nat) : Option Instr := none

end Sys2Proof
end

