-- ==== Sys2Proof/Config.lean ====
section
/-! DEFINITION. What an implementation fixes or the spec leaves open: constants with no body, so that no proof can see
their value. Each is applied to all it may depend on. The named constants of the spec itself stand with their chapters. -/

namespace Sys2Proof.Config

/-- The free value number `i`, `w` bits wide: a value the spec leaves undefined (log 6). -/
opaque freeBits (w : Nat) (i : Nat) : BitVec w

/-- The byte at address `a` of an area whose contents the spec leaves open, written as area number `seed`
(log 9: saved contexts, checkpoints, dumps, discarded loads). -/
opaque freeByte (seed a : Nat) : Byte

/-- SHA-512, taken by reference (R552, R554): an uninterpreted function of the bytes (log 10). -/
opaque sha512 (msg : List Byte) : BitVec 512

/-- Pure Ed25519 verification as RFC 8032 defines it (R554), uninterpreted (log 10). -/
opaque ed25519Verify (key msg sig : List Byte) : Bool

/-- ML-DSA-65 verification with an empty context as FIPS 204 defines it (R554), uninterpreted (log 10). -/
opaque mldsa65Verify (key msg sig : List Byte) : Bool

/-- HKDF-SHA-512 of the unique device secret with an empty salt and the info string (R563), uninterpreted (log 10). -/
opaque hkdfSeed (uds : BitVec 256) (info : List Byte) : BitVec 512

/-- The signature block that the two alias keys of a seed make over a message (R567), uninterpreted (log 10). -/
opaque aliasSign (seed : BitVec 512) (msg : List Byte) : List Byte

/-- The SEC-DED check bits of an accumulator entry (R89), whose code the spec does not give (log 11). -/
opaque secDed (entry : BitVec 85) : BitVec 8

/-- The 93 bits that an accumulator or Proof Buffer entry of a core holds in storage when its check fails, by its place and by what
was written (R159, log 6). -/
opaque storedWord (src place : Nat) (written : BitVec 96) : BitVec 93

/-- The word of a core map, repair map or laser assignment that Abmito builds from the OTP fuses alone (R584): the rule does not say
how (log 23). -/
opaque otpMap (off : Nat) (fuses : List Bool) : BitVec 32

/-- The alias certificate of an algorithm that the security engine issues (R564), for the alias keys of a seed, signed by the identity key
of another: X.509, uninterpreted (log 10). The algorithm is 0 for Ed25519, 1 for ML-DSA-65. -/
opaque aliasCert (algorithm : Nat) (identitySeed aliasSeed : BitVec 512) : List Byte

/-- The register that the CRC-64 of a flit begins with (R379): the spec names the polynomial alone (log 11). -/
opaque flitCrcInit : BitVec 64

/-- What the CRC-64 of a flit is joined with at its end (R379, log 11). -/
opaque flitCrcOut : BitVec 64

/-- The CRC-64 of a flit takes each byte lowest bit first, in the reflected form of its polynomial (R379, log 11). -/
opaque flitCrcReflected : Bool

/-- The packet-data bytes of a flit behind the last packet that waits (R387, log 29). -/
opaque flitFill (i : Nat) : Byte

/-- The bytes of engine data (R386): the spec gives no layout (log 16). -/
opaque engineData (m : CollMsg) : List Byte

/-- The number by which an event of a code shows its cause, where the spec gives none (R463, R384, R589, log 38): by the cause's
place in the rule's list or its source, and by its stamp. -/
opaque causeCode (event cause stamp : Nat) : BitVec 32

/-- The flow label fixed by a Peel engine (R395). -/
opaque engineFlow (die eng : Nat) : Byte

/-- The flow label fixed by a core for its messages (R395). -/
opaque coreFlow (die core : Nat) : Byte

/-- The flow label of a group's collective traffic, in 0xC0 to 0xFF (R395). -/
opaque collectiveFlow (group : BitVec 32) : BitVec 6

end Sys2Proof.Config
end

