-- ==== Sys2Proof/Machine/Numbers.lean ====
section
/-! DEFINITION. Element formats and conversion (02_number_formats.md): values as exact dyadic numbers, the encodings
of R55, rounding of R71 to R73, overflow of R75, the running maximum of R79 to R81. -/

namespace Sys2Proof.Machine

/-- An exact value: NaN, an infinity, or (−1)^neg × m × 2^e. -/
inductive Num where
  | nan
  | inf (neg : Bool)
  | fin (neg : Bool) (m : Nat) (e : Int)
deriving DecidableEq, Repr

/-- What the top of the exponent range of a format means (R55). -/
inductive TopKind where
  /-- e all ones: infinity for f = 0, NaN otherwise. -/
  | ieee
  /-- E4M3: only the all-ones mantissa is NaN, no infinity. -/
  | oneNan
  /-- MX elements: no infinity and no NaN. -/
  | none
deriving DecidableEq, Repr

/-- A format of R55: widths of the exponent and mantissa fields, bias, and the meaning of the top encodings. -/
structure Fmt where
  ebits : Nat
  mbits : Nat
  bias : Nat
  top : TopKind
deriving DecidableEq, Repr

/-- The rows of the table of R55. -/
def fp64 : Fmt := ⟨11, 52, 1023, .ieee⟩
/-- FP32 of R55. -/
def fp32 : Fmt := ⟨8, 23, 127, .ieee⟩
/-- BF16 of R55. -/
def bf16 : Fmt := ⟨8, 7, 127, .ieee⟩
/-- FP16 of R55. -/
def fp16 : Fmt := ⟨5, 10, 15, .ieee⟩
/-- E5M2 of R55. -/
def e5m2 : Fmt := ⟨5, 2, 15, .ieee⟩
/-- E4M3 of R55. -/
def e4m3 : Fmt := ⟨4, 3, 7, .oneNan⟩
/-- E3M2 of R55 (MXFP6). -/
def e3m2 : Fmt := ⟨3, 2, 3, .none⟩
/-- E2M3 of R55 (MXFP6). -/
def e2m3 : Fmt := ⟨2, 3, 1, .none⟩
/-- E2M1 of R55 (MXFP4). -/
def e2m1 : Fmt := ⟨2, 1, 1, .none⟩

/-- The width of a format in bits. -/
def Fmt.width (f : Fmt) : Nat := 1 + f.ebits + f.mbits

/-- The encoding of an infinity's magnitude, for a format that has one: e all ones, f = 0 (R55). -/
def Fmt.infCode (f : Fmt) : Nat := (2 ^ f.ebits - 1) * 2 ^ f.mbits

/-- The encoding of the largest finite magnitude (R55). -/
def Fmt.maxCode (f : Fmt) : Nat :=
  match f.top with
  | .ieee => f.infCode - 1
  | .oneNan => 2 ^ (f.ebits + f.mbits) - 2
  | .none => 2 ^ (f.ebits + f.mbits) - 1

/-- The canonical NaN (R55, R57); a format without NaN has none, and R75 and R77 never ask for it. -/
def Fmt.nanCode (f : Fmt) : Nat :=
  match f.top with
  | .ieee => f.infCode + 2 ^ (f.mbits - 1)
  | .oneNan => 2 ^ (f.ebits + f.mbits) - 1
  | .none => 0

/-- The encoding with the sign in the top bit. -/
def Fmt.signed (f : Fmt) (neg : Bool) (code : Nat) : Nat :=
  (if neg then 2 ^ (f.ebits + f.mbits) else 0) + code

/-- The value of an encoding (R55, R56, R57). -/
def Fmt.decode (f : Fmt) (bits : Nat) : Num :=
  let neg := bits.testBit (f.ebits + f.mbits)
  let e := (bits >>> f.mbits) % 2 ^ f.ebits
  let m := bits % 2 ^ f.mbits
  let code := e * 2 ^ f.mbits + m
  let finite : Num :=
    if e = 0 then .fin neg m (1 - (f.bias : Int) - f.mbits)
    else .fin neg (2 ^ f.mbits + m) ((e : Int) - f.bias - f.mbits)
  match f.top with
  | .ieee => if code < f.infCode then finite else if m = 0 then .inf neg else .nan
  | .oneNan => if code = f.nanCode then .nan else finite
  | .none => finite

/-- The value of an E8M0 scale byte: 2^(e − 127), or NaN for 0xFF (R55, R61). -/
def e8m0 (b : Byte) : Num := if b = 0xFF then .nan else .fin false 1 ((b.toNat : Int) - 127)

/-- How a rounding point rounds: to nearest even, or stochastically with 24 random bits (R71, R72). -/
inductive Rnd where
  | rne
  | sr (r : Nat)
deriving DecidableEq, Repr

/-- m × 2^e as a whole number of steps 2^u, rounded: the exact quotient's floor, and one more where the rounding goes up.
Ties go to even under RNE; under SR the 24-bit truncated fraction is compared with the random bits (R72). -/
def roundSteps (rd : Rnd) (m : Nat) (e u : Int) : Nat :=
  if u ≤ e then m * 2 ^ (e - u).toNat
  else
    let d := (u - e).toNat
    let q := m / 2 ^ d
    let rem := m % 2 ^ d
    match rd with
    | .rne => if 2 * rem > 2 ^ d ∨ (2 * rem = 2 ^ d ∧ q % 2 = 1) then q + 1 else q
    | .sr r => if r < rem * 2 ^ 24 / 2 ^ d then q + 1 else q

/-- floor(log2(m × 2^e)) for a non-zero m. -/
def floorLog2 (m : Nat) (e : Int) : Int := (Nat.log2 m : Int) + e

/-- The magnitude code of m × 2^e in a format, before any limit: rounding past a power of two carries into the
exponent field by itself. -/
def Fmt.magCode (f : Fmt) (rd : Rnd) (m : Nat) (e : Int) : Nat :=
  if m = 0 then 0
  else
    let emin : Int := 1 - (f.bias : Int)
    let k := max (floorLog2 m e) emin
    (k - emin).toNat * 2 ^ f.mbits + roundSteps rd m e (k - f.mbits)

/-- Conversion of a value to a format: one rounding, then the limits of R75; the sign of zero is kept (R58). For a
format without infinities or NaN the non-finite sources are the business of R77, and give zero bits here. -/
def Fmt.encode (f : Fmt) (rd : Rnd) : Num → Nat
  | .nan => f.nanCode
  | .inf neg =>
    match f.top with
    | .ieee => f.signed neg f.infCode
    | .oneNan => f.nanCode
    | .none => 0
  | .fin neg m e =>
    let code := f.magCode rd m e
    match f.top with
    | .ieee => f.signed neg (min code f.infCode)
    | .oneNan => f.signed neg (min code f.maxCode)
    | .none => f.signed neg (min code f.maxCode)

/-- Conversion to INT32: RNE and saturation; NaN gives 0 (R75). -/
def toInt32 : Num → Word
  | .nan => 0
  | .inf neg => if neg then 0x8000_0000 else 0x7FFF_FFFF
  | .fin neg m e =>
    let q := roundSteps .rne m e 0
    if neg then (if q ≥ 2 ^ 31 then 0x8000_0000 else BitVec.ofInt 32 (-(q : Int)))
    else if q ≥ 2 ^ 31 then 0x7FFF_FFFF else BitVec.ofNat 32 q

/-- The value of an INT32. -/
def ofInt32 (w : Word) : Num := .fin w.msb w.toInt.natAbs 0

/-- The value of FP32 bits. -/
def f32 (w : Word) : Num := fp32.decode w.toNat

/-- FP32 bits of a value rounded once to nearest even (R75, R56, R57). -/
def toF32 (x : Num) : Word := BitVec.ofNat 32 (fp32.encode .rne x)

/-- The value of FP64 bits. -/
def f64 (w : DWord) : Num := fp64.decode w.toNat

/-- FP64 bits of a value rounded once to nearest even. -/
def toF64 (x : Num) : DWord := BitVec.ofNat 64 (fp64.encode .rne x)

/-- Rounding a value once to FP32: the rn of R252. The sign stands apart from the magnitude throughout. -/
def rn (x : Num) : Num :=
  match x with
  | .fin n m e =>
    match fp32.decode (min (fp32.magCode .rne m e) fp32.infCode) with
    | .fin _ m' e' => .fin n m' e'
    | _ => .inf n
  | y => y

/-- A value is NaN. -/
def Num.isNan : Num → Bool
  | .nan => true
  | _ => false

/-- A value is finite. -/
def Num.isFinite : Num → Bool
  | .fin .. => true
  | _ => false

/-- A value is a zero of either sign. -/
def Num.isZero : Num → Bool
  | .fin _ m _ => m == 0
  | _ => false

/-- The sign of a value; a NaN has none. -/
def Num.isNeg : Num → Bool
  | .nan => false
  | .inf neg => neg
  | .fin neg _ _ => neg

/-- Negation. -/
def Num.neg : Num → Num
  | .nan => .nan
  | .inf n => .inf (!n)
  | .fin n m e => .fin (!n) m e

/-- Magnitude. -/
def Num.abs : Num → Num
  | .nan => .nan
  | .inf _ => .inf false
  | .fin _ m e => .fin false m e

/-- A signed integer m for the sum of mantissas; a zero mantissa has no sign here. -/
def signedMant (neg : Bool) (m : Nat) : Int := if m = 0 then 0 else if neg then -(m : Int) else (m : Int)

/-- The exact product (R65): a NaN operand, or zero times infinity, gives NaN; the sign is the exclusive or. -/
def Num.mul : Num → Num → Num
  | .nan, _ => .nan
  | _, .nan => .nan
  | .inf a, .inf b => .inf (a != b)
  | .inf a, .fin b m _ => if m = 0 then .nan else .inf (a != b)
  | .fin a m _, .inf b => if m = 0 then .nan else .inf (a != b)
  | .fin a m e, .fin b n f => .fin (a != b) (m * n) (e + f)

/-- The exact sum. Infinities of opposite signs give NaN (DEDUCED from R65 and R104, log 12). Zeros of one sign keep it; an
exact zero sum of operands of opposite signs is +0 (PRESUMED: IEEE 754 under RNE, log 12). -/
def Num.add : Num → Num → Num
  | .nan, _ => .nan
  | _, .nan => .nan
  | .inf a, .inf b => if a = b then .inf a else .nan
  | .inf a, .fin .. => .inf a
  | .fin .., .inf b => .inf b
  | .fin a m e, .fin b n f =>
    let u := min e f
    let s := signedMant a (m * 2 ^ (e - u).toNat) + signedMant b (n * 2 ^ (f - u).toNat)
    if s = 0 then
      if a = b then .fin a 0 u else .fin false 0 u
    else .fin (decide (s < 0)) s.natAbs u

/-- The exact difference. -/
def Num.sub (x y : Num) : Num := x.add y.neg

/-- x × 2^k, exact. -/
def Num.scale (x : Num) (k : Int) : Num :=
  match x with
  | .fin n m e => .fin n m (e + k)
  | y => y

/-- The fused multiply–add of R252: a × b + c rounded once to FP32. -/
def fma (a b c : Num) : Num := rn ((a.mul b).add c)

/-- x < y for values without NaN; zeros of both signs are equal. -/
def Num.lt : Num → Num → Bool
  | .nan, _ => false
  | _, .nan => false
  | .inf a, .inf b => a && !b
  | .inf a, .fin .. => a
  | .fin .., .inf b => !b
  | .fin a m e, .fin b n f =>
    let u := min e f
    decide (signedMant a (m * 2 ^ (e - u).toNat) < signedMant b (n * 2 ^ (f - u).toNat))

/-- x = y for values without NaN; zeros of both signs are equal. -/
def Num.eqv (x y : Num) : Bool := !x.isNan && !y.isNan && !x.lt y && !y.lt x

/-- The larger of two values under R249: NaN if either is NaN, and +0 over −0. -/
def Num.max (x y : Num) : Num :=
  if x.isNan || y.isNan then .nan
  else if x.lt y then y else if y.lt x then x
  else if x.isNeg && !y.isNeg then y else x

/-- The smaller of two values under R249: NaN if either is NaN, and −0 under +0. -/
def Num.min (x y : Num) : Num :=
  if x.isNan || y.isNan then .nan
  else if y.lt x then y else if x.lt y then x
  else if y.isNeg && !x.isNeg then y else x

/-- up(|x|) of R80: rounded toward +∞ to FP32 and limited to 0x7F7F_FFFF. -/
def upMag (m : Nat) (e : Int) : Nat :=
  if m = 0 then 0
  else
    let k := max (floorLog2 m e) (-126)
    let u := k - 23
    let q := if u ≤ e then m * 2 ^ (e - u).toNat
      else (m + 2 ^ (u - e).toNat - 1) / 2 ^ (u - e).toNat
    min ((k + 126).toNat * 2 ^ 23 + q) 0x7F7F_FFFF

/-- A running-maximum register (R79). -/
structure MaxReg where
  mag : Word
  nf : Bool
deriving DecidableEq, Repr

/-- The register after a clear (R79, R81). -/
def MaxReg.zero : MaxReg := ⟨0, false⟩

/-- The 64-bit layout of R79. -/
def MaxReg.bits (r : MaxReg) : DWord := BitVec.ofNat 64 (r.mag.toNat + (if r.nf then 2 ^ 32 else 0))

/-- A write of a 64-bit value to a running-maximum register (R184). -/
def MaxReg.ofBits (r : DWord) : MaxReg :=
  ⟨BitVec.ofNat 32 (min (r.toNat % 2 ^ 31) 0x7F7F_FFFF), r.getLsbD 32⟩

/-- Two registers combined: the maximum of MAG and the OR of NF (R82, R275). -/
def MaxReg.join (a b : MaxReg) : MaxReg :=
  ⟨if a.mag.toNat < b.mag.toNat then b.mag else a.mag, a.nf || b.nf⟩

/-- What one source value does to a register (R80). -/
def MaxReg.see (r : MaxReg) : Num → MaxReg
  | .fin _ m e => r.join ⟨BitVec.ofNat 32 (upMag m e), false⟩
  | _ => ⟨r.mag, true⟩

/-- The register of a list of source values, from a cleared one (R80, R82). -/
def MaxReg.ofValues (xs : List Num) : MaxReg := xs.foldl MaxReg.see MaxReg.zero

/-- e() of R111 for a MAG field. -/
def magExponent (mag : Word) : Int :=
  let n := mag.toNat
  if n = 0 then -512
  else if n < 2 ^ 23 then (Nat.log2 n : Int) - 149
  else ((n >>> 23) % 256 : Nat) - 127

/-- The clamp of R86 to the range of an anchor. -/
def clampAnchor (a : Int) : Int := if a < -512 then -512 else if 511 < a then 511 else a

/-- The exponent of the largest element of an MX format: emax_elem of R76. -/
def Fmt.emaxElem (f : Fmt) : Int := (2 ^ f.ebits - 1 : Nat) - (f.bias : Int)

/-- The scale byte of an MX block of finite values (R76), 0xFF for a block with a NaN or an infinity (R77). -/
def mxScale (f : Fmt) (xs : List Num) : Byte :=
  if xs.all Num.isFinite then
    let t := xs.foldl (fun (acc : Option Int) x =>
      match x with
      | .fin _ m e => if m = 0 then acc else
          let k := floorLog2 m e
          some (match acc with | none => k | some a => Max.max a k)
      | _ => acc) none
    match t with
    | none => 0x7F
    | some k =>
      let x := k - f.emaxElem + 127
      BitVec.ofNat 8 (if x < 0 then 0 else if x > 254 then 254 else x.toNat)
  else 0xFF

/-- Conversion of a block of 32 values to an MX format (R76, R77): the scale byte and the element codes. -/
def mxBlock (f : Fmt) (xs : List (Rnd × Num)) : Byte × List Nat :=
  let sc := mxScale f (xs.map Prod.snd)
  if sc = 0xFF then (sc, xs.map fun _ => 0)
  else (sc, xs.map fun (rd, x) => f.encode rd (x.scale (127 - (sc.toNat : Int))))

/-- The value X × P of an MX element (R60, R61). -/
def mxValue (f : Fmt) (scale : Byte) (code : Nat) : Num := (e8m0 scale).mul (f.decode code)

end Sys2Proof.Machine
end

