-- ==== Sys2Proof/Machine/Functions.lean ====
section
/-! DEFINITION. The function definitions of R252 to R256 (07_fiard_compute.md), table revision 0x01. The tables hold the
roundings that R252 defines, as FP32 bits. -/

namespace Sys2Proof.Machine

/-- Part 0 of `tabTe`. -/
def tabTe0 : List Nat :=
  [0x3F800000, 0x3F8164D2, 0x3F82CD87, 0x3F843A29, 0x3F85AAC3, 0x3F871F62, 0x3F88980F, 0x3F8A14D5,
   0x3F8B95C2, 0x3F8D1ADF, 0x3F8EA43A, 0x3F9031DC, 0x3F91C3D3, 0x3F935A2B, 0x3F94F4F0, 0x3F96942D,
   0x3F9837F0, 0x3F99E046, 0x3F9B8D3A, 0x3F9D3EDA, 0x3F9EF532, 0x3FA0B051, 0x3FA27043, 0x3FA43516,
   0x3FA5FED7, 0x3FA7CD94, 0x3FA9A15B, 0x3FAB7A3A, 0x3FAD583F, 0x3FAF3B79, 0x3FB123F6, 0x3FB311C4]

/-- Part 1 of `tabTe`. -/
def tabTe1 : List Nat :=
  [0x3FB504F3, 0x3FB6FD92, 0x3FB8FBAF, 0x3FBAFF5B, 0x3FBD08A4, 0x3FBF179A, 0x3FC12C4D, 0x3FC346CD,
   0x3FC5672A, 0x3FC78D75, 0x3FC9B9BE, 0x3FCBEC15, 0x3FCE248C, 0x3FD06334, 0x3FD2A81E, 0x3FD4F35B,
   0x3FD744FD, 0x3FD99D16, 0x3FDBFBB8, 0x3FDE60F5, 0x3FE0CCDF, 0x3FE33F89, 0x3FE5B907, 0x3FE8396A,
   0x3FEAC0C7, 0x3FED4F30, 0x3FEFE4BA, 0x3FF28177, 0x3FF5257D, 0x3FF7D0DF, 0x3FFA83B3, 0x3FFD3E0C]

/-- Te[j] = rn(2^(j/64)) (R252). -/
def tabTe : List Nat := tabTe0 ++ tabTe1

/-- Part 0 of `tabTr`. -/
def tabTr0 : List Nat :=
  [0x3F7F00FF, 0x3F7D08E5, 0x3F7B1885, 0x3F792FB2, 0x3F774E40, 0x3F757404, 0x3F73A0D5, 0x3F71D48C,
   0x3F700F01, 0x3F6E500F, 0x3F6C9791, 0x3F6AE564, 0x3F693965, 0x3F679373, 0x3F65F36D, 0x3F645933,
   0x3F62C4A7, 0x3F6135AA, 0x3F5FAC1F, 0x3F5E27EB, 0x3F5CA8F1, 0x3F5B2F17, 0x3F59BA42, 0x3F584A5A,
   0x3F56DF44, 0x3F5578E9, 0x3F541733, 0x3F52BA08, 0x3F516154, 0x3F500D01, 0x3F4EBCF9, 0x3F4D7127]

/-- Part 1 of `tabTr`. -/
def tabTr1 : List Nat :=
  [0x3F4C2978, 0x3F4AE5D8, 0x3F49A634, 0x3F486A79, 0x3F473294, 0x3F45FE74, 0x3F44CE08, 0x3F43A13E,
   0x3F427806, 0x3F415250, 0x3F40300C, 0x3F3F112B, 0x3F3DF59D, 0x3F3CDD53, 0x3F3BC841, 0x3F3AB656,
   0x3F39A786, 0x3F389BC3, 0x3F379301, 0x3F368D31, 0x3F358A48, 0x3F348A3A, 0x3F338CFA, 0x3F32927C,
   0x3F319AB6, 0x3F30A59B, 0x3F2FB322, 0x3F2EC33E, 0x3F2DD5E6, 0x3F2CEB10, 0x3F2C02B0, 0x3F2B1CBE]

/-- Part 2 of `tabTr`. -/
def tabTr2 : List Nat :=
  [0x3F2A392F, 0x3F2957FB, 0x3F287917, 0x3F279C7B, 0x3F26C21E, 0x3F25E9F7, 0x3F2513FD, 0x3F244029,
   0x3F236E72, 0x3F229ECF, 0x3F21D13A, 0x3F2105A9, 0x3F203C17, 0x3F1F747A, 0x3F1EAECD, 0x3F1DEB07,
   0x3F1D2922, 0x3F1C6917, 0x3F1BAADF, 0x3F1AEE73, 0x3F1A33CD, 0x3F197AE7, 0x3F18C3BB, 0x3F180E41,
   0x3F175A75, 0x3F16A850, 0x3F15F7CC, 0x3F1548E5, 0x3F149B93, 0x3F13EFD2, 0x3F13459C, 0x3F129CEC]

/-- Part 3 of `tabTr`. -/
def tabTr3 : List Nat :=
  [0x3F11F5BD, 0x3F115009, 0x3F10ABCC, 0x3F100901, 0x3F0F67A2, 0x3F0EC7AB, 0x3F0E2918, 0x3F0D8BE3,
   0x3F0CF009, 0x3F0C5584, 0x3F0BBC51, 0x3F0B246B, 0x3F0A8DCD, 0x3F09F874, 0x3F09645C, 0x3F08D181,
   0x3F083FDE, 0x3F07AF70, 0x3F072033, 0x3F069223, 0x3F06053C, 0x3F05797C, 0x3F04EEDD, 0x3F04655E,
   0x3F03DCF9, 0x3F0355AD, 0x3F02CF75, 0x3F024A4E, 0x3F01C636, 0x3F014328, 0x3F00C122, 0x3F004020]

/-- Tr[j] = rn(1/(1 + (2j + 1)/256)) (R252). -/
def tabTr : List Nat := tabTr0 ++ tabTr1 ++ tabTr2 ++ tabTr3

/-- Part 0 of `tabTq`. -/
def tabTq0 : List Nat :=
  [0x3F7E05EC, 0x3F7A33F9, 0x3F768CDC, 0x3F730D8A, 0x3F6FB345, 0x3F6C7B90, 0x3F69642A, 0x3F666B02,
   0x3F638E39, 0x3F60CC16, 0x3F5E2305, 0x3F5B9193, 0x3F59166B, 0x3F56B051, 0x3F545E22, 0x3F521ED0,
   0x3F4FF162, 0x3F4DD4ED, 0x3F4BC89B, 0x3F49CBA2, 0x3F47DD45, 0x3F45FCD6, 0x3F4429AF, 0x3F426337,
   0x3F40A8DE, 0x3F3EFA1C, 0x3F3D5671, 0x3F3BBD67, 0x3F3A2E8C, 0x3F38A975, 0x3F372DBF, 0x3F35BB09]

/-- Part 1 of `tabTq`. -/
def tabTq1 : List Nat :=
  [0x3F3450FC, 0x3F32EF41, 0x3F319589, 0x3F304387, 0x3F2EF8F2, 0x3F2DB587, 0x3F2C7904, 0x3F2B432A,
   0x3F2A13C0, 0x3F28EA8C, 0x3F27C759, 0x3F26A9F4, 0x3F25922C, 0x3F247FD3, 0x3F2372BD, 0x3F226ABE,
   0x3F2167AF, 0x3F206968, 0x3F1F6FC4, 0x3F1E7AA0, 0x3F1D89D9, 0x3F1C9D4E, 0x3F1BB4E1, 0x3F1AD073,
   0x3F19EFE6, 0x3F191320, 0x3F183A05, 0x3F17647C, 0x3F16926C, 0x3F15C3BC, 0x3F14F857, 0x3F143026]

/-- Part 2 of `tabTq`. -/
def tabTq2 : List Nat :=
  [0x3F136B13, 0x3F12A90B, 0x3F11E9F9, 0x3F112DCA, 0x3F10746D, 0x3F0FBDCE, 0x3F0F09DD, 0x3F0E5889,
   0x3F0DA9C2, 0x3F0CFD79, 0x3F0C539F, 0x3F0BAC25, 0x3F0B06FD, 0x3F0A641A, 0x3F09C36D, 0x3F0924EC,
   0x3F088889, 0x3F07EE37, 0x3F0755ED, 0x3F06BF9E, 0x3F062B40, 0x3F0598C7, 0x3F05082A, 0x3F04795F,
   0x3F03EC5C, 0x3F036117, 0x3F02D788, 0x3F024FA6, 0x3F01C967, 0x3F0144C4, 0x3F00C1B4, 0x3F004030]

/-- Tq[j] = rn(1/√(1 + (2j + 1)/64)) (R252). -/
def tabTq : List Nat := tabTq0 ++ tabTq1 ++ tabTq2

/-- Part 0 of `tabTl`. -/
def tabTl0 : List Nat :=
  [0x3F800000, 0x3F7A232D, 0x3F76603E, 0x3F72B9D6, 0x3F6F2EB7, 0x3F6BBDB3, 0x3F6865AC, 0x3F652598,
   0x3F61FC78, 0x3F5EE95C, 0x3F5BEB62, 0x3F5901B2, 0x3F562B81, 0x3F53680D, 0x3F50B6A0, 0x3F4E168A,
   0x3F4B8728, 0x3F4907DA, 0x3F46980C, 0x3F443730, 0x3F41E4BC, 0x3F3FA030, 0x3F3D6910, 0x3F3B3EE7,
   0x3F392144, 0x3F370FBB, 0x3F3509E7, 0x3F330F63, 0x3F311FD4, 0x3F2F3ADE, 0x3F2D602B, 0x3F2B8F6A]

/-- Part 1 of `tabTl`. -/
def tabTl1 : List Nat :=
  [0x3F29C84A, 0x3F280A81, 0x3F2655C4, 0x3F24A9CF, 0x3F23065E, 0x3F216B31, 0x3F1FD80A, 0x3F1E4CAD,
   0x3F1CC8E1, 0x3F1B4C70, 0x3F19D723, 0x3F1868C8, 0x3F17012E, 0x3F15A025, 0x3F144581, 0x3F12F114,
   0x3F11A2B4, 0x3F105A38, 0x3F0F177A, 0x3F0DDA52, 0x3F0CA29C, 0x3F0B7034, 0x3F0A42F8, 0x3F091AC7,
   0x3F07F781, 0x3F06D905, 0x3F05BF37, 0x3F04A9FA, 0x3F039930, 0x3F028CC0, 0x3F01848E, 0x3F008081]

/-- Tl[j] = rn(1/(1 + (2j + 1)/128)), and 1.0 for j = 0 (R252). -/
def tabTl : List Nat := tabTl0 ++ tabTl1

/-- Part 0 of `tabLg`. -/
def tabLg0 : List Nat :=
  [0x00000000, 0x3D08E68D, 0x3D626FCC, 0x3D9D5182, 0x3DC8C50D, 0x3DF3975C, 0x3E0EE690, 0x3E23B551,
   0x3E383A17, 0x3E4C76EA, 0x3E606DB6, 0x3E74205F, 0x3E83C856, 0x3E8D602E, 0x3E96D887, 0x3EA03234,
   0x3EA96DEF, 0x3EB28C80, 0x3EBB8E97, 0x3EC474E2, 0x3ECD4011, 0x3ED5F0C3, 0x3EDE8798, 0x3EE70525,
   0x3EEF69FF, 0x3EF7B6B5, 0x3EFFEBCB, 0x3F0404E8, 0x3F08089D, 0x3F0C0146, 0x3F0FEF1F, 0x3F13D260]

/-- Part 1 of `tabLg`. -/
def tabLg1 : List Nat :=
  [0x3F17AB44, 0x3F1B79FF, 0x3F1F3ECA, 0x3F22F9D5, 0x3F26AB53, 0x3F2A5375, 0x3F2DF268, 0x3F31885D,
   0x3F35157E, 0x3F3899F4, 0x3F3C15EE, 0x3F3F8991, 0x3F42F506, 0x3F465873, 0x3F49B3FA, 0x3F4D07C5,
   0x3F5053F6, 0x3F5398AF, 0x3F56D60F, 0x3F5A0C3A, 0x3F5D3B4E, 0x3F60636B, 0x3F6384AF, 0x3F669F36,
   0x3F69B31C, 0x3F6CC084, 0x3F6FC782, 0x3F72C831, 0x3F75C2B1, 0x3F78B713, 0x3F7BA577, 0x3F7E8DF1]

/-- Lg[j] = rn(−log2 Tl[j]), and 0 for j = 0 (R252). -/
def tabLg : List Nat := tabLg0 ++ tabLg1

/-- Entry j of a table as a value. -/
def tabAt (t : List Nat) (j : Nat) : Num := fp32.decode (t.getD j 0)

/-- The constants of R252. -/
def cC1 : Num := f32 0x3F31_7218
/-- C2 of R252. -/
def cC2 : Num := f32 0x3E75_FDF0
/-- C3 of R252. -/
def cC3 : Num := f32 0x3D63_5847
/-- L2E of R252. -/
def cL2E : Num := f32 0x3FB8_AA3B
/-- D2 of R252. -/
def cD2 : Num := f32 0xBF38_AA3B
/-- D3 of R252. -/
def cD3 : Num := f32 0x3EF6_3846
/-- G0 of R252. -/
def cG0 : Num := f32 0x3F4C_422A
/-- G1 of R252. -/
def cG1 : Num := f32 0x3D37_2713
/-- G2 of R252. -/
def cG2 : Num := f32 0x3E09_5D4F

/-- A whole number as a value. -/
def numInt (i : Int) : Num := .fin (decide (i < 0)) i.natAbs 0

/-- exp2 of R253. -/
def fnExp2 (x : Num) : Num :=
  match x with
  | .nan => .nan
  | .inf neg => if neg then numInt 0 else .inf false
  | .fin s m e =>
    if !(x.lt (numInt 128)) then .inf false
    else if x.lt (numInt (-150)) then numInt 0
    else
      let q := roundSteps .rne m (e + 6) 0
      let n : Int := if s then -(q : Int) else q
      let u := min e (-6)
      let ri := signedMant s (m * 2 ^ (e - u).toNat) - n * 2 ^ (-6 - u).toNat
      let r : Num := .fin (decide (ri < 0)) ri.natAbs u
      let j := (n % 64).toNat
      let k := (n - j) / 64
      let p := rn (r.mul (fma r (fma r cC3 cC2) cC1))
      let t := tabAt tabTe j
      rn (((t.mul p).add t).scale k)

/-- exp of R253. -/
def fnExp (x : Num) : Num := fnExp2 (rn (x.mul cL2E))

/-- log2 of R254. -/
def fnLog2 (x : Num) : Num :=
  match x with
  | .nan => .nan
  | .inf neg => if neg then .nan else .inf false
  | .fin s m e =>
    if m = 0 then .inf true
    else if s then .nan
    else
      let l := Nat.log2 m
      let j := m * 64 / 2 ^ l - 64
      let u := fma (.fin false m (-(l : Int))) (tabAt tabTl j) (numInt (-1))
      let q := rn (u.mul (fma u (fma u cD3 cD2) cL2E))
      rn ((rn ((numInt (e + l)).add (tabAt tabLg j))).add q)

/-- rcp of R254. -/
def fnRcp (x : Num) : Num :=
  match x with
  | .nan => .nan
  | .inf neg => .fin neg 0 0
  | .fin s m e =>
    if m = 0 then .inf s
    else
      let l := Nat.log2 m
      let j := m * 128 / 2 ^ l - 128
      let sig : Num := .fin false m (-(l : Int))
      let iter := fun y => fma y (fma sig.neg y (numInt 1)) y
      let y := rn ((iter (iter (tabAt tabTr j))).scale (-(e + l)))
      if s then y.neg else y

/-- rsqrt of R254. -/
def fnRsqrt (x : Num) : Num :=
  match x with
  | .nan => .nan
  | .inf neg => if neg then .nan else numInt 0
  | .fin s m e =>
    if m = 0 then .inf s
    else if s then .nan
    else
      let l := Nat.log2 m
      let ex := e + l
      let odd := ex % 2
      let sig : Num := .fin false m (odd - l)
      let j := m * 2 ^ odd.toNat * 32 / 2 ^ l - 32
      let half : Num := .fin false 1 (-1)
      let iter := fun y => fma y (fma (sig.scale (-1)).neg (rn (y.mul y)) half) y
      rn ((iter (iter (tabAt tabTq j))).scale (-((ex - odd) / 2)))

/-- 1.0 with the sign of a value. -/
def signOne (x : Num) : Num := .fin x.isNeg 1 0

/-- tanh of R255. -/
def fnTanh (x : Num) : Num :=
  if x.isNan then .nan
  else if x.abs.lt (.fin false 1 (-12)) then x
  else if !(x.abs.lt (numInt 9)) then signOne x
  else
    let t := fnExp2 (rn ((x.abs.scale 1).neg.mul cL2E))
    (signOne x).mul (rn ((rn ((numInt 1).sub t)).mul (fnRcp (rn ((numInt 1).add t)))))

/-- sigmoid of R255. -/
def fnSigmoid (x : Num) : Num :=
  if x.isNan then .nan
  else fnRcp (rn ((numInt 1).add (fnExp2 (rn (x.neg.mul cL2E)))))

/-- silu of R255. -/
def fnSilu (x : Num) : Num :=
  match x with
  | .nan => .nan
  | .inf neg => if neg then .fin true 0 0 else .inf false
  | _ => rn (x.mul (fnSigmoid x))

/-- The values x2, th and h of gelu (R255). -/
def geluParts (x : Num) : Num × Num × Num :=
  let x2 := rn (x.mul x)
  let w := fma cG1 x2 (numInt 1)
  let v := rn (cG0.mul (rn (x.mul w)))
  let th := fnTanh v
  (x2, th, rn ((rn ((numInt 1).add th)).scale (-1)))

/-- gelu of R255. -/
def fnGelu (x : Num) : Num :=
  match x with
  | .nan => .nan
  | .inf neg => if neg then .fin true 0 0 else .inf false
  | _ => rn (x.mul (geluParts x).2.2)

/-- A value below zero, −Inf included, NaN and −0 not. -/
def Num.below0 (x : Num) : Bool := x.lt (numInt 0)

/-- The function of a code of R252; the codes 9 to 15 are refused before it is asked. -/
def fnApply (code : Nat) (x : Num) : Num :=
  match code with
  | 0 => fnExp2 x
  | 1 => fnExp x
  | 2 => fnLog2 x
  | 3 => fnRcp x
  | 4 => fnRsqrt x
  | 5 => fnTanh x
  | 6 => fnSigmoid x
  | 7 => fnGelu x
  | _ => fnSilu x

/-- The derivative of GELU (R256); the limits are 0 and 1. -/
def geluDeriv (x : Num) : Num :=
  match x with
  | .inf neg => if neg then numInt 0 else numInt 1
  | _ =>
    let (x2, th, h) := geluParts x
    let q := fma th.neg th (numInt 1)
    fma (rn ((rn (q.mul (rn (cG0.mul (fma cG2 x2 (numInt 1)))))).mul x)) (.fin false 1 (-1)) h

/-- The derivative of SILU (R256); the limits are 0 and 1. -/
def siluDeriv (x : Num) : Num :=
  match x with
  | .inf neg => if neg then numInt 0 else numInt 1
  | _ =>
    let s := fnSigmoid x
    fma (rn (x.mul (rn ((numInt 1).sub s)))) s s

/-- The derivative of a function code (R256). -/
def fnDeriv (code : Nat) (x : Num) : Num :=
  if x.isNan then .nan
  else
    match code with
    | 0 => rn (cC1.mul (fnExp2 x))
    | 1 => fnExp x
    | 2 => if x.below0 then .nan else rn (cL2E.mul (fnRcp x))
    | 3 => let r := fnRcp x; (rn (r.mul r)).neg
    | 4 =>
      if x.below0 then .nan
      else
        let y := fnRsqrt x
        (rn ((rn (y.mul (rn (y.mul y)))).scale (-1))).neg
    | 5 => let th := fnTanh x; fma th.neg th (numInt 1)
    | 6 => let s := fnSigmoid x; rn (s.mul (rn ((numInt 1).sub s)))
    | 7 => geluDeriv x
    | _ => siluDeriv x

end Sys2Proof.Machine
end

