-- ==== Sys2Proof/Machine/Bits.lean ====
section
/-! DEFINITION. Bytes, little-endian fields and packed elements (R11, R59), CRC-32, saturating counters. -/

namespace Sys2Proof.Machine

/-- The bytes of a value, lowest first (R11). -/
def natBytes : Nat → Nat → List Byte
  | 0, _ => []
  | k + 1, n => BitVec.ofNat 8 n :: natBytes k (n / 256)

/-- The value of bytes, lowest first (R11). -/
def bytesNat : List Byte → Nat
  | [] => 0
  | b :: bs => b.toNat + 256 * bytesNat bs

/-- `k` bytes of a line from byte `at`. -/
def lineField (l : Line) (at' k : Nat) : Nat := (l.toNat >>> (8 * at')) % 2 ^ (8 * k)

/-- The lines' contents as one number, the first line lowest. -/
def linesNat (ls : List Line) : Nat := ls.foldr (fun l acc => l.toNat + 2 ^ 1024 * acc) 0

/-- A number cut into lines, the lowest first. -/
def natLines : Nat → Nat → List Line
  | 0, _ => []
  | k + 1, n => BitVec.ofNat 1024 n :: natLines k (n / 2 ^ 1024)

/-- Element `i` of width `w` bits of packed data (R59): for MXFP6 four elements to three bytes and for four-bit elements
two to a byte, which is element i at bit w × i in every case. -/
def elemAt (data w i : Nat) : Nat := (data >>> (w * i)) % 2 ^ w

/-- Elements packed from bit 0, each of width `w` (R59). -/
def packElems (w : Nat) : List Nat → Nat
  | [] => 0
  | x :: xs => x % 2 ^ w + 2 ^ w * packElems w xs

/-- Bytes `mask` says to take from `new`, the others from `old`: the merge of a partial write. -/
def mergeBytes (old new : Nat) (k : Nat) (mask : Nat → Bool) : Nat :=
  bytesNat ((List.range k).map fun i =>
    BitVec.ofNat 8 (if mask i then new >>> (8 * i) else old >>> (8 * i)))

/-- One bit step of the reflected CRC-32 of IEEE 802.3 (R448, R576). -/
def crc32Bit (c : Word) : Word := if c.getLsbD 0 then (c >>> 1) ^^^ 0xEDB8_8320 else c >>> 1

/-- One byte step. -/
def crc32Byte (c : Word) (b : Byte) : Word :=
  let x := c ^^^ b.setWidth 32
  crc32Bit (crc32Bit (crc32Bit (crc32Bit (crc32Bit (crc32Bit (crc32Bit (crc32Bit x)))))))

/-- CRC-32 with the IEEE 802.3 polynomial, reflected, with the initial value and final inversion of
R601 (for R576 DEDUCED, log 11). -/
def crc32 (bs : List Byte) : Word := ~~~ (bs.foldl crc32Byte 0xFFFF_FFFF)

/-- A 64-bit counter counts up and saturates (R301). -/
def satAdd64 (a n : Nat) : Nat := min (a + n) (2 ^ 64 - 1)

/-- A 32-bit counter counts up and saturates. -/
def satAdd32 (a n : Nat) : Nat := min (a + n) (2 ^ 32 - 1)

/-- A field of a 32-bit register: `w` bits from bit `lo`. -/
def fieldOf (v : Word) (lo w : Nat) : Nat := (v.toNat >>> lo) % 2 ^ w

/-- A register word built from fields: value and lowest bit of each. -/
def packWord (fs : List (Nat × Nat)) : Word := fs.foldl (fun a f => a ||| BitVec.ofNat 32 (f.1 <<< f.2)) 0

/-- A bit as a number. -/
def b2n (b : Bool) : Nat := if b then 1 else 0

/-- The low half of a 64-bit value. -/
def lo32 (n : Nat) : Word := BitVec.ofNat 32 n

/-- The high half of a 64-bit value. -/
def hi32 (n : Nat) : Word := BitVec.ofNat 32 (n >>> 32)

/-- ⌈a / b⌉. -/
def ceilDiv (a b : Nat) : Nat := (a + b - 1) / b

end Sys2Proof.Machine
end

