-- ==== Sys2Proof/Machine/Digest.lean ====
section
/-! DEFINITION. Leaven words (R312, R313) and Crumb terms (R315 to R317), 09_reproducibility.md. -/

namespace Sys2Proof.Machine

/-- One round of Philox4x32-10 (R313) on the counter, with its round keys. -/
def philoxRound (c : Word × Word × Word × Word) (k0 k1 : Word) : Word × Word × Word × Word :=
  let p0 : DWord := 0xD251_1F53 * c.1.setWidth 64
  let p1 : DWord := 0xCD9E_8D57 * c.2.2.1.setWidth 64
  (p1.extractLsb' 32 32 ^^^ c.2.1 ^^^ k0, p1.extractLsb' 0 32, p0.extractLsb' 32 32 ^^^ c.2.2.2 ^^^ k1,
    p0.extractLsb' 0 32)

/-- `n` rounds, the keys bumped between them (R313). -/
def philoxRounds : Nat → Word × Word × Word × Word → Word → Word → Word × Word × Word × Word
  | 0, c, _, _ => c
  | n + 1, c, k0, k1 => philoxRounds n (philoxRound c k0 k1) (k0 + 0x9E37_79B9) (k1 + 0xBB67_AE85)

/-- philox() of R313. -/
def philox (c0 c1 c2 c3 k0 k1 : Word) : Word × Word × Word × Word := philoxRounds 10 (c0, c1, c2, c3) k0 k1

/-- The Leaven word for a key (R312). -/
def leavenWord (seed : DWord) (step stream : Word) (index : DWord) : Word :=
  let b := index >>> 2
  let w := philox (b.extractLsb' 0 32) (b.extractLsb' 32 32) stream step (seed.extractLsb' 0 32)
    (seed.extractLsb' 32 32)
  match (index.extractLsb' 0 2).toNat with
  | 0 => w.1
  | 1 => w.2.1
  | 2 => w.2.2.1
  | _ => w.2.2.2

/-- The 24 random bits of stochastic rounding (R73). -/
def srBits (seed : DWord) (step stream : Word) (index : DWord) : Nat := (leavenWord seed step stream index).toNat >>> 8

/-- mix64 of R315. -/
def mix64 (z : DWord) : DWord :=
  let z := (z ^^^ (z >>> 30)) * 0xBF58_476D_1CE4_E5B9
  let z := (z ^^^ (z >>> 27)) * 0x94D0_49BB_1331_11EB
  z ^^^ (z >>> 31)

/-- The Crumb term of an element (R315). -/
def crumbTerm (index : DWord) (key : Word) (e : Word) : DWord :=
  let x := index ^^^ ((key.setWidth 64 + 1) * 0x9E37_79B9_7F4A_7C15)
  mix64 (mix64 x ^^^ e.setWidth 64)

/-- A Crumb accumulator (R317). -/
structure CrumbAcc where
  value : DWord
  count : DWord
  key : Word
  step : Word
  mixed : Bool
  poison : Bool
deriving DecidableEq, Repr

/-- A cleared accumulator (R318). -/
def CrumbAcc.zero : CrumbAcc := ⟨0, 0, 0, 0, false, false⟩

/-- The terms of one instruction or drained row for an accumulator: their sum, number, key, step and poison. -/
structure CrumbAdd where
  value : DWord
  count : Nat
  key : Word
  step : Word
  poison : Bool
deriving DecidableEq, Repr

/-- The terms of a list of (index, bits) elements under one key. -/
def crumbAddOf (key step : Word) (poison : Bool) (es : List (DWord × Word)) : CrumbAdd :=
  ⟨es.foldl (fun a e => a + crumbTerm e.1 key e.2) 0, es.length, key, step, poison⟩

/-- Adding terms to an accumulator: key and step are those of the first term since the clear; MIXED records a term
under another key (R317). -/
def CrumbAcc.apply (a : CrumbAcc) (d : CrumbAdd) : CrumbAcc :=
  if d.count = 0 then a
  else
    let first := decide (a.count = 0)
    { value := a.value + d.value
      count := a.count + BitVec.ofNat 64 d.count
      key := if first then d.key else a.key
      step := if first then d.step else a.step
      mixed := a.mixed || (!first && decide (d.key ≠ a.key))
      poison := a.poison || d.poison }

end Sys2Proof.Machine
end

