-- ==== Sys2Proof/Machine/Grid.lean ====
section
/-! DEFINITION. The anchor grid (03_anchored_sums.md): AX entries with their flags, entering the grid (R93), adding on
it (R97), leaving it (R104, R105), and the addend counts (R98). -/

namespace Sys2Proof.Machine

/-- The five flags in the order of R89. -/
structure AxFlags where
  nan : Bool
  pinf : Bool
  ninf : Bool
  ovf : Bool
  psn : Bool
deriving DecidableEq, Repr

/-- No flag set. -/
def AxFlags.none : AxFlags := ⟨false, false, false, false, false⟩

/-- The OR of two sets of flags (R97). -/
def AxFlags.or (a b : AxFlags) : AxFlags :=
  ⟨a.nan || b.nan, a.pinf || b.pinf, a.ninf || b.ninf, a.ovf || b.ovf, a.psn || b.psn⟩

/-- The flags as bits, NAN lowest (R89, R90). -/
def AxFlags.bits (f : AxFlags) : BitVec 5 :=
  BitVec.ofBool f.psn ++ BitVec.ofBool f.ovf ++ BitVec.ofBool f.ninf ++ BitVec.ofBool f.pinf ++ BitVec.ofBool f.nan

/-- The flags of five bits in the order of R89. -/
def AxFlags.ofBits (b : BitVec 5) : AxFlags :=
  ⟨b.getLsbD 0, b.getLsbD 1, b.getLsbD 2, b.getLsbD 3, b.getLsbD 4⟩

/-- An anchored value of width w with its flags (R87, R92). -/
structure Ax (w : Nat) where
  i : BitVec w
  fl : AxFlags
deriving DecidableEq, Repr

/-- An output accumulator or Proof Buffer entry (R89). -/
abbrev Ax80 := Ax 80

/-- Zero with its flags clear. -/
def Ax.zero {w : Nat} : Ax w := ⟨0, .none⟩

/-- Adding two values of one anchor (R97). -/
def Ax.add {w : Nat} (a b : Ax w) : Ax w := ⟨a.i + b.i, a.fl.or b.fl⟩

/-- Moving to a wider format by sign extension, flags unchanged (R88). -/
def Ax.widen {w : Nat} (v : Nat) (a : Ax w) : Ax v := ⟨a.i.signExtend v, a.fl⟩

/-- The value with OVF set (R98 to R100). -/
def Ax.setOvf {w : Nat} (a : Ax w) : Ax w := { a with fl := { a.fl with ovf := true } }

/-- The value with PSN set. -/
def Ax.setPsn {w : Nat} (a : Ax w) : Ax w := { a with fl := { a.fl with psn := true } }

/-- An addend placed on the grid: q, its flags, and whether it is a precision-loss event (R93, R95). -/
structure Placed where
  q : Int
  fl : AxFlags
  loss : Bool
deriving DecidableEq, Repr

/-- The entry rule of R93 on the grid of an anchor; rounding is always RNE (R94). -/
def placeOnGrid (anchor : Int) (poisoned : Bool) (x : Num) : Placed :=
  if poisoned then ⟨0, { AxFlags.none with psn := true }, false⟩
  else
    match x with
    | .nan => ⟨0, { AxFlags.none with nan := true }, false⟩
    | .inf false => ⟨0, { AxFlags.none with pinf := true }, false⟩
    | .inf true => ⟨0, { AxFlags.none with ninf := true }, false⟩
    | .fin neg m e =>
      let t := roundSteps .rne m e (anchor - 48)
      if 2 ^ 49 ≤ t then ⟨0, { AxFlags.none with ovf := true }, false⟩
      else ⟨signedMant neg t, .none, t == 0 && m != 0⟩

/-- A placed addend as a value of width w. -/
def Placed.ax (w : Nat) (p : Placed) : Ax w := ⟨BitVec.ofInt w p.q, p.fl⟩

/-- Leaving the grid (R104): the flags first, then the exact value I × 2^(A − 48); an I of zero is +0. The caller rounds
it once under R105. -/
def leaveGrid {w : Nat} (anchor : Int) (a : Ax w) : Num :=
  if a.fl.nan || a.fl.ovf || (a.fl.pinf && a.fl.ninf) then .nan
  else if a.fl.pinf then .inf false
  else if a.fl.ninf then .inf true
  else
    let i := a.i.toInt
    .fin (decide (i < 0)) i.natAbs (anchor - 48)

/-- The sum of two addend counts, saturating at 0xFFFF_FFFF (R98). -/
def addCount (a b : Nat) : Nat := min (a + b) 0xFFFF_FFFF

/-- The capacity of AX80: a count above it sets OVF (R98). -/
def axCapacity : Nat := 2 ^ 30

/-- The 12-byte word of R90 as 96 bits. -/
def axWord (a : Ax80) : BitVec 96 := (0 : BitVec 11) ++ a.fl.bits ++ a.i

/-- The value of a 12-byte word (R90). -/
def axOfWord (b : BitVec 96) : Ax80 := ⟨b.extractLsb' 0 80, .ofBits (b.extractLsb' 80 5)⟩

end Sys2Proof.Machine
end

