-- ==== Sys2Proof/Machine/Map.lean ====
section
/-! DEFINITION. Sparse maps in one canonical form: a list of keys and values, the keys strictly rising, and no entry
equal to the value that an unlisted key reads as. Memories, register files and numbered units are all held this way, so
that two equal contents are equal data. -/

namespace Sys2Proof.Machine

/-- A sparse map from numbers to values. -/
abbrev SMap (α : Type) := List (Nat × α)

/-- The listed value of a key, if it is listed. -/
def smapFind {α : Type} : SMap α → Nat → Option α
  | [], _ => none
  | (j, v) :: m, k => if j = k then some v else if k < j then none else smapFind m k

/-- What a key reads as: its entry, or else the default `d`. -/
def smapGet {α : Type} (d : α) (m : SMap α) (k : Nat) : α := (smapFind m k).getD d

/-- The map with the entry of a key put in its place in the order. -/
def smapInsert {α : Type} : SMap α → Nat → α → SMap α
  | [], k, v => [(k, v)]
  | (j, w) :: m, k, v =>
    if k < j then (k, v) :: (j, w) :: m else if j = k then (k, v) :: m else (j, w) :: smapInsert m k v

/-- The map without the entry of a key. -/
def smapErase {α : Type} : SMap α → Nat → SMap α
  | [], _ => []
  | (j, w) :: m, k => if j = k then m else if k < j then (j, w) :: m else (j, w) :: smapErase m k

/-- Writing a value: a value equal to the default removes the entry, so that the form stays canonical. -/
def smapSet {α : Type} [DecidableEq α] (d : α) (m : SMap α) (k : Nat) (v : α) : SMap α :=
  if v = d then smapErase m k else smapInsert m k v

/-- Changing the value of a key by a function. -/
def smapUpd {α : Type} [DecidableEq α] (d : α) (m : SMap α) (k : Nat) (f : α → α) : SMap α :=
  smapSet d m k (f (smapGet d m k))

/-- The keys of a map rise strictly, all above `lo` where it is given. -/
def smapSorted {α : Type} : SMap α → Bool
  | [] => true
  | [_] => true
  | (j, _) :: (k, w) :: m => decide (j < k) && smapSorted ((k, w) :: m)

/-- The canonical form: strictly rising keys, and no entry equal to the default. -/
def smapWf {α : Type} [DecidableEq α] (d : α) (m : SMap α) : Bool :=
  smapSorted m && m.all fun e => !decide (e.2 = d)

/-- Writing a run of values from a first key upwards. -/
def smapSetRun {α : Type} [DecidableEq α] (d : α) : SMap α → Nat → List α → SMap α
  | m, _, [] => m
  | m, k, v :: vs => smapSetRun d (smapSet d m k v) (k + 1) vs

/-- Changing the value of each key of a list by a function of the key and the value. -/
def smapUpdAll {α : Type} [DecidableEq α] (d : α) (m : SMap α) (ks : List Nat) (f : Nat → α → α) : SMap α :=
  ks.foldl (fun m k => smapSet d m k (f k (smapGet d m k))) m

/-- A finite set of numbers as a rising list without repeats. -/
abbrev NatSet := List Nat

/-- Adding a number to a set. -/
def natSetInsert : NatSet → Nat → NatSet
  | [], k => [k]
  | j :: m, k => if k < j then k :: j :: m else if j = k then j :: m else j :: natSetInsert m k

/-- Removing a number from a set. -/
def natSetErase : NatSet → Nat → NatSet
  | [], _ => []
  | j :: m, k => if j = k then m else if k < j then j :: m else j :: natSetErase m k

end Sys2Proof.Machine
end

