-- ==== Sys2Proof/Machine/CoreState.lean ====
section
/-! DEFINITION. The state of one core (04_core.md to 08_freeze_and_schedule.md): sequencer, arrays and drain paths,
Proof Buffer, Bench, vector unit, queues and transfers. Plain data; a numbered thing is a sparse map by its number. -/

namespace Sys2Proof.Machine

/-- The state of a Bench line (R146). -/
inductive LineState where
  | invalid
  | pending
  | valid
deriving DecidableEq, Repr

/-- What holds a PENDING line: the transfer of the core, the freeze cause of R285 that a wait on it has, and whether the
line is a source (R223) or a destination (R147). -/
structure LineHold where
  xfer : Nat
  cause : Nat
  src : Bool
deriving DecidableEq, Repr

/-- A Bench line (R146), with the two dirty bits of R466. -/
structure BenchLine where
  st : LineState
  data : Line
  poison : Bool
  dirty0 : Bool
  dirty1 : Bool
  hold : Option LineHold
deriving DecidableEq, Repr

/-- A line never written. -/
def BenchLine.empty : BenchLine := ⟨.invalid, 0, false, false, false, none⟩

/-- A vector register with its poison mark (R247). -/
structure VReg where
  bits : VWord
  poison : Bool
deriving DecidableEq, Repr

/-- A vector register after a commit (R631). -/
def VReg.zero : VReg := ⟨0, false⟩

/-- An active loop (R195). -/
structure LoopFrame where
  start : Nat
  last : Nat
  count : Nat
deriving DecidableEq, Repr

/-- The state of a sequencer (R218), with the step of R201 a settling core is in. -/
inductive SeqState where
  | noKernel
  | issuing
  /-- Step 1 of R201: settling at a TILE (with its budget) or a HALT, and the PC of that instruction. -/
  | settling (halt : Bool) (budget at' : Nat)
  /-- Step 2 of R201: settled, waiting for the other cores. -/
  | met (halt : Bool) (budget at' : Nat)
  | halted
  | stopped
deriving DecidableEq, Repr

/-- The commit state of a core (R202). -/
structure CommitState where
  pc : Nat
  s : SMap DWord
  p : SMap Bool
  loops : List LoopFrame
  m : SMap MaxReg
  an : SMap Int
  ca : SMap CrumbAcc
  step : Word
  seed : DWord
deriving DecidableEq, Repr

/-- The commit state of a new context (R192). -/
def CommitState.zero : CommitState := ⟨0, [], [], [], [], [], [], 0, 0⟩

/-- A program write to bytes of a Bench line (R148, R149). -/
structure BWrite where
  line : Nat
  data : Line
  mask : BitVec 128
  poison : Bool
deriving DecidableEq, Repr

/-- A fault an instruction raises: code and detail of R297 and R299, its slot and PC, and the unit of the core that
raises it (k of R30). -/
structure FaultInfo where
  code : Nat
  detail : Nat
  slot : Nat
  pc : Nat
  unit : Nat
deriving DecidableEq, Repr

/-- What takes effect at the end of a program cycle (R185). -/
inductive Act where
  | sreg (i : Nat) (v : DWord)
  | pred (i : Nat) (b : Bool)
  | mreg (i : Nat) (v : MaxReg)
  | anchor (i : Nat) (a : Int)
  | step (v : Word)
  | seed (v : DWord)
  | mclear (i : Nat)
  | mjoin (i : Nat) (v : MaxReg)
  | vreg (i : Nat) (v : VReg)
  /-- The data of a VLD (R248): register, part, the register's new lanes, poison of the lines. -/
  | vload (i : Nat) (part : Nat) (bits : VWord) (poison : Bool)
  | crumb (ca : Nat) (d : CrumbAdd)
  | bench (w : BWrite)
  /-- A line of an XRECV (R271) lands. -/
  | land (xfer line : Nat) (data : Line) (poison : Bool)
  | raise (f : FaultInfo)
deriving DecidableEq, Repr

/-- A delayed effect: the program cycle at whose end it takes effect, and its place among the effects of that cycle
(R81, R149, R186): 0 clears of running maxima, 1 register writes, 2 updates, 10 to 13 drains, 14 VST, 15 BCOPY,
16 XRECV. -/
structure Delayed where
  due : Nat
  rank : Nat
  act : Act
deriving DecidableEq, Repr

/-- A weight tile with its side data (R227, R228), as read; an expanded value is formed where it is used. -/
structure Tile where
  fmt : Nat
  tgt : Nat
  mode : Nat
  lines : List Line
  side : List Line
  poison : Bool
deriving DecidableEq, Repr

/-- A WLD that is still reading: its first cycle, tile lines in all, and the Bench lines of tile and side data. -/
structure WldJob where
  start : Nat
  total : Nat
  sides : Nat
  rw : Nat
  rx : Nat
  pc : Nat
  tile : Tile
deriving DecidableEq, Repr

/-- The weight shadow of an array (R125, R229). -/
inductive Shadow where
  | empty
  | writing (job : WldJob)
  | loaded (t : Tile)
deriving DecidableEq, Repr

/-- An activation row (R264): its format, element bits, the 8 MX scale bytes, and its poison mark. -/
structure AqRow where
  fmt : Nat
  data : BitVec 2048
  scales : BitVec 64
  poison : Bool
deriving DecidableEq, Repr

/-- The state of an output accumulator bank (R135). -/
inductive BankState where
  | zero
  | open
  | spent
deriving DecidableEq, Repr

/-- A row of 128 entries; an absent row is a row of zeros. -/
abbrev AxRow := List Ax80

/-- An output accumulator bank (R135): `top` is one more than the highest row an MMA wrote since ZERO. -/
structure Bank where
  st : BankState
  anchor : Option Int
  count : Nat
  suspect : Bool
  rows : SMap AxRow
  top : Nat
deriving DecidableEq, Repr

/-- A ZERO bank. -/
def Bank.zero : Bank := ⟨.zero, none, 0, false, [], 0⟩

/-- A row in flight through an array (R123): the cycle in which it lands, where, and what it carries. -/
structure RowFlight where
  job : Nat
  bank : Nat
  row : Nat
  due : Nat
  act : AqRow
  tile : Tile
  anchor : Int
  pc : Nat
deriving DecidableEq, Repr

/-- An array of an MMA: its number, the bank it names, the tile and anchor at the MMA's issue. -/
structure MmaArray where
  array : Nat
  bank : Nat
  tile : Tile
  anchor : Int
deriving DecidableEq, Repr

/-- An MMA whose rows are still being popped (R232). -/
structure MmaJob where
  id : Nat
  b16 : Bool
  start : Nat
  rows : Nat
  popped : Nat
  arrays : List MmaArray
  pc : Nat
deriving DecidableEq, Repr

/-- An ACT in delivery (R264): rows read so far wait in `buf` with the cycle in which they can be popped. -/
structure ActJob where
  fmt : Nat
  line : Nat
  pitch : Nat
  sx : Nat
  rows : Nat
  start : Nat
  read : Nat
  buf : List (Nat × AqRow)
  pc : Nat
deriving DecidableEq, Repr

/-- The drain descriptor of R236, decoded. -/
structure DrainDesc where
  mask : BitVec 128
  bias : Nat
  scale : Nat
  opLine : Nat
  opFmt : Nat
  opStride : Nat
  tapLine : Nat
  tapAnchor : Int
  mxLine : Nat
  pitch : Nat
  stream : Word
  crumbKey : Word
  base : DWord
  rowStride : DWord
  colStride : DWord
deriving DecidableEq, Repr

/-- What a drain path runs (R238). -/
inductive DrainKind where
  | drain (bank : Nat)
  | pbdrain (slot : Nat)
  /-- A FOLD: its bank with the state it had at the issue, its slots and the tags they must have. -/
  | fold (bank sa : Nat) (sb : Option Nat) (tagA tagB : Word) (was : BankState)
deriving DecidableEq, Repr

/-- An instruction on a drain path, with all it captured at its issue (R187, R236, R239). `snap` is the bank as a ZOA
found it while this reader was still to read it (R137). -/
structure DrainJob where
  id : Nat
  kind : DrainKind
  issue : Nat
  f : DrainF
  desc : DrainDesc
  dest : DWord
  bias : List Word
  scale : List Word
  biasPoison : Bool
  scalePoison : Bool
  seed : DWord
  step : Word
  anchor : Int
  next : Nat
  snap : Option Bank
  pc : Nat
  /-- A PBDRAIN that goes on beyond an abandon (R175): its registers and Crumbs are restored, so only its writes remain. -/
  beyond : Bool
deriving DecidableEq, Repr

/-- A drained row between its read and its write (R140, R240): all its output, formed when it was read. -/
structure DqRow where
  /-- The row is a PBDRAIN's. -/
  pb : Bool
  readAt : Nat
  row : Nat
  f : DrainF
  desc : DrainDesc
  dest : DWord
  out : Nat
  mxScales : Word
  tap : BitVec 128
  poison : Bool
  maxr : MaxReg
  first : Bool
  crumb : CrumbAdd
  detail : Nat
  pc : Nat
deriving DecidableEq, Repr

/-- One array with its banks and its drain path. -/
structure ArrayS where
  active : Option Tile
  shadow : Shadow
  idleFrom : Nat
  idleTo : Nat
  bank0 : Bank
  bank1 : Bank
  flight : List RowFlight
  jobs : List DrainJob
  lastRead : Nat
  /-- The bank and row of that read, where the reader reads a bank that a ZOA has cleared behind it (R137, R138). -/
  lastRow : Option (Nat × Nat)
  dq : List DqRow
deriving DecidableEq, Repr

/-- An array after a reset of its partition. -/
def ArrayS.reset : ArrayS := ⟨none, .empty, 0, 0, .zero, .zero, [], [], 0, none, []⟩

/-- A Proof Buffer slot (R160). -/
structure PbSlot where
  isOpen : Bool
  tag : Word
  anchor : Option Int
  count : Nat
  readMark : Bool
  rows : SMap AxRow
deriving DecidableEq, Repr

/-- A slot after a reset of its partition (R161). -/
def PbSlot.zero : PbSlot := ⟨false, 0, none, 0, false, []⟩

/-- The kinds of Proof Buffer instruction (R174); R175 counts all but the PBDRAIN. -/
inductive PbKind where
  | fold
  | drain
  | zero (tag : Word)
  | spillW
  | spillA
  | load (tag : Word)
deriving DecidableEq, Repr

/-- A Proof Buffer instruction that a Peel engine carries out as a transfer (R171). -/
def PbKind.isImage : PbKind → Bool
  | .spillW => true
  | .spillA => true
  | .load _ => true
  | _ => false

/-- A Proof Buffer instruction in issue order (R174): the slots it names, whether it has begun and ended, the next row
it handles, and whether R175 suppresses it. -/
structure PbOp where
  id : Nat
  kind : PbKind
  slots : List Nat
  begun : Bool
  next : Nat
  suppressed : Bool
deriving DecidableEq, Repr

/-- A BCOPY in progress (R268). -/
structure BcopyJob where
  src : Nat
  dst : Nat
  lines : Nat
  start : Nat
  down : Bool
  next : Nat
  pc : Nat
deriving DecidableEq, Repr

/-- What a transfer of a core is. -/
inductive XferKind where
  | peel (eng : Nat)
  | pbufImage (eng : Nat)
  | dssld
  | dssst
  | xsend
  | xrecv
  | xred
deriving DecidableEq, Repr

/-- A transfer of a core that has been accepted and has not completed: its source lines still held, its destination
lines still PENDING, the lines read so far, and the DSS offset where it has one. -/
structure Xfer where
  id : Nat
  kind : XferKind
  src : List Nat
  dst : List Nat
  buf : List (Line × Bool)
  dss : Nat
  first : Nat
deriving DecidableEq, Repr

/-- The address of a core for messages (R270). -/
structure MsgAddr where
  node : NodeId
  pt : Pt
  core : LCore
deriving DecidableEq, Repr

/-- A message (R270, R284): its lines with their poison. -/
structure Msg where
  src : MsgAddr
  dst : MsgAddr
  tag : Word
  count : Nat
  lines : List (Line × Bool)
deriving DecidableEq, Repr

/-- A message in a send XQ; its data is in the transfer `xfer` until the lines have been read. -/
structure SendMsg where
  xfer : Nat
  msg : Msg
deriving DecidableEq, Repr

/-- An XRED.MAX of the tile (R275, R460): its transfer, its result, and whether an XFENCE has applied it. -/
structure MaxRed where
  xfer : Nat
  group : Word
  mx : Nat
  result : Option MaxReg
  applied : Bool
deriving DecidableEq, Repr

/-- One physical core. -/
structure Core where
  -- sequencer (R183)
  pc : Nat
  s : SMap DWord
  p : SMap Bool
  m : SMap MaxReg
  an : SMap Int
  step : Word
  seed : DWord
  loops : List LoopFrame
  seq : SeqState
  nextAt : Nat
  inBrp : Bool
  prog : SMap Bundle
  progLen : Nat
  commit : CommitState
  writes : List Delayed
  -- heartbeat (R205, R486)
  progress : BitVec 16
  lastBeat : Nat
  watched : Bool
  -- service (R464)
  failed : Bool
  retired : Bool
  -- vector and Crumb units
  v : SMap VReg
  vBusy : Nat
  ca : SMap CrumbAcc
  -- Bench and queues
  bench : SMap BenchLine
  aq : List AqRow
  acts : List ActJob
  mmas : List MmaJob
  /-- The first cycle in which the activation stream takes the row of a later MMA (R120, R121, R124, R232). -/
  streamFree : Nat
  bcopies : List BcopyJob
  xfers : List Xfer
  sendXq : List SendMsg
  recvXq : List Msg
  maxReds : List MaxRed
  /-- Operations of the core on each collective group (R276, R406). -/
  xbars : SMap Nat
  /-- The operand of an XTIME that has been released (R45). -/
  timeAt : Option DWord
  -- arrays and Proof Buffer
  arrays : SMap ArrayS
  pb : SMap PbSlot
  pbOps : List PbOp
  /-- One more than the cycle in which a slot's port last took a row (R166). -/
  pbPort : SMap Nat
  /-- Instructions of R175 issued since the tile began, and how many of them a re-run suppresses. -/
  pbIssued : Nat
  pbSuppress : Nat
  -- carried transfers (R460): how many the re-run issues without effect, and how many it has issued
  carried : Nat
  issuedXfers : Nat
  -- ports of the Bench in this cycle (R150)
  reads : Nat
  wlines : Nat
  nextId : Nat
  /-- Instructions already counted for a precision-loss event (R95). -/
  lossIds : NatSet
deriving DecidableEq, Repr

/-- A core after power-up: every register at zero (log 3), every line INVALID, every bank and slot ZERO. -/
def Core.reset : Core :=
  { pc := 0, s := [], p := [], m := [], an := [], step := 0, seed := 0, loops := [], seq := .noKernel, nextAt := 0,
    inBrp := false, prog := [], progLen := 0, commit := .zero, writes := [],
    progress := 0, lastBeat := 0, watched := false, failed := false, retired := false,
    v := [], vBusy := 0, ca := [], bench := [], aq := [], acts := [], mmas := [], streamFree := 0, bcopies := [], xfers := [],
    sendXq := [], recvXq := [], maxReds := [], xbars := [], timeAt := none, arrays := [], pb := [], pbOps := [], pbPort := [], pbIssued := 0,
    pbSuppress := 0, carried := 0, issuedXfers := 0, reads := 0, wlines := 0, nextId := 0,
    lossIds := [] }

/-- A scalar register (R183). -/
def Core.sreg (k : Core) (i : Nat) : DWord := smapGet 0 k.s i

/-- A predicate: p0 always reads 1 (R183). -/
def Core.pred (k : Core) (i : Nat) : Bool := if i = 0 then true else smapGet false k.p i

/-- A running-maximum register (R79). -/
def Core.mreg (k : Core) (i : Nat) : MaxReg := smapGet .zero k.m i

/-- An anchor register (R86). -/
def Core.anchor (k : Core) (i : Nat) : Int := smapGet 0 k.an i

/-- A vector register (R247). -/
def Core.vreg (k : Core) (i : Nat) : VReg := smapGet .zero k.v i

/-- A Crumb accumulator (R317). -/
def Core.crumb (k : Core) (i : Nat) : CrumbAcc := smapGet .zero k.ca i

/-- A Bench line (R146). -/
def Core.line (k : Core) (i : Nat) : BenchLine := smapGet .empty k.bench i

/-- An array. -/
def Core.array (k : Core) (a : Nat) : ArrayS := smapGet .reset k.arrays a

/-- A Proof Buffer slot. -/
def Core.slot (k : Core) (i : Nat) : PbSlot := smapGet .zero k.pb i

/-- A bundle of the program store (R191). -/
def Core.bundle (k : Core) (i : Nat) : Bundle := smapGet 0 k.prog i

/-- A bank of an array. -/
def ArrayS.bank (a : ArrayS) (b : Nat) : Bank := if b = 0 then a.bank0 else a.bank1

/-- The array with a bank replaced. -/
def ArrayS.setBank (a : ArrayS) (b : Nat) (v : Bank) : ArrayS :=
  if b = 0 then { a with bank0 := v } else { a with bank1 := v }

/-- The core with an array replaced. -/
def Core.setArray (k : Core) (a : Nat) (v : ArrayS) : Core := { k with arrays := smapSet .reset k.arrays a v }

/-- The core with a slot replaced. -/
def Core.setSlot (k : Core) (i : Nat) (v : PbSlot) : Core := { k with pb := smapSet .zero k.pb i v }

/-- The core with a Bench line replaced. -/
def Core.setLine (k : Core) (i : Nat) (v : BenchLine) : Core := { k with bench := smapSet .empty k.bench i v }

/-- A line that an XRECV fills (R147). -/
def Core.landLine (k : Core) (xfer line : Nat) (data : Line) (poison : Bool) : Core :=
  match (k.line line).hold with
  | some h =>
    if h.xfer = xfer then k.setLine line ⟨.valid, data, poison, true, true, none⟩ else k
  | none => k

/-- An XRECV whose lines have not all landed puts them down: the transfer goes on whatever becomes of its tile (R460). -/
def Core.flushRecv (k : Core) : Core :=
  let k1 := k.writes.foldl (fun k w => match w.act with
    | .land x i d p => k.landLine x i d p
    | _ => k) k
  { k1 with xfers := k1.xfers.filter fun x => x.kind != .xrecv }

/-- The core with one more delayed effect, latest last. -/
def Core.delay (k : Core) (due rank : Nat) (a : Act) : Core := { k with writes := k.writes ++ [⟨due, rank, a⟩] }

end Sys2Proof.Machine
end

