-- ==== Sys2Proof/Machine/FabState.lean ====
section
/-! DEFINITION. The state of the Thatre fabric (12_thatre_fabric.md): ports, packets, requests, windows, the routing
table, the collective engine, time synchronisation. -/

namespace Sys2Proof.Machine

/-- The state of a port (R376). -/
inductive PortState where
  | off
  | train
  | link
  | up
deriving DecidableEq, Repr

/-- The code of R415. -/
def PortState.code : PortState → Nat
  | .off => 0
  | .train => 1
  | .link => 2
  | .up => 3

/-- A master and the hops to it, as a hello adverts them (R390, R410). -/
structure Advert where
  master : NodeId
  hops : Nat
deriving DecidableEq, Repr

/-- A data flit in the replay buffer of a port (R381): how often it has been replayed. -/
structure SentFlit where
  seq : BitVec 12
  flit : MemLine
  replays : Nat
deriving DecidableEq, Repr

/-- A router port (R371, R376 to R384, R415). `lanes` held lock when the port last trained, and `lanesOut` have left service
since; `sent` are the data flits that wait for their acknowledgement; `credits` what the sender holds for each virtual channel, `owed`
the places of the receive buffers that its peer has still to hear of, and `ackDue` that it has an ACK to hear; `queue` the packets that
wait to be sent, `rest` the bytes of each channel that a flit has begun, `turn` the channel of VC0 to VC2 whose turn it is (R380,
R387). `delay` is the link delay in 1/16 ns, `t1` the stamp of the last DELAY_REQ in 1/8 ns (R411). -/
structure Port where
  en : Bool
  rateCap : Bool
  timeEn : Bool
  st : PortState
  width : Nat
  rate : Bool
  loopback : Bool
  downSeen : Bool
  widthChanged : Bool
  peerNode : NodeId
  peerPort : BitVec 6
  peerUid : Option DWord
  retries : Nat
  trainFails : Nat
  txSeq : BitVec 12
  rxSeq : BitVec 12
  sent : List SentFlit
  credits : SMap Nat
  owed : SMap Nat
  ackDue : Bool
  turn : Nat
  rest : SMap (List Byte)
  signal : Bool
  trainStart : Nat
  backoff : Option Nat
  lastHello : Nat
  /-- When the port last sent a flit (R484). -/
  lastFlit : Nat
  lanes : Nat
  lanesOut : NatSet
  queue : List Packet
  advert : Option Advert
  delay : Int
  t1 : Option Nat
deriving DecidableEq, Repr

/-- A port after a power cycle (R415). -/
def Port.reset : Port :=
  { en := true, rateCap := true, timeEn := true, st := .off, width := 0, rate := false, loopback := false,
    downSeen := false, widthChanged := false, peerNode := 0, peerPort := 0, peerUid := none, retries := 0,
    trainFails := 0, txSeq := 0, rxSeq := 0, sent := [], credits := [], owed := [], ackDue := false, turn := 0, rest := [], signal := false,
    trainStart := 0, backoff := none, lastHello := 0, lastFlit := 0, lanes := 0, lanesOut := [], queue := [], advert := none, delay := 0,
    t1 := none }

/-- Who waits for the answer of a request the module sent (R402, R403, R541). A Peel transfer is named by its die,
engine, core and transfer number; `off` is the place of the bytes in its row stream. `at'` is the local address of the host's own
operation when it began (R404). -/
inductive Issuer where
  | peelRead (die eng core xfer off : Nat)
  | peelWrite (die eng core xfer : Nat)
  | message (core xfer : Nat)
  | fabOp (at' : Nat)
deriving DecidableEq, Repr

/-- A VC0 request that waits for its answer (R402). -/
structure FabReq where
  dst : NodeId
  seq : Word
  pkt : Packet
  issuer : Issuer
  first : Nat
  last : Nat
deriving DecidableEq, Repr

/-- A message held for a receiver that answered NOT_READY (R405). -/
structure HeldMsg where
  dst : NodeId
  tag : Word
  core : Nat
deriving DecidableEq, Repr

/-- An answer other than ACK and READ_DATA that a request from a peer has had (R402, R405): a duplicate has it again. -/
structure Told where
  src : NodeId
  seq : Word
  kind : Byte
  reason : Word
deriving DecidableEq, Repr

/-- A fabric window (R400). -/
structure FabWin where
  base : BitVec 48
  limit : BitVec 48
  lo : NodeId
  hi : NodeId
  r : Bool
  w : Bool
  a : Bool
  en : Bool
deriving DecidableEq, Repr

/-- A window at reset (R415). -/
def FabWin.reset : FabWin := ⟨0, 0, 0, 0, false, false, false, false⟩

/-- The host's one-sided operation (R404, R415). -/
structure FabOp where
  addr : DWord
  localAddr : DWord
  kind : BitVec 2
  len : BitVec 11
  busy : Bool
  done : Bool
  error : BitVec 3
deriving DecidableEq, Repr

/-- FAB_OP at reset. -/
def FabOp.reset : FabOp := ⟨0, 0, 0, 0, false, false, 0⟩

/-- A group entry of the collective engine (R406, R416). -/
structure CollGroup where
  id : Word
  pTotal : BitVec 16
  nNodes : BitVec 12
  valid : Bool
  localPt : BitVec 16
  nlBase : BitVec 16
deriving DecidableEq, Repr

/-- An entry at reset (R416). -/
def CollGroup.reset : CollGroup := ⟨0, 0, 0, false, 0, 0⟩

/-- A member of a collective operation on this module: where it stands, what it presents, and its destination. -/
structure CollMember where
  pt : Nat
  c : Nat
  k : Nat
  xfer : Nat
  mx : Nat
  src : Nat
  dst : Nat
  status : Nat
  pc : Nat
  inp : CollInput
  ready : Bool
  /-- False for a member of a rewound core whose instruction has not been issued again (R471). -/
  linked : Bool
deriving DecidableEq, Repr

/-- What the members of an operation agree on (R407), how many they are, and how many nodes they stand on. -/
structure CollAgreed where
  head : CollInput
  total : Nat
  sources : Nat
deriving DecidableEq, Repr

/-- The result of a segment, and whether R100 marked a word of it (R408). -/
structure CollSeg where
  seg : Nat
  share : CollShare
  marked : Bool
deriving DecidableEq, Repr

/-- An operation of a group in flight: the k-th of each member (R406). `agreed` stands once the checks of R407 have passed, `given` once
this node's contributions are on their way; `shares` are the contributions to the segments that it owns, by node, `results` the segments
that are known. -/
structure CollRun where
  group : Word
  idx : Nat
  locals : List CollMember
  remote : List (NodeId × CollInput)
  agreed : Option CollAgreed
  given : Bool
  shares : List (NodeId × Nat × CollShare)
  results : List CollSeg
deriving DecidableEq, Repr

/-- The fabric with the registers of R415 and R416. `nextSeq` numbers requests by destination, `execSeq` is the next
number to execute from a source, `early` the requests that arrived ahead (R402); `outbox` are the module's own packets that the router
has still to take; `owed` are the nodes, with the flow label of their message, that were told NOT_READY for a core; `msgFilter` is
FAB_PT_MSGn. -/
structure Fabric where
  node : NodeId
  writeIgnored : Bool
  mgmtLock : Bool
  alertEn : Bool
  dupId : Bool
  ttlDrop : Bool
  refused : Bool
  rtAddr : BitVec 16
  route : SMap (BitVec 24)
  op : FabOp
  msgFilter : SMap Word
  wins : SMap FabWin
  ports : SMap Port
  reqs : List FabReq
  nextSeq : SMap Word
  execSeq : SMap Word
  early : List Packet
  outbox : List Packet
  told : List Told
  held : List HeldMsg
  owed : List (NodeId × Byte × Nat × Nat)
  grpSel : BitVec 10
  groups : SMap CollGroup
  nlSel : BitVec 16
  nodeList : SMap NodeId
  runs : List CollRun
  collDone : SMap Nat
  collLastBeat : Nat
  nextXfer : Nat
deriving DecidableEq, Repr

/-- The fabric after a power cycle. -/
def Fabric.reset : Fabric :=
  { node := 0, writeIgnored := false, mgmtLock := false, alertEn := false, dupId := false, ttlDrop := false,
    refused := false, rtAddr := 0, route := [], op := .reset, msgFilter := [], wins := [], ports := [], reqs := [],
    nextSeq := [], execSeq := [], early := [], outbox := [], told := [], held := [], owed := [], grpSel := 0, groups := [], nlSel := 0,
    nodeList := [], runs := [], collDone := [], collLastBeat := 0, nextXfer := 0 }

end Sys2Proof.Machine
end

