-- ==== Sys2Proof/Machine/HostState.lean ====
section
/-! DEFINITION. The state of the PCI Express port (17_host_pcie.md) and of its functions: 0 is the PF, n + 1 is VFn. -/

namespace Sys2Proof.Machine

/-- An MSI-X table entry (R537). -/
structure MsixEntry where
  addr : DWord
  data : Word
  masked : Bool
deriving DecidableEq, Repr

/-- An entry at reset: masked (log 5). -/
def MsixEntry.reset : MsixEntry := ⟨0, 0, true⟩

/-- A function (R534 to R537, R544): what its configuration holds, its MSI-X table and pending bits. -/
structure PcieFn where
  bme : Bool
  mse : Bool
  d3hot : Bool
  msixEn : Bool
  msix : SMap MsixEntry
  pend : NatSet
deriving DecidableEq, Repr

/-- A function after a reset. -/
def PcieFn.reset : PcieFn := ⟨false, false, false, false, [], []⟩

/-- A read request to the host in flight (R541): `got` are the bytes that have come. -/
structure HostRead where
  tag : Nat
  fn : Nat
  addr : Nat
  len : Nat
  got : Nat
  sent : Nat
  issuer : Issuer
deriving DecidableEq, Repr

/-- A condition of R545 that Advanced Error Reporting notes. -/
inductive AerErr where
  | unsupported
  | poisoned
  | cplError
  | cplTimeout
  | replay
  | surpriseDown
deriving DecidableEq, Repr

/-- The PCI Express port with the registers of R551. `bar2Log` is log2 of the PF's BAR2 size in GiB, `vfBar2Log` that of
the VFs'. -/
structure HostPort where
  perst : Bool
  gen : BitVec 3
  width : BitVec 5
  flit : Bool
  l0p : Bool
  vfEnable : Bool
  bar2Log : BitVec 4
  vfBar2Log : BitVec 4
  fns : SMap PcieFn
  evtVec : BitVec 11
  cplTo : BitVec 16
  replayCnt : Nat
  bar2Off : BitVec 48
  ltrValue : BitVec 10
  ltrScale : BitVec 3
  vfBase : SMap (BitVec 48)
  vfLimit : SMap (BitVec 48)
  reads : List HostRead
  nextTag : Nat
  /-- Max_Payload_Size, 128 · 2^code bytes, and Relaxed Ordering as the host has set them (R540). -/
  maxPayload : BitVec 3
  relaxed : Bool
  resume : Bool
  doe : Bool
  /-- What Advanced Error Reporting holds, by function, oldest first (R545). -/
  aer : List (Nat × AerErr)
  /-- A link has come up since the input came up, so that PCIE_LINK_STAT.DEGRADED no longer reads its reset value (log 35). -/
  trained : Bool
deriving DecidableEq, Repr

/-- The port before its first training, with the registers of R551 and BAR2 of 2 TiB and 1 GiB (R537). Max_Payload_Size and
Relaxed Ordering start as a PCI Express function has them (PRESUMED, log 35). -/
def HostPort.reset : HostPort :=
  { perst := true, gen := 0, width := 0, flit := false, l0p := false, vfEnable := false, bar2Log := 11, vfBar2Log := 0,
    fns := [], evtVec := 0, cplTo := 10000, replayCnt := 0, bar2Off := 0, ltrValue := 1, ltrScale := 2, vfBase := [],
    vfLimit := [], reads := [], nextTag := 0, maxPayload := 0, relaxed := true, resume := false, doe := false, aer := [],
    trained := false }

end Sys2Proof.Machine
end

