-- ==== Sys2Proof/Machine/LogState.lean ====
section
/-! DEFINITION. The state of the Global Time Base (01), the event log and the Health Ledger (19), the Crust registers and
the telemetry (14, 20), the Crumb log (09) and the pair captures (R15). -/

namespace Sys2Proof.Machine

/-- The Global Time Base (R37 to R44, R53). `gtb` and `rate` are 64.32 fixed point; `timedOut` says that the time-sync timeout has
passed without any advert (R410), `lastSync` when the last SYNC came (R413). -/
structure TimeBase where
  gtb : BitVec 96
  rate : BitVec 96
  lockedOnce : Bool
  locked : Bool
  holdover : Bool
  master : Bool
  stepped : Bool
  outOfSync : Bool
  timeCapable : Bool
  alertEn : Bool
  offset : Word
  masterId : NodeId
  ratePpb : Word
  stepOld : DWord
  stepNew : DWord
  timedOut : Bool
  lastSync : Nat
  /-- When the first port reached UP, and when the module last left reset (R413). -/
  upFirst : Option Nat
  resetLeft : Nat
  /-- The port of the time parent at the last election (R410). -/
  parent : Option Nat
deriving DecidableEq, Repr

/-- The time base at power-on (R39, R53); one nanosecond a TCLK cycle (log 2). -/
def TimeBase.reset : TimeBase :=
  { gtb := 0, rate := BitVec.ofNat 96 (2 ^ 32), lockedOnce := false, locked := false, holdover := false,
    master := false, stepped := false, outOfSync := false, timeCapable := true, alertEn := false, offset := 0,
    masterId := 0, ratePpb := 0, stepOld := 0, stepNew := 0, timedOut := false,
    lastSync := 0, upFirst := none, resetLeft := 0, parent := none }

/-- An event record (R585), without its sequence number. -/
structure Event where
  gtb : Nat
  src : Nat
  code : Nat
  detail : BitVec 96
  late : Bool
  corrupt : Bool
deriving DecidableEq, Repr

/-- An aggregation window of one source and event code (R589). -/
structure AggWin where
  src : Nat
  code : Nat
  window : Nat
  count : Nat
  first : Nat
deriving DecidableEq, Repr

/-- A read port of the event log and the Ledger (R590). -/
structure ReadPort where
  seq : Word
  capture : BitVec 256
  pos : Nat
  gone : Bool
  notYet : Bool
  page : BitVec 16
deriving DecidableEq, Repr

/-- A read port at reset. -/
def ReadPort.reset : ReadPort := ⟨0, 0, 0, false, false, 0⟩

/-- The event log (R586 to R588). `pending` are records their sources have not delivered yet; `ring` the committed ones
by position. -/
structure EventLog where
  pending : List Event
  buffer : List Event
  next : Nat
  ring : SMap (Nat × Event)
  last : Option (Nat × Nat)
  agg : List AggWin
  port : ReadPort
  portI3c : ReadPort
  extBase : DWord
  extSize : Word
  extSkip : Nat
deriving DecidableEq, Repr

/-- The event log at power-on. -/
def EventLog.reset : EventLog :=
  { pending := [], buffer := [], next := 0, ring := [], last := none, agg := [], port := .reset, portI3c := .reset,
    extBase := 0, extSize := 0, extSkip := 0 }

/-- A Health Ledger record (R576). -/
structure LedgerRec where
  type : Byte
  seq : Nat
  gtb : Nat
  src : Nat
  payload : List Byte
  /-- The CRC-32 that stands in its header. -/
  crc : Word
deriving DecidableEq, Repr

/-- The Ledger region of one die (R575 to R578): its active half, generation, records in order and bytes used, and the records
that the other half still holds. -/
structure LedgerRegion where
  half : Bool
  gen : Nat
  nextSeq : Nat
  recs : List LedgerRec
  used : Nat
  old : List LedgerRec
deriving DecidableEq, Repr

/-- An empty region (log 1). -/
def LedgerRegion.reset : LedgerRegion := ⟨false, 0, 0, [], 0, []⟩

/-- The cumulative values of a die's COUNTERS and LIFE records (R582); errors by structure of R445, in table order. -/
structure LifeCounters where
  eccCorrected : SMap Nat
  eccUncorrectable : SMap Nat
  residue : Nat
  abandons : Nat
  crustRepairs : Nat
  poison : Nat
  tastePass : Nat
  tasteFail : Nat
  hours : Nat
  thermalCycles : Nat
  peakTemp : Nat
  hourTemp : Nat
  lowTemp : Nat
deriving DecidableEq, Repr

/-- All zero. -/
def LifeCounters.reset : LifeCounters := ⟨[], [], 0, 0, 0, 0, 0, 0, 0, 0, 0, 0, 0⟩

/-- The hub OTP mirror (R583), as its fuses' counts and bitmaps. -/
structure Otp where
  cores : SMap Nat
  cols : SMap Nat
  engines : SMap (BitVec 8)
  positions : BitVec 400
  groups : BitVec 40
  lasers : SMap Nat
  waves : SMap (BitVec 4)
  retire : Bool
deriving DecidableEq, Repr

/-- No fuse blown (log 1). -/
def Otp.reset : Otp := ⟨[], [], [], 0, 0, [], [], false⟩

/-- The Health Ledger with its registers (R591). -/
structure Ledger where
  regions : SMap LedgerRegion
  life : SMap LifeCounters
  /-- Retries and lane changes of each link, by the source number of its port (R582). -/
  links : SMap (Nat × Nat)
  otp : Otp
  marginWarn : Bool
  inconsistent : Bool
  retireFlag : Bool
  compacting : Bool
  corrupt : Nat
  alertEn : Bool
  sweep : BitVec 20
  lastHour : Nat
  /-- The Ledger header passes its CRC (R584). -/
  headerOk : Bool
  /-- Abmito has read the Ledger since power-on (R577). -/
  scanned : Bool
deriving DecidableEq, Repr

/-- The Ledger at power-on (R591). -/
def Ledger.reset : Ledger :=
  { regions := [], life := [], links := [], otp := .reset, marginWarn := false, inconsistent := false, retireFlag := false,
    compacting := false, corrupt := 0, alertEn := false, sweep := 86400, lastHour := 0, headerOk := true,
    scanned := false }

/-- A Crust register: its three copies (R447). -/
structure CrustReg where
  a : Word
  b : Word
  c : Word
deriving DecidableEq, Repr

/-- What a read returns: the bitwise majority (R447). -/
def CrustReg.read (r : CrustReg) : Word := (r.a &&& r.b) ||| (r.a &&& r.c) ||| (r.b &&& r.c)

/-- Three equal copies. -/
def CrustReg.all (w : Word) : CrustReg := ⟨w, w, w⟩

/-- The Crust block (R600, R601). `waiting` are committed core and repair maps that wait for a TILE (R131); `crcs` the CRC of each
committed register group (R449), by the group's first offset. -/
structure Crust where
  regs : SMap CrustReg
  crcs : SMap Word
  waiting : List (Nat × Word)
  staged : List (Word × Word)
  crc : Word
  commits : Nat
  crcFail : Bool
  badAddr : Bool
  repairs : Nat
deriving DecidableEq, Repr

/-- The Crust block at reset: maps as crustReset gives them (log 1). -/
def Crust.reset : Crust := ⟨[], [], [], [], 0, 0, false, false, 0⟩

/-- A register's value at reset: the identity core map, unrepaired arrays (R129), working lasers 0 to 7, the group map of
a module with every group healthy, and zero elsewhere (log 1). -/
def crustReset (off : Nat) : Word :=
  if 0x060_2000 ≤ off ∧ off < 0x060_2080 then
    let w := off % 0x20 / 4
    if w < 6 then packWord [(4 * w, 0), (4 * w + 1, 8), (4 * w + 2, 16), (4 * w + 3, 24)] else 0
  else if 0x060_3000 ≤ off ∧ off < 0x060_30A0 then packWord [((off - 0x060_3000) / 4, 13)]
  else if 0x060_3600 ≤ off ∧ off < 0x060_3610 then 0x7654_3210
  else if 0x060_4000 ≤ off ∧ off < 0x060_5A00 ∧ off % 0x40 < 0x10 then 0x8382_8180
  else 0

/-- The three copies of a Crust register. -/
def Crust.reg (c : Crust) (off : Nat) : CrustReg := (smapFind c.regs off).getD (.all (crustReset off))

/-- The Crust block with a register's copies replaced. -/
def Crust.setReg (c : Crust) (off : Nat) (r : CrustReg) : Crust :=
  { c with regs := if r = .all (crustReset off) then smapErase c.regs off else smapInsert c.regs off r }

/-- A Crust register as a read returns it (R447). -/
def Crust.read (c : Crust) (off : Nat) : Word := (c.reg off).read

/-- The registers of a group for the CRC of R449, as `crustGroup` gives its first offset (log 11). -/
def crustGroupOffsets (g : Nat) : List Nat :=
  (List.range (if g < 0x060_2000 then 64 else if g < 0x060_3000 then 6 else if g < 0x060_3600 then 40 else if g < 0x060_8000 then 4
    else 64)).map fun i => g + 4 * i

/-- The group of a Crust register: a die's core map, an array set's repair maps, or the 256 bytes around it (log 11). -/
def crustGroup (off : Nat) : Nat :=
  if 0x060_2000 ≤ off ∧ off < 0x060_2080 then off - off % 0x20
  else if 0x060_4000 ≤ off ∧ off < 0x060_8000 then off - off % 0x40
  else off - off % 0x100

/-- The CRC-32 of a group as its registers read. -/
def Crust.groupCrc (c : Crust) (g : Nat) : Word :=
  crc32 ((crustGroupOffsets g).flatMap fun off => natBytes 4 (c.read off).toNat)

/-- The CRC that Abmito holds of a group (R449). -/
def Crust.heldCrc (c : Crust) (g : Nat) : Word := (smapFind c.crcs g).getD (Crust.reset.groupCrc g)

/-- A register takes a committed word: three copies, and the CRC of its group. -/
def Crust.put (c : Crust) (off : Nat) (w : Word) : Crust :=
  let c1 := c.setReg off (.all w)
  { c1 with crcs := smapInsert c1.crcs (crustGroup off) (c1.groupCrc (crustGroup off)) }

/-- The telemetry registers (R598, R599, R481). -/
structure Telemetry where
  binUs : BitVec 20
  nextUs : BitVec 20
  cur : Bool
  pageA : BitVec 8192
  pageB : BitVec 8192
  seq : Nat
  binStart : Nat
  /-- The telemetry bin that the first GTB step has ended (R40), while its page is still to come: its start, and the counts of each
  partition. -/
  cut : Option (Nat × SMap (Nat × Nat))
  ploss : SMap Nat
  tasteEn : Bool
  tastePeriod : BitVec 24
  tasteUnresolved : Bool
  tasteStarved : Nat
  tastePass : Nat
  tasteFail : Nat
deriving DecidableEq, Repr

/-- Telemetry at reset. -/
def Telemetry.reset : Telemetry :=
  { binUs := 1000, nextUs := 1000, cur := false, pageA := 0, pageB := 0, seq := 0, binStart := 0, cut := none, ploss := [],
    tasteEn := true, tastePeriod := 3600, tasteUnresolved := false, tasteStarved := 0, tastePass := 0, tasteFail := 0 }

/-- The Crumb log registers (R321); the ring itself lies in device memory (R320). -/
structure CrumbLog where
  en : Bool
  mode : Bool
  head : Nat
  tail : Nat
  lost : Nat
deriving DecidableEq, Repr

/-- The Crumb log after a module reset (R321). -/
def CrumbLog.reset : CrumbLog := ⟨true, false, 0, 0, 0⟩

end Sys2Proof.Machine
end

