-- ==== Sys2Proof/Machine/Memory.lean ====
section
/-! DEFINITION. The module's LPDDR5X memory (11_memory.md): bytes by local address, lines in the poison form, the groups
and their states, and the one way each of them is read and written. -/

namespace Sys2Proof.Machine

/-- A range of addresses whose bytes the spec leaves open since they were last written as a whole (log 9). -/
structure Area where
  base : Nat
  len : Nat
  seed : Nat
deriving DecidableEq, Repr

/-- A channel group (R345, R351, R352): its failed positions, whether it is retired, and the erasure corrections of each
position in the current 1 s window. -/
structure MemGroup where
  failed : BitVec 10
  retired : Bool
  counts : SMap Nat
  window : Nat
deriving DecidableEq, Repr

/-- A HEALTHY group (log 1). -/
def MemGroup.reset : MemGroup := ⟨0, false, [], 0⟩

/-- The memory with its registers (R370). `cells` lists every byte that differs from what an unlisted address reads as. -/
structure Mem where
  cells : List Host.Cell
  poison : NatSet
  /-- Lines whose last codec read met an error that it did not correct (log 37): none where it was found, a seed for the open bytes
  where it was not. -/
  errs : SMap (Option Nat)
  areas : List Area
  groups : SMap MemGroup
  qosPt : SMap (BitVec 8)
  qosHub : BitVec 8
  stateChanged : Bool
  hotRefresh : Bool
  alertEn : Bool
  scrubEn : Bool
  poisonCnt : Nat
  reformMask : BitVec 40
  reforming : Option (BitVec 40)
  reformDone : Bool
  reformError : BitVec 2
deriving DecidableEq, Repr

/-- The memory at reset: every byte 0 (R629), every group HEALTHY, registers as R370. -/
def Mem.reset : Mem :=
  { cells := [], poison := [], errs := [], areas := [], groups := [], qosPt := [], qosHub := 64, stateChanged := false,
    hotRefresh := false, alertEn := true, scrubEn := true, poisonCnt := 0, reformMask := 0, reforming := none,
    reformDone := false, reformError := 0 }

/-- 1 GiB and 1 MiB (R12). -/
def gib : Nat := 2 ^ 30
/-- 1 MiB (R12). -/
def mib : Nat := 2 ^ 20

/-- A group by its module group number (R345). -/
def Mem.group (m : Mem) (g : Nat) : MemGroup := smapGet .reset m.groups g

/-- The memory with a group replaced. -/
def Mem.setGroup (m : Mem) (g : Nat) (v : MemGroup) : Mem := { m with groups := smapSet .reset m.groups g v }

/-- The active groups in ascending order: their places are the active indices (R349). -/
def Mem.active (m : Mem) : List Nat := (List.range 40).filter fun g => !(m.group g).retired

/-- G, the number of active groups (R348). -/
def Mem.activeCount (m : Mem) : Nat := m.active.length

/-- A, the end of the local address space (R348). -/
def Mem.top (m : Mem) : Nat := m.activeCount * (32 * gib)

/-- The end of the host region (R348). -/
def Mem.hostTop (m : Mem) : Nat := m.top - 576 * mib

/-- The first byte of the Crumb log (R348). -/
def Mem.crumbBase (m : Mem) : Nat := m.top - 576 * mib

/-- The first byte of the dump region (R348). -/
def Mem.dumpBase (m : Mem) : Nat := m.top - 512 * mib

/-- The group that holds a local line (R349); the line is below A. -/
def Mem.groupOfLine (m : Mem) (line : Nat) : Nat := m.active.getD (line % m.activeCount) 0

/-- The number of set bits of a position mask. -/
def popCount10 (b : BitVec 10) : Nat := ((List.range 10).filter fun i => b.getLsbD i).length

/-- The state code of a group (R351, R370): 0 HEALTHY, 1 DEGRADED1, 2 DEGRADED2, 3 CRITICAL, 4 RETIRED. -/
def MemGroup.state (g : MemGroup) : Nat := if g.retired then 4 else min (popCount10 g.failed) 3

/-- A line belongs to a CRITICAL group (R351, R355). -/
def Mem.lineCritical (m : Mem) (line : Nat) : Bool := (m.group (m.groupOfLine line)).state == 3

/-- The area that covers an address, if any. -/
def Mem.areaAt (m : Mem) (a : Nat) : Option Area := m.areas.find? fun r => r.base ≤ a && a < r.base + r.len

/-- What an unlisted address reads as: 0 (R629), or a free byte in an area whose contents are open (log 9). -/
def Mem.unlisted (m : Mem) (a : Nat) : Byte :=
  match m.areaAt a with
  | some r => Config.freeByte r.seed a
  | none => 0

/-- The byte stored at a local address. -/
def Mem.byte (m : Mem) (a : Nat) : Byte := (smapFind m.cells a).getD (m.unlisted a)

/-- The codec could not correct a line when it last read it (R351). -/
def Mem.lineLost (m : Mem) (line : Nat) : Bool := smapFind m.errs line == some none

/-- A local line reads as poison (R351, R360). -/
def Mem.linePoison (m : Mem) (line : Nat) : Bool := m.poison.contains line || m.lineCritical line || m.lineLost line

/-- A byte as a reader gets it: what a poisoned line delivers beside its mark is open (log 9), and so is a line with an error that
DEGRADED2 does not see. -/
def Mem.read (m : Mem) (a : Nat) : Byte :=
  if m.linePoison (a / 256) then Config.freeByte 0 a
  else match smapFind m.errs (a / 256) with
    | some (some seed) => Config.freeByte seed a
    | _ => m.byte a

/-- A byte written. Outside the open areas a byte of 0 leaves no entry. -/
def Mem.setByte (m : Mem) (a : Nat) (b : Byte) : Mem :=
  if (m.areaAt a).isNone && b == 0 then { m with cells := smapErase m.cells a }
  else { m with cells := smapInsert m.cells a b }

/-- The canonical form of the memory: addresses strictly rising and no entry equal to what an unlisted address reads
as; inside an open area that value is unknown and an entry may stand. Poisoned lines and lines with errors rise strictly. -/
def Mem.wf (m : Mem) : Bool :=
  smapSorted m.cells && m.cells.all (fun c => (m.areaAt c.1).isSome || c.2 != 0) &&
    decide (m.poison.Pairwise (· < ·)) && smapSorted m.errs

/-- A line written in the poison form (R360, R361); MEM_POISON_CNT counts it. -/
def Mem.poisonLine (m : Mem) (line : Nat) : Mem :=
  { m with poison := natSetInsert m.poison line, errs := smapErase m.errs line, poisonCnt := satAdd32 m.poisonCnt 1 }

/-- The bytes of a list of offsets written into a line. -/
def Mem.putBytes (m : Mem) (base : Nat) (bs : List (Nat × Byte)) : Mem :=
  bs.foldl (fun m e => m.setByte (base + e.1) e.2) m

/-- A write into one line writes the poison form (R361): a poisoned payload, or a partial write into a line that reads as poison. -/
def Mem.poisons (m : Mem) (line : Nat) (bs : List (Nat × Byte)) (poisoned : Bool) : Bool :=
  !bs.isEmpty && !m.lineCritical line && (poisoned || (m.linePoison line && bs.length != 256))

/-- An area is written whose bytes the spec leaves open (log 9): its entries and poison marks go. -/
def Mem.openArea (m : Mem) (base len seed : Nat) : Mem :=
  if len = 0 then m
  else
    let inside := fun a => base ≤ a && a < base + len
    let m := { m with areas := ⟨base, len, seed⟩ :: m.areas }
    { m with cells := m.cells.filter (fun c => !inside c.1)
             poison := m.poison.filter (fun l => !(base ≤ l * 256 && l * 256 + 256 ≤ base + len))
             errs := m.errs.filter (fun e => !(base ≤ e.1 * 256 && e.1 * 256 + 256 ≤ base + len)) }

/-- A line is rewritten as the codec has read it: an error that it did not see stands in its bytes. -/
def Mem.rewriteLine (m : Mem) (line : Nat) : Mem :=
  let m1 := { m with poison := natSetErase m.poison line, errs := smapErase m.errs line }
  match smapFind m.errs line with
  | some (some seed) => m1.openArea (line * 256) 256 seed
  | _ => m1

/-- A write into one line (R355, R358, R361): `bs` are the offsets and bytes written. A CRITICAL group discards it; a clean
whole-line write replaces the poison form. A partial one reads, merges and writes the line. -/
def Mem.writeLine (m : Mem) (line : Nat) (bs : List (Nat × Byte)) (poisoned : Bool) : Mem :=
  if bs.isEmpty || m.lineCritical line then m
  else if m.poisons line bs poisoned then m.poisonLine line
  else (m.rewriteLine line).putBytes (line * 256) bs

/-- The bytes of a run that fall into one line, by their offset there. -/
def runInLine (line addr : Nat) (bs : List (Option Byte)) : List (Nat × Byte) :=
  (bs.zipIdx addr).filterMap fun (b, a) =>
    if a / 256 = line then b.map fun v => (a % 256, v) else none

/-- A write of a run of bytes, an absent byte leaving memory as it is. -/
def Mem.write (m : Mem) (addr : Nat) (bs : List (Option Byte)) (poisoned : Bool) : Mem :=
  (List.range (if bs.isEmpty then 0 else (addr + bs.length - 1) / 256 - addr / 256 + 1)).foldl
    (fun m k => m.writeLine (addr / 256 + k) (runInLine (addr / 256 + k) addr bs) poisoned) m

/-- The lines that a write of a run of bytes writes in the poison form. -/
def Mem.poisonedBy (m : Mem) (addr : Nat) (bs : List (Option Byte)) (poisoned : Bool) : List Nat :=
  ((List.range (if bs.isEmpty then 0 else (addr + bs.length - 1) / 256 - addr / 256 + 1)).map (addr / 256 + ·)).filter
    fun line => m.poisons line (runInLine line addr bs) poisoned

/-- A write of present bytes. -/
def Mem.writeAll (m : Mem) (addr : Nat) (bs : List Byte) (poisoned : Bool) : Mem :=
  m.write addr (bs.map some) poisoned

/-- A run of bytes read, and whether any line of it reads as poison. -/
def Mem.readRun (m : Mem) (addr len : Nat) : List Byte × Bool :=
  ((List.range len).map fun k => m.read (addr + k),
    len != 0 && (List.range ((addr + len - 1) / 256 - addr / 256 + 1)).any fun k => m.linePoison (addr / 256 + k))

/-- A little-endian field of memory. -/
def Mem.field (m : Mem) (addr len : Nat) : Nat := bytesNat (m.readRun addr len).1

/-- What is left of an open area beside a range. -/
def Area.cut (r : Area) (base len : Nat) : List Area :=
  (if r.base < base then [{ r with len := min r.len (base - r.base) }] else []) ++
    (if base + len < r.base + r.len then
      [⟨max r.base (base + len), r.base + r.len - max r.base (base + len), r.seed⟩] else [])

/-- A range of whole lines written with zeros. -/
def Mem.zeroArea (m : Mem) (base len : Nat) : Mem :=
  let inside := fun a => base ≤ a && a < base + len
  { m with
      areas := m.areas.flatMap fun r => r.cut base len
      cells := m.cells.filter fun c => !inside c.1
      poison := m.poison.filter fun l => !(base ≤ l * 256 && l * 256 + 256 ≤ base + len)
      errs := m.errs.filter fun e => !(base ≤ e.1 * 256 && e.1 * 256 + 256 ≤ base + len) }

/-- Every line written as 256 zero bytes (R629). -/
def Mem.initialise (m : Mem) : Mem := { m with cells := [], poison := [], errs := [], areas := [] }

end Sys2Proof.Machine
end

