-- ==== Sys2Proof/Machine/PartState.lean ====
section
/-! DEFINITION. The state of partitions, hearth dies and their engines, contexts, Loafs, generations and the Batch Sheet
(04, 07, 08, 13, 14, 15). -/

namespace Sys2Proof.Machine

/-- A fault record of R299. -/
structure FaultRec where
  code : Nat
  detail : Nat
  core : Nat
  slot : Nat
  pc : Nat
  gtb : Nat
  src : Nat
  valid : Bool
  multi : Bool
deriving DecidableEq, Repr

/-- No fault recorded. -/
def FaultRec.none : FaultRec := ⟨0, 0, 0, 0, 0, 0, 0, false, false⟩

/-- Why a core waits (R285), with what ends it. -/
inductive Need where
  /-- Causes 0, 1 and 2: the line, with the cause its hold has. -/
  | line (i : Nat) (cause : Nat)
  /-- Cause 3. -/
  | aqRow
  /-- Cause 4. -/
  | peelQueue (eng : Nat)
  /-- Cause 5. -/
  | sendXq
  /-- Cause 6. -/
  | message (src : MsgAddr) (tag : Word)
  /-- Cause 7: the k-th XBAR of the core on a group. -/
  | xbar (group : Nat) (k : Nat)
  /-- Cause 8: the operand, 0 once it is released. -/
  | time (t : DWord)
  /-- Cause 9: transfers of the core numbered below `before`, of the named kinds. -/
  | fence (p x : Bool) (before : Nat)
  /-- Cause 10: the head of the DQ of an array. -/
  | dqHead (a : Nat)
  /-- Cause 11. -/
  | settle
deriving DecidableEq, Repr

/-- The cause number of R285. -/
def Need.cause : Need → Nat
  | .line _ c => c
  | .aqRow => 3
  | .peelQueue _ => 4
  | .sendXq => 5
  | .message .. => 6
  | .xbar .. => 7
  | .time _ => 8
  | .fence .. => 9
  | .dqHead _ => 10
  | .settle => 11

/-- A cause of a freeze: the physical core that needs it, whether it has ended, and the GTB at which it became active (R597). -/
structure FreezeNeed where
  core : Nat
  need : Need
  ended : Bool
  since : Nat
deriving DecidableEq, Repr

/-- The running kernel of a partition (R302, R428, R431): `prog0` and `reexec0` are the counters of R301 at its start. -/
structure RunInfo where
  /-- The serial number of the entry. -/
  entry : Nat
  ctx : Nat
  kernel : Nat
  startGtb : Nat
  plan : Nat
  background : Bool
  tiles : Nat
  prog0 : Int
  reexec0 : Int
  /-- The tile budget of a run that is off the cores. -/
  budget : Nat
deriving DecidableEq, Repr

/-- A partition PT0 to PT15. -/
structure Part where
  hold : Bool
  inReset : Bool
  refused : Bool
  quarantined : Bool
  die : DieNo
  first : BitVec 5
  count : BitVec 5
  en : Bool
  bad : Bool
  writeIgnored : Bool
  ctx : Option Nat
  fault : FaultRec
  cyc : Nat
  cycProg : Nat
  cycFrz : Nat
  cycHold : Nat
  cycReexec : Nat
  slip : Nat
  xqDrop : Nat
  frzCause : SMap Nat
  needs : List FreezeNeed
  /-- Notices of R286: the physical core and the cause that will end. -/
  notices : List (Nat × Nat)
  frzCycles : Nat
  lastCause : Option Nat
  frzStart : Nat
  holdNow : Bool
  stall : Nat
  run : Option RunInfo
  winStart : Nat
  winEnd : Option Nat
  budget : Nat
  tileProg0 : Int
  /-- Logical cores that have issued a bundle in the open window, and whether the partition froze or held in it (R485). -/
  issuedCores : List Nat
  rested : Bool
  atYield : Bool
  yieldReq : Bool
  perstHold : Bool
  dbgReq : Bool
  halted : Bool
  fp : Option Nat
  /-- Logical cores that replay a rewound context (R471). -/
  replay : List Nat
  outOfService : Bool
  abandons : Nat
  /-- A fault record was written in this cycle (R298). -/
  faultNow : Bool
  /-- HOLD was written 0 in this cycle (R596). -/
  releasedNow : Bool
  /-- The tile was abandoned in this cycle (R462). -/
  abandonNow : Bool
  /-- The XBARs of each group that have been released (R276). -/
  xbarRel : SMap Nat
  /-- Program cycles and frozen ACLK cycles of the present telemetry bin (R599). -/
  telProg : Nat
  telFrz : Nat
deriving DecidableEq, Repr

/-- A partition at reset: held, not configured (R157, R596). -/
def Part.reset : Part :=
  { hold := true, inReset := true, refused := false, quarantined := false, die := 0, first := 0, count := 0,
    en := false, bad := false, writeIgnored := false, ctx := none, fault := .none, cyc := 0, cycProg := 0, cycFrz := 0,
    cycHold := 0, cycReexec := 0, slip := 0, xqDrop := 0, frzCause := [], needs := [], notices := [], frzCycles := 0,
    lastCause := none, frzStart := 0, holdNow := false, stall := 0, run := none, winStart := 0, winEnd := none,
    budget := 0, tileProg0 := 0, issuedCores := [], rested := false, atYield := false, yieldReq := false, perstHold := false,
    dbgReq := false, halted := false, fp := none, replay := [], outOfService := false, abandons := 0,
    faultNow := false, abandonNow := false, releasedNow := false, xbarRel := [], telProg := 0, telFrz := 0 }

/-- A kind of descriptor in a Peel engine's queue: a PEEL (R265), or a Proof Buffer image transfer (R171). -/
inductive DescKind where
  | into
  | out
  | copy
  | stream
  | spillW
  | spillA
  | load
deriving DecidableEq, Repr

/-- A descriptor in a Peel engine's queue (R263, R265, R630). `xfer` is the transfer of its core; `op` the Proof Buffer
instruction it serves; `data` the bytes that requests have brought, by their place in the row stream; `sent` says that
its writes to a peer or the host have been issued. -/
structure PeelDesc where
  pt : Nat
  core : Nat
  xfer : Nat
  kind : DescKind
  space : Nat
  tsz : Nat
  line : Nat
  addr : Nat
  addr2 : Nat
  rowBytes : Nat
  rows : Nat
  memPitch : Nat
  benchPitch : Nat
  started : Bool
  received : Nat
  rowBuf : List (List (Option Byte) × Bool)
  sent : Bool
  data : List (Nat × List Byte × Bool)
  headerOk : Bool
  headerPoison : Bool
  imgPsn : Bool
  imgAnchor : Option Int
  imgCount : Nat
  slot : Nat
  op : Nat
  tag : Word
  pc : Nat
deriving DecidableEq, Repr

/-- A Peel engine (R263, R484, R498). -/
structure Engine where
  queue : List PeelDesc
  lastBeat : Nat
  servedBy : Option Nat
  retired : Bool
deriving DecidableEq, Repr

/-- An idle engine. -/
def Engine.reset : Engine := ⟨[], 0, none, false⟩

/-- The progress of a Tasting round on one array (R450 to R454): the number and the seed that Abmito gave it, the accumulators by column,
and whether the array has been quarantined. -/
structure TasteArr where
  round : Word
  seed : DWord
  loaded : Nat
  injected : Nat
  acc : SMap DWord
  flags : BitVec 5
  doneThisPeriod : Bool
  quarantined : Bool
deriving DecidableEq, Repr

/-- No round begun. -/
def TasteArr.reset : TasteArr := ⟨0, 0, 0, 0, [], 0, false, false⟩

/-- A DSS line (R25, R445). -/
structure DssLine where
  data : Line
  poison : Bool
deriving DecidableEq, Repr

/-- A DSS line never written (log 4). -/
def DssLine.zero : DssLine := ⟨0, false⟩

/-- A hearth die. -/
structure Die where
  engines : SMap Engine
  dss : SMap DssLine
  freqMhz : Nat
  /-- The step from the next cycle boundary on (R33). -/
  nextMhz : Nat
  thermal : Bool
  droop : Bool
  stretching : Bool
  stretchSeen : Bool
  phase : Nat
  outOfService : Bool
  /-- Exposed cores that the die has lost (R479). -/
  lostCores : Nat
  /-- The columns that field repairs have bypassed (R130), by 4 × physical core of the die + array. -/
  movedCols : SMap NatSet
  sparesLeft : Nat
  fieldCols : Nat
  taste : SMap TasteArr
deriving DecidableEq, Repr

/-- A hearth die at reset (R22, R54). -/
def Die.reset : Die :=
  { engines := [], dss := [], freqMhz := 1100, nextMhz := 1100, thermal := false, droop := false, stretching := false, stretchSeen := false,
    phase := 0,
    outOfService := false, lostCores := 0, movedCols := [], sparesLeft := 2, fieldCols := 0, taste := [] }

/-- What a context's core holds while the context is not on the cores (R417, R418, R420): its lines with their states,
its slots and its commit state. -/
structure SavedCore where
  bench : SMap BenchLine
  pb : SMap PbSlot
  commit : CommitState
  halted : Bool
deriving DecidableEq, Repr

/-- A core of a new context (R418). -/
def SavedCore.fresh : SavedCore := ⟨[], [], .zero, false⟩

/-- A record of a context's journal (R467): UNDO; IN of a message, a collective result, an XBAR and Peel data; OUT of an XSEND
(0), a contribution (1) and a Peel write (2). A result and a contribution name their group. -/
inductive JrnlRec where
  | undo (space addr : Nat) (bytes : List Byte)
  | msg (core : Nat) (m : Msg)
  | res (core group : Nat) (bytes : List Byte) (poison : Bool)
  | bar (core group : Nat)
  | peel (core : Nat) (bytes : List Byte) (poison : Bool)
  | out (core kind group : Nat)
deriving DecidableEq, Repr

/-- How one copy of an admitted entry ended (R434). -/
inductive CopyEnd where
  | waiting
  | running
  | halted
  | fault (code : Nat)
  | lost
deriving DecidableEq, Repr

/-- What a core holds of a kernel that has yielded, beside what its context holds (R192). -/
structure KernelRegs where
  pc : Nat
  s : SMap DWord
  p : SMap Bool
  loops : List LoopFrame
  halted : Bool
deriving DecidableEq, Repr

/-- Of no kernel. -/
def KernelRegs.zero : KernelRegs := ⟨0, [], [], [], false⟩

/-- An admitted entry that is not complete (R425 to R434), with what the module read of it; `serial` numbers admissions. -/
structure Admitted where
  idx : Nat
  serial : Nat
  express : Bool
  ctx : Nat
  kernel : Nat
  deadline : Nat
  gen : Word
  model : Nat
  args : List DWord
  setStep : Option Word
  setSeed : Option DWord
  msix : Option Nat
  tag : Word
  shadowMask : BitVec 16
  shadowOff : DWord
  seqFirst : Nat
  seqCount : Nat
  projected : Rat
  started : Bool
  startGtb : Nat
  /-- The schedule slip of each copy's kernel (R302). -/
  slip : Nat
  slip2 : Nat
  /-- Poisoned data has left the module in the result of each copy (R363, R432). -/
  poison1 : Bool
  poison2 : Bool
  primary : CopyEnd
  secondary : CopyEnd
  crumbs1 : List (Word × Word × CrumbAcc)
  crumbs2 : List (Word × Word × CrumbAcc)
  /-- The run of a background kernel that has yielded (R428), with what each core holds of it alone. -/
  saved : Option RunInfo
  regs : SMap KernelRegs
deriving DecidableEq, Repr

/-- The state of a context (R444). -/
inductive CtxState where
  | free
  | idle
  | resident
  | running
  | dead
deriving DecidableEq, Repr

/-- A context (R417, R418, R444, R473). `saved` is what its save area stands for, one list per copy; `ckpt` its last
complete checkpoint. -/
structure Ctx where
  pt : Pt
  pt2 : Pt
  express : Bool
  loaf : BitVec 4
  model : BitVec 4
  ctxlen : BitVec 2
  en : Bool
  save : DWord
  save2 : DWord
  st : CtxState
  bad : Bool
  unpaired : Bool
  code : Byte
  rwd : DWord
  jsize : BitVec 16
  ckptPeriod : BitVec 20
  lastCopy : Bool
  jrnlFull : Bool
  rewinds : Byte
  ckptGtb : Nat
  saved : SMap SavedCore
  saved2 : SMap SavedCore
  ckpt : Option (SMap SavedCore)
  journal : List JrnlRec
  replay : List JrnlRec
  /-- The kernel that ran at the checkpoint, those started since, and those a rewind has still to run again (R470). -/
  ckptRun : Option (Admitted × RunInfo)
  since : List Admitted
  redo : List Admitted
  stopped : Bool
  lost1 : Bool
  lost2 : Bool
deriving DecidableEq, Repr

/-- A FREE context (R444, R473). -/
def Ctx.reset : Ctx :=
  { pt := 0, pt2 := 0, express := false, loaf := 0, model := 0, ctxlen := 0, en := false, save := 0, save2 := 0,
    st := .free, bad := false, unpaired := false, code := 0, rwd := 0, jsize := 0, ckptPeriod := 10000,
    lastCopy := false, jrnlFull := false, rewinds := 0, ckptGtb := 0, saved := [], saved2 := [], ckpt := none,
    journal := [], replay := [], ckptRun := none, since := [], redo := [], stopped := false, lost1 := false, lost2 := false }

/-- The state of a Loaf slot (R444). -/
inductive LoafState where
  | empty
  | verifying
  | ready
  | refused
deriving DecidableEq, Repr

/-- A Loaf slot (R419), with the publisher slots and the address as they stood at LOAD (R569). -/
structure LoafSlot where
  addr : DWord
  base : DWord
  st : LoafState
  image : Option LoafImage
  keys : SMap (Option (List Byte))
deriving DecidableEq, Repr

/-- An EMPTY slot. -/
def LoafSlot.reset : LoafSlot := ⟨0, 0, .empty, none, []⟩

/-- The state of a generation load (R444). -/
inductive GenState where
  | none
  | loading
  | waitMemory
  | verified
  | failed
deriving DecidableEq, Repr

/-- A generation of a model slot (R437). -/
structure GenInfo where
  id : Word
  base : DWord
  len : DWord
deriving DecidableEq, Repr

/-- A shard of the manifest being loaded (R438, R439): offset, length, hash, the fetches that did not match from its primary and
from its replica, and whether it has matched. -/
structure ShardInfo where
  offset : Nat
  length : Nat
  hash : BitVec 512
  primary : Nat
  replica : Nat
  done : Bool
deriving DecidableEq, Repr

/-- A model slot (R437 to R442). -/
structure ModelSlot where
  manifest : DWord
  region : DWord
  timeout : BitVec 16
  st : GenState
  closed : Bool
  closeReq : Bool
  shard : BitVec 16
  loadStart : Nat
  load : Option GenInfo
  shards : List ShardInfo
  activate : Bool
  cur : Option GenInfo
  old : Option GenInfo
deriving DecidableEq, Repr

/-- A model slot at reset (R444). -/
def ModelSlot.reset : ModelSlot :=
  { manifest := 0, region := 0, timeout := 1000, st := .none, closed := false, closeReq := false, shard := 0,
    loadStart := 0, load := none, shards := [], activate := false, cur := none, old := none }

/-- A completion record waiting to be written (R431). -/
structure Completion where
  idx : Nat
  status : Nat
  code : Nat
  tag : Word
  startGtb : Nat
  slip : Nat
  flags : Nat
  deadline : Nat
  msix : Option Nat
  ctx : Option Nat
  model : Nat
  gen : Word
  seqFirst : Nat
  seqCount : Nat
  reject : Bool
deriving DecidableEq, Repr

/-- The Batch Sheet block (R444). -/
structure BatchSheet where
  base : DWord
  size : BitVec 13
  en : Bool
  scan : Nat
  held : List Nat
  cfgBad : Bool
  ctBase : DWord
  ctSize : BitVec 13
  ctHead : Nat
  ctTail : BitVec 12
  admitted : Nat
  rejected : Nat
  seqBase : DWord
  ptExpress : SMap Bool
  ctxSel : BitVec 6
  loafSel : BitVec 4
  genSel : BitVec 4
  seqBusy : NatSet
  scanner : Bool
  paused : Bool
  lastTick : Nat
  /-- The last tick found a READY entry (R522). -/
  sawReady : Bool
  serial : Nat
  run : List Admitted
  due : List Completion
deriving DecidableEq, Repr

/-- The Batch Sheet block at reset. -/
def BatchSheet.reset : BatchSheet :=
  { base := 0, size := 0, en := false, scan := 0, held := [], cfgBad := false, ctBase := 0, ctSize := 0, ctHead := 0,
    ctTail := 0, admitted := 0, rejected := 0, seqBase := 0, ptExpress := [], ctxSel := 0, loafSel := 0, genSel := 0,
    seqBusy := [], scanner := false, paused := false, lastTick := 0, sawReady := false, serial := 0, run := [], due := [] }

end Sys2Proof.Machine
end

