-- ==== Sys2Proof/Machine/SysState.lean ====
section
/-! DEFINITION. The state of power, wake and pins (16, 21), of security and flash (18), of the reset ladder, hangs and dumps
(15), of debug (20), and what is fused into the part. -/

namespace Sys2Proof.Machine

/-- The wake states of R521. -/
inductive WState where
  | w0
  | w1
  | w2
  | w3
  | w4
  | w5
deriving DecidableEq, Repr

/-- The number of a wake state. -/
def WState.code : WState → Nat
  | .w0 => 0
  | .w1 => 1
  | .w2 => 2
  | .w3 => 3
  | .w4 => 4
  | .w5 => 5

/-- A power band (R516). -/
structure Band where
  ceil : BitVec 14
  floor : BitVec 14
  ramp : BitVec 12
  phase : BitVec 20
  vinMin : BitVec 16
deriving DecidableEq, Repr

/-- The band at reset (R529). -/
def Band.reset : Band := ⟨2600, 0, 50, 0, 36000⟩

/-- Power, wake and the input with the registers of R529 and R628. `rails`: the main rails are in regulation. `apply` is a band
that takes effect at the next bin boundary, with or without FORCE; `heldBy` the serial numbers of the deadline entries for which
R517 keeps `oldFloor`. `binNext` is the end of the present power bin, `binSeen` says that one has ended, `fcNext` the earliest t0
of the next forecast, `idleFrom` the start of the present idle time. `page0` and `page1` are the halves of the forecast (R519).
`w3Ctx` lists the partitions whose contexts W3 has saved. -/
structure Power where
  st : WState
  target : WState
  exiting : Bool
  pwrEn : Bool
  pwrEnAt : Nat
  rails : Bool
  pwrGood : Bool
  wakeTol : Word
  allowW5 : Bool
  fcastIbi : Bool
  alertEn : Bool
  w3Save : DWord
  staged : Band
  band : Band
  apply : Option (Band × Bool)
  bad : Bool
  forced : Bool
  floorMhz : Nat
  cEff : Nat
  oldFloor : Nat
  heldBy : List Nat
  ceilExceed : Bool
  rampExceed : Bool
  floorShort : Bool
  bandLow : Bool
  vinLow : Bool
  thermBelow : Bool
  draw : Nat
  ballast : Nat
  binMiss : Nat
  binNext : Nat
  /-- A power bin that the first GTB step has ended is still to be judged (R40). -/
  binCut : Bool
  binSeen : Bool
  fcNext : Nat
  vinMv : BitVec 16
  current : BitVec 16
  fcCur : Bool
  page0 : BitVec 6528
  page1 : BitVec 6528
  fcSeq : Nat
  idleFrom : Option Nat
  ovp : Bool
  ovpSeen : Bool
  tripped : Bool
  /-- THERM_TRIP_N is asserted (R617). -/
  tripPin : Bool
  tripSeen : Bool
  tripDie : BitVec 5
  alwaysOn : Bool
  slotId : BitVec 4
  wakeN : Bool
  w3Ctx : List (Nat × Nat)
deriving DecidableEq, Repr

/-- Power with the always-on domain at its reset values and the main rails off (R529, R628, log 1). -/
def Power.reset : Power :=
  { st := .w5, target := .w5, exiting := false, pwrEn := false, pwrEnAt := 0, rails := false, pwrGood := false,
    wakeTol := 0, allowW5 := false, fcastIbi := false, alertEn := false, w3Save := 0, staged := .reset,
    band := .reset, apply := none, bad := false, forced := false, floorMhz := 1045, cEff := 2592,
    oldFloor := 0, heldBy := [], ceilExceed := false, rampExceed := false, floorShort := false, bandLow := false, vinLow := false,
    thermBelow := false, draw := 0, ballast := 0, binMiss := 0, binNext := 1000000, binCut := false, binSeen := false, fcNext := 0, vinMv := 0,
    current := 0, fcCur := false,
    page0 := 0, page1 := 0, fcSeq := 0, idleFrom := none, ovp := false, ovpSeen := false, tripped := false, tripPin := false,
    tripSeen := false, tripDie := 0, alwaysOn := true, slotId := 0xF, wakeN := false, w3Ctx := [] }

/-- The first time after `t` on the grid of a period with a phase (R49). -/
def gridAfter (period phase t : Nat) : Nat :=
  if t < phase then phase else phase + ((t - phase) / period + 1) * period

/-- The first power bin boundary after a time (R510). -/
def Power.nextBin (p : Power) (t : Nat) : Nat := gridAfter 1000000 p.band.phase.toNat t

/-- The first forecast time after a time (R519). -/
def Power.nextForecast (p : Power) (t : Nat) : Nat := gridAfter 10000000 p.band.phase.toNat t

/-- The router has power (R414, R616). -/
def Power.routes (p : Power) : Bool := p.alwaysOn && !p.tripped

/-- What is fused into the part (R514, R552, R558, R563, R594, R626). -/
structure Fuse where
  gradeS : Bool
  /-- The physical cores of each hearth die that are fused off: two on an S-grade part (R22). -/
  coresOff : SMap NatSet
  /-- The bypassed columns that factory fuses set, at most two to an array (R130), by 4 × physical core + array. -/
  colsOff : SMap NatSet
  memCode : BitVec 2
  uid : DWord
  prest : Nat
  pwc : List Nat
  svn : Nat
  roots : SMap (BitVec 512)
  revoked : BitVec 4
  debugKey : BitVec 512
  uds : BitVec 256
  /-- The identity certificate chains in the certificate area of the flash, Ed25519 and ML-DSA-65 (R555, R564). -/
  chains : List (List Byte)
deriving DecidableEq, Repr

/-- The fuses of the part at hand (log 1): a DXP-M20-F with memory M1, and the power figures of the example of R515. -/
def Fuse.reset : Fuse :=
  { gradeS := false, coresOff := [], colsOff := [], memCode := 0, uid := 1, prest := 900,
    pwc := [660, 735, 815, 900, 990, 1090, 1195, 1310, 1430, 1560, 1700],
    svn := 0, roots := [], revoked := 0, debugKey := 0, uds := 0, chains := [[], []] }

/-- Security with the registers of R574. `image` is the header and hash of what runs; `nonce` the debug nonce with its time
(R570); `token` the hash of the last accepted token. -/
structure Security where
  boot : BitVec 2
  debug : Bool
  debugSeen : Bool
  pubLocked : Bool
  svnImage : Byte
  cmd : Byte
  slot : BitVec 3
  busy : Bool
  done : Bool
  error : BitVec 4
  len : BitVec 25
  addr : DWord
  buf : SMap Byte
  pubs : SMap (Option (List Byte))
  meas1 : BitVec 512
  svnTarget : Nat
  revokeTarget : BitVec 4
  seed : BitVec 512
  /-- The alias certificates, Ed25519 and ML-DSA-65 (R564). -/
  certs : List (List Byte)
  nonce : Option (List Byte × Nat)
  scopes : BitVec 2
  token : BitVec 512
  /-- SHA-512 of the running image's header bytes 0 to 2,175 (R563). -/
  header : BitVec 512
  /-- An SPDM session is open (R565, R572). -/
  session : Bool
  fwVer : BitVec 24
  /-- Flash bytes of the image region that were written, over the shipped image (log 4). -/
  flash : SMap Byte
deriving DecidableEq, Repr

/-- Security before the Starter ROM has run. -/
def Security.reset : Security :=
  { boot := 0, debug := false, debugSeen := false, pubLocked := false, svnImage := 0, cmd := 0, slot := 0, busy := false,
    done := false, error := 0, len := 0, addr := 0, buf := [], pubs := [], meas1 := 0, svnTarget := 0,
    revokeTarget := 0, seed := 0, certs := [], nonce := none, scopes := 0, token := 0, header := 0, session := false, fwVer := 0, flash := [] }

/-- A unit of the reset ladder (R487). -/
inductive LadderUnit where
  | ctx (n : Nat)
  | core (die p : Nat)
  | peel (die e : Nat)
  | collective
  | link (port : Nat)
  | part (n : Nat)
  | module
deriving DecidableEq, Repr

/-- A running step of the ladder (R487, R488). -/
structure LadderStep where
  target : LadderUnit
  start : Nat
deriving DecidableEq, Repr

/-- A suspect of a hang not yet decided (R494, R495): its context, the hung unit, the tile of the hang counted in commits,
and whether a unit has been failed on its account. -/
structure Suspect where
  ctx : Nat
  hung : LadderUnit
  tile : Nat
  failed : Bool
deriving DecidableEq, Repr

/-- A dump in progress (R501 to R505): its trigger, its scope, its start, its holes, and whether it goes to the dump SRAM. -/
structure DumpRun where
  trigger : Nat
  scope : DumpScope
  began : Nat
  holes : List Nat
  toSram : Bool
  /-- The second pass is taken (R501). -/
  sram : Bool
deriving DecidableEq, Repr

/-- The reset ladder, hangs, Oven Timer and dump engine with the registers of R507. -/
structure Ladder where
  steps : List LadderStep
  escalated : Bool
  ignored : Bool
  hangPeriod : BitVec 20
  hangAlert : Bool
  engPeriod : BitVec 16
  hangSrc : SrcNo
  verdict : BitVec 3
  byBudget : Bool
  hangValid : Bool
  suspectMask : BitVec 64
  guilty : BitVec 6
  guiltyValid : Bool
  suspects : List Suspect
  convictedHub : NatSet
  expiries : Nat
  pwrReq : Bool
  /-- The last restart of the Oven Timer; none while the first one is awaited, since `ovtFrom`. -/
  ovtLast : Option Nat
  ovtFrom : Nat
  ovtFirst : Option Nat
  auto : Bool
  sram : Bool
  overwrite : Bool
  scope : BitVec 3
  scopePt : Pt
  limit : Byte
  full : Bool
  inSram : Bool
  truncated : Bool
  skipped : Nat
  dumpHost : DWord
  portAddr : BitVec 24
  dump : Option DumpRun
  /-- The dump SRAM: bytes written, and the seed of the open bytes once a dump is there (log 4, log 9). -/
  sramBytes : SMap Byte
  sramSeed : Option Nat
deriving DecidableEq, Repr

/-- The block at reset (R507). -/
def Ladder.reset : Ladder :=
  { steps := [], escalated := false, ignored := false, hangPeriod := 1000, hangAlert := false, engPeriod := 100,
    hangSrc := 0, verdict := 0, byBudget := false, hangValid := false, suspectMask := 0, guilty := 0,
    guiltyValid := false, suspects := [], convictedHub := [], expiries := 0, pwrReq := false, ovtLast := none,
    ovtFrom := 0, ovtFirst := none, auto := true, sram := false, overwrite := false, scope := 0, scopePt := 0,
    limit := 50, full := false, inSram := false, truncated := false, skipped := 0, dumpHost := 0, portAddr := 0,
    dump := none, sramBytes := [], sramSeed := none }

/-- The debug block (R158, R602). -/
structure Debug where
  pt : Pt
  core : LCore
  array : ArrayNo
  slot : Bool
  index : BitVec 3
  haltPt : Pt
deriving DecidableEq, Repr

/-- The debug block at reset. -/
def Debug.reset : Debug := ⟨0, 0, 0, false, 0, 0⟩

/-- A die-to-die link, named by the source number of its port (R27, R28, R475). -/
structure DieLink where
  retries : Nat
  lanes : Nat
  lost : Bool
deriving DecidableEq, Repr

/-- A link with no error. -/
def DieLink.reset : DieLink := ⟨0, 0, false⟩

/-- A laser source bay (R374, R481, R609): latched, spares left, lost wavelengths, lasers that failed. -/
structure Bay where
  latched : Bool
  spares : Nat
  lost : BitVec 4
  failed : BitVec 10
  on : Bool
deriving DecidableEq, Repr

/-- A bay with a healthy source (log 1). -/
def Bay.reset : Bay := ⟨true, 2, 0, 0, true⟩

/-- The captures of R15, one set for BAR0 accesses and one for I3C, by the offset of the HI register. -/
structure Captures where
  bar0 : SMap (Option Word)
  i3c : SMap (Option Word)
deriving DecidableEq, Repr

end Sys2Proof.Machine
end

