-- ==== Sys2Proof/Machine/State.lean ====
section
/-! DEFINITION. The state of the module, its faults and refusals, and the state after reset. -/

namespace Sys2Proof.Machine

/-- Why the machine stops with a fault. -/
inductive Fault where
  /-- A command names a unit the module does not have, or a core its partition does not have (log 8). Raised by the
  accessors of Ops.lean. Safe: no event of such a unit exists. -/
  | noSuchUnit
deriving DecidableEq, Repr

/-- Why the machine refuses a command. -/
inductive Refusal where
  /-- The command has no meaning yet in this model. Raised by Dispatch.lean only. Safe. -/
  | notModelled (mnemonic : String)
deriving DecidableEq, Repr

/-- What the module sends (log 7): to the host, to peers, on pins. -/
inductive Output where
  /-- A memory write to the host by a function, its bytes, whether it carries Relaxed Ordering (R540), and whether it is a poisoned
  TLP (R363, R542). -/
  | hostWrite (fn addr : Nat) (bytes : List Byte) (relaxed poisoned : Bool)
  | hostRead (fn addr len : Nat) (relaxed : Bool)
  | msix (fn vector : Nat)
  | pin (name : String) (level : Bool)
  | ibi (event : Nat)
  /-- A packet on its way through a port: its first bytes are in the port's next flit (R387). -/
  | packet (port : Nat) (p : Packet)
  /-- A flit on a link (R379). -/
  | flit (port : Nat) (f : MemLine)
  /-- An LTR message (R546): the latency value and scale, or no requirement. -/
  | ltr (req : Option (Nat × Nat))
  /-- An SPDM response by its code; its body where the spec gives it, `none` where it is SPDM's own (R547, R565). -/
  | spdm (code : Byte) (body : Option (List Byte))
  /-- Engine data for nodes of a group (R408): what the packets to them carry (log 16). -/
  | collective (group : Word) (idx : Nat) (nodes : List NodeId) (m : CollMsg)
deriving DecidableEq, Repr

/-- What the last read by the host or over I3C returned (log 7). -/
inductive Reply where
  | word (w : Word)
  | bytes (bs : List Byte) (poisoned : Bool)
  | unsupported
deriving DecidableEq, Repr

/-- The state of the module. -/
structure State where
  /-- The commands that wait, first in first out (the model's own field). -/
  pending : List Instr
  /-- The index of the next free value (the model's own field, log 6). -/
  free : Nat
  /-- What has been sent, oldest first (the model's own field, log 7). -/
  out : List Output
  /-- What the last read returned (the model's own field, log 7). -/
  reply : Option Reply
  time : TimeBase
  log : EventLog
  ledger : Ledger
  crust : Crust
  tele : Telemetry
  crumbLog : CrumbLog
  cores : SMap Core
  dies : SMap Die
  parts : SMap Part
  ctxs : SMap Ctx
  loafs : SMap LoafSlot
  models : SMap ModelSlot
  bs : BatchSheet
  mem : Mem
  fab : Fabric
  host : HostPort
  /-- ALERT_N is asserted. -/
  alertN : Bool
  power : Power
  fuse : Fuse
  sec : Security
  ladder : Ladder
  dbg : Debug
  links : SMap DieLink
  bays : SMap Bay
  captures : Captures
  scratch : Word
  /-- The dynamic I3C address, once one is assigned (R618). -/
  i3cAddr : Option (BitVec 7)
  /-- The half of PWR_FCAST that the I3C burst read in progress returns, where it started in PWR_FCAST (R620). -/
  burst : Option Bool
  /-- The RW1C bits that hardware has set in the present TCLK cycle, by register (R17). -/
  sets : SMap Word
deriving DecidableEq, Repr

/-- The state right after the input has come up: every field at the value the spec gives for reset, or at the value its
log entry names. -/
def State.reset : State :=
  { pending := [], free := 0, out := [], reply := none, time := .reset, log := .reset, ledger := .reset,
    crust := .reset, tele := .reset, crumbLog := .reset, cores := [], dies := [], parts := [], ctxs := [],
    loafs := [], models := [], bs := .reset, mem := .reset, fab := .reset,
    host := .reset, alertN := false, power := .reset, fuse := .reset, sec := .reset, ladder := .reset, dbg := .reset,
    links := [], bays := [], captures := ⟨[], []⟩, scratch := 0, i3cAddr := none, burst := none, sets := [] }

end Sys2Proof.Machine
end

