-- ==== Sys2Proof/Machine/Holds.lean ====
section
/-! DEFINITION. What stands still in a core by the program alone (08_freeze_and_schedule.md R281): rows that may not yet land
(R138), the interlock of the drain path (R239), a full DQ (R240), and the order of the Proof Buffer (R166, R172, R174). -/

namespace Sys2Proof.Machine

/-! ### The order of the Proof Buffer (R166, R172, R174) -/

/-- The rows of a slot that an instruction has handled; a FOLD of two slots fills the first one first (R166). -/
def PbOp.did (o : PbOp) (slot : Nat) : Nat :=
  match o.slots with
  | [_, b] => if slot = b then o.next - 128 else min o.next 128
  | _ => o.next

/-- Every Proof Buffer instruction issued before `id` has begun (R174). -/
def pbMayBegin (k : Core) (id : Nat) : Bool := k.pbOps.all fun o => decide (id ≤ o.id) || o.begun

/-- Some Proof Buffer instruction issued before `id` still has to handle a row of a slot (R172). -/
def pbEarlier (k : Core) (slot row id : Nat) : Bool :=
  k.pbOps.any fun o => o.id < id && o.slots.contains slot && decide (o.did slot ≤ row)

/-- An earlier-issued FOLD still adds into a slot (R166). -/
def pbFoldBusy (k : Core) (slot id : Nat) : Bool :=
  k.pbOps.any fun o => o.kind == .fold && decide (o.id < id) && o.slots.contains slot && decide (o.did slot < 128)

/-- The port of a slot has taken a row in this cycle (R166). -/
def Core.portBusy (k : Core) (slot cyc : Nat) : Bool := smapGet 0 k.pbPort slot == cyc + 1

/-- The port of a slot takes a row in a cycle. -/
def Core.takePort (k : Core) (slot cyc : Nat) : Core := { k with pbPort := smapSet 0 k.pbPort slot (cyc + 1) }

/-- A slot's header cleared, with a tag (R160, R168); its read mark stays. -/
def PbSlot.clearHead (v : PbSlot) (tag : Word) : PbSlot := { v with isOpen := false, tag := tag, anchor := none, count := 0 }

/-- The rows of a slot from `lo` to before `hi` cleared. -/
def PbSlot.clearRows (v : PbSlot) (lo hi : Nat) : PbSlot :=
  { v with rows := v.rows.filter fun e => decide (e.1 < lo) || decide (hi ≤ e.1) }

/-- A PBZERO whose turn has come clears the rows that every earlier instruction has handled, the header with the first of them (R172,
R174). -/
def Core.pbClear (k : Core) (o : PbOp) : Core :=
  match o.kind, o.slots with
  | .zero tag, sl :: _ =>
    let lim := (k.pbOps.filter fun e => decide (e.id < o.id) && e.slots.contains sl).foldl (fun n e => min n (e.did sl)) 128
    if !pbMayBegin k o.id || decide (lim ≤ o.next) then k
    else
      let v := k.slot sl
      let k1 := k.setSlot sl ((if o.next = 0 then v.clearHead tag else v).clearRows o.next lim)
      { k1 with pbOps := (k1.pbOps.map fun e => if e.id = o.id then { e with begun := true, next := lim } else e).filter
                  fun e => !(e.id == o.id && lim == 128) }
  | _, _ => k

/-- Every PBZERO goes as far as it may, the oldest first. -/
def Core.pbSettle (k : Core) : Core := k.pbOps.foldl Core.pbClear k

/-- An instruction has handled one more row; with its last row it leaves the order. -/
def Core.pbStep (k : Core) (id rows : Nat) : Core :=
  let ops := k.pbOps.map fun o => if o.id = id then { o with begun := true, next := o.next + 1 } else o
  { k with pbOps := ops.filter fun o => !(o.id == id && decide (rows ≤ o.next)) }.pbSettle

/-- The slot and the row of it that a drain-path instruction handles next, where it handles one. -/
def DrainJob.slotRow (j : DrainJob) : Option (Nat × Nat) :=
  match j.kind with
  | .drain _ => none
  | .pbdrain sl => some (sl, j.next)
  | .fold _ sa sb _ _ _ => some (if j.next < 128 then sa else sb.getD sa, j.next % 128)

/-- A drain-path instruction is a FOLD. -/
def DrainJob.isFold (j : DrainJob) : Bool :=
  match j.kind with
  | .fold .. => true
  | _ => false

/-- The Proof Buffer keeps a drain-path instruction from its next row (R166, R172). -/
def Core.slotWaits (k : Core) (j : DrainJob) (cyc : Nat) : Bool :=
  match j.slotRow with
  | none => false
  | some (sl, row) => k.portBusy sl cyc || pbEarlier k sl row j.id || (j.isFold && pbFoldBusy k sl j.id)

/-! ### The drain path (R238 to R240) -/

/-- The rows that wait in the DQ between steps 7 and 8 (R140, R240). -/
def ArrayS.dqHeld (ar : ArrayS) (cyc : Nat) : List DqRow := ar.dq.filter fun q => decide (q.readAt + 24 ≤ cyc)

/-- The DQ is full (R240). -/
def ArrayS.dqFull (ar : ArrayS) (cyc : Nat) : Bool := decide (32 ≤ (ar.dqHeld cyc).length)

/-- The DQ is full and its head row goes to the DSS, whose arbitration has no fixed length (R240). -/
def ArrayS.dqFrozen (ar : ArrayS) (cyc : Nat) : Bool :=
  ar.dqFull cyc && ar.dq.head?.any fun q => q.f.dest == 1

/-- A bank has no row in flight or still to be popped: the interlock of R239 is over. -/
def Core.bankLanded (k : Core) (a bank : Nat) : Bool :=
  !((k.array a).flight.any fun f => f.bank == bank) &&
    !k.mmas.any fun m => m.arrays.any fun x => x.array == a && x.bank == bank

/-- The interlock of R239 and the order of the path let the job at its head read a row in this cycle. -/
def Core.pathReady (k : Core) (a : Nat) (j : DrainJob) (cyc : Nat) : Bool :=
  let ar := k.array a
  decide (j.issue < cyc) && decide (ar.lastRead < cyc) &&
    match j.kind with
    | .drain b => j.snap.isSome || k.bankLanded a b
    | .pbdrain _ => true
    | .fold b _ _ _ _ _ => j.snap.isSome || k.bankLanded a b

/-- The head of a drain path would read its next row but for a full DQ or the slot order: a hold of R281. -/
def Core.pathHeld (k : Core) (a cyc : Nat) : Bool :=
  let ar := k.array a
  match ar.jobs with
  | [] => false
  | j :: _ => k.pathReady a j cyc && ((!j.isFold && ar.dqFull cyc && !ar.dqFrozen cyc) || k.slotWaits j cyc)

/-! ### Rows in flight (R138) -/

/-- An earlier reader of a bank that a ZOA has cleared behind it has not read a row before this cycle. -/
def ArrayS.rowStillRead (ar : ArrayS) (bank row cyc : Nat) : Bool :=
  (ar.jobs.any fun j => j.snap.isSome && decide (j.next ≤ row) &&
    match j.kind with
    | .drain b => b == bank
    | .fold b _ _ _ _ _ => b == bank
    | .pbdrain _ => false) ||
  (ar.lastRead == cyc && ar.lastRow == some (bank, row))

/-- The next row of an array would land in this cycle on a row still to be read (R138). -/
def ArrayS.landHeld (ar : ArrayS) (cyc : Nat) : Bool :=
  match ar.flight with
  | [] => false
  | f :: _ => decide (f.due ≤ cyc) && ar.rowStillRead f.bank f.row cyc

/-- Some row of a core may not land yet. -/
def Core.landHeld (k : Core) (cyc : Nat) : Bool := k.arrays.any fun e => e.2.landHeld cyc

/-- The arrays, the wavefronts, the pops and the deliveries of a core stand still for a cycle (R138). -/
def Core.standStill (k : Core) : Core :=
  { k with
      arrays := k.arrays.map fun e => (e.1, { e.2 with flight := e.2.flight.map fun f => { f with due := f.due + 1 } })
      mmas := k.mmas.map fun j => { j with start := j.start + 1 }
      streamFree := k.streamFree + 1
      acts := k.acts.map fun j => { j with start := j.start + 1, buf := j.buf.map fun x => (x.1 + 1, x.2) } }

/-! ### The activation stream (R232) -/

/-- The cycle in which an MMA pops its next row. -/
def MmaJob.popAt (j : MmaJob) : Nat := j.start + j.popped * (if j.b16 then 2 else 1)

/-- A pop of the AQ is due by this cycle. -/
def Core.popDue (k : Core) (cyc : Nat) : Bool :=
  match k.mmas with
  | [] => false
  | j :: _ => decide (j.popAt ≤ cyc)

/-! ### Settling (R201) -/

/-- The work of the pipelines of an array has ended. -/
def ArrayS.quiet (a : ArrayS) : Bool :=
  a.flight.isEmpty && a.jobs.isEmpty && a.dq.isEmpty &&
    match a.shadow with
    | .writing _ => false
    | _ => true

/-- Every latency of a core has ended and every read of its banks and slots is done, those of a transfer's engine aside
(R201 step 1). -/
def Core.quiet (k : Core) : Bool :=
  k.writes.isEmpty && k.acts.isEmpty && k.mmas.isEmpty && k.bcopies.isEmpty && (k.pbOps.all fun o => o.kind.isImage) &&
    k.arrays.all fun e => e.2.quiet

end Sys2Proof.Machine
end

