-- ==== Sys2Proof/Machine/Ops.lean ====
section
/-! DEFINITION. The named operations that all meanings share: reading and replacing units of the state, resolving a
core, logging an event, freezing a partition (R285 to R287), raising a context fault (R296 to R299), abandoning a tile
(R458 to R460). -/

namespace Sys2Proof.Machine

/-- The outcome type of a command. -/
abbrev Out := Host.Outcome State Fault Refusal

/-! ### Units of the state -/

/-- The GTB as it is read: the integer part (R38). -/
def State.now (s : State) : Nat := (s.time.gtb >>> 32).toNat

/-- A physical core: 26 × die + p. -/
def State.core (s : State) (k : Nat) : Core := smapGet .reset s.cores k
/-- The state with a core replaced. -/
def State.setCore (s : State) (k : Nat) (v : Core) : State := { s with cores := smapSet .reset s.cores k v }
/-- The state with a core changed by a function. -/
def State.updCore (s : State) (k : Nat) (f : Core → Core) : State := s.setCore k (f (s.core k))
/-- A hearth die. -/
def State.die (s : State) (d : Nat) : Die := smapGet .reset s.dies d
/-- The state with a die replaced. -/
def State.setDie (s : State) (d : Nat) (v : Die) : State := { s with dies := smapSet .reset s.dies d v }
/-- A partition. -/
def State.part (s : State) (n : Nat) : Part := smapGet .reset s.parts n
/-- The state with a partition replaced. -/
def State.setPart (s : State) (n : Nat) (v : Part) : State := { s with parts := smapSet .reset s.parts n v }
/-- The state with a partition changed by a function. -/
def State.updPart (s : State) (n : Nat) (f : Part → Part) : State := s.setPart n (f (s.part n))
/-- A context. -/
def State.ctx (s : State) (n : Nat) : Ctx := smapGet .reset s.ctxs n
/-- The state with a context replaced. -/
def State.setCtx (s : State) (n : Nat) (v : Ctx) : State := { s with ctxs := smapSet .reset s.ctxs n v }
/-- A Loaf slot. -/
def State.loaf (s : State) (n : Nat) : LoafSlot := smapGet .reset s.loafs n
/-- A model slot. -/
def State.model (s : State) (n : Nat) : ModelSlot := smapGet .reset s.models n
/-- The state with a model slot replaced. -/
def State.setModel (s : State) (n : Nat) (v : ModelSlot) : State := { s with models := smapSet .reset s.models n v }
/-- A Peel engine of a die. -/
def State.engine (s : State) (d e : Nat) : Engine := smapGet .reset (s.die d).engines e
/-- The state with an engine replaced. -/
def State.setEngine (s : State) (d e : Nat) (v : Engine) : State :=
  s.setDie d { s.die d with engines := smapSet .reset (s.die d).engines e v }
/-- A line of a die's DSS. -/
def State.dssLine (s : State) (d i : Nat) : DssLine := smapGet .zero (s.die d).dss i
/-- The state with a DSS line replaced. -/
def State.setDssLine (s : State) (d i : Nat) (v : DssLine) : State :=
  s.setDie d { s.die d with dss := smapSet .zero (s.die d).dss i v }

/-- Hardware sets bits of an RW1C register, by its offset in the PF's BAR0: a clear in the same cycle leaves them set (R17). -/
def State.hwSet (s : State) (off bits : Nat) : State :=
  { s with sets := smapUpd 0 s.sets off fun w => w ||| BitVec.ofNat 32 bits }

/-- `hwSet` where a condition holds. -/
def State.hwSetIf (s : State) (c : Bool) (off bits : Nat) : State := if c then s.hwSet off bits else s

/-- What a write clears of an RW1C register, and leaves alone of any other: its value without the bits that hardware sets in this
cycle (R17). -/
def State.clears (s : State) (off : Nat) (v : Word) : Word := v &&& ~~~(smapGet 0 s.sets off)

/-- The key of CTX_RWD_STAT of a context among the registers that `sets` lists: the register is banked by CTX_SEL (R473). -/
def rwdStatKey (cn : Nat) : Nat := 0x080_0130 + 0x200_0000 * cn

/-- PT_FAULT_STAT of a partition (R299). -/
def faultStatOff (n : Nat) : Nat := 0x010_0100 + 0x1_0000 * n

/-- One more output, latest last (log 7). -/
def State.emit (s : State) (o : Output) : State := { s with out := s.out ++ [o] }

/-- A free value of `w` bits, and the state that will draw another one next (log 6). -/
def State.draw (s : State) (w : Nat) : BitVec w × State := (Config.freeBits w s.free, { s with free := s.free + 1 })

/-- The GTB as a core sees it: it lags by a free number of ns from 0 to 16 (R45, log 6). -/
def State.gtbView (s : State) : DWord × State :=
  let (l, s') := s.draw 5
  (BitVec.ofNat 64 (s.now - l.toNat % 17), s')

/-! ### Cores and partitions -/

/-- The physical core, within its die, of a logical core of a die: the core map (R600). -/
def State.mapCore (s : State) (die l : Nat) : Nat :=
  fieldOf (s.crust.read (0x060_2000 + 0x20 * die + 4 * (l / 4))) (8 * (l % 4)) 8

/-- The exposed cores of a hearth die: 24 or 22 by grade (R22), less those lost (R479). -/
def State.exposed (s : State) (d : Nat) : Nat := (if s.fuse.gradeS then 22 else 24) - (s.die d).lostCores

/-- A physical core of a hearth die is fused off (R22). -/
def State.fusedOff (s : State) (d p : Nat) : Bool := (smapGet [] s.fuse.coresOff d).contains p

/-- The physical core (26 × die + p) of logical core c of partition n, where it has one (R157, R20). -/
def State.phys (s : State) (n c : Nat) : Option Nat :=
  let p := s.part n
  if c < p.count.toNat ∧ p.first.toNat + c < 24 then
    let k := s.mapCore p.die.toNat (p.first.toNat + c)
    if k < 26 && !s.fusedOff p.die.toNat k then some (26 * p.die.toNat + k) else none
  else none

/-- The logical cores of a partition with their physical cores. -/
def State.coresOf (s : State) (n : Nat) : List (Nat × Nat) :=
  (List.range (s.part n).count.toNat).filterMap fun c => (s.phys n c).map fun k => (c, k)

/-- A core a command names: partition, logical core, physical core. -/
structure CoreRef where
  pt : Nat
  c : Nat
  k : Nat
deriving DecidableEq, Repr

/-- A command that names a core: the module has that core, or the command names nothing (log 8). -/
def onCore (s : State) (pt : Pt) (c : LCore) (f : CoreRef → State) : Out :=
  match s.phys pt.toNat c.toNat with
  | some k => .next (f ⟨pt.toNat, c.toNat, k⟩)
  | none => .fault .noSuchUnit

/-- The state with every core of a partition changed. -/
def State.updCoresOf (s : State) (n : Nat) (f : Core → Core) : State :=
  (s.coresOf n).foldl (fun s e => s.updCore e.2 f) s

/-- A partition is frozen: some cause is active (R285). -/
def Part.frozen (p : Part) : Bool := !p.needs.isEmpty

/-- A partition lets its cores issue in this cycle: it is out of reset, runs a kernel, and is neither frozen, held nor
halted (R281, R548, R602). -/
def Part.live (p : Part) : Bool :=
  !p.inReset && p.run.isSome && !p.frozen && !p.holdNow && p.stall == 0 && !p.halted && !p.perstHold

/-- The arrays of a partition stand still: a row would land before its bank's earlier reader has read it (R138). -/
def State.arrayHold (s : State) (n : Nat) : Bool := (s.coresOf n).any fun e => (s.core e.2).landHeld (s.part n).cyc

/-- A drain path of a partition waits for room in its DQ or for its turn at a slot (R166, R172, R240). -/
def State.pathHold (s : State) (n : Nat) : Bool :=
  (s.coresOf n).any fun e => (List.range 4).any fun a => (s.core e.2).pathHeld a (s.part n).cyc

/-- A partition holds by the state of its pipelines alone (R281, R282). -/
def State.pipeHold (s : State) (n : Nat) : Bool := s.arrayHold n || s.pathHold n

/-- A core may issue: its partition is live and holds for nothing, and its sequencer issues. -/
def State.issuing (s : State) (r : CoreRef) : Bool :=
  (s.part r.pt).live && (s.core r.k).seq == .issuing && !s.pipeHold r.pt

/-- The program cycle of a core's partition (R280). -/
def State.cyc (s : State) (r : CoreRef) : Nat := (s.part r.pt).cyc

/-! ### Source numbers (R29, R30) -/

/-- The source number of a unit of a die. -/
def srcNo (die unit : Nat) : Nat := die * 2048 + unit
/-- The source number of unit k of a physical core. -/
def srcCore (k unit : Nat) : Nat := srcNo (k / 26) (0x040 + 8 * (k % 26) + unit)
/-- The unit numbers of a die that R30 assigns, ascending. -/
def dieUnits (d : Nat) : List Nat :=
  let row := fun (base step n : Nat) => (List.range n).map fun i => base + step * i
  if d < 4 then [0] ++ row 0x040 1 208 ++ row 0x200 1 8 ++ [0x210, 0x220] ++ row 0x230 1 8 ++ [0x240]
  else if d = 4 then
    [0] ++ row 0x010 1 4 ++ [0x020, 0x030, 0x040] ++ row 0x100 1 40 ++ [0x180, 0x200] ++ row 0x300 0x10 8 ++ row 0x3C0 1 15
  else if d < 10 then
    [0] ++ row 0x080 1 8 ++ [0x090] ++ ((List.range 8).flatMap fun j => row (0x100 + 16 * j) 1 10) ++ row 0x3C0 1 5
  else if d < 14 then [0] ++ row 0x010 1 8 ++ row 0x100 1 64 ++ [0x3C0]
  else if d < 18 then [0] ++ row 0x100 1 64 ++ row 0x200 1 10
  else if d < 20 then [0] ++ row 0x010 1 4 ++ row 0x100 1 16 ++ [0x3C0]
  else []

/-- A source number names a unit that R30 assigns: the module emits no other (R29, R30). -/
def unitOk (src : Nat) : Bool := (dieUnits (src / 2048)).contains (src % 2048)

/-- The die index of the hub (R21). -/
def dieHub : Nat := 4
/-- The source number of a hub unit. -/
def srcHub (unit : Nat) : Nat := srcNo dieHub unit
/-- The source number of the codec of a memory group. -/
def srcGroup (g : Nat) : Nat := srcNo (5 + g / 8) (0x080 + g % 8)

/-! ### The event log -/

/-- A source stamps an event and holds it until it is delivered (R46, R586). -/
def State.event (s : State) (src code : Nat) (detail : BitVec 96) : State :=
  { s with log := { s.log with pending := s.log.pending ++ [⟨s.now, src, code, detail, false, false⟩] } }

/-- A detail of up to three 32-bit words. -/
def detail3 (a b c : Nat) : BitVec 96 := BitVec.ofNat 32 c ++ BitVec.ofNat 32 b ++ BitVec.ofNat 32 a

/-- An occurrence of an aggregated event (R589): counted in its source's current window. -/
def State.eventAgg (s : State) (src code : Nat) : State :=
  let w := s.now / 1000000
  let hit := fun (a : AggWin) => a.src == src && a.code == code && a.window == w
  let agg := if s.log.agg.any hit then s.log.agg.map fun a => if hit a then { a with count := satAdd32 a.count 1 } else a
    else s.log.agg ++ [⟨src, code, w, 1, s.now⟩]
  { s with log := { s.log with agg := agg } }

/-! ### Counts of the Health Ledger (R582) and poison in memory (R361, R474) -/

/-- The cumulative counts of a die changed. -/
def State.life (s : State) (d : Nat) (f : LifeCounters → LifeCounters) : State :=
  { s with ledger := { s.ledger with life := smapUpd .reset s.ledger.life d f } }

/-- A detail that holds a 64-bit value. -/
def detailD (v : Nat) : BitVec 96 := BitVec.ofNat 96 (v % 2 ^ 64)

/-- A line of memory has been written in the poison form: logged by the refresh and poison controller of its die, and
counted. -/
def State.logPoison (s : State) (line : Nat) : State :=
  let d := 5 + s.mem.groupOfLine line / 8
  (s.life d fun l => { l with poison := satAdd64 l.poison 1 }).event (srcNo d 0x090) 0x0404 (detailD (line * 256))

/-- A write of a run of bytes to memory, an absent byte leaving memory as it is. -/
def State.memWrite (s : State) (addr : Nat) (bs : List (Option Byte)) (poisoned : Bool) : State :=
  (s.mem.poisonedBy addr bs poisoned).foldl State.logPoison { s with mem := s.mem.write addr bs poisoned }

/-- A write of present bytes. -/
def State.memPut (s : State) (addr : Nat) (bs : List Byte) : State := s.memWrite addr (bs.map some) false

/-! ### Interrupts and alerts (R543, R544) -/

/-- A function of the port: 0 is the PF, n + 1 is VFn. -/
def State.fn (s : State) (f : Nat) : PcieFn := smapGet .reset s.host.fns f

/-- The state with a function replaced. -/
def State.setFn (s : State) (f : Nat) (v : PcieFn) : State :=
  { s with host := { s.host with fns := smapSet .reset s.host.fns f v } }

/-- A vector of a function can be sent now (R544). -/
def PcieFn.deliverable (f : PcieFn) (v : Nat) : Bool := f.msixEn && f.bme && !f.d3hot && !(smapGet .reset f.msix v).masked

/-- An MSI-X message, or the vector's pending bit in its place (R544), with the link down or the function in D3hot as well
(DEDUCED, log 35); WAKE_N asserts for it (R608). A function has no vector beyond its table (R537). -/
def State.sendMsix (s : State) (fn v : Nat) : State :=
  let f := s.fn fn
  if (if fn = 0 then 2048 else 4) ≤ v then s
  else if f.deliverable v && s.host.gen != 0 then s.emit (.msix fn v)
  else
    let s1 := s.setFn fn { f with pend := natSetInsert f.pend v }
    if (s.fn 0).d3hot || (s.host.gen == 0 && !s.host.perst) then
      { s1 with power := { s1.power with wakeN := true } }.emit (.pin "WAKE_N" true) else s1

/-- ALERT_N asserted under an ALERT_EN field, with the PF's event vector (R543) and an in-band interrupt (R621). -/
def State.alert (s : State) : State :=
  let s1 := if s.alertN then s else ({ s with alertN := true }.emit (.pin "ALERT_N" true)).emit (.ibi 2)
  s1.sendMsix 0 s.host.evtVec.toNat

/-- Some condition that an ALERT_EN field enables is set (R44, R354, R391, R507, R529, R581, R604). -/
def State.alertLevel (s : State) : Bool :=
  (s.time.alertEn && s.time.outOfSync) || (s.mem.alertEn && s.mem.stateChanged) || (s.fab.alertEn && s.fab.dupId) ||
    (s.ladder.hangAlert && s.ladder.hangValid) || (s.ledger.alertEn && s.ledger.marginWarn) ||
    (s.power.alertEn && (s.power.ceilExceed || s.power.vinLow || s.power.thermBelow))

/-- Power changed by a function. -/
def State.updPower (s : State) (f : Power → Power) : State := { s with power := f s.power }

/-- W5 may be left: PWR_EN is high, neither an over-voltage nor a trip holds, and Abmito runs (R523, R611, R612, R617). -/
def State.mayLeaveW5 (s : State) : Bool := s.power.pwrEn && !s.power.ovp && !s.power.tripped && s.sec.boot == 1

/-- A wake event starts the exit to W0 (R524), and the module asks for the full link width (R546). -/
def State.wake (s : State) : State :=
  if s.power.st = .w0 ∨ !s.power.alwaysOn ∨ (s.power.st = .w5 ∧ !s.mayLeaveW5) then s
  else { s.updPower (fun p => { p with exiting := true, target := .w0 }) with host := { s.host with l0p := false } }

/-- ALERT_N after a register or a reset has changed what enables it or its conditions (R604). -/
def State.settleAlert (s : State) : State :=
  if s.alertLevel then (if s.alertN then s else s.alert)
  else if s.alertN then { s with alertN := false }.emit (.pin "ALERT_N" false)
  else s

/-- The messages for a fault record of a partition that becomes VALID (R543). -/
def State.notifyFault (s : State) (n : Nat) (was : Bool) : State :=
  if was then s else (s.sendMsix 0 s.host.evtVec.toNat).sendMsix (n + 1) 0

/-! ### Freezing -/

/-- A message comes from a source with a tag (R271). A MESSAGE of another module names no source core (R385), so its node
and tag decide (log 19). -/
def Msg.isFrom (m : Msg) (src : MsgAddr) (tag : Word) : Bool :=
  m.tag == tag && m.src.node == src.node && (src.node != 0 || (m.src.pt == src.pt && m.src.core == src.core))

/-- A kind-3 stream descriptor that still waits for rows. -/
def PeelDesc.openStream (d : PeelDesc) : Bool := d.kind == .stream && d.received < d.rows

/-- A transfer of a core is a kind-3 stream that has not received its row count: a TILE does not wait for it (R293). -/
def State.xferOpen (s : State) (k : Nat) (x : Xfer) : Bool :=
  match x.kind with
  | .peel e => (s.engine (k / 26) e).queue.any fun d => d.core == k && d.xfer == x.id && d.openStream
  | _ => false

/-- What a core of a partition waits for has come (R285). -/
def State.needMet (s : State) (n : Nat) (w : FreezeNeed) : Bool :=
  let k := s.core w.core
  match w.need with
  | .line i _ => (k.line i).st != .pending
  | .aqRow => !k.aq.isEmpty
  | .peelQueue e => (s.engine (w.core / 26) e).queue.length < 32
  | .sendXq => k.sendXq.length < 16
  | .message src tag => k.recvXq.any fun m => m.isFrom src tag
  | .xbar g j => j ≤ smapGet 0 (s.part n).xbarRel g
  | .time t => t == 0
  | .fence p x before => k.xfers.all fun t => before ≤ t.id ||
      match t.kind with
      | .peel _ | .pbufImage _ => !p
      | .xsend | .xred => !x
      | _ => true
  | .dqHead a => !(k.array a).dqFull (s.part n).cyc
  | .settle => k.xfers.all (s.xferOpen w.core)

/-- A partition freezes for causes that are not met (R287). -/
def State.freeze (s : State) (n : Nat) (ws : List FreezeNeed) : State :=
  let p := s.part n
  let new := ws.filter fun w => !p.needs.any fun v => v.core == w.core && v.need == w.need
  s.setPart n { p with needs := p.needs ++ new
                       rested := true
                       lastCause := if p.frozen then p.lastCause else none
                       frzStart := if p.frozen then p.frzStart else s.now
                       frzCycles := if p.frozen then p.frzCycles else 0 }

/-- Causes of a partition's freeze that have ended since they were last looked at are noted: the latest decides, and the
lowest cause among those ending together (R302). -/
def State.noteEnded (s : State) (n : Nat) : State :=
  let p := s.part n
  let fresh := p.needs.filter fun w => !w.ended && s.needMet n w
  match fresh with
  | [] => s
  | w :: ws =>
    s.setPart n { p with lastCause := some (ws.foldl (fun c w => min c w.need.cause) w.need.cause)
                         needs := p.needs.map fun w => { w with ended := w.ended || s.needMet n w } }

/-- The frozen cycles of a freeze that is over go to one cause (R302); where it ended with a cause still active, to the
lowest active one (DEDUCED, log 42). -/
def Part.chargeFreeze (p : Part) : Part :=
  let active := (p.needs.filter fun w => !w.ended).map fun w => w.need.cause
  let c := match active with
    | [] => p.lastCause.getD 0
    | c :: cs => cs.foldl min c
  { p with frzCause := if p.frozen then smapUpd 0 p.frzCause c (satAdd64 · p.frzCycles) else p.frzCause
           frzCycles := 0, lastCause := none, needs := [], notices := [] }

/-! ### Stopping a context -/

/-- A core after its context stops: nothing of the pipelines remains; Bench, Proof Buffer and transfers stay. -/
def Core.stopPipes (k : Core) : Core :=
  let k := k.flushRecv
  { k with timeAt := none, writes := [], aq := [], acts := [], mmas := [], bcopies := [], vBusy := 0, inBrp := false, reads := 0,
           wlines := 0, streamFree := 0, pbPort := [],
           arrays := k.arrays.map fun e => (e.1, { e.2 with flight := [], jobs := [], dq := [] }) }

/-- The admitted entry that a partition runs, if any. -/
def State.runningEntry (s : State) (n : Nat) : Option Admitted :=
  match (s.part n).run with
  | some r => s.bs.run.find? fun a => a.serial == r.entry
  | none => none

/-- The state with an admitted entry changed. -/
def State.updEntry (s : State) (idx : Nat) (f : Admitted → Admitted) : State :=
  { s with bs := { s.bs with run := s.bs.run.map fun a => if a.idx = idx then f a else a } }

/-- The result of an entry that completes is poisoned (R432): of an Express entry only where its copies end alike in a fault (R434; log 42). -/
def Admitted.resultPoisoned (a : Admitted) (status : Nat) : Bool :=
  if a.express then status == 1 && (a.poison1 || a.poison2) else a.poison1

/-- An admitted entry completes: its record waits to be written (R431). -/
def State.complete (s : State) (a : Admitted) (status code flags : Nat) : State :=
  let c : Completion :=
    { idx := a.idx, status := status, code := code, tag := a.tag, startGtb := a.startGtb, slip := a.slip,
      flags := flags + b2n (a.resultPoisoned status) + b2n ((s.ctx a.ctx).unpaired) * 8, deadline := a.deadline,
      msix := a.msix, ctx := some a.ctx, model := a.model, gen := a.gen, seqFirst := a.seqFirst,
      seqCount := a.seqCount, reject := false }
  { s with bs := { s.bs with run := s.bs.run.filter fun b => b.idx != a.idx, due := s.bs.due ++ [c] } }

/-- Whether a partition is the primary one of a context. -/
def Ctx.isPrimary (c : Ctx) (n : Nat) : Bool := c.pt.toNat == n

/-- The partitions a context is bound to (R417). -/
def Ctx.pts (c : Ctx) : List Nat := if c.express then [c.pt.toNat, c.pt2.toNat] else [c.pt.toNat]

/-- The partitions a context still runs on: without those of a lost copy (R435). -/
def Ctx.livePts (c : Ctx) : List Nat := c.pts.filter fun n => if c.isPrimary n then !c.lost1 else !c.lost2

/-- One copy of an Express entry has ended (R434). -/
def Admitted.endCopy (a : Admitted) (primary : Bool) (e : CopyEnd) : Admitted :=
  if primary then { a with primary := e } else { a with secondary := e }

/-- The kernel of a partition is over: no window, no freeze, and no core watched (R482). -/
def State.endRun (s : State) (n : Nat) : State :=
  let s := s.updCoresOf n fun k => { k with watched := false }
  s.updPart n fun p =>
    { p.chargeFreeze with
        run := none, winEnd := none, holdNow := false, stall := 0, atYield := false, yieldReq := false }

/-- A copy of an Express context is lost (R434, R435): for every admitted entry it has not ended, and for those to come. With both
copies lost nothing is left of the context. -/
def State.loseCopy (s : State) (cn : Nat) (primary : Bool) : State :=
  let gone := fun (e : CopyEnd) => match e with
    | .waiting | .running => CopyEnd.lost
    | x => x
  let lose := fun (a : Admitted) =>
    if a.ctx ≠ cn then a
    else if primary then { a with primary := gone a.primary } else { a with secondary := gone a.secondary }
  let c := s.ctx cn
  let c1 := if primary then { c with lost1 := true, unpaired := true } else { c with lost2 := true, unpaired := true }
  { s with bs := { s.bs with run := s.bs.run.map lose } }.setCtx cn
    (if c1.lost1 && c1.lost2 then { c1 with st := .dead } else c1)

/-- The state with the descriptors of a core's engines filtered. -/
def State.filterDescs (s : State) (d : Nat) (keep : PeelDesc → Bool) : State :=
  (List.range 8).foldl (fun s e =>
    let g := s.engine d e
    s.setEngine d e { g with queue := g.queue.filter keep }) s

/-- A core that a fault of its context stops (R296): the image transfers of its Proof Buffer go on, its pipelines do not. -/
def Core.stopFault (k : Core) : Core :=
  { k.stopPipes with
      seq := .stopped
      pbOps := k.pbOps.filter fun o => o.kind.isImage }

/-- The context of a partition ends with a fault code (R296, R432): every core stops, the stream descriptors that nothing will feed
leave their engines (R156), the context is DEAD, and its entry
completes; an Express copy is left for the comparison of R434. -/
def State.killContext (s : State) (n code : Nat) (lost : Bool) : State :=
  let entry := s.runningEntry n
  let s0 := s.filterDescs (s.part n).die.toNat fun d => !(d.pt == n && d.openStream)
  let s1 := s0.updCoresOf n Core.stopFault
  let s2 := s1.endRun n
  match (s.part n).ctx with
  | none => s2
  | some cn =>
    let cx := s.ctx cn
    if lost && cx.express then s2.loseCopy cn (cx.isPrimary n)
    else
      match entry with
      | none => s2.setCtx cn { cx with st := .dead, code := BitVec.ofNat 8 code }
      | some a =>
        if a.express then
          (s2.updEntry a.idx fun b => b.endCopy (cx.isPrimary n) (.fault code)).setCtx cn
            { cx with code := BitVec.ofNat 8 code }
        else (s2.setCtx cn { cx with st := .dead, code := BitVec.ofNat 8 code }).complete a 1 code 0

/-- The key by which R298 chooses among faults of one cycle: logical core, then slot, then code. -/
def faultKey (core slot code : Nat) : Nat := (core * 8 + slot) * 256 + code

/-- The fault record after a fault (R298, R299): the first of its cycle by R298's order, and MULTI for any other. -/
def Part.record (p : Part) (core : Nat) (f : FaultInfo) (gtb src : Nat) : Part :=
  let r : FaultRec :=
    { code := f.code, detail := f.detail, core := core, slot := f.slot, pc := f.pc, gtb := gtb, src := src,
      valid := true, multi := false }
  if !p.fault.valid then { p with fault := { r with multi := p.fault.multi }, faultNow := true }
  else if p.faultNow && faultKey core f.slot f.code < faultKey p.fault.core p.fault.slot p.fault.code then
    { p with fault := { r with multi := true } }
  else { p with fault := { p.fault with multi := true } }

/-- A bank of an array is SUSPECT, as a reader ahead of a ZOA still finds it as well (R137). -/
def ArrayS.suspect (a : ArrayS) : Bool :=
  a.bank0.suspect || a.bank1.suspect || a.jobs.any fun j => j.snap.any fun b => b.suspect

/-- A bank of the partition is SUSPECT (R462). -/
def State.suspect (s : State) (n : Nat) : Bool := (s.coresOf n).any fun e => (s.core e.2).arrays.any fun a => a.2.suspect

/-! ### The codes of R297 -/

/-- The codes of R297 by name. -/
def fcIllegal : Nat := 0x01
/-- PROGRAM_TRAP. -/
def fcTrap : Nat := 0x02
/-- QUEUE_OVERFLOW. -/
def fcOverflow : Nat := 0x10
/-- POP_NO_PRODUCER. -/
def fcNoProducer : Nat := 0x11
/-- UNINIT. -/
def fcUninit : Nat := 0x12
/-- OUT_OF_RANGE. -/
def fcRange : Nat := 0x13
/-- TILE_TAG. -/
def fcTileTag : Nat := 0x14
/-- ANCHOR_VIOLATION. -/
def fcAnchor : Nat := 0x15
/-- BUDGET_OVERRUN. -/
def fcBudget : Nat := 0x16
/-- QUEUE_AT_TILE. -/
def fcQueueAtTile : Nat := 0x17
/-- WRONG_STATE. -/
def fcState : Nat := 0x18
/-- FORMAT_PAIR. -/
def fcFormat : Nat := 0x19
/-- POISON_CONSUMED. -/
def fcPoison : Nat := 0x20
/-- COLLECTIVE_MISMATCH. -/
def fcMismatch : Nat := 0x21
/-- ABORTED. -/
def fcAborted : Nat := 0x30
/-- PARTITION_RESET. -/
def fcPtReset : Nat := 0x31

/-! ### Abandoning a tile -/

/-- The Proof Buffer instructions of a core at an abandon (R175): those that have begun run to completion and count, the PBDRAINs
aside; the others are cancelled. -/
def Core.pbAbandon (k : Core) : Core :=
  let waiting := (k.pbOps.filter fun o => !o.begun && o.kind != .drain).length
  { k with pbOps := k.pbOps.filter fun o => o.begun
           pbSuppress := max k.pbSuppress (k.pbIssued - waiting), pbIssued := 0 }

/-- The core state that a commit state restores (R202, R459). -/
def Core.restore (k : Core) (c : CommitState) (at' : Nat) : Core :=
  { k with pc := c.pc, s := c.s, p := c.p, loops := c.loops, m := c.m, an := c.an, ca := c.ca, step := c.step,
           seed := c.seed, seq := .issuing, nextAt := at', inBrp := false }

/-- A row of a PBDRAIN that goes on beyond an abandon: only its writes remain. -/
def DqRow.beyond (q : DqRow) : DqRow := { q with f := { q.f with clr := false, crumb := false }, maxr := .zero }

/-- What a drain path keeps at an abandon (R175, R459): a FOLD or a PBDRAIN that has begun, a FOLD with the bank as it stands. -/
def ArrayS.keepBegun (a : ArrayS) (begun : Nat → Bool) : ArrayS :=
  let keep := fun (j : DrainJob) =>
    if !begun j.id then none
    else
      match j.kind with
      | .fold b _ _ _ _ _ => some { j with snap := some { j.snap.getD (a.bank b) with suspect := false } }
      | .pbdrain _ => some { j with f := { j.f with clr := false, crumb := false }, beyond := true }
      | .drain _ => none
  { ArrayS.reset with jobs := a.jobs.filterMap keep, lastRead := a.lastRead, dq := (a.dq.filter fun q => q.pb).map DqRow.beyond }

/-- One core at an abandon (R459, R460, R631): pipelines discarded, banks ZERO, weight registers EMPTY, vector registers
zero, the commit state restored; the rows that a begun FOLD or PBDRAIN still owes are kept. -/
def Core.abandon (k : Core) (at' : Nat) : Core :=
  let begun := fun id => k.pbOps.any fun o => o.id == id && o.begun
  let arrays := k.arrays.map fun e => (e.1, e.2.keepBegun begun)
  let k := k.stopPipes.pbAbandon
  { k.restore k.commit at' with
      seq := if k.seq = .halted then .halted else .issuing
      v := [], pb := k.pb.map fun e => (e.1, { e.2 with readMark := false })
      maxReds := k.maxReds.map fun x => { x with applied := false }
      arrays := arrays.filter (fun e => e.2 != .reset), carried := max k.carried k.issuedXfers
      issuedXfers := 0 }

/-- A spill or a load that has not begun: an abandon cancels it (R175). -/
def State.unbegunImage (s : State) (d : PeelDesc) : Bool :=
  match d.kind with
  | .spillW | .spillA | .load => (s.core d.core).pbOps.any fun o => o.id == d.op && !o.begun
  | _ => false

/-- The program cycles that the current ACLK cycle adds (R280). -/
def Part.thisCycle (p : Part) : Nat := if p.frozen || p.halted || p.perstHold then 0 else 1

/-- The partition abandons its tile (R458, R459): on every core at once; the freeze ends; a new window [now, now + B) opens; the
cycles of the abandoned execution count, the current one included (R463); the next issues after it. The number of the cause in its
event is open (log 38). -/
def State.abandonTile (s : State) (n src : Nat) : State :=
  let p := s.part n
  if p.run.isNone then s
  else
    let s0 := s.filterDescs p.die.toNat fun d => !(d.pt == n && (d.openStream || s.unbegunImage d))
    let s1 := (s.coresOf n).foldl (fun z e => z.updCore e.2 fun k =>
      { k with xfers := k.xfers.filter fun x => match x.kind with
          | .peel g => (s0.engine p.die.toNat g).queue.any fun d => d.core == e.2 && d.xfer == x.id
          | .pbufImage g => (s0.engine p.die.toNat g).queue.any fun d => d.core == e.2 && d.xfer == x.id
          | _ => true }) s0
    let s2 := s1.updCoresOf n fun k => { k.abandon (p.cyc + p.thisCycle) with watched := true, lastBeat := s.now }
    let s3 := s2.setPart n
      { p.chargeFreeze with
               holdNow := false, stall := 0, winStart := s.now,
               winEnd := some (s.now + p.budget), cycReexec := satAdd64 p.cycReexec ((p.cycProg : Int) - p.tileProg0 + p.thisCycle).toNat,
               tileProg0 := p.cycProg + p.thisCycle, abandons := p.abandons + 1, atYield := false, abandonNow := true,
               issuedCores := [], rested := false }
    (s3.life p.die.toNat fun l => { l with abandons := satAdd64 l.abandons 1 }).event src 0x0202
      (detail3 n (Config.causeCode 0x0202 src s.now).toNat 0)

/-- A fault recorded in a partition's block (R298, R299), its bits set by hardware in this cycle (R17). -/
def State.recordFault (s : State) (n core : Nat) (f : FaultInfo) (src : Nat) : State :=
  let p := (s.part n).record core f s.now src
  (s.setPart n p).hwSet (faultStatOff n) ((if (s.part n).fault.valid then 0 else 0x100_0000) + (if p.fault.multi then 0x200_0000 else 0))

/-- A context fault raised by a unit (R296, R299, R462): recorded with its stamp and source, the context stopped on every
core. While a bank is SUSPECT the tile is abandoned instead and nothing is recorded; nor is it in a cycle of an abandon. -/
def State.raiseFrom (s : State) (n core src : Nat) (f : FaultInfo) : State :=
  if (s.part n).abandonNow then s
  else if s.suspect n then s.abandonTile n src
  else
    let s1 := s.recordFault n core f src
    let s2 := (if (s.part n).run.isSome then s1.killContext n f.code false else s1).notifyFault n (s.part n).fault.valid
    s2.event src 0x0203 (detail3 n f.code 0)

/-- A context fault raised by a unit of a core. -/
def State.raise (s : State) (n core k : Nat) (f : FaultInfo) : State := s.raiseFrom n core (srcCore k f.unit) f

/-- A fault that belongs to no slot of a core (R299): slot 7, with a core and a PC only where a bundle raised it. -/
def State.raisePart (s : State) (n code src : Nat) (core : Nat := 0) (pc : Nat := 0) : State :=
  let s1 := s.recordFault n core ⟨code, 0, 7, pc, 0⟩ src
  let s2 := (if (s.part n).run.isSome then s1.killContext n code false else s1).notifyFault n (s.part n).fault.valid
  s2.event src 0x0203 (detail3 n code 0)

/-! ### Which register accesses reach their registers (R527, R549, R560) -/

/-- A module reset runs. -/
def State.moduleReset (s : State) : Bool := s.ladder.steps.any fun t => t.target == .module

/-- The PCI Express controller has power and is not in reset (R548, R550, R611, R616). -/
def State.portLive (s : State) : Bool := s.power.routes && !s.host.perst && !s.moduleReset

/-- The link is up, so that the host's requests arrive (R550). -/
def State.linkUp (s : State) : Bool := s.portLive && s.host.gen != 0

/-- The bits that a register block still serves in W5 (R527). -/
def w5Mask (off : Nat) : Word :=
  let all : Word := 0xFFFF_FFFF
  let o := off % 0x10_0000
  if off < 0x005_0000 then all
  else if off < 0x020_0000 then 0
  else if off < 0x030_0000 then
    if o = 0x000 ∨ o = 0x008 ∨ o = 0x00C ∨ (0x100 ≤ o ∧ o < 0x1A0) then all else if o = 0x024 then 3 else 0
  else if off < 0x040_0000 then all
  else if off < 0x050_0000 then 0
  else if off < 0x060_0000 then (if o < 0x620 ∨ (0x1000 ≤ o ∧ o < 0x2000) then all else 0)
  else if off < 0x070_0000 then all
  else if 0x0C0_0000 ≤ off ∧ off < 0x0C0_8100 then all
  else 0

/-- What is served now: W5 narrows it, and so does the recovery window for BAR0. -/
def State.served (s : State) (i3c : Bool) (off : Nat) : Word :=
  let m := if s.power.st = .w5 then w5Mask off else 0xFFFF_FFFF
  if s.sec.boot = 2 ∧ !i3c ∧ !(off < 0x001_0000 ∨ (0x004_0000 ≤ off ∧ off < 0x005_0000)) then 0 else m

/-- A command that is the host's access to a register of BAR0: it takes place while the link is up and the register is served. -/
def State.hostReg (s : State) (off : Nat) (f : State → State) : State :=
  if s.linkUp && s.served false off == 0xFFFF_FFFF then f s else s

/-- A command that is an access to a register of the fabric or the collective engine, by the host or by MANAGE (R392). -/
def State.fabReg (s : State) (off : Nat) (f : State → State) : State :=
  if s.power.routes && s.served false off == 0xFFFF_FFFF then f s else s

/-- The partition that has a physical core. -/
def State.ptOfCore (s : State) (k : Nat) : Option Nat :=
  (List.range 16).find? fun n => (s.coresOf n).any fun e => e.2 == k

/-! ### Aborting a context (R487, R489) -/

/-- A line of a withdrawn transfer (R487): PENDING becomes INVALID. -/
def BenchLine.withdraw (l : BenchLine) : BenchLine :=
  if l.st = .pending then { l with st := .invalid, hold := none } else l

/-- A core at the abort of its context (R487): issue, rows in flight, queues and the work in every engine are lost; Bench,
Proof Buffer and commit state stay. -/
def Core.abort (k : Core) : Core :=
  { k.stopPipes with
      seq := if k.seq = .noKernel then .noKernel else .stopped
      xfers := [], sendXq := [], recvXq := [], maxReds := [], pbOps := [],
      bench := k.bench.map fun e => (e.1, e.2.withdraw) }

/-- The core that a request serves, where one does. -/
def Issuer.core : Issuer → Option Nat
  | .peelRead _ _ k _ _ => some k
  | .peelWrite _ _ k _ => some k
  | .message k _ => some k
  | _ => none

/-- Requests of the cores of a partition are forgotten: their answers find nothing. -/
def State.dropRequests (s : State) (ks : List Nat) : State :=
  let keep := fun (i : Issuer) => match i.core with
    | some k => !ks.contains k
    | none => true
  { s with fab := { s.fab with reqs := s.fab.reqs.filter fun r => keep r.issuer
                               runs := s.fab.runs.map fun r =>
                                 { r with locals := r.locals.filter fun m => !ks.contains m.k } }
           host := { s.host with reads := s.host.reads.filter fun r => keep r.issuer } }

/-- The work of a partition's context is withdrawn from the cores and from every engine (R487). -/
def State.withdraw (s : State) (n : Nat) : State :=
  let s1 := s.filterDescs (s.part n).die.toNat fun d => d.pt != n
  let s2 := s1.updCoresOf n Core.abort
  s2.dropRequests ((s.coresOf n).map Prod.snd)

/-- The context of a partition is aborted (R403, R430, R489): ABORTED is recorded and its work is withdrawn. -/
def State.abortPart (s : State) (n src : Nat) : State :=
  if (s.part n).run.isNone then s else (s.raisePart n fcAborted src).withdraw n

/-- Abmito aborts the context that issued a refused request, and logs the reason under the router core (R403). -/
def State.refuseAbort (s : State) (n reason : Nat) : State :=
  (s.abortPart n (srcHub 0x180)).event (srcHub 0x180) 0x0504 (detail3 reason ((s.part n).ctx.getD 0) 0)

/-! ### What an instruction answers -/

/-- What an instruction does at its issue: it freezes the partition, it holds it for this cycle (R281), it meets faults and has
no effect, or it takes effect; `okWith` is an effect that itself raises faults (R98, R107). -/
inductive InsRes where
  | wait (ws : List Need)
  | hold
  | fault (fs : List FaultInfo)
  | ok (s : State)
  | okWith (s : State) (fs : List FaultInfo)
deriving DecidableEq, Repr

/-- The partition holds in this cycle (R281, R282): no core of it issues; the cycle counts as held. -/
def State.holdCycle (s : State) (n : Nat) : State := s.updPart n fun p => { p with holdNow := true, rested := true }

/-- Faults of one core in one cycle, raised in turn (R298); an abandon under R462 ends them. -/
def State.raiseAll (s : State) (r : CoreRef) (fs : List FaultInfo) : State := fs.foldl (fun s f => s.raise r.pt r.c r.k f) s

/-- What an instruction's answer makes of the state: a freeze on the core's needs, a hold, context faults, or its
effect. -/
def settleIns (s : State) (r : CoreRef) : InsRes → State
  | .hold => s.holdCycle r.pt
  | .wait ws => s.freeze r.pt (ws.map fun w => ⟨r.k, w, false, s.now⟩)
  | .fault fs => s.raiseAll r fs
  | .ok s' => s'
  | .okWith s' fs => s'.raiseAll r fs

/-- An instruction's row: at a core that may issue it has its effect; at another the event does not take place (log 14). -/
def runIns (s : State) (pt : Pt) (c : LCore) (f : CoreRef → InsRes) : Out :=
  onCore s pt c fun r => if s.issuing r then settleIns s r (f r) else s

/-- A fault of an instruction at its own PC. -/
def insInfo (s : State) (r : CoreRef) (code slot detail unit : Nat) : FaultInfo := ⟨code, detail, slot, (s.core r.k).pc, unit⟩

/-- An instruction that meets one fault. -/
def insFault (s : State) (r : CoreRef) (code slot detail unit : Nat) : InsRes := .fault [insInfo s r code slot detail unit]

/-- The checks of R222 on Bench lines that are read in this cycle: an INVALID line is UNINIT, a PENDING one is awaited. `fs` are the
other faults that the instruction meets: each code is raised once (R298). -/
def checkReadWith (s : State) (r : CoreRef) (slot : Nat) (fs : List FaultInfo) (ls : List Nat) (go : InsRes) : InsRes :=
  let k := s.core r.k
  let un := if ls.any fun i => (k.line i).st == .invalid then [insInfo s r fcUninit slot 0 6] else []
  if !(un ++ fs).isEmpty then .fault (un ++ fs)
  else
    let ws := (ls.filter fun i => (k.line i).st == .pending).map fun i =>
      Need.line i (((k.line i).hold.map fun h => h.cause).getD 0)
    if ws.isEmpty then go else .wait ws

/-- The checks of R222 where nothing else is checked. -/
def checkRead (s : State) (r : CoreRef) (slot : Nat) (ls : List Nat) (go : InsRes) : InsRes := checkReadWith s r slot [] ls go

/-- The wait of R146 on Bench lines that the program writes. -/
def checkWrite (s : State) (r : CoreRef) (ls : List Nat) (go : InsRes) : InsRes :=
  let k := s.core r.k
  let ws := (ls.filter fun i => (k.line i).st == .pending).map fun i =>
    Need.line i (((k.line i).hold.map fun h => h.cause).getD 0)
  if ws.isEmpty then go else .wait ws

/-- A partition is resumed by the debugger, or halts no longer at the next yield point (R602): the window of its next tile opens
now, and the watch of its cores restarts (R482). -/
def State.resumeDebug (s : State) (n : Nat) : State :=
  let p := s.part n
  if p.halted && p.run.isSome then
    (s.updPart n fun p => { p with halted := false, dbgReq := false, winStart := s.now, winEnd := some (s.now + p.budget) }).updCoresOf n
      fun k => { k with watched := k.seq == .issuing, lastBeat := s.now }
  else s.updPart n fun p => { p with halted := false, dbgReq := false }

/-- Debug mode ends (R573): the scopes are gone, and every halted partition resumes (R602). DEBUG_SEEN stays. -/
def State.endDebug (s : State) : State :=
  (List.range 16).foldl State.resumeDebug { s with sec := { s.sec with debug := false, scopes := 0 } }

/-- A core's clocked parts advance in this cycle: the partition runs a kernel and is not frozen (R288). -/
def Part.advancing (p : Part) : Bool := !p.inReset && p.run.isSome && !p.frozen && !p.halted

/-- A detail that names an array and a bank or slot (R299). -/
def arrDetail (a b : Nat) : Nat := a + 4 * b

/-- The faults that one instruction meets, each code once (R298). -/
def eachCode : List FaultInfo → List FaultInfo
  | [] => []
  | f :: fs => f :: (eachCode fs).filter fun g => g.code != f.code

/-- A fresh number for an instruction or transfer of a core. -/
def Core.fresh (k : Core) : Nat × Core := (k.nextId, { k with nextId := k.nextId + 1 })

/-- TEL_PLOSS counts an instruction at its first precision-loss event (R95, R598). -/
def State.countLoss (s : State) (k id : Nat) (loss : Bool) : State :=
  if loss && !(s.core k).lossIds.contains id then
    { s.updCore k (fun c => { c with lossIds := natSetInsert c.lossIds id }) with
        tele := { s.tele with ploss := smapUpd 0 s.tele.ploss k fun n => satAdd32 n 1 } }
  else s

/-- Lines `first` to `first + n − 1`. -/
def lineRun (first n : Nat) : List Nat := (List.range n).map (first + ·)

/-- The state with one more delayed effect on a core: `lat` is the latency of R206 and R279. -/
def State.delay (s : State) (r : CoreRef) (lat rank : Nat) (a : Act) : State :=
  s.updCore r.k fun k => k.delay (s.cyc r + lat - 1) rank a

/-- Bench reads of this cycle are counted against the read port (R150). -/
def State.countReads (s : State) (r : CoreRef) (n : Nat) : State :=
  s.updCore r.k fun k => { k with reads := k.reads + n }

end Sys2Proof.Machine
end

