-- ==== Sys2Proof/Machine/Ledger.lean ====
section
/-! DEFINITION. The Health Ledger (19_health_ledger.md R575 to R584) and the spares it records (R480): records in the flash
region of each die, compaction, the hourly records, margin sweeps, the OTP mirror. -/

namespace Sys2Proof.Machine

/-! ### Records (R575, R576) -/

/-- The bytes of a half of a region (R575). -/
def halfBytes : Nat := 5767168

/-- The length of a record in 32-byte units (R576). -/
def LedgerRec.units (r : LedgerRec) : Nat := 1 + ceilDiv r.payload.length 32

/-- Header bytes 0 to 27 of a record (R576). -/
def LedgerRec.head (r : LedgerRec) : List Byte :=
  natBytes 1 r.type.toNat ++ natBytes 1 r.units ++ natBytes 2 0 ++ natBytes 4 r.seq ++ natBytes 8 r.gtb ++ natBytes 2 r.src ++
    natBytes 10 0

/-- The payload of a record, padded with zeros (log 23). -/
def LedgerRec.body (r : LedgerRec) : List Byte := r.payload ++ List.replicate (32 * (r.units - 1) - r.payload.length) 0

/-- The CRC-32 of a record (R576). -/
def LedgerRec.crcOf (r : LedgerRec) : Word := crc32 (r.head ++ r.body)

/-- A record passes its CRC (R577). -/
def LedgerRec.good (r : LedgerRec) : Bool := r.crc == r.crcOf

/-- The bytes of a record as it stands in flash (R576). -/
def LedgerRec.bytes (r : LedgerRec) : List Byte := r.head ++ natBytes 4 r.crc.toNat ++ r.body

/-- What a SPARE record names beside its unit: a column, or a wavelength (log 23). -/
def LedgerRec.sub (r : LedgerRec) : Nat := (r.payload.getD 1 0).toNat

/-- The bytes that a half's records use. -/
def usedOf (rs : List LedgerRec) : Nat := (rs.map fun r => 32 * r.units).sum

/-- Two records of a kind of which R579 keeps the latest: SWEEP by unit and measure, COUNTERS and LIFE by unit, MAP by
register. -/
def LedgerRec.supersedes (r q : LedgerRec) : Bool :=
  r.type == q.type &&
    match r.type.toNat with
    | 1 => r.src == q.src && r.payload.take 1 == q.payload.take 1
    | 2 | 3 => r.src == q.src
    | 7 => r.payload.take 4 == q.payload.take 4
    | _ => false

/-- The records that a compaction carries over (R577 to R579): none that fails its CRC. -/
def keptRecs : List LedgerRec → List LedgerRec
  | [] => []
  | r :: rs =>
    if r.type = 0x0E ∨ r.type = 0x0F ∨ !r.good ∨ rs.any (fun q => q.supersedes r) then keptRecs rs else r :: keptRecs rs

/-! ### Appending (R576, R578) -/

/-- A record at the end of the active half. -/
def LedgerRegion.push (g : LedgerRegion) (type : Byte) (src now : Nat) (payload : List Byte) : LedgerRegion :=
  let r0 : LedgerRec := ⟨type, g.nextSeq, now, src, payload.take 224, 0⟩
  let r := { r0 with crc := r0.crcOf }
  { g with nextSeq := g.nextSeq + 1, recs := g.recs ++ [r], used := g.used + 32 * r.units }

/-- A compaction (R578): the other half is erased and takes CHECKPOINT, the kept records and COMMIT. -/
def LedgerRegion.compact (g : LedgerRegion) (src now : Nat) : LedgerRegion :=
  let kept := keptRecs g.recs
  let gen := g.gen + 1
  let g1 := ({ g with half := !g.half, gen := gen, recs := [], used := 0, old := g.recs }).push 0x0E src now (natBytes 4 gen)
  let g2 := { g1 with recs := g1.recs ++ kept, used := g1.used + usedOf kept }
  g2.push 0x0F src now (natBytes 4 gen ++ natBytes 4 (crc32 (kept.flatMap LedgerRec.bytes)).toNat)

/-- The region of a die. -/
def Ledger.region (l : Ledger) (d : Nat) : LedgerRegion := smapGet .reset l.regions d

/-- A record is appended to a die's region, after a compaction where it does not fit (R576, R578). Where the kept records
leave it no room it is not written (log 23). -/
def State.ledgerAppend (s : State) (d : Nat) (type : Byte) (src : Nat) (payload : List Byte) : State :=
  let g := s.ledger.region d
  let need := 32 + 32 * ceilDiv (payload.take 224).length 32
  let put := fun (s : State) (g : LedgerRegion) =>
    { s with ledger := { s.ledger with regions := smapSet .reset s.ledger.regions d g } }
  if g.used + need ≤ halfBytes then put s (g.push type src s.now payload)
  else
    let g1 := g.compact (srcHub 0x330) s.now
    let s1 := (put s g1).event (srcHub 0x330) 0x0802 (detail3 d g1.gen 0)
    if g1.used + need ≤ halfBytes then put s1 (g1.push type src s.now payload) else s1

/-- The records of a die's region that pass their CRC. -/
def Ledger.good (l : Ledger) (d : Nat) : List LedgerRec := (l.region d).recs.filter LedgerRec.good

/-- A residue event (R134, R579, R582): its count and its record. -/
def State.residue (s : State) (k a bank : Nat) : State :=
  (s.life (k / 26) fun l => { l with residue := satAdd64 l.residue 1 }).ledgerAppend (k / 26) 0x04 (srcCore k (1 + a))
    (natBytes 1 a ++ natBytes 1 bank ++ natBytes 2 0xFFFF)

/-- A flag (R579): what is flagged, for its unit. -/
def State.ledgerFlag (s : State) (d src flag : Nat) : State := s.ledgerAppend d 0x08 src (natBytes 4 flag)

/-! ### Spares (R478, R480) -/

/-- The pools of R478, in the order of its table (log 23). -/
inductive Pool where
  | columns
  | cores
  | dieLanes
  | memory
  | fabricLanes
  | lasers
  | engines
deriving DecidableEq, Repr

/-- The number of a pool. -/
def Pool.code : Pool → Nat
  | .columns => 0
  | .cores => 1
  | .dieLanes => 2
  | .memory => 3
  | .fabricLanes => 4
  | .lasers => 5
  | .engines => 6

/-- A spare is consumed, or a resource lost (R480): its record, which names the physical unit, and its event. The caller advances the
OTP count and commits the Crust registers. -/
def State.spare (s : State) (d : Nat) (pool : Pool) (src count : Nat) (sub : Nat := 0) : State :=
  (s.ledgerAppend d 0x06 src (natBytes 1 pool.code ++ natBytes 1 sub ++ natBytes 2 src ++ natBytes 4 count)).event src 0x0603
    (detail3 pool.code 0 0)

/-- The SPARE records of a die on a pool (R579). -/
def Ledger.spares (l : Ledger) (d : Nat) (pool : Pool) : List LedgerRec :=
  (l.good d).filter fun r => r.type == 0x06 && r.payload.head? == some (BitVec.ofNat 8 pool.code)

/-- The OTP mirror changed. -/
def State.otp (s : State) (f : Otp → Otp) : State := { s with ledger := { s.ledger with otp := f s.ledger.otp } }

/-! ### The OTP mirror as fuses (R583) -/

/-- A unary counter of `w` fuses. -/
def unaryBits (w n : Nat) : List Bool := (List.range w).map fun i => decide (i < n)

/-- A fuse bitmap. -/
def bitmapBits {w : Nat} (b : BitVec w) : List Bool := (List.range w).map fun i => b.getLsbD i

/-- The fuses in table order. -/
def Otp.fuses (o : Otp) : List Bool :=
  ((List.range 4).flatMap fun d => unaryBits 26 (smapGet 0 o.cores d)) ++
    ((List.range 4).flatMap fun d => unaryBits 255 (smapGet 0 o.cols d)) ++
    ((List.range 4).flatMap fun d => bitmapBits (smapGet 0 o.engines d)) ++
    bitmapBits o.positions ++ bitmapBits o.groups ++
    ((List.range 4).flatMap fun b => unaryBits 2 (smapGet 0 o.lasers b)) ++
    ((List.range 4).flatMap fun b => bitmapBits (smapGet 0 o.waves b)) ++ [o.retire]

/-- LEDGER_OTPk (R591): 32 fuses to a register. -/
def Otp.word (o : Otp) (k : Nat) : Word :=
  packWord ((((o.fuses.drop (32 * k)).take 32).zipIdx).map fun (b, i) => (b2n b, i))

/-! ### The flash window (R575, R590) -/

/-- A byte of the Ledger range of the flash: erased bytes read 0xFF, those of the header are open (log 9). -/
def State.ledgerByte (s : State) (a : Nat) : Byte :=
  if a < 18 * 2 ^ 20 then Config.freeByte 1 a
  else
    let o := a - 18 * 2 ^ 20
    let g := s.ledger.region (o / (11 * 2 ^ 20))
    let p := o % (11 * 2 ^ 20)
    let second := decide (halfBytes ≤ p)
    let recs := if g.half = second then g.recs else g.old
    (recs.flatMap LedgerRec.bytes).getD (p % halfBytes) 0xFF

/-! ### Hourly records (R579, R582) -/

/-- The payload of a COUNTERS record of a die (log 23): the counts of R582 in its order, 8 bytes each. -/
def LifeCounters.counters (l : LifeCounters) : List Byte :=
  ((List.range 9).flatMap fun i => natBytes 8 (smapGet 0 l.eccCorrected i) ++ natBytes 8 (smapGet 0 l.eccUncorrectable i)) ++
    natBytes 8 l.residue ++ natBytes 8 l.abandons ++ natBytes 8 l.crustRepairs ++ natBytes 8 l.poison ++
    natBytes 8 l.tastePass ++ natBytes 8 l.tasteFail

/-- The payload of a LIFE record (log 23). -/
def LifeCounters.lifeBytes (l : LifeCounters) : List Byte :=
  natBytes 8 l.hours ++ natBytes 8 l.thermalCycles ++ natBytes 8 l.peakTemp ++ natBytes 8 l.hourTemp

/-- The COUNTERS records of a die and of the links of its ports. -/
def State.writeCounters (s : State) (d : Nat) : State :=
  let s1 := s.ledgerAppend d 0x02 (srcNo d 0) (smapGet .reset s.ledger.life d).counters
  (s.ledger.links.filter fun e => e.1 / 2048 == d).foldl (fun s e =>
    s.ledgerAppend d 0x02 e.1 (natBytes 8 e.2.1 ++ natBytes 8 e.2.2)) s1

/-- The hour's records of a die. The main rails supply every die but the hub. -/
def State.hourOf (s : State) (d : Nat) : State :=
  let on := s.power.rails || d == dieHub
  let s1 := s.life d fun l => { l with hours := if on then satAdd64 l.hours 1 else l.hours }
  let s2 := (s1.writeCounters d).ledgerAppend d 0x03 (srcNo d 0) (smapGet .reset s1.ledger.life d).lifeBytes
  s2.life d fun l => { l with hourTemp := 0 }

/-- LEDGER_HOURLY (R579): once in each GTB hour. -/
def ledgerHourly (s : State) : State :=
  let h := s.now / 3600000000000
  if h ≤ s.ledger.lastHour then s
  else
    let s1 := (List.range 20).foldl State.hourOf s
    { s1 with ledger := { s1.ledger with lastHour := h } }

/-! ### Margin sweeps (R580, R581) -/

/-- One measurement of a unit of the module: its record, and the warning. -/
def State.measure (s : State) (m : Margin) : State :=
  if !unitOk m.src.toNat then s else
  let s1 := s.ledgerAppend (m.src.toNat / 2048) 0x01 m.src.toNat (m.measure :: m.values)
  if m.warn then
    let s2 := (({ s1 with ledger := { s1.ledger with marginWarn := true } }).hwSet 0x050_0000 1).event m.src.toNat 0x0801
      (detail3 m.measure.toNat (bytesNat (m.values.take 4)) 0)
    if s2.ledger.alertEn then s2.alert else s2
  else s1

/-- LEDGER_RECORD_WRITE (R576, R579): Abmito appends a record of a type of R579 that is not the compaction's own. -/
def ledgerRecordWrite (d : Nat) (type : Byte) (src : Nat) (payload : List Byte) (s : State) : State :=
  if d < 20 ∧ 1 ≤ type.toNat ∧ type.toNat ≤ 8 ∧ unitOk src then s.ledgerAppend d type src payload else s

/-! ### The rows -/

/-- LEDGER_RECORD_WRITE (R576). -/
def execLedgerRecordWrite (die : BitVec 5) (type : Byte) (src : SrcNo) (payload : List Byte) (s : State) : Out :=
  .next (ledgerRecordWrite die.toNat type src.toNat payload s)
/-- LEDGER_HOURLY (R579). -/
def execLedgerHourly (s : State) : Out := .next (ledgerHourly s)
/-- MARGIN_SWEEP (R580). -/
def execMarginSweep (ms : List Margin) (s : State) : Out := .next (ms.foldl State.measure s)

end Sys2Proof.Machine
end

