-- ==== Sys2Proof/Machine/Operands.lean ====
section
/-! DEFINITION. Operand forms: the register specifiers of R184, the fields of the slots (R178, R206, R219), and the
descriptors that instructions read from Bench lines (R236, R265, R272). -/

namespace Sys2Proof.Machine

/-! ### Register specifiers (R184) -/

/-- A specifier is assigned: codes 0x30 to 0x3F are reserved. -/
def specOk (r : BitVec 6) : Bool := r.toNat < 0x30

/-- The value a specifier reads. -/
def Core.readSpec (k : Core) (r : BitVec 6) : DWord :=
  let n := r.toNat
  if n < 0x20 then k.sreg n
  else if n < 0x28 then (if k.pred (n - 0x20) then 1 else 0)
  else if n < 0x2C then (k.mreg (n - 0x28)).bits
  else BitVec.ofInt 64 (k.anchor (n - 0x2C))

/-- What a write of a 64-bit value through a specifier does. -/
def specWrite (r : BitVec 6) (v : DWord) : Act :=
  let n := r.toNat
  if n < 0x20 then .sreg n v
  else if n < 0x28 then .pred (n - 0x20) (v.getLsbD 0)
  else if n < 0x2C then .mreg (n - 0x28) (.ofBits v)
  else .anchor (n - 0x2C) (clampAnchor v.toInt)

/-- The second operand of R207. -/
def Core.src2 (k : Core) : Src2 → DWord
  | .reg r => k.readSpec r
  | .imm v => v.signExtend 64

/-- The second operand names no reserved code. -/
def src2Ok : Src2 → Bool
  | .reg r => specOk r
  | .imm _ => true

/-! ### Bits of a slot -/

/-- `w` bits of a slot from bit `lo`. -/
def slotBits (slot : Nat) (lo w : Nat) : BitVec w := BitVec.ofNat w (slot >>> lo)

/-- One bit of a slot. -/
def slotBit (slot : Nat) (i : Nat) : Bool := slot.testBit i

/-- The second operand of an ADD-like slot: bit 35 selects the immediate (R206). -/
def slotSrc2 (slot : Nat) : Src2 :=
  if slotBit slot 35 then .imm (slotBits slot 0 35) else .reg (slotBits slot 29 6)

/-- The drain fields in slot bits [42:0] (R235). -/
def slotDrainF (slot : Nat) : DrainF :=
  { ofmt := slotBits slot 40 3, sr := slotBit slot 39, mr := slotBits slot 37 2, clr := slotBit slot 36,
    bias := slotBit slot 35, scale := slotBit slot 34, op := slotBits slot 32 2, fn := slotBits slot 28 4,
    tap := slotBit slot 27, crumb := slotBit slot 26, ca := slotBits slot 23 3, dest := slotBits slot 21 2,
    rd := slotBits slot 16 5, rq := slotBits slot 11 5 }

/-! ### Registers that hold lines, tags and addresses (R220, R270) -/

/-- The line index in a register: bits [15:0]. -/
def Core.lineOf (k : Core) (r : BitVec 5) : Nat := (k.sreg r.toNat).toNat % 2 ^ 16

/-- The source of an XSEND or XRECV register: line, number of lines, tag (R270). -/
def msgSpan (v : DWord) : Nat × Nat × Word :=
  (v.toNat % 2 ^ 16, (v.toNat >>> 16) % 16 + 1, v.extractLsb' 32 32)

/-- The address in an XSEND or XRECV register: node, partition, logical core (R270). -/
def msgAddr (v : DWord) : MsgAddr := ⟨v.extractLsb' 48 16, v.extractLsb' 44 4, v.extractLsb' 39 5⟩

/-! ### Descriptors -/

/-- A line as signed 16 bits at a byte offset. -/
def lineInt16 (l : Line) (at' : Nat) : Int := (BitVec.ofNat 16 (lineField l at' 2)).toInt

/-- The drain descriptor of R236; the tap anchor is clamped (R86). -/
def parseDrainDesc (l : Line) : DrainDesc :=
  { mask := l.extractLsb' 0 128, bias := lineField l 16 2, scale := lineField l 18 2, opLine := lineField l 20 2,
    opFmt := lineField l 22 1, opStride := lineField l 24 2, tapLine := lineField l 26 2,
    tapAnchor := clampAnchor (lineInt16 l 28), mxLine := lineField l 30 2, pitch := lineField l 32 4,
    stream := BitVec.ofNat 32 (lineField l 36 4), crumbKey := BitVec.ofNat 32 (lineField l 40 4),
    base := BitVec.ofNat 64 (lineField l 48 8), rowStride := BitVec.ofNat 64 (lineField l 56 8),
    colStride := BitVec.ofNat 64 (lineField l 64 8) }

/-- The fields of a PEEL descriptor (R265). -/
structure PeelFields where
  kind : Nat
  space : Nat
  tsz : Nat
  line : Nat
  addr : Nat
  addr2 : Nat
  rowBytes : Nat
  rows : Nat
  memPitch : Nat
  benchPitch : Nat
deriving DecidableEq, Repr

/-- The PEEL descriptor of R265. -/
def parsePeel (l : Line) : PeelFields :=
  { kind := lineField l 0 1, space := lineField l 1 1, tsz := lineField l 2 1, line := lineField l 4 2,
    addr := lineField l 8 8, addr2 := lineField l 16 8, rowBytes := lineField l 24 4, rows := lineField l 28 4,
    memPitch := lineField l 32 4, benchPitch := lineField l 36 4 }

/-- The fields of an XRED descriptor (R272). -/
structure XredFields where
  group : Word
  n : Nat
  fmt : Nat
  anchor : Int
  lc : Nat
  first : Nat
  count : Nat
  src : Nat
  dst : Nat
  status : Nat
deriving DecidableEq, Repr

/-- The XRED descriptor of R272. -/
def parseXred (l : Line) : XredFields :=
  { group := BitVec.ofNat 32 (lineField l 0 4), n := lineField l 4 4, fmt := lineField l 8 1,
    anchor := lineInt16 l 10, lc := lineField l 12 4, first := lineField l 16 4, count := lineField l 20 4,
    src := lineField l 24 2, dst := lineField l 26 2, status := lineField l 28 2 }

end Sys2Proof.Machine
end

