-- ==== Sys2Proof/Machine/Arrays.lean ====
section
/-! DEFINITION. The arrays and the activation stream (04_core.md R118 to R139; 07 R226 to R234, R243 to R245): WLD, WSWAP,
MMA, ZOA, IDLE, and the events AQ_ROW_POP, ARRAY_ROW_LAND, WLD_LOADED, TASTING_ROW_INJECT. -/

namespace Sys2Proof.Machine

/-! ### Weight tiles -/

/-- The lines a WLD reads (R227). -/
def wldLines : Nat → Nat
  | 0 | 1 => 128
  | 2 | 3 => 256
  | 4 | 5 => 192
  | 6 | 7 => 128
  | _ => 64

/-- The side-data lines a WLD reads (R228). -/
def wldSides (fmt mode : Nat) : Nat :=
  if 4 ≤ fmt ∧ fmt ≤ 6 then 8 else if mode = 1 then 1 else if mode = 2 then 5 else 0

/-- The combinations of R227. -/
def wldPairOk (fmt mode : Nat) : Bool :=
  (fmt ≤ 6 && mode == 0) || (fmt == 7 && mode == 2) || (fmt == 8 && (mode == 1 || mode == 2))

/-- The element format of an activation format code (R264). -/
def actFmt : Nat → Fmt
  | 0 => e4m3
  | 1 => e5m2
  | 2 => bf16
  | 3 => fp16
  | 4 => e3m2
  | 5 => e2m3
  | _ => e2m1

/-- The target format of an expansion (R226). -/
def expandFmt : Nat → Fmt
  | 0 => e4m3
  | 1 => e5m2
  | _ => bf16

/-- The format class of an operand: 0 FP8, 1 MX, 2 BF16, 3 FP16 (R63). -/
def fmtClass (fmt : Nat) : Nat := if fmt ≤ 1 then 0 else if fmt = 2 then 2 else if fmt = 3 then 3 else 1

/-- The class of a tile; an expanded weight has its target's (R63). -/
def Tile.cls (t : Tile) : Nat := if t.fmt ≥ 7 then (if t.tgt ≤ 1 then 0 else 2) else fmtClass t.fmt

/-- Element `i` of width `w` of packed lines (R59). -/
def elemInLines (ls : List Line) (w i : Nat) : Nat :=
  let o := w * i
  (((ls.getD (o / 1024) 0).toNat + 2 ^ 1024 * (ls.getD (o / 1024 + 1) 0).toNat) >>> (o % 1024)) % 2 ^ w

/-- The signed value of `w` bits. -/
def signedElem (w v : Nat) : Int := if v < 2 ^ (w - 1) then v else (v : Int) - 2 ^ w

/-- The value of a narrow weight expanded into its target (R66 to R68). -/
def Tile.expand (t : Tile) (k n : Nat) : Num :=
  let w := if t.fmt = 7 then 8 else 4
  let q := elemInLines t.lines w (128 * k + n)
  let f := expandFmt t.tgt
  if t.mode = 1 then f.decode (elemInLines t.side f.width q)
  else
    let sc := fp32.decode (elemInLines t.side 32 n)
    let z := signedElem 8 (elemInLines t.side 8 (512 + n))
    f.decode (f.encode .rne ((numInt (signedElem w q - z)).mul sc))

/-- The weight of K-row k and logical column n (R60, R227). -/
def Tile.weight (t : Tile) (k n : Nat) : Num :=
  if t.fmt ≥ 7 then t.expand k n
  else
    let f := actFmt t.fmt
    let code := elemInLines t.lines f.width (128 * k + n)
    if t.cls = 1 then mxValue f (BitVec.ofNat 8 (elemInLines t.side 8 (128 * (k / 32) + n))) code else f.decode code

/-- Element k of an activation row (R60, R264). -/
def AqRow.elem (a : AqRow) (k : Nat) : Num :=
  let f := actFmt a.fmt
  let code := elemAt a.data.toNat f.width k
  if fmtClass a.fmt = 1 then mxValue f (BitVec.ofNat 8 (elemAt a.scales.toNat 8 (k / 32))) code else f.decode code

/-- The K-rows of a pass (R119). -/
def passRows (cls : Nat) : Nat := if cls = 1 then 256 else 128

/-- The sum of one column of a row against a tile: every product exact, placed on the grid, added as AX64 (R65, R93, R97),
and whether a precision-loss event occurred (R95). -/
def columnSum (a : AqRow) (t : Tile) (anchor : Int) (n : Nat) : Ax 64 × Bool :=
  (List.range (passRows t.cls)).foldl (fun (acc : Ax 64 × Bool) k =>
    let p := placeOnGrid anchor (a.poison || t.poison) ((a.elem k).mul (t.weight k n))
    (acc.1.add (p.ax 64), acc.2 || p.loss)) (Ax.zero, false)

/-- The 128 column sums of a row, widened to AX80 (R88). -/
def rowSums (a : AqRow) (t : Tile) (anchor : Int) : List (Ax80 × Bool) :=
  (List.range 128).map fun n => let (x, l) := columnSum a t anchor n; (x.widen 80, l)

/-- An entry of a row; an absent row is zero. -/
def rowAt (r : AxRow) (n : Nat) : Ax80 := r.getD n Ax.zero

/-- Two rows added entry by entry (R97). -/
def addRows (a b : AxRow) : AxRow := (List.range 128).map fun n => (rowAt a n).add (rowAt b n)

/-- A row stored: a row of zeros is held as an absent one. -/
def normRow (r : AxRow) : AxRow := if r.all fun x => x == Ax.zero then [] else r

/-- A row of a bank. -/
def Bank.row (b : Bank) (i : Nat) : AxRow := smapGet [] b.rows i

/-! ### WLD and WSWAP -/

/-- WLD (R125, R227 to R229, R245): line 0 is read in the issue cycle, the others as the cycles pass (Clock.lean). -/
def insWld (a : ArrayNo) (fmt : BitVec 4) (tgt mode : BitVec 2) (rw rx : BitVec 5) (s : State) (r : CoreRef) :
    InsRes :=
  let k := s.core r.k
  let ar := k.array a.toNat
  let f := fmt.toNat
  let d := arrDetail a.toNat 0
  let n := wldLines f
  let sides := wldSides f mode.toNat
  let lw := k.lineOf rw
  let lx := k.lineOf rx
  let u := 1 + a.toNat
  if f ≥ 9 ∨ mode = 3 ∨ (f ≥ 7 ∧ tgt = 3) then insFault s r fcIllegal 1 0 u
  else
    let faults :=
      (if ar.shadow ≠ .empty then [insInfo s r fcOverflow 1 d u] else []) ++
      (if 65536 < lw + n ∨ (sides ≠ 0 ∧ 65536 < lx + sides) then [insInfo s r fcRange 1 0 u] else []) ++
      (if wldPairOk f mode.toNat then [] else [insInfo s r fcFormat 1 d u])
    checkReadWith s r 1 faults (lw :: (if sides = 0 then [] else [lx]))
      (.ok (s.updCore r.k fun k =>
        k.setArray a.toNat
          { ar with shadow := .writing ⟨s.cyc r, n, sides, lw, lx, k.pc, ⟨f, tgt.toNat, mode.toNat, [], [], false⟩⟩
                    idleTo := min ar.idleTo (s.cyc r) }))

/-- WSWAP (R126, R127, R230, R245). -/
def insWswap (mask : BitVec 4) (s : State) (r : CoreRef) : InsRes :=
  let k := s.core r.k
  let named := (List.range 4).filter fun a => mask.getLsbD a
  match named.find? fun a => match (k.array a).shadow with | .loaded _ => false | _ => true with
  | some a => insFault s r fcState 1 (arrDetail a 0) (1 + a)
  | none =>
    .ok (s.updCore r.k fun k => named.foldl (fun k a =>
      let ar := k.array a
      match ar.shadow with
      | .loaded t => k.setArray a { ar with active := some t, shadow := .empty, idleTo := min ar.idleTo (s.cyc r) }
      | _ => k) k)

/-- WLD_LOADED (R229): the cycle in which the last line was read has ended. -/
def wldLoadedCore (k : Core) (a cyc : Nat) : Core :=
  let ar := k.array a
  match ar.shadow with
  | .writing j =>
    if j.tile.lines.length = j.total ∧ j.start + j.total ≤ cyc then k.setArray a { ar with shadow := .loaded j.tile } else k
  | _ => k

/-! ### MMA -/

/-- The K-rows that an MMA adds to a count (R98). -/
def mmaCount (mod : Nat) : Nat := if mod = 1 then 256 else 128

/-- The checks of R231 on one array of an MMA. -/
def mmaChecks (k : Core) (mod bank a : Nat) (pc : Nat) : List FaultInfo :=
  let ar := k.array a
  let b := ar.bank bank
  let d := arrDetail a bank
  let want := if mod = 0 then [0] else if mod = 1 then [1] else [2, 3]
  let f := fun code => (⟨code, d, 1, pc, 1 + a⟩ : FaultInfo)
  (match ar.active with
    | none => [f fcState]
    | some t => if want.contains t.cls then [] else [f fcFormat]) ++
  (if b.st = .spent then [f fcState] else []) ++
  (if b.st = .open ∧ b.anchor ≠ some (k.anchor a) then [f fcAnchor] else [])

/-- A row whose entries all have OVF set (R98). -/
def ovfRow (r : AxRow) : AxRow := (List.range 128).map fun n => (rowAt r n).setOvf

/-- A bank with OVF set in every entry (R98). -/
def Bank.setOvf (b : Bank) : Bank := { b with rows := (List.range 256).map fun i => (i, ovfRow (b.row i)) }

/-- A bank that an MMA binds, counts and opens (R98, R101, R231); a count beyond the capacity sets OVF in all of it. -/
def Bank.bind (b : Bank) (anchor : Int) (n rows : Nat) : Bank :=
  let count := addCount b.count n
  let b := { b with st := .open, anchor := some anchor, count := count, top := max b.top rows }
  if axCapacity < count then b.setOvf else b

/-- An array whose bank an MMA binds; the MMA ends the array's span (R245). -/
def ArrayS.bind (ar : ArrayS) (bank : Nat) (anchor : Int) (n rows cyc : Nat) : ArrayS :=
  { ar.setBank bank ((ar.bank bank).bind anchor n rows) with idleTo := min ar.idleTo cyc }

/-- MMA (R119, R120, R231, R232, R245): banks bound, counted and OPEN; the rows are popped by AQ_ROW_POP. One whose row 0 would
pop in its issue cycle waits with its bundle for a row that an ACT still owes (R233, R287). A count beyond the capacity raises its
fault with the MMA's effect (R98, R107). -/
def insMma (mod : BitVec 2) (mask banks : BitVec 4) (m1 : Byte) (s : State) (r : CoreRef) : InsRes :=
  let k := s.core r.k
  let named := (List.range 4).filter fun a => mask.getLsbD a
  let bankOf := fun a => b2n (banks.getLsbD a)
  if mod = 3 then insFault s r fcIllegal 1 0 0
  else
    let faults := eachCode (named.flatMap fun a => mmaChecks k mod.toNat (bankOf a) a k.pc)
    if !faults.isEmpty then .fault faults
    else if decide (k.streamFree ≤ s.cyc r) && k.aq.isEmpty && !k.acts.isEmpty then .wait [.aqRow]
    else
      let arrays := named.filterMap fun a => (k.array a).active.map fun t => (⟨a, bankOf a, t, k.anchor a⟩ : MmaArray)
      let (id, k1) := k.fresh
      let job : MmaJob :=
        { id := id, b16 := mod == 2, start := max (s.cyc r) k.streamFree, rows := m1.toNat + 1, popped := 0,
          arrays := arrays, pc := k.pc }
      let k2 := named.foldl (fun k a =>
        k.setArray a ((k.array a).bind (bankOf a) (k.anchor a) (mmaCount mod.toNat) (m1.toNat + 1) (s.cyc r))) k1
      let s1 := s.setCore r.k { k2 with mmas := k2.mmas ++ [job], streamFree := job.start + job.rows * (if job.b16 then 2 else 1) }
      let full := named.filter fun a => decide (axCapacity < addCount ((k.array a).bank (bankOf a)).count (mmaCount mod.toNat))
      match full with
      | [] => .ok s1
      | a :: _ => .okWith s1 [insInfo s r fcAnchor 1 (arrDetail a (bankOf a)) (1 + a)]

/-- The latency from a pop to the landing of its row: 6 + L_A (R122, R123). -/
def landLatency : Nat := 6 + 263

/-- A popped row enters the arrays of its MMA (R119, R123). -/
def Core.enterRow (k : Core) (j : MmaJob) (at' : Nat) (row : AqRow) : Core :=
  j.arrays.foldl (fun k m =>
    let ar := k.array m.array
    k.setArray m.array
      { ar with flight := ar.flight ++ [⟨j.id, m.bank, j.popped, at' + landLatency, row, m.tile, m.anchor, j.pc⟩] }) k

/-- An MMA after a pop; one with all rows popped leaves the list. -/
def popJob (js : List MmaJob) : List MmaJob :=
  match js with
  | [] => []
  | j :: js => if j.popped + 1 = j.rows then js else { j with popped := j.popped + 1 } :: js

/-- A core's pop is due in this cycle and no ACT will bring its row (R233). -/
def popFault (s : State) (r : CoreRef) : Option FaultInfo :=
  let k := s.core r.k
  match k.mmas with
  | [] => none
  | j :: _ =>
    if k.popDue (s.cyc r) && k.aq.isEmpty && k.acts.isEmpty then
      some ⟨fcNoProducer, 0, 1, j.pc, 0⟩
    else none

/-- The faults of the other cores' pops in the cycle of a core's pop (R298). -/
def otherPops (s0 : State) (r : CoreRef) (t : State) : State :=
  (s0.coresOf r.pt).foldl (fun t e =>
    if e.2 = r.k then t
    else
      match popFault s0 ⟨r.pt, e.1, e.2⟩ with
      | some f => t.raise r.pt e.1 e.2 f
      | none => t) t

/-- AQ_ROW_POP (R232 to R234, R298). -/
def aqRowPop (s : State) (r : CoreRef) : State :=
  let k := s.core r.k
  match k.mmas with
  | [] => s
  | j :: _ =>
    let at' := j.popAt
    if !(s.part r.pt).advancing || s.arrayHold r.pt || s.cyc r < at' then s
    else
      match k.aq with
      | [] =>
        if k.acts.isEmpty then otherPops s r (s.raise r.pt r.c r.k ⟨fcNoProducer, 0, 1, j.pc, 0⟩)
        else s.freeze r.pt [⟨r.k, .aqRow, false, s.now⟩]
      | row :: rest =>
        match j.arrays.find? fun m => m.tile.cls != fmtClass row.fmt with
        | some m =>
          let s1 := s.updCore r.k fun k =>
            { k with arrays := k.arrays.map fun e => (e.1, { e.2 with flight := e.2.flight.filter fun f => f.job != j.id }) }
          s1.raise r.pt r.c r.k ⟨fcFormat, arrDetail m.array m.bank, 1, j.pc, 1 + m.array⟩
        | none => s.setCore r.k { k.enterRow j at' row with aq := rest, mmas := popJob k.mmas }

/-- ARRAY_ROW_LAND (R123, R134, R138, R107): the oldest row in flight of the array reaches its bank, while the partition's arrays
do not stand still. -/
def arrayRowLand (a : Nat) (mismatch : Bool) (s : State) (r : CoreRef) : State :=
  let k := s.core r.k
  let ar := k.array a
  match ar.flight with
  | [] => s
  | f :: rest =>
    if !(s.part r.pt).advancing || s.arrayHold r.pt || s.cyc r < f.due then s
    else
      let sums := rowSums f.act f.tile f.anchor
      let b := ar.bank f.bank
      let new := addRows (b.row f.row) (sums.map Prod.fst)
      let b := { b with rows := smapSet [] b.rows f.row (normRow new), suspect := b.suspect || mismatch }
      let s1 := s.setCore r.k (k.setArray a { ar.setBank f.bank b with flight := rest })
      let s2 := s1.countLoss r.k f.job (sums.any Prod.snd)
      let s3 := if mismatch then (s2.event (srcCore r.k (1 + a)) 0x0201 (detail3 f.bank f.row 0)).residue r.k a f.bank else s2
      if sums.any fun x => x.1.fl.ovf then
        s3.raise r.pt r.c r.k ⟨fcAnchor, arrDetail a f.bank, 1, f.pc, 1 + a⟩
      else s3

/-! ### ZOA and IDLE -/

/-- Readers of a bank that are still to read it keep the bank as they find it (R137). -/
def ArrayS.snapReaders (ar : ArrayS) (bank : Nat) : ArrayS :=
  { ar with jobs := ar.jobs.map fun j =>
      match j.kind with
      | .drain b => if b = bank then { j with snap := some (j.snap.getD (ar.bank bank)) } else j
      | .fold b _ _ _ _ _ => if b = bank then { j with snap := some (j.snap.getD (ar.bank bank)) } else j
      | .pbdrain _ => j }

/-- A bank cleared by a ZOA: ZERO for every later instruction, as it was for the earlier readers (R137). -/
def ArrayS.zoa (ar : ArrayS) (bank : Nat) : ArrayS := (ar.snapReaders bank).setBank bank .zero

/-- ZOA (R137, R243). -/
def insZoa (mask : Byte) (s : State) (r : CoreRef) : InsRes :=
  let k := s.core r.k
  let named := (List.range 8).filter fun i => mask.getLsbD i
  let busy := fun i => (k.array (i / 2)).flight.any (fun f => f.bank == i % 2) ||
    k.mmas.any fun j => j.arrays.any fun m => m.array == i / 2 && m.bank == i % 2
  match named.find? busy with
  | some i => insFault s r fcState 1 (arrDetail (i / 2) (i % 2)) (1 + i / 2)
  | none => .ok (s.updCore r.k fun k => named.foldl (fun k i => k.setArray (i / 2) ((k.array (i / 2)).zoa (i % 2))) k)

/-- IDLE (R244, R245): the span is the cycles t + 1 to t + n. -/
def insIdle (mask : BitVec 4) (n : BitVec 20) (s : State) (r : CoreRef) : InsRes :=
  .ok (s.updCore r.k fun k => (List.range 4).foldl (fun k a =>
    if mask.getLsbD a && n != 0 then
      k.setArray a { k.array a with idleFrom := s.cyc r + 1, idleTo := s.cyc r + n.toNat + 1 }
    else k) k)

/-! ### Tasting -/

/-- The format code of a round (R451). -/
def tasteFmt (round : Word) : Nat := round.toNat % 3

/-- A test element formed from a Leaven word (R451). -/
def tasteElem (f : Nat) (w : Word) : Num :=
  match f with
  | 0 => e4m3.decode (w.toNat % 256)
  | 1 => e2m1.decode (w.toNat % 16)
  | _ =>
    let n := w.toNat
    bf16.decode ((n >>> 15) % 2 * 2 ^ 15 + (0x70 + (n >>> 7) % 16) * 2 ^ 7 + n % 128)

/-- The anchor of a round (R451). -/
def tasteAnchor : Nat → Int
  | 0 => 17
  | 1 => 5
  | _ => 1

/-- The Leaven word of a test element (R450). -/
def tasteWord (seed : DWord) (round : Word) (index : Nat) : Word :=
  leavenWord seed round (BitVec.ofNat 32 (0x7A57_0000 + tasteFmt round)) (BitVec.ofNat 64 index)

/-- The sum of column c of test row j (R450, R451); E2M1 rows have 256 K elements. -/
def tasteSum (seed : DWord) (round : Word) (j c : Nat) : Ax 64 :=
  let f := tasteFmt round
  (List.range (if f = 1 then 256 else 128)).foldl (fun acc k =>
    acc.add ((placeOnGrid (tasteAnchor f) false
      ((tasteElem f (tasteWord seed round (2 ^ 20 + 256 * j + k))).mul
        (tasteElem f (tasteWord seed round (128 * k + c))))).ax 64)) Ax.zero

/-- The tile rows that a round loads before its test rows (R453): one per K-row. -/
def tasteTileRows (round : Word) : Nat := if tasteFmt round = 1 then 256 else 128

/-- The round that Abmito gives an array (R454): another than the one it is at begins anew. -/
def TasteArr.assign (t : TasteArr) (round : Word) (seed : DWord) : TasteArr :=
  if t.round = round ∧ t.seed = seed then t
  else { TasteArr.reset with round := round, seed := seed, doneThisPeriod := t.doneThisPeriod, quarantined := t.quarantined }

/-- A round is complete: the sums of all its test rows have come (R453). -/
def TasteArr.done (t : TasteArr) : Bool := t.loaded == tasteTileRows t.round && t.injected == 256

/-- The sum of a column of a test row with what a defect makes of it. -/
def tasteSeen (t : TasteArr) (err : Option TasteErr) (c : Nat) : Ax 64 :=
  let x := tasteSum t.seed t.round t.injected c
  match err with
  | some e => if e.col.toNat = c then ⟨x.i + e.off, .ofBits (x.fl.bits ||| e.flags)⟩ else x
  | none => x

/-- One step of a round on an array (R452, R453): a tile row loaded, or a test row injected and its terms added. -/
def TasteArr.step (t : TasteArr) (err : Option TasteErr) : TasteArr :=
  if t.loaded < tasteTileRows t.round then { t with loaded := t.loaded + 1 }
  else if t.injected < 256 then
    let f := BitVec.ofNat 32 (0x7A57_0000 + tasteFmt t.round)
    let sums := (List.range 128).map fun c => (c, tasteSeen t err c)
    { t with
        injected := t.injected + 1
        doneThisPeriod := t.doneThisPeriod || t.injected == 255
        acc := sums.foldl (fun m e => smapUpd 0 m e.1 fun v =>
          v + mix64 (mix64 (BitVec.ofNat 64 (128 * t.injected + e.1) ^^^
            ((f.setWidth 64 + 1) * 0x9E37_79B9_7F4A_7C15)) ^^^ e.2.i)) t.acc
        flags := sums.foldl (fun b e => b ||| e.2.fl.bits) t.flags }
  else t

/-- A physical core is a spare (R22, R478): in no place of the core map, and neither failed, retired nor fused off. -/
def State.isSpare (s : State) (d p : Nat) : Bool :=
  !((List.range 24).any fun l => s.mapCore d l == p) && !(s.core (26 * d + p)).failed && !(s.core (26 * d + p)).retired && !s.fusedOff d p

/-- Tasting may take a cycle of an array now (R244, R245, R453): within an IDLE span, on a quarantined partition, on a spare core;
never in a frozen cycle. -/
def State.tasteFree (s : State) (x : TasteAt) : Bool :=
  let k := 26 * x.die.toNat + x.p.toNat
  match s.ptOfCore k with
  | some n =>
    let p := s.part n
    let ar := (s.core k).array x.a.toNat
    p.quarantined || (p.advancing && decide (ar.idleFrom ≤ p.cyc) && decide (p.cyc < ar.idleTo))
  | none => s.isSpare x.die.toNat x.p.toNat

/-- TASTING_ROW_INJECT (R244, R245, R450 to R453, R512): a step of the round that Abmito has given the array, where and while Tasting may
run, and only while the arrays are clocked (R32). -/
def tastingRowInject (x : TasteAt) (round : Word) (seed : DWord) (err : Option TasteErr) (s : State) : State :=
  if s.tele.tasteEn && s.power.rails && s.power.st == .w0 && s.tasteFree x then
    let d := s.die x.die.toNat
    s.setDie x.die.toNat { d with taste := smapUpd .reset d.taste (4 * x.p.toNat + x.a.toNat) fun t => (t.assign round seed).step err }
  else s

/-! ### The rows -/

/-- WLD (R227). -/
def execWld (pt : Pt) (c : LCore) (a : ArrayNo) (fmt : BitVec 4) (tgt mode : BitVec 2) (rw rx : BitVec 5)
    (s : State) : Out := runIns s pt c (insWld a fmt tgt mode rw rx s)
/-- WLD_LOADED (R229). -/
def execWldLoaded (pt : Pt) (c : LCore) (a : ArrayNo) (s : State) : Out :=
  onCore s pt c fun r => s.updCore r.k fun k => wldLoadedCore k a.toNat (s.cyc r)
/-- WSWAP (R230). -/
def execWswap (pt : Pt) (c : LCore) (mask : BitVec 4) (s : State) : Out := runIns s pt c (insWswap mask s)
/-- MMA (R231). -/
def execMma (pt : Pt) (c : LCore) (mod : BitVec 2) (mask banks : BitVec 4) (m1 : Byte) (s : State) : Out :=
  runIns s pt c (insMma mod mask banks m1 s)
/-- AQ_ROW_POP (R232). -/
def execAqRowPop (pt : Pt) (c : LCore) (s : State) : Out := onCore s pt c fun r => aqRowPop s r
/-- ARRAY_ROW_LAND (R123). -/
def execArrayRowLand (pt : Pt) (c : LCore) (a : ArrayNo) (mismatch : Bool) (s : State) : Out :=
  onCore s pt c fun r => arrayRowLand a.toNat mismatch s r
/-- ZOA (R243). -/
def execZoa (pt : Pt) (c : LCore) (mask : Byte) (s : State) : Out := runIns s pt c (insZoa mask s)
/-- IDLE (R244). -/
def execIdle (pt : Pt) (c : LCore) (mask : BitVec 4) (n : BitVec 20) (s : State) : Out :=
  runIns s pt c (insIdle mask n s)
/-- TASTING_ROW_INJECT (R453). -/
def execTastingRowInject (x : TasteAt) (round : Word) (seed : DWord) (err : Option TasteErr) (s : State) : Out :=
  .next (tastingRowInject x round seed err s)

end Sys2Proof.Machine
end

