-- ==== Sys2Proof/Machine/Requests.lean ====
section
/-! DEFINITION. Where an address of a memory space leads (R265, R266, R399), requests to peers (R402) and to the host
(R540 to R542), and writes of a transfer's bytes. -/

namespace Sys2Proof.Machine

/-- Where an address leads. `bad` is refused with a reason of R403. -/
inductive Place where
  | mem (a : Nat)
  | dss (die off : Nat)
  | remote (node : NodeId) (a : Nat)
  | host (a : Nat)
  | bad (reason : Nat)
deriving DecidableEq, Repr

/-- A fabric local address and a length (R399). -/
def State.fabLocal (s : State) (a len : Nat) : Place :=
  if a / 2 ^ 44 = 0 then (if a + len ≤ s.mem.hostTop then .mem a else .bad 3)
  else if a / 2 ^ 44 = 1 then
    if (a / 2 ^ 28) % 2 ^ 16 = 0 ∧ a % 2 ^ 26 + len ≤ 2 ^ 26 then .dss ((a / 2 ^ 26) % 4) (a % 2 ^ 26) else .bad 3
  else .bad 3

/-- A memory space and an address (R265, R266, R393). -/
def State.place (s : State) (die space addr len : Nat) : Place :=
  match space with
  | 0 => .mem addr
  | 1 =>
    let node := BitVec.ofNat 16 (addr / 2 ^ 48)
    if node = 0 ∨ node = s.fab.node then s.fabLocal (addr % 2 ^ 48) len
    else if s.fab.node = 0 then .bad 1
    else .remote node (addr % 2 ^ 48)
  | 2 => .host addr
  | _ => .dss die addr

/-- The place lies beyond this module. -/
def Place.away : Place → Bool
  | .remote .. => true
  | .host _ => true
  | _ => false

/-- A byte of the DSS. -/
def State.dssByte (s : State) (die a : Nat) : Byte × Bool :=
  let l := s.dssLine die (a / 128)
  (BitVec.ofNat 8 (l.data.toNat >>> (8 * (a % 128))), l.poison)

/-- The bytes at a place of this module with their poison; a refused read gives poison (R403), its bytes open (log 9). -/
def State.readPlace (s : State) (p : Place) (len : Nat) : List (Byte × Bool) :=
  match p with
  | .mem a => (List.range len).map fun i => (s.mem.read (a + i), s.mem.linePoison ((a + i) / 256))
  | .dss d o => (List.range len).map fun i => s.dssByte d (o + i)
  | _ => (List.range len).map fun i => (Config.freeByte 0 i, true)

/-- Bytes written into the DSS, an absent one leaving it as it is; a line written whole takes the write's poison, one
written in part keeps its own as well (R148 for the Bench). -/
def State.dssPut (s : State) (die o : Nat) (bs : List (Option Byte)) (poison : Bool) : State :=
  if bs.isEmpty then s
  else
    (List.range ((o + bs.length - 1) / 128 - o / 128 + 1)).foldl (fun s q =>
      let i := o / 128 + q
      let l := s.dssLine die i
      let at' := fun b => if o ≤ i * 128 + b then bs.getD (i * 128 + b - o) none else none
      let cells := (List.range 128).map at'
      let n := (cells.filter Option.isSome).length
      if n = 0 then s
      else
        let data := bytesNat (cells.zipIdx.map fun (x, b) => x.getD (BitVec.ofNat 8 (l.data.toNat >>> (8 * b))))
        s.setDssLine die i ⟨BitVec.ofNat 1024 data, if n = 128 then poison else l.poison || poison⟩) s

/-- The runs of present bytes, each with its offset, at most `cap` bytes long. -/
def byteRuns (cap : Nat) : Nat → List (Option Byte) → List (Nat × List Byte)
  | _, [] => []
  | o, none :: bs => byteRuns cap (o + 1) bs
  | o, some b :: bs =>
    match byteRuns cap (o + 1) bs with
    | (o', r) :: rest => if o' = o + 1 ∧ r.length < cap then (o, b :: r) :: rest else (o, [b]) :: (o', r) :: rest
    | [] => [(o, [b])]

/-- A packet of the module's own, given to the router (R395). -/
def State.toRouter (s : State) (p : Packet) : State := { s with fab := { s.fab with outbox := s.fab.outbox ++ [p] } }

/-- A request of kind READ, WRITE, ATOMIC_ADD or MESSAGE to a peer (R385, R386, R402): it is sent and kept until its
answer, which the issuer has room for (R380). -/
def State.sendReq (s : State) (dst : NodeId) (kind : Byte) (flow : Byte) (tag : Word) (addr : DWord) (len : Nat)
    (bytes : List Byte) (poison : Bool) (who : Issuer) : State :=
  let seq := smapGet 0 s.fab.nextSeq dst.toNat
  let p : Packet :=
    { dst := dst, src := s.fab.node, kind := kind, flow := flow, len := len, seq := seq, tag := tag, addr := addr,
      reason := 0, poison := poison, hops := 0, payload := bytes }
  ({ s with fab := { s.fab with reqs := s.fab.reqs ++ [(⟨dst, seq, p, who, s.now, s.now⟩ : FabReq)]
                                nextSeq := smapSet 0 s.fab.nextSeq dst.toNat (seq + 1) } }).toRouter p

/-- A packet that answers one or tells of one: READ_DATA, ACK, NOT_READY, XQ_FREE, REFUSE (R386). A node with no ID sends
none (R393). -/
def State.sendAnswer (s : State) (dst : NodeId) (kind flow : Byte) (seq tag : Word) (addr : DWord) (reason : Word)
    (bytes : List Byte) (poison : Bool) : State :=
  if s.fab.node = 0 then s
  else s.toRouter
    { dst := dst, src := s.fab.node, kind := kind, flow := flow, len := bytes.length, seq := seq, tag := tag,
      addr := addr, reason := reason, poison := poison, hops := 0, payload := bytes }

/-- The function that carries a partition's host transfers (R540). -/
def State.fnOf (s : State) (n : Nat) : Nat := if s.host.vfEnable then n + 1 else 0

/-- The port can send a function's requests (R542). -/
def State.canSend (s : State) (fn : Nat) : Bool := s.host.gen != 0 && (s.fn fn).bme

/-- The longest payload of a write to the host (R540). -/
def State.maxPayload (s : State) : Nat := 128 * 2 ^ s.host.maxPayload.toNat

/-- A read request to the host (R540, R541). -/
def State.sendHostRead (s : State) (fn addr len : Nat) (who : Issuer) : State :=
  let r : HostRead := ⟨s.host.nextTag, fn, addr, len, 0, s.now, who⟩
  ({ s with host := { s.host with reads := s.host.reads ++ [r], nextTag := s.host.nextTag + 1 } }).emit
    (.hostRead fn addr len s.host.relaxed)

/-- Bytes of a partition's transfer written to a place, `poison` by their offsets: a packet is poisoned where a byte of it is
(R151, R361, R401, R403, R540, R542). The answer says whether the write was refused; the issuing context is then aborted. -/
def State.putPlace (s : State) (n : Nat) (flow : Byte) (p : Place) (bs : List (Option Byte)) (poison : Nat → Bool)
    (who : Issuer) : State × Bool :=
  let psn := fun (o len : Nat) => (List.range len).any fun i => poison (o + i)
  match p with
  | .mem a => (s.memWrite a bs (psn 0 bs.length), false)
  | .dss d o => (s.dssPut d o bs (psn 0 bs.length), false)
  | .remote node a =>
    ((byteRuns 2048 0 bs).foldl (fun s r =>
      s.sendReq node 0x03 flow 0 (BitVec.ofNat 64 (a + r.1)) r.2.length r.2 (psn r.1 r.2.length) who) s, false)
  | .host a =>
    if s.canSend (s.fnOf n) then
      ((byteRuns s.maxPayload 0 bs).foldl (fun s r =>
        s.emit (.hostWrite (s.fnOf n) (a + r.1) r.2 s.host.relaxed (psn r.1 r.2.length))) s, false)
    else (s.refuseAbort n 1, true)
  | .bad reason => (s.refuseAbort n reason, true)

/-- A copy of an entry is marked: poisoned data has left in its result. -/
def Admitted.poison (a : Admitted) (primary : Bool) : Admitted :=
  if primary then { a with poison1 := true } else { a with poison2 := true }

/-- The admitted entry of a partition is marked POISONED: poisoned data has left through memory space 2 (R363, R432). -/
def State.markPoisoned (s : State) (n : Nat) : State :=
  match s.runningEntry n with
  | some a => s.updEntry a.idx fun b => b.poison ((s.ctx a.ctx).isPrimary n)
  | none => s

end Sys2Proof.Machine
end

