-- ==== Sys2Proof/Machine/Collective.lean ====
section
/-! DEFINITION. The collective engine (12_thatre_fabric.md R406 to R408, R416; 07_fiard_compute.md R273 to R276): who takes part in an
operation, its checks, what each node contributes to the owner of each segment, and what the owners send back. -/

namespace Sys2Proof.Machine

/-! ### Groups (R406, R416) -/

/-- The VALID entry of a group (R406, R416): ID 0 is never matched. -/
def State.groupEntry (s : State) (group : Word) : Option CollGroup :=
  if group = 0 then none
  else ((List.range 1024).map fun i => smapGet .reset s.fab.groups i).find? fun g => g.id == group && g.valid

/-- The node list of a group. -/
def State.groupNodes (s : State) (g : CollGroup) : List NodeId :=
  (List.range g.nNodes.toNat).map fun j => smapGet 0 s.fab.nodeList (g.nlBase.toNat + j)

/-- An entry of a node list names this node (R406). -/
def State.namesSelf (s : State) (n : NodeId) : Bool := n == 0 || n == s.fab.node

/-- The node list of a group by its ID; empty where no entry is in force. -/
def State.nodesOf (s : State) (group : Word) : List NodeId := ((s.groupEntry group).map s.groupNodes).getD []

/-- The nodes beside this one in a group's list (R406). -/
def State.otherNodes (s : State) (group : Word) : List NodeId := (s.nodesOf group).filter fun n => !s.namesSelf n

/-- The group's entry serves this node (R407): it stands in the list exactly once. -/
def State.groupLists (s : State) (g : CollGroup) : Bool := ((s.groupNodes g).filter s.namesSelf).length == 1

/-- The group's entry serves members of a partition (R406, R407): LOCAL_PT lists it. -/
def State.groupServes (s : State) (g : CollGroup) (n : Nat) : Bool := s.groupLists g && g.localPt.getLsbD n

/-! ### The values of an operation (R100, R274, R275, R408) -/

/-- The bytes of an element of a format (R274). -/
def collWidth : Nat → Nat
  | 0 => 12
  | 1 => 4
  | 2 => 2
  | _ => 1

/-- The AX80 word i of a participant's source. -/
def collWord (x : CollInput) (i : Nat) : Ax80 :=
  axOfWord (BitVec.ofNat 96 (bytesNat ((x.data.drop (12 * i)).take 12)))

/-- An exact sum narrowed to AX80 (R100): one outside the range sets OVF and keeps the low 80 bits. -/
def narrowSum (i : Int) (fl : AxFlags) : Ax80 :=
  let a : Ax80 := ⟨BitVec.ofInt 80 i, fl⟩
  if -(2 ^ 79) ≤ i ∧ i < 2 ^ 79 then a else a.setOvf

/-- The exact sum of AX80 words, narrowed, and whether the engine marked it (R100). One outside the range of words that already carry
OVF is not marked by the engine and raises no fault (DESIGN CHOICE, log 49: R107 speaks of words that the engine marks, and this
one was marked before). -/
def sumExactWord (ws : List Ax80) : Ax80 × Bool :=
  let fl := ws.foldl (fun f w => f.or w.fl) AxFlags.none
  let r := narrowSum ((ws.map fun w => w.i.toInt).sum) fl
  (r, r.fl.ovf && !fl.ovf)

/-- A local partial as AX80 words (R408): one, or the fewest below 2^79 in magnitude that sum to it. -/
def splitSum (i : Int) : List Int :=
  if -(2 ^ 79) ≤ i ∧ i < 2 ^ 79 then [i]
  else (List.range (ceilDiv i.natAbs (2 ^ 79 - 1))).map fun k => i.sign * (min (2 ^ 79 - 1) (i.natAbs - k * (2 ^ 79 - 1)) : Nat)

/-- sum(l, h) of R274 over the tree nodes whose values are known; `fuel` bounds the depth. -/
def treeSum (f : Fmt) (known : Nat → Nat → Option Num) : Nat → Nat → Nat → Num
  | 0, l, h => (known l h).getD (.fin false 0 0)
  | fuel + 1, l, h =>
    match known l h with
    | some v => v
    | none =>
      if h - l ≤ 1 then .fin false 0 0
      else
        let m := l + 2 ^ Nat.log2 (h - l - 1)
        f.decode (f.encode .rne ((treeSum f known fuel l m).add (treeSum f known fuel m h)))

/-- The tree nodes of R274 that leaves complete, the largest of each branch (R408). -/
def wholeNodes (has : Nat → Bool) : Nat → Nat → Nat → List (Nat × Nat)
  | 0, _, _ => []
  | fuel + 1, l, h =>
    if (List.range (h - l)).all fun i => has (l + i) then [(l, h)]
    else if h - l ≤ 1 then []
    else
      let m := l + 2 ^ Nat.log2 (h - l - 1)
      wholeNodes has fuel l m ++ wholeNodes has fuel m h

/-- Element i of leaf l (R274), where a participant of this node holds it: leaf-major, n elements to a leaf. -/
def treeLeaf (f : Fmt) (xs : List CollInput) (i l : Nat) : Option Num :=
  (xs.find? fun x => decide (x.first ≤ l) && decide (l < x.first + x.count)).map fun x =>
    let w := f.width / 8
    f.decode (bytesNat ((x.data.drop (((l - x.first) * x.n + i) * w)).take w))

/-- The flags of a value (R273). -/
def numFlags : Num → AxFlags
  | .nan => { AxFlags.none with nan := true }
  | .inf false => { AxFlags.none with pinf := true }
  | .inf true => { AxFlags.none with ninf := true }
  | _ => .none

/-- The formats of .SUM tree (R274); the spec gives no sum for another, nor for no leaf (log 18). -/
def treeFmt (a : CollInput) : Option Fmt :=
  if a.lc = 0 then none else if a.fmt = 1 then some fp32 else if a.fmt = 2 then some bf16 else none

/-- The elements that an operation splits into segments (R408): a running maximum is one, a barrier has none (log 16). -/
def collElems (a : CollInput) : Nat :=
  match a.op with
  | .max => 1
  | .xbar => 0
  | _ => a.n

/-- The elements of segment s of n elements over N nodes (R408). -/
def segment (n nodes s : Nat) : List Nat :=
  ((List.range (ceilDiv n nodes)).map fun i => s * ceilDiv n nodes + i).filter fun i => decide (i < n)

/-- The segments that hold an element. -/
def segmentsOf (n nodes : Nat) : List Nat := (List.range nodes).filter fun s => !(segment n nodes s).isEmpty

/-- What the members of one node contribute to some elements (R408). -/
def contribution (a : CollInput) (xs : List CollInput) (es : List Nat) : CollShare :=
  let w := collWidth a.fmt
  let (vals, fl) : List CollVal × AxFlags :=
    match a.op with
    | .sumExact =>
      (es.flatMap fun i =>
        let ws := xs.map fun x => collWord x i
        let fl := ws.foldl (fun f w => f.or w.fl) AxFlags.none
        (splitSum ((ws.map fun w => w.i.toInt).sum)).map fun v =>
          (⟨i, 0, 0, natBytes 12 (axWord ⟨BitVec.ofInt 80 v, fl⟩).toNat⟩ : CollVal), .none)
    | .sumTree =>
      match treeFmt a with
      | none => ([], .none)
      | some f =>
        let leaf := fun i l => treeLeaf f xs i l
        (es.flatMap fun i => (wholeNodes (fun l => (leaf i l).isSome) 33 0 a.lc).map fun e =>
            (⟨i, e.1, e.2, natBytes (f.width / 8)
              (f.encode .rne (treeSum f (fun l h => if h - l ≤ 1 then leaf i l else none) 33 e.1 e.2))⟩ : CollVal),
          es.foldl (fun fl i => (List.range a.lc).foldl (fun fl l => fl.or (((leaf i l).map numFlags).getD .none)) fl) .none)
    | .max =>
      let m := xs.foldl (fun r x => r.join ⟨x.mag, x.nf⟩) MaxReg.zero
      ([⟨0, 0, 0, natBytes 4 m.mag.toNat ++ natBytes 1 (b2n m.nf)⟩], .none)
    | .gather => (xs.flatMap fun x => es.map fun i => ⟨i, x.first, 0, (x.data.drop (i * w)).take w⟩, .none)
    | .scatter =>
      ((xs.filter fun x => x.first == 0).flatMap fun x => es.flatMap fun i => (List.range a.count).map fun k =>
        ⟨i, k, 0, (x.data.drop ((k * a.n + i) * w)).take w⟩, .none)
    | .xbar => ([], .none)
  ⟨vals, fl.bits, xs.any fun x => x.poison⟩

/-- A running maximum as a contribution carries it. -/
def maxOfBytes (bs : List Byte) : MaxReg := ⟨BitVec.ofNat 32 (bytesNat (bs.take 4)), (bs.getD 4 0) != 0⟩

/-- The flags of contributions joined. -/
def sharesFlags (xs : List CollShare) : AxFlags := xs.foldl (fun f x => f.or (.ofBits x.fl)) .none

/-- The owner's result for its elements, and whether it marked a word (R100, R274, R275, R408). `free` are the bytes of an element
of a .SUM tree that the spec gives no sum for (log 18). -/
def combine (a : CollInput) (xs : List CollShare) (es : List Nat) (free : Nat → List Byte) : CollShare × Bool :=
  let vals := xs.flatMap fun x => x.vals
  let at' := fun i => vals.filter fun v => v.elem == i
  let poison := xs.any fun x => x.poison
  match a.op with
  | .sumExact =>
    let ws := es.map fun i => (i, sumExactWord ((at' i).map fun v => axOfWord (BitVec.ofNat 96 (bytesNat v.bytes))))
    (⟨ws.map fun e => ⟨e.1, 0, 0, natBytes 12 (axWord e.2.1).toNat⟩,
      (ws.foldl (fun f e => f.or e.2.1.fl) AxFlags.none).bits, poison⟩, ws.any fun e => e.2.2)
  | .sumTree =>
    (⟨es.map fun i => ⟨i, 0, 0, match treeFmt a with
      | none => free i
      | some f =>
        let known := fun l h => ((at' i).find? fun v => v.lo == l && v.hi == h).map fun v => f.decode (bytesNat v.bytes)
        natBytes (f.width / 8) (f.encode .rne (treeSum f known 33 0 a.lc))⟩, (sharesFlags xs).bits, poison⟩, false)
  | .max =>
    let m := (at' 0).foldl (fun r v => r.join (maxOfBytes v.bytes)) MaxReg.zero
    (⟨[⟨0, 0, 0, natBytes 4 m.mag.toNat ++ natBytes 1 (b2n m.nf)⟩], 0, poison⟩, false)
  | _ => (⟨vals, 0, poison⟩, false)

/-- What an operation gives: the bytes for a rank, the running maximum, the flags, whether R100 marked a word, and poison. -/
structure CollResult where
  bytes : Nat → List Byte
  max : MaxReg
  fl : AxFlags
  marked : Bool
  poison : Bool

/-- The result of an operation from the results of its segments (R273, R274, R408). -/
def collResult (a : CollInput) (rs : List CollSeg) : CollResult :=
  let vals := rs.flatMap fun r => r.share.vals
  let val := fun k i => ((vals.find? fun v => v.elem == i && v.lo == k).map fun v => v.bytes).getD []
  let poison := rs.any fun r => r.share.poison
  { bytes := fun k => match a.op with
      | .gather => (List.range a.count).flatMap fun j => (List.range a.n).flatMap (val j)
      | .scatter => (List.range a.n).flatMap (val k)
      | .max | .xbar => []
      | _ => (List.range a.n).flatMap (val 0)
    max := maxOfBytes (val 0 0), fl := { sharesFlags (rs.map fun r => r.share) with psn := poison || (sharesFlags (rs.map fun r => r.share)).psn }
    marked := rs.any fun r => r.marked, poison := poison }

/-! ### Operations in flight (R406, R407) -/

/-- The inputs that an operation has so far. -/
def CollRun.inputs (u : CollRun) : List CollInput := u.locals.map (fun m => m.inp) ++ u.remote.map Prod.snd

/-- The operations of a group that have ended. -/
def State.collDoneOf (s : State) (group : Word) : Nat := smapGet 0 s.fab.collDone group.toNat

/-- The k-th operation of a group, where it is in flight here. -/
def State.findRun (s : State) (group : Word) (idx : Nat) : Option CollRun :=
  s.fab.runs.find? fun u => u.group == group && u.idx == idx

/-- The state with an operation changed. -/
def State.updRun (s : State) (group : Word) (idx : Nat) (f : CollRun → CollRun) : State :=
  { s with fab := { s.fab with runs := s.fab.runs.map fun u => if u.group = group ∧ u.idx = idx then f u else u, collLastBeat := s.now } }

/-- The state without an operation, which has ended. -/
def State.endRunOf (s : State) (group : Word) (idx : Nat) : State :=
  { s with fab := { s.fab with
      runs := s.fab.runs.filter fun u => !(u.group == group && u.idx == idx)
      collDone := smapSet 0 s.fab.collDone group.toNat (max (s.collDoneOf group) (idx + 1)) } }

/-- The local participating contexts of an operation, each by the lowest of its cores. -/
def CollRun.heads (u : CollRun) : List CollMember :=
  u.locals.filter fun m => u.locals.all fun x => x.pt != m.pt || decide (m.c ≤ x.c)

/-- Pieces of a list of at most `w` bytes, at least one. -/
def chunks (w : Nat) (bs : List Byte) : List (List Byte) :=
  (List.range (max 1 (ceilDiv bs.length w))).map fun i => (bs.drop (w * i)).take w

/-- The packets that carry engine data to a node (R385, R386, R395, R409): the group's ID, the operation count in bytes 24 to 27, a flow
label from 0xC0, 2,040 bytes of payload at most. Their sequence number is the operation count as well (DESIGN CHOICE, log 16). -/
def State.collPackets (s : State) (group : Word) (idx : Nat) (node : NodeId) (m : CollMsg) : List Packet :=
  (chunks 2040 (Config.engineData m)).map fun bs =>
    { dst := node, src := s.fab.node, kind := 0x10, flow := 0xC0#8 + (Config.collectiveFlow group).setWidth 8, len := bs.length
      seq := BitVec.ofNat 32 idx, tag := group, addr := 0, reason := BitVec.ofNat 32 idx, poison := false, hops := 0, payload := bs }

/-- Engine data on its way to other nodes of a group (R408). -/
def State.collTell (s : State) (group : Word) (idx : Nat) (nodes : List NodeId) (m : CollMsg) : State :=
  if nodes.isEmpty then s
  else
    ({ s with fab := { s.fab with outbox := s.fab.outbox ++ nodes.flatMap fun n => s.collPackets group idx n m, collLastBeat := s.now } }).emit
      (.collective group idx nodes m)

/-- A failed check of R407: every local member's context stops with COLLECTIVE_MISMATCH and nothing is written. Its record names
the bundle of the context's lowest core. -/
def State.failRun (s : State) (u : CollRun) : State :=
  u.heads.foldl (fun s m => s.raisePart m.pt fcMismatch (srcHub 0x200) m.c m.pc)
    (s.endRunOf u.group u.idx)

/-- A check that fails here: the members of the other nodes stop as well (R407, log 16). -/
def State.failAll (s : State) (u : CollRun) : State := (s.failRun u).collTell u.group u.idx (s.otherNodes u.group) .mismatch

/-- The leaf ranges cover [0, Lc) exactly once (R407). -/
def leavesCover (lc : Nat) (xs : List CollInput) : Bool :=
  let ranges := (xs.map fun x => (x.first, x.first + x.count)).filter fun r => r.1 != r.2
  decide ((ranges.map fun r => r.2 - r.1).sum = lc) && ranges.all (fun r => decide (r.2 ≤ lc)) &&
    decide (ranges.Pairwise fun a b => a.2 ≤ b.1 ∨ b.2 ≤ a.1)

/-- The checks of R407 on what the members of an operation present. -/
def collAgree (pTotal : Nat) (xs : List CollInput) : Bool :=
  match xs with
  | [] => true
  | a :: _ =>
    xs.all (fun x => x.op == a.op && x.n == a.n && x.fmt == a.fmt &&
      (a.op != .sumExact || x.anchor == a.anchor) && (a.op != .sumTree || x.lc == a.lc)) &&
    match a.op with
    | .sumTree => leavesCover a.lc xs
    | .gather | .scatter => xs.all (fun x => x.count == pTotal) &&
        (List.range pTotal).all fun i => (xs.filter fun x => x.first == i).length == 1
    | _ => true

/-- The nodes with members in an operation: this one is the first of them where it has any. -/
def CollRun.sources (u : CollRun) : Nat := (u.remote.map Prod.fst).dedup.length + b2n (!u.locals.isEmpty)

/-- An operation whose last member has come is checked, before any data moves (R407). -/
def State.checkRun (s : State) (group : Word) (idx : Nat) : State :=
  match s.findRun group idx with
  | none => s
  | some u =>
    match s.groupEntry group with
    | none => s.failRun u
    | some g =>
      match u.agreed, u.inputs with
      | none, a :: xs =>
        if (a :: xs).length < g.pTotal.toNat then s
        else if (a :: xs).length = g.pTotal.toNat ∧ collAgree g.pTotal.toNat (a :: xs) then
          s.updRun group idx fun u => { u with agreed := some ⟨{ a with data := [] }, g.pTotal.toNat, u.sources⟩ }
        else s.failAll u
      | _, _ => s

/-! ### Segments and owners (R408) -/

/-- The node that owns a segment is this one. -/
def State.ownsSegment (s : State) (group : Word) (seg : Nat) : Bool := ((s.nodesOf group)[seg]?.map s.namesSelf).getD false

/-- Once the checks have passed and every local source has been read, the node sends each owner its contribution. -/
def State.contribute (s : State) (group : Word) (idx : Nat) : State :=
  match s.findRun group idx with
  | none => s
  | some u =>
    match u.agreed with
    | none => s
    | some c =>
      if u.given || u.locals.isEmpty || !(u.locals.all fun m => m.ready) then s
      else
        let nodes := s.nodesOf group
        let xs := u.locals.map fun m => m.inp
        (segmentsOf (collElems c.head) nodes.length).foldl (fun s seg =>
          let x := contribution c.head xs (segment (collElems c.head) nodes.length seg)
          if s.ownsSegment group seg then s.updRun group idx fun v => { v with shares := v.shares ++ [(s.fab.node, seg, x)] }
          else s.collTell group idx [nodes.getD seg 0] (.share seg x))
          (s.updRun group idx fun v => { v with given := true })

/-- An owner with the contributions of every node that has members combines them and sends the result to every node. -/
def State.combineOwn (s : State) (group : Word) (idx seg : Nat) : State :=
  match s.findRun group idx with
  | none => s
  | some u =>
    match u.agreed with
    | none => s
    | some c =>
      let mine := (u.shares.filter fun x => x.2.1 == seg).map fun x => x.2.2
      let es := segment (collElems c.head) (s.nodesOf group).length seg
      if !s.ownsSegment group seg || u.results.any (fun r => r.seg == seg) || decide (mine.length < c.sources) then s
      else
        let w := collWidth c.head.fmt
        let (free, s0) := if c.head.op = .sumTree ∧ treeFmt c.head = none then s.draw (8 * w * es.length) else (0, s)
        let r := combine c.head mine es fun i => ((natBytes (w * es.length) free.toNat).drop (w * (i - es.headD 0))).take w
        (s0.updRun group idx fun v => { v with results := v.results ++ [⟨seg, r.1, r.2⟩] }).collTell group idx (s.otherNodes group)
          (.result seg r.1 r.2)

/-- An operation goes on as far as it can: checked, given, combined. -/
def State.advanceRun (s : State) (group : Word) (idx : Nat) : State :=
  let s1 := (s.checkRun group idx).contribute group idx
  (List.range (s1.nodesOf group).length).foldl (fun s seg => s.combineOwn group idx seg) s1

/-- Every segment of an operation has its result here. -/
def State.runComplete (s : State) (u : CollRun) : Bool :=
  match u.agreed with
  | none => false
  | some c => (segmentsOf (collElems c.head) (s.nodesOf u.group).length).all fun g => u.results.any fun r => r.seg == g

/-- The operation of a group that ends next: the oldest whose result has come. -/
def State.readyRun (s : State) (group : Word) : Option (CollRun × CollAgreed) :=
  (s.fab.runs.find? fun u => u.group == group && s.runComplete u).bind fun u => u.agreed.map fun c => (u, c)

/-- An operation of a group changed; it is opened where nobody has come before. -/
def State.addToRun (s : State) (group : Word) (idx : Nat) (f : CollRun → CollRun) : State :=
  if (s.findRun group idx).isSome then s.updRun group idx f
  else { s with fab := { s.fab with
    runs := s.fab.runs ++ [f ⟨group, idx, [], [], none, false, [], []⟩], collLastBeat := s.now } }

/-- A local member reaches its `idx`-th operation on a group (R406, R407, R393). One of a rewound core that presents again what it has
presented takes its place there (R471). -/
def State.joinRun (s : State) (group : Word) (idx : Nat) (m : CollMember) : State :=
  let bad := fun (s : State) => s.failAll { ((s.findRun group idx).getD ⟨group, idx, [], [], none, false, [], []⟩) with
    locals := ((s.findRun group idx).map fun u => u.locals).getD [] ++ [m] }
  let again := fun (x : CollMember) => x.pt == m.pt && x.c == m.c && !x.linked && !x.ready
  match s.groupEntry group with
  | none => bad s
  | some g =>
    if !s.groupServes g m.pt || decide (idx < s.collDoneOf group) then bad s
    else if s.fab.node = 0 ∧ !(s.otherNodes group).isEmpty then s.refuseAbort m.pt 1
    else if ((s.findRun group idx).map fun u => u.locals.any again).getD false then
      (s.updRun group idx fun u => { u with locals := u.locals.map fun x => if again x = true then m else x }).advanceRun group idx
    else
      ((s.addToRun group idx fun u => { u with locals := u.locals ++ [m] }).collTell group idx (s.otherNodes group)
        (.member { m.inp with data := [] })).advanceRun group idx

/-- The bytes of lines. -/
def linesBytes (ls : List (Line × Bool)) : List Byte := ls.flatMap fun l => natBytes 128 l.1.toNat

/-- The source of a local member has been read (R408). -/
def State.memberReady (s : State) (k id : Nat) (ls : List (Line × Bool)) : State :=
  let mine := fun (m : CollMember) => m.k == k && m.xfer == id
  match s.fab.runs.find? fun u => u.locals.any mine with
  | none => s
  | some u =>
    let read := fun (m : CollMember) =>
      if mine m then { m with inp := { m.inp with data := linesBytes ls, poison := ls.any Prod.snd }, ready := true } else m
    (s.updRun u.group u.idx fun v => { v with locals := v.locals.map read }).advanceRun u.group u.idx

end Sys2Proof.Machine
end

