-- ==== Sys2Proof/Machine/Transfers.lean ====
section
/-! DEFINITION. The D slot and the engines (07_fiard_compute.md R223, R224, R263 to R268, R630): ACT, PEEL, BCOPY, DSSLD,
DSSST, the rows of a Peel transfer, and the events of engines. -/

namespace Sys2Proof.Machine

/-! ### Accepting a transfer -/

/-- A line set PENDING as a destination (R147): bytes that nothing has written read as 0 (R148). -/
def BenchLine.await (l : BenchLine) (xfer cause : Nat) : BenchLine :=
  { l with st := .pending
           data := if l.st = .invalid then 0 else l.data
           poison := if l.st = .invalid then false else l.poison
           hold := some ⟨xfer, cause, false⟩ }

/-- A source line held until its engine has read it (R223, cause 2). -/
def BenchLine.holdSrc (l : BenchLine) (xfer : Nat) : BenchLine :=
  { l with st := .pending, hold := some ⟨xfer, 2, true⟩ }

/-- A line that has become VALID with whole data, both dirty bits set (R146, R466). -/
def BenchLine.fill (l : BenchLine) (data : Line) (poison : Bool) : BenchLine :=
  { l with st := .valid, data := data, poison := poison, dirty0 := true, dirty1 := true, hold := none }

/-- A held line returned to VALID (R223). -/
def BenchLine.release (l : BenchLine) : BenchLine := { l with st := .valid, hold := none }

/-- A core with lines changed. -/
def Core.updLines (k : Core) (ls : List Nat) (f : BenchLine → BenchLine) : Core :=
  ls.foldl (fun k i => k.setLine i (f (k.line i))) k

/-- A transfer accepted: its source lines held, its destination lines PENDING with the cause a wait on them has. A line that is
both is held until it has been read (R223, R273). -/
def Core.accept (k : Core) (kind : XferKind) (src dst : List Nat) (cause dss first : Nat) : Nat × Core :=
  let (id, k1) := k.fresh
  let k2 := (k1.updLines (dst.filter fun i => !src.contains i) fun l => l.await id cause).updLines src fun l => l.holdSrc id
  (id, { k2 with xfers := k2.xfers ++ [⟨id, kind, src, dst, [], dss, first⟩] })

/-- A transfer of a core. -/
def Core.xfer (k : Core) (id : Nat) : Option Xfer := k.xfers.find? fun x => x.id == id

/-- A core with a transfer changed. -/
def Core.updXfer (k : Core) (id : Nat) (f : Xfer → Xfer) : Core :=
  { k with xfers := k.xfers.map fun x => if x.id = id then f x else x }

/-- A core without a transfer. -/
def Core.dropXfer (k : Core) (id : Nat) : Core := { k with xfers := k.xfers.filter fun x => x.id != id }

/-- The instance is one that R460 carries: a re-run issues it without effect. -/
def Core.suppressed (k : Core) : Bool := decide (k.issuedXfers < k.carried)

/-- An instance of an instruction of R460 has issued. -/
def Core.countXfer (k : Core) : Core := { k with issuedXfers := k.issuedXfers + 1 }

/-- An instruction of R460: without effect where it is carried, and counted. -/
def carriedOr (s : State) (r : CoreRef) (go : InsRes) : InsRes :=
  if (s.core r.k).suppressed then .ok (s.updCore r.k Core.countXfer) else go

/-! ### Replay (R471) -/

/-- The logical core of an IN or OUT record. -/
def JrnlRec.core : JrnlRec → Option Nat
  | .undo .. => none
  | .msg c _ => some c
  | .res c _ _ _ => some c
  | .bar c _ => some c
  | .peel c _ _ => some c
  | .out c _ _ => some c

/-- The first record of a list that a test takes, and the list without it. -/
def takeRec (p : JrnlRec → Bool) : List JrnlRec → Option (JrnlRec × List JrnlRec)
  | [] => none
  | x :: xs => if p x then some (x, xs) else (takeRec p xs).map fun e => (e.1, x :: e.2)

/-- The next record of a kind that a core in replay uses. -/
def State.useRec (s : State) (r : CoreRef) (p : JrnlRec → Bool) : Option (JrnlRec × State) :=
  if !(s.part r.pt).replay.contains r.c then none
  else
    match (s.part r.pt).ctx with
    | none => none
    | some cn =>
      let c := s.ctx cn
      (takeRec (fun x => x.core == some r.c && p x) c.replay).map fun e => (e.1, s.setCtx cn { c with replay := e.2 })

/-- The next OUT record of a kind. -/
def State.useOut (s : State) (r : CoreRef) (kind group : Nat) : Option State :=
  (s.useRec r fun x => x == .out r.c kind group).map Prod.snd

/-- An instruction whose effect matches the core's next OUT record sends nothing. -/
def replayOut (s : State) (r : CoreRef) (kind : Nat) (go : InsRes) : InsRes :=
  match s.useOut r kind 0 with
  | some s1 => .ok (s1.updCore r.k Core.countXfer)
  | none => go

/-- The context on a partition is stopped for a rewind (R470) or a verdict (R494). -/
def State.stoppedOn (s : State) (n : Nat) : Bool := match (s.part n).ctx with
  | some cn => (s.ctx cn).stopped
  | none => false

/-- Messages for a core wait: its context is stopped, or it still replays (R470, R471). -/
def State.holdsMessages (s : State) (n c : Nat) : Bool := s.stoppedOn n || (s.part n).replay.contains c

/-- The checks of R223 on source lines that an engine will read: an INVALID line is UNINIT, a PENDING one is awaited. -/
def checkSource (s : State) (r : CoreRef) (slot : Nat) (ls : List Nat) (go : InsRes) : InsRes := checkRead s r slot ls go

/-- A fault of a D-slot instruction. -/
def faultD (s : State) (r : CoreRef) (code : Nat) : InsRes := insFault s r code 3 0 6

/-! ### The engines of a die -/

/-- The engine that serves an engine number (R498). -/
def State.serving (s : State) (d e : Nat) : Nat := ((s.engine d e).servedBy).getD e

/-- The state with an engine changed. -/
def State.updEngine (s : State) (d e : Nat) (f : Engine → Engine) : State := s.setEngine d e (f (s.engine d e))

/-- A descriptor joins an engine's queue; an engine with an empty queue has beaten until now (R484). -/
def Engine.push (g : Engine) (now : Nat) (d : PeelDesc) : Engine :=
  { g with queue := g.queue ++ [d], lastBeat := if g.queue.isEmpty then now else g.lastBeat }

/-- An engine beats (R484). -/
def State.beatEngine (s : State) (d e : Nat) : State := s.updEngine d e fun g => { g with lastBeat := s.now }

/-- The state with the descriptor of a core's transfer changed. -/
def State.updDesc (s : State) (d e k xfer : Nat) (f : PeelDesc → PeelDesc) : State :=
  s.updEngine d e fun g =>
    { g with queue := g.queue.map fun x => if x.core = k ∧ x.xfer = xfer then f x else x }

/-- The descriptor of a core's transfer, with the engine that holds it. -/
def State.findDesc (s : State) (k xfer : Nat) : Option (Nat × PeelDesc) :=
  (List.range 8).findSome? fun e =>
    ((s.engine (k / 26) e).queue.find? fun x => x.core == k && x.xfer == xfer).map fun x => (e, x)

/-- The flow label of an engine (R395). -/
def engFlow (d e : Nat) : Byte := Config.engineFlow d e

/-! ### PEEL -/

/-- The first byte after the rows of a transfer, from its base. -/
def spanEnd (rowBytes rows pitch : Nat) : Nat := if rowBytes = 0 ∨ rows = 0 then 0 else (rows - 1) * pitch + rowBytes

/-- The Bench lines that the rows of a transfer touch, ascending (R266). -/
def peelLines (line rowBytes rows pitch : Nat) : List Nat :=
  if rowBytes = 0 ∨ rows = 0 then []
  else
    (List.range rows).foldl (fun ls r =>
      let first := line + r * pitch / 128
      let last := line + (r * pitch + rowBytes - 1) / 128
      ls ++ ((List.range (last - first + 1)).map (first + ·)).filter fun i => !ls.contains i) []

/-- A range of a space at issue (R224, R350): local memory ends at the host region, a DSS at 64 MiB. -/
def spaceRangeOk (s : State) (space addr span : Nat) : Bool :=
  match space with
  | 0 => decide (addr + span ≤ s.mem.hostTop)
  | 3 => decide (addr + span ≤ 2 ^ 26)
  | _ => true

/-- The fault of a PEEL descriptor, lowest code first (R224, R225, R266, R267, R350). -/
def peelFault (s : State) (f : PeelFields) : Option Nat :=
  if 4 ≤ f.kind ∨ 4 ≤ f.space ∨ ¬ (f.tsz = 0 ∨ f.tsz = 1 ∨ f.tsz = 2 ∨ f.tsz = 4) then some fcIllegal
  else
    let span := spanEnd f.rowBytes f.rows f.memPitch
    let bench := spanEnd f.rowBytes f.rows f.benchPitch
    if f.benchPitch % 128 ≠ 0 ∨ 2 ^ 26 < f.rowBytes * f.rows ∨ 256 < f.rows ∨
        (f.tsz ≠ 0 ∧ (f.rowBytes ≠ 128 * f.tsz ∨ f.rows % 128 ≠ 0)) ∨
        (f.kind ≤ 1 ∧ 65536 * 128 < f.line * 128 + bench) ∨
        !spaceRangeOk s f.space f.addr span ∨ (f.kind = 2 ∧ !spaceRangeOk s f.space f.addr2 span) then some fcRange
    else none

/-- The kind of a descriptor. -/
def peelKind : Nat → DescKind
  | 0 => .into
  | 1 => .out
  | 2 => .copy
  | _ => .stream

/-- A descriptor with the fields of R265. -/
def peelDesc (f : PeelFields) (pt core xfer pc : Nat) : PeelDesc :=
  { pt := pt, core := core, xfer := xfer, kind := peelKind f.kind, space := f.space, tsz := f.tsz, line := f.line,
    addr := f.addr, addr2 := f.addr2, rowBytes := f.rowBytes, rows := f.rows, memPitch := f.memPitch,
    benchPitch := f.benchPitch, started := false, received := 0, rowBuf := [], sent := false, data := [],
    headerOk := false, headerPoison := false, imgPsn := false, imgAnchor := none, imgCount := 0, slot := 0, op := 0, tag := 0, pc := pc }

/-! ### The rows of a transfer -/

/-- The byte of the row stream at a place, of the bytes that requests have brought; none while it is to come. -/
def PeelDesc.came (d : PeelDesc) (o : Nat) : Option (Byte × Bool) :=
  (d.data.find? fun e => e.1 ≤ o && decide (o < e.1 + e.2.1.length)).map fun e => (e.2.1.getD (o - e.1) 0, e.2.2)

/-- The place of a source row of a kind 0 or 2 transfer. -/
def State.peelPlace (s : State) (d : PeelDesc) (base row : Nat) : Place :=
  s.place (d.core / 26) d.space (base + row * d.memPitch) d.rowBytes

/-- A source row with the poison of each byte; none while a byte is to come. `buf` are the Bench lines read so far. -/
def State.peelSource (s : State) (d : PeelDesc) (buf : List (Line × Bool)) (row : Nat) : Option (List (Byte × Bool)) :=
  match d.kind with
  | .out =>
    let ls := peelLines d.line d.rowBytes d.rows d.benchPitch
    (List.range d.rowBytes).mapM fun c =>
      let o := row * d.benchPitch + c
      let i := ls.idxOf (d.line + o / 128)
      buf[i]?.map fun l => (BitVec.ofNat 8 (l.1.toNat >>> (8 * (o % 128))), l.2)
  | _ =>
    let p := s.peelPlace d d.addr row
    if p.away then (List.range d.rowBytes).mapM fun c => d.came (row * d.rowBytes + c)
    else some (s.readPlace p d.rowBytes)

/-- A block of 128 rows transposed (R267): element (r, c) goes to (c, r); one poisoned byte poisons the block. -/
def transposeBlock (es : Nat) (rows : List (List (Byte × Bool))) : List (List (Byte × Bool)) :=
  let psn := rows.any fun r => r.any Prod.snd
  (List.range 128).map fun i => (List.range (128 * es)).map fun b =>
    (((rows.getD (b / es) []).getD (i * es + b % es) (0, false)).1, psn)

/-- A destination row of a transfer, transposed or not. -/
def State.peelRow (s : State) (d : PeelDesc) (buf : List (Line × Bool)) (row : Nat) : Option (List (Byte × Bool)) :=
  if d.tsz = 0 then s.peelSource d buf row
  else do
    let b := row / 128
    let rows ← (List.range 128).mapM fun i => s.peelSource d buf (128 * b + i)
    (transposeBlock d.tsz rows)[row % 128]?

/-- The row and the column that a byte of a Bench line takes from a kind-0 transfer: the last row that covers it. -/
def PeelDesc.cellOf (d : PeelDesc) (o : Nat) : Option (Nat × Nat) :=
  let r := if d.benchPitch = 0 then d.rows - 1 else min (d.rows - 1) (o / d.benchPitch)
  if d.rows ≠ 0 ∧ o - r * d.benchPitch < d.rowBytes then some (r, o - r * d.benchPitch) else none

/-- What a kind-0 transfer brings into a Bench line: for each byte, whether it writes it and what; none while some of it
is to come. -/
def State.peelLineData (s : State) (d : PeelDesc) (line : Nat) : Option (List (Option (Byte × Bool))) :=
  let cells := (List.range 128).map fun b => d.cellOf ((line - d.line) * 128 + b)
  let need := (cells.filterMap fun c => c.map Prod.fst).dedup
  do
    let rows ← need.mapM fun r => (s.peelRow d [] r).map fun x => (r, x)
    some (cells.map fun c => do
      let (r, col) ← c
      let row ← (rows.find? fun e => e.1 == r)
      row.2[col]?)

/-- A Bench line filled by an arriving transfer (R147, R148, R151, R267). -/
def BenchLine.arrive (l : BenchLine) (cells : List (Option (Byte × Bool))) : BenchLine :=
  let data := bytesNat (cells.zipIdx.map fun (c, b) => match c with
    | some v => v.1
    | none => BitVec.ofNat 8 (l.data.toNat >>> (8 * b)))
  let psn := cells.any fun c => match c with
    | some v => v.2
    | none => false
  let whole := cells.all Option.isSome
  l.fill (BitVec.ofNat 1024 data) (if whole then psn else l.poison || psn)

/-! ### Writes of a transfer -/

/-- One destination row of a kind 1 or 2 transfer written (R151, R266, R361): in memory and in a DSS, poison goes by the line a
byte of it falls into, beyond the module by the packet. -/
def State.putRow (s : State) (d : PeelDesc) (e base row : Nat) (cells : List (Byte × Bool)) : State × Bool :=
  let p := s.peelPlace d base row
  let w := fun (s : State) (bs : List (Option Byte)) (psn : Nat → Bool) =>
    s.putPlace d.pt (engFlow (d.core / 26) e) p bs psn (.peelWrite (d.core / 26) e d.core d.xfer)
  match p with
  | .host _ | .remote .. =>
    let marks := cells.map Prod.snd
    w s (cells.map fun c => some c.1) fun i => marks.getD i false
  | .bad _ => w s [] fun _ => false
  | _ =>
    let clean := cells.map fun c => if c.2 then none else some c.1
    let bad := cells.map fun c => if c.2 then some c.1 else none
    let (s1, _) := w s clean fun _ => false
    w s1 bad fun _ => true

/-- The rows of a kind 1 or 2 transfer written one after another, until one is refused. -/
def State.putRows (s : State) (d : PeelDesc) (e base : Nat) : List (Nat × List (Byte × Bool)) → State × Bool
  | [] => (s, false)
  | (r, cells) :: rest =>
    match s.putRow d e base r cells with
    | (s1, true) => (s1, true)
    | (s1, false) => s1.putRows d e base rest

/-- All destination rows of a transfer, once every byte has come. -/
def State.allRows (s : State) (d : PeelDesc) (buf : List (Line × Bool)) : Option (List (Nat × List (Byte × Bool))) :=
  (List.range d.rows).mapM fun r => (s.peelRow d buf r).map fun x => (r, x)

/-- Where a kind 1 or 2 transfer writes. -/
def PeelDesc.dstBase (d : PeelDesc) : Nat := if d.kind = .copy then d.addr2 else d.addr

/-- The Bench lines that an outbound transfer has read. -/
def State.xferBuf (s : State) (d : PeelDesc) : List (Line × Bool) :=
  match (s.core d.core).xfer d.xfer with
  | some x => x.buf
  | none => []

/-- Every source line of a transfer has been read (R223). -/
def State.sourceRead (s : State) (d : PeelDesc) : Bool :=
  match (s.core d.core).xfer d.xfer with
  | some x => x.src.isEmpty
  | none => true

/-- A poisoned row has left through memory space 2 in a kind 1 transfer (R363). -/
def poisonOut (d : PeelDesc) (rows : List (Nat × List (Byte × Bool))) : Bool :=
  d.space == 2 && d.kind == .out && rows.any fun r => r.2.any Prod.snd

/-- The writes of a kind 1 or 2 transfer, once all its source has come (R403, R542, R363). -/
def State.sendWrites (s : State) (d : PeelDesc) (e : Nat) : State :=
  if d.sent || !s.sourceRead d then s
  else
    match s.allRows d (s.xferBuf d) with
    | none => s
    | some rows =>
      let s1 := s.updDesc (d.core / 26) e d.core d.xfer fun x => { x with sent := true }
      match s1.putRows d e d.dstBase rows with
      | (s2, true) => s2
      | (s2, false) =>
        if poisonOut d rows then
          (s2.markPoisoned d.pt).raise d.pt ((s.coresOf d.pt).find? (fun x => x.2 == d.core) |>.map Prod.fst |>.getD 0)
            d.core ⟨fcPoison, 0, 3, d.pc, 6⟩
        else s2

/-! ### PEEL at its issue -/

/-- The next Peel data that a core in replay has recorded. -/
def State.usePeel (s : State) (r : CoreRef) : Option ((List Byte × Bool) × State) :=
  match s.useRec r fun x => match x with
    | .peel .. => true
    | _ => false with
  | some (.peel _ bs p, s1) => some ((bs, p), s1)
  | _ => none

/-- A Peel transfer with memory space 1 or 2 in replay (R471): reads take their record, writes that were made are not made
again. None where the core has no record for it. -/
def State.replayPeel (s : State) (r : CoreRef) (e : Nat) (f : PeelFields) (pc : Nat) : Option State :=
  let d := peelDesc f r.pt r.k (s.core r.k).nextId pc
  let with' := fun (x : List Byte × Bool) => { d with data := [(0, x.1, x.2)], started := true }
  if f.space ≠ 1 ∧ f.space ≠ 2 then none
  else
    match f.kind with
    | 0 => (s.usePeel r).map fun x =>
        (peelLines f.line f.rowBytes f.rows f.benchPitch).foldl (fun s i =>
          match s.peelLineData (with' x.1) i with
          | some cells => s.updCore r.k fun k => k.setLine i ((k.line i).arrive cells)
          | none => s) (x.2.updCore r.k Core.countXfer)
    | 1 => (s.useOut r 2 0).map fun s1 => s1.updCore r.k Core.countXfer
    | 2 => (s.usePeel r).map fun x =>
        let s1 := x.2.updCore r.k Core.countXfer
        match s1.useOut r 2 0, s1.allRows (with' x.1) [] with
        | some s2, _ => s2
        | none, some rows => (s1.putRows (with' x.1) e d.dstBase rows).1
        | none, none => s1
    | _ => none

/-- PEEL (R223, R224, R263, R265 to R267, R460, R471): a kind-3 descriptor is no carried transfer. -/
def insPeel (eng : EngNo) (rq : BitVec 5) (s : State) (r : CoreRef) : InsRes :=
  let k := s.core r.k
  let dl := k.lineOf rq
  let f := parsePeel (k.line dl).data
  if k.suppressed && decide (f.kind ≤ 2) then .ok (s.updCore r.k Core.countXfer)
  else
    checkRead s r 3 [dl] <|
      match peelFault s f with
      | some code => faultD s r code
      | none =>
        let d := r.k / 26
        let e := s.serving d eng.toNat
        let ls := if f.kind ≤ 1 then peelLines f.line f.rowBytes f.rows f.benchPitch else []
        let src := if f.kind = 1 then ls else []
        let dst := if f.kind = 0 then ls else []
        match s.replayPeel r e f k.pc with
        | some s1 => .ok s1
        | none =>
        if 32 ≤ (s.engine d e).queue.length then .wait [.peelQueue e]
        else
          checkSource s r 3 src <| checkWrite s r dst <|
            let (id, k1) := k.accept (.peel e) src dst 0 0 f.line
            let k2 := if f.kind ≤ 2 then k1.countXfer else k1
            .ok (((s.setCore r.k k2).updEngine d e fun g =>
              g.push s.now (peelDesc f r.pt r.k id k.pc)).countReads r 1)

/-! ### PEEL_DESCRIPTOR_START -/

/-- The requests of a transfer whose source lies beyond the module: each row in pieces of at most 2,048 bytes. -/
def State.requestRows (s : State) (d : PeelDesc) (e : Nat) : State :=
  (List.range d.rows).foldl (fun s r =>
    let p := s.peelPlace d d.addr r
    (List.range (ceilDiv d.rowBytes 2048)).foldl (fun s q =>
      let off := r * d.rowBytes + 2048 * q
      let len := min 2048 (d.rowBytes - 2048 * q)
      let who := Issuer.peelRead (d.core / 26) e d.core d.xfer off
      match p with
      | .remote node a =>
        s.sendReq node 0x01 (engFlow (d.core / 26) e) 0 (BitVec.ofNat 64 (a + 2048 * q)) len [] false who
      | .host a => s.sendHostRead (s.fnOf d.pt) (a + 2048 * q) len who
      | _ => s) s) s

/-- The engine has issued the last request of a descriptor (R630): the reads of an inbound one at its start, the writes of the others
with their last row. -/
def PeelDesc.issued (d : PeelDesc) : Bool :=
  d.started &&
    match d.kind with
    | .into => true
    | .out | .copy => d.sent
    | .stream => !d.openStream
    | .spillW | .spillA | .load => d.received == 128

/-- The descriptor that an engine starts next (R630): the first not yet started, once each before it has issued its last request. -/
def nextDesc : List PeelDesc → Option PeelDesc
  | [] => none
  | d :: ds => if d.issued then nextDesc ds else if d.started then none else some d

/-- PEEL_DESCRIPTOR_START (R630). -/
def peelStart (d e : Nat) (s : State) : State :=
  match nextDesc (s.engine d e).queue with
  | none => s
  | some x =>
    let s1 := (s.updDesc d e x.core x.xfer fun y => { y with started := true }).beatEngine d e
    match x.kind with
    | .into => s1.requestRows x e
    | .out => s1.sendWrites x e
    | .copy => let s2 := s1.requestRows x e; s2.sendWrites x e
    | _ => s1

/-! ### PEEL_LINE_ARRIVE -/

/-- A destination line of a transfer has arrived: the transfer waits for one line less. -/
def Core.lineCame (k : Core) (id line : Nat) : Core := k.updXfer id fun x => { x with dst := x.dst.filter (· != line) }

/-- PEEL_LINE_ARRIVE (R147, R223, R268): a PENDING destination line of a Peel transfer or a DSSLD is filled. -/
def peelLineArrive (line : Nat) (s : State) (r : CoreRef) : State :=
  let k := s.core r.k
  let l := k.line line
  match l.hold with
  | some ⟨id, _, false⟩ =>
    match k.xfer id with
    | none => s
    | some x =>
      match x.kind with
      | .dssld =>
        let v := s.dssLine (r.k / 26) (x.dss / 128 + (line - x.first))
        let k1 := (k.setLine line (l.fill v.data v.poison)).lineCame id line
        s.setCore r.k (if x.dst.length ≤ 1 then k1.dropXfer id else k1)
      | .peel e =>
        match s.findDesc r.k id with
        | none => s
        | some (_, d) =>
          if d.started then
            match s.peelLineData d line with
            | some cells => (s.setCore r.k ((k.setLine line (l.arrive cells)).lineCame id line)).beatEngine (r.k / 26) e
            | none => s
          else s
      | _ => s
  | _ => s

/-! ### ENGINE_SOURCE_LINE_READ -/

/-- A message whose source has been read in full takes its lines. -/
def Core.fillMessage (k : Core) (id : Nat) (lines : List (Line × Bool)) : Core :=
  { k with sendXq := k.sendXq.map fun m => if m.xfer = id then { m with msg := { m.msg with lines := lines } } else m }

/-- The packet of a message between modules (R385, R386, R405). -/
def State.sendMessage (s : State) (k : Nat) (m : SendMsg) : State :=
  s.sendReq m.msg.dst.node 0x06 (Config.coreFlow (k / 26) (k % 26)) m.msg.tag
    (BitVec.ofNat 64 (m.msg.dst.pt.toNat + 16 * m.msg.dst.core.toNat)) (128 * m.msg.lines.length)
    (linesBytes m.msg.lines) (m.msg.lines.any Prod.snd) (.message k m.xfer)

/-- The sender keeps a message back while the receiver has told it NOT_READY and no XQ_FREE has come (R405). -/
def State.heldBack (s : State) (a : MsgAddr) : Bool :=
  s.fab.held.any fun h => h.dst == a.node && h.core == a.pt.toNat + 16 * a.core.toNat

/-- A message of a send XQ goes on its way now: it is for another module, its lines have been read, no earlier one for its
destination waits, it is not held back, and no request of it is under way (R405). -/
def State.canOffer (s : State) (k idx : Nat) (m : SendMsg) : Bool :=
  !s.namesSelf m.msg.dst.node && m.msg.lines.length == m.msg.count &&
    !(((s.core k).sendXq.take idx).any fun e => e.msg.dst == m.msg.dst) && !s.heldBack m.msg.dst &&
    !s.fab.reqs.any fun q => q.issuer == .message k m.xfer

/-- The messages of a core that can go on their way do (R284, R405). -/
def State.offerMessages (s : State) (k : Nat) : State :=
  (s.core k).sendXq.zipIdx.foldl (fun s e => if s.canOffer k e.2 e.1 then s.sendMessage k e.1 else s) s

/-- A message has been read in full. -/
def State.messageRead (s : State) (r : CoreRef) (id : Nat) (lines : List (Line × Bool)) : State :=
  (s.updCore r.k fun k => k.fillMessage id lines).offerMessages r.k

/-- ENGINE_SOURCE_LINE_READ (R223, R268): the engine reads the lowest line it still holds, which is VALID again, or PENDING for the
result that will replace it (R273). With its last line, an outbound Peel transfer issues its writes (R358). -/
def engineSourceRead (line : Nat) (s : State) (r : CoreRef) : State :=
  let k := s.core r.k
  let l := k.line line
  match l.hold with
  | some ⟨id, _, true⟩ =>
    match k.xfer id with
    | none => s
    | some x =>
      let started := match x.kind with
        | .peel _ => ((s.findDesc r.k id).map fun d => d.2.started).getD false
        | _ => true
      if x.src.head? ≠ some line ∨ !started then s
      else
        let buf := x.buf ++ [(l.data, l.poison)]
        let rest := x.src.drop 1
        let after := if x.dst.contains line then l.release.await id 1 else l.release
        let s1 := s.setCore r.k ((k.setLine line after).updXfer id fun y => { y with src := rest, buf := buf })
        match x.kind with
        | .dssst =>
          let s2 := s1.setDssLine (r.k / 26) (x.dss / 128 + (line - x.first)) ⟨l.data, l.poison⟩
          if rest.isEmpty then s2.updCore r.k fun k => k.dropXfer id else s2
        | .peel e =>
          let s2 := s1.beatEngine (r.k / 26) e
          match s2.findDesc r.k id with
          | some (_, d) =>
            if rest.isEmpty then s2.sendWrites d e else s2
          | none => s2
        | .xsend => if rest.isEmpty then s1.messageRead r id buf else s1
        | .xred => if rest.isEmpty then s1.memberReady r.k id buf else s1
        | _ => s1
  | _ => s

/-! ### PEEL_TRANSFER_COMPLETE -/

/-- A request of a descriptor still waits for its answer. -/
def State.descWaits (s : State) (d : PeelDesc) : Bool :=
  let mine := fun (i : Issuer) => match i with
    | .peelRead _ _ k x _ => k == d.core && x == d.xfer
    | .peelWrite _ _ k x => k == d.core && x == d.xfer
    | _ => false
  (s.fab.reqs.any fun q => mine q.issuer) || s.host.reads.any fun q => mine q.issuer

/-- A descriptor leaves its queue and its transfer ends (R263, R630). -/
def State.dropDesc (s : State) (e : Nat) (d : PeelDesc) : State :=
  let s1 := (s.updEngine (d.core / 26) e fun g =>
    { g with queue := g.queue.filter fun x => !(x.core == d.core && x.xfer == d.xfer) }).beatEngine (d.core / 26) e
  s1.updCore d.core fun k => k.dropXfer d.xfer

/-- The destination lines of a transfer have all arrived. -/
def State.destCame (s : State) (d : PeelDesc) : Bool :=
  match (s.core d.core).xfer d.xfer with
  | some x => x.dst.isEmpty
  | none => true

/-- A Peel transfer completes (R241, R266, R630): a transfer into this module's memory or DSS lands here; one to a peer
needs its answers. -/
def State.completePeel (s : State) (e : Nat) (d : PeelDesc) : State :=
  if !d.started then s
  else
    match d.kind with
    | .into => if s.destCame d then s.dropDesc e d else s
    | .out =>
      let s1 := s.sendWrites d e
      if s1.sourceRead d && !s1.descWaits d && (s1.findDesc d.core d.xfer).isSome then s1.dropDesc e d else s1
    | .copy =>
      let s1 := s.sendWrites d e
      match s1.findDesc d.core d.xfer with
      | some (_, d1) => if d1.sent && !s1.descWaits d1 then s1.dropDesc e d1 else s1
      | none => s1
    | .stream => if d.received = d.rows ∧ !s.descWaits d then s.dropDesc e d else s
    | _ => s

/-! ### Streams -/

/-- The row a stream descriptor writes at a place of its own (R241): masked bytes are not written. -/
def State.putStream (s : State) (d : PeelDesc) (e row : Nat) (bs : List (Option Byte)) (poison : Bool) : State × Bool :=
  s.putPlace d.pt (engFlow (d.core / 26) e) (s.place (d.core / 26) d.space (d.addr + row * d.memPitch) d.rowBytes) bs
    (fun _ => poison) (.peelWrite (d.core / 26) e d.core d.xfer)

/-- A transposed group of 128 drained rows written (R267). -/
def State.putBlock (s : State) (d : PeelDesc) (e base : Nat) (rows : List (List (Option Byte) × Bool)) : State :=
  let psn := rows.any Prod.snd
  (List.range 128).foldl (fun s i =>
    let bs := (List.range (128 * d.tsz)).map fun b => ((rows.getD (b / d.tsz) ([], false)).1).getD (i * d.tsz + b % d.tsz) none
    (s.putStream d e (base + i) bs psn).1) s

/-- A drained row delivered to the oldest stream descriptor of its core in an engine (R241, R267, R363), or the fault
that its DRAIN raises: poison for the host is consumed as it leaves, a transposed block with its last row. -/
def State.streamRow (s : State) (r : CoreRef) (eng rowBytes width : Nat) (mx : Bool) (bytes : List (Option Byte))
    (poison : Bool) : State × Option Nat :=
  let die := r.k / 26
  let e := s.serving die eng
  match (s.engine die e).queue.find? fun d => d.core == r.k && d.pt == r.pt && d.openStream with
  | none => (s, some fcNoProducer)
  | some d =>
    if d.rowBytes ≠ rowBytes ∨ (d.tsz ≠ 0 ∧ (mx ∨ width ≠ 8 * d.tsz)) then (s, some fcRange)
    else
      let s1 := s.updDesc die e r.k d.xfer fun x => { x with received := x.received + 1 }
      let s2 :=
        if d.tsz = 0 then (s1.putStream d e d.received bytes poison).1
        else if (d.received + 1) % 128 = 0 then
          (s1.updDesc die e r.k d.xfer fun x => { x with rowBuf := [] }).putBlock d e (d.received / 128 * 128)
            (d.rowBuf ++ [(bytes, poison)])
        else s1.updDesc die e r.k d.xfer fun x => { x with rowBuf := x.rowBuf ++ [(bytes, poison)] }
      let out := if d.tsz = 0 then poison
        else (d.received + 1) % 128 == 0 && (poison || d.rowBuf.any fun x => x.2)
      if out && d.space == 2 then (s2.markPoisoned r.pt, some fcPoison) else (s2.beatEngine die e, none)

/-! ### BCOPY, DSSLD, DSSST -/

/-- BCOPY (R224, R268): its groups move as the cycles pass (Clock.lean). -/
def insBcopy (rs rt : BitVec 5) (n1 : BitVec 12) (s : State) (r : CoreRef) : InsRes :=
  let k := s.core r.k
  let src := k.lineOf rs
  let dst := k.lineOf rt
  let n := n1.toNat + 1
  if 65536 < src + n ∨ 65536 < dst + n then faultD s r fcRange
  else .ok (s.updCore r.k fun k =>
    { k with bcopies := k.bcopies ++ [⟨src, dst, n, s.cyc r, decide (src < dst ∧ dst < src + n), 0, k.pc⟩] })

/-- The offset of a DSSLD or DSSST is in range and aligned (R224). -/
def dssOffsetOk (o n : Nat) : Bool := decide (o % 128 = 0) && decide (o + 128 * n ≤ 2 ^ 26)

/-- DSSLD (R147, R224, R268, R460). -/
def insDssld (rs rt : BitVec 5) (n1 : BitVec 12) (s : State) (r : CoreRef) : InsRes :=
  carriedOr s r <|
    let k := s.core r.k
    let l := k.lineOf rs
    let o := (k.sreg rt.toNat).toNat
    let n := n1.toNat + 1
    if 65536 < l + n ∨ !dssOffsetOk o n then faultD s r fcRange
    else checkWrite s r (lineRun l n) (.ok (s.setCore r.k ((k.accept .dssld [] (lineRun l n) 1 o l).2.countXfer)))

/-- DSSST (R223, R224, R268, R460). -/
def insDssst (rs rt : BitVec 5) (n1 : BitVec 12) (s : State) (r : CoreRef) : InsRes :=
  carriedOr s r <|
    let k := s.core r.k
    let l := k.lineOf rs
    let o := (k.sreg rt.toNat).toNat
    let n := n1.toNat + 1
    if 65536 < l + n ∨ !dssOffsetOk o n then faultD s r fcRange
    else checkSource s r 3 (lineRun l n) (.ok (s.setCore r.k ((k.accept .dssst (lineRun l n) [] 0 o l).2.countXfer)))

/-! ### ACT -/

/-- The Bench lines of an activation row (R264). -/
def actLines (fmt : Nat) : Nat := if fmt ≤ 1 ∨ fmt = 6 then 1 else 2

/-- The bytes of an activation row (R264). -/
def actBytes (fmt : Nat) : Nat := if fmt ≤ 1 ∨ fmt = 6 then 128 else if fmt ≤ 3 then 256 else 192

/-- The lines that an ACT reads for a row (R264). -/
def ActJob.lines (j : ActJob) (row : Nat) : List Nat :=
  lineRun (j.line + row * j.pitch) (actLines j.fmt) ++ (if 4 ≤ j.fmt then [j.sx + 8 * row / 128] else [])

/-- ACT (R224, R225, R264): its rows are read as the cycles pass, the first after the last of the ACT before. -/
def insAct (rs : BitVec 5) (rows1 : Byte) (fmt : BitVec 4) (rp rx : BitVec 5) (s : State) (r : CoreRef) : InsRes :=
  let k := s.core r.k
  let rows := rows1.toNat + 1
  let l := k.lineOf rs
  let pitch := (k.sreg rp.toNat).toNat
  let sx := k.lineOf rx
  let mx := decide (4 ≤ fmt.toNat)
  if 7 ≤ fmt.toNat then faultD s r fcIllegal
  else if 65536 < l + (rows - 1) * pitch + actLines fmt.toNat ∨ (mx ∧ 65536 * 128 < sx * 128 + 8 * rows) then
    faultD s r fcRange
  else
    let start := k.acts.foldl (fun t j => max t (j.start + j.rows)) (s.cyc r)
    let job : ActJob := ⟨fmt.toNat, l, pitch, sx, rows, start, 0, [], k.pc⟩
    checkRead s r 3 (if start = s.cyc r then job.lines 0 else [])
      (.ok (s.updCore r.k fun k => { k with acts := k.acts ++ [job] }))

/-- Some line of a list is poisoned. -/
def Core.linesPoison (k : Core) (ls : List Nat) : Bool := ls.any fun i => (k.line i).poison

/-- The row as it is read (R151, R264). -/
def ActJob.rowOf (j : ActJob) (k : Core) (row : Nat) : AqRow :=
  let data := linesNat ((lineRun (j.line + row * j.pitch) (actLines j.fmt)).map fun i => (k.line i).data)
  let sl := k.line (j.sx + 8 * row / 128)
  { fmt := j.fmt, data := BitVec.ofNat 2048 (data % 2 ^ (8 * actBytes j.fmt))
    scales := if 4 ≤ j.fmt then BitVec.ofNat 64 (sl.data.toNat >>> (8 * (8 * row % 128))) else 0
    poison := k.linesPoison (j.lines row) }

/-! ### ACT_ROW_DELIVER -/

/-- The oldest row that an ACT has read and not delivered, and the ACTs without it (R264). -/
def nextActRow : List ActJob → Option ((Nat × AqRow) × List ActJob)
  | [] => none
  | j :: js =>
    match j.buf with
    | [] => none
    | x :: buf =>
      let j1 := { j with buf := buf }
      some (x, if j1.read = j1.rows ∧ buf = [] then js else j1 :: js)

/-- ACT_ROW_DELIVER (R138, R264, R283): a row enters the AQ, where a pop of its cycle makes room for it; into a full AQ it is a queue
overflow, and the ACT delivers no further row. -/
def actRowDeliver (s : State) (r : CoreRef) : State :=
  let k := s.core r.k
  match nextActRow k.acts with
  | none => s
  | some ((avail, row), acts) =>
    if !(s.part r.pt).advancing || s.arrayHold r.pt || s.cyc r < avail then s
    else if 64 + b2n (k.popDue (s.cyc r)) ≤ k.aq.length then
      (s.setCore r.k { k with acts := k.acts.drop 1 }).raise r.pt r.c r.k
        ⟨fcOverflow, 0, 3, (k.acts.head?.map fun j => j.pc).getD 0, 6⟩
    else s.setCore r.k { k with aq := k.aq ++ [row], acts := acts }

/-! ### The rows -/

/-- ACT (R264). -/
def execAct (pt : Pt) (c : LCore) (rs : BitVec 5) (rows1 : Byte) (fmt : BitVec 4) (rp rx : BitVec 5) (s : State) : Out :=
  runIns s pt c (insAct rs rows1 fmt rp rx s)
/-- ACT_ROW_DELIVER (R264). -/
def execActRowDeliver (pt : Pt) (c : LCore) (s : State) : Out := onCore s pt c fun r => actRowDeliver s r
/-- PEEL (R265). -/
def execPeel (pt : Pt) (c : LCore) (eng : EngNo) (rq : BitVec 5) (s : State) : Out := runIns s pt c (insPeel eng rq s)
/-- PEEL_DESCRIPTOR_START (R630). -/
def execPeelDescriptorStart (die : DieNo) (eng : EngNo) (s : State) : Out := .next (peelStart die.toNat eng.toNat s)
/-- PEEL_LINE_ARRIVE (R147). -/
def execPeelLineArrive (pt : Pt) (c : LCore) (line : BitVec 16) (s : State) : Out :=
  onCore s pt c fun r => peelLineArrive line.toNat s r
/-- ENGINE_SOURCE_LINE_READ (R223). -/
def execEngineSourceLineRead (pt : Pt) (c : LCore) (line : BitVec 16) (s : State) : Out :=
  onCore s pt c fun r => engineSourceRead line.toNat s r
/-- BCOPY (R268). -/
def execBcopy (pt : Pt) (c : LCore) (rs rt : BitVec 5) (n1 : BitVec 12) (s : State) : Out :=
  runIns s pt c (insBcopy rs rt n1 s)
/-- DSSLD (R268). -/
def execDssld (pt : Pt) (c : LCore) (rs rt : BitVec 5) (n1 : BitVec 12) (s : State) : Out :=
  runIns s pt c (insDssld rs rt n1 s)
/-- DSSST (R268). -/
def execDssst (pt : Pt) (c : LCore) (rs rt : BitVec 5) (n1 : BitVec 12) (s : State) : Out :=
  runIns s pt c (insDssst rs rt n1 s)

end Sys2Proof.Machine
end

