-- ==== Sys2Proof/Machine/Cycle.lean ====
section
/-! DEFINITION. A program cycle of a partition (08_freeze_and_schedule.md R280 to R282, R288; 04_core.md R149, R150): the
Bench reads that the program fixes to a cycle, the effects at a cycle's end, the Bench ports and the counters. -/

namespace Sys2Proof.Machine

/-! ### Reads fixed to a cycle (R222) -/

/-- The line and side line that a WLD reads next (R228, R229). -/
def WldJob.nextLines (j : WldJob) : List Nat :=
  let i := j.tile.lines.length
  (j.rw + i) :: (if i < j.sides then [j.rx + i] else [])

/-- A WLD has a read due by a cycle. -/
def WldJob.due (j : WldJob) (cyc : Nat) : Bool :=
  decide (j.tile.lines.length < j.total) && decide (j.start + j.tile.lines.length ≤ cyc)

/-- A WLD reads its next line. -/
def WldJob.step (j : WldJob) (k : Core) : WldJob :=
  let i := j.tile.lines.length
  let l := k.line (j.rw + i)
  let side := k.line (j.rx + i)
  let has := decide (i < j.sides)
  { j with tile := { j.tile with
      lines := j.tile.lines ++ [l.data]
      side := if has then j.tile.side ++ [side.data] else j.tile.side
      poison := j.tile.poison || l.poison || (has && side.poison) } }

/-- The ACT that owes a row reads it (R264, R632): its job with one more row read. -/
def ActJob.readNext (j : ActJob) (k : Core) (avail : Nat) : ActJob :=
  { j with read := j.read + 1, buf := j.buf ++ [(avail, j.rowOf k j.read)] }

/-- The oldest ACT with a row to read changed. -/
def readOldest (k : Core) (avail : Nat) : List ActJob → List ActJob
  | [] => []
  | j :: js => if j.read < j.rows then j.readNext k avail :: js else j :: readOldest k avail js

/-- The oldest ACT with a row to read. -/
def Core.nextAct (k : Core) : Option ActJob := k.acts.find? fun j => decide (j.read < j.rows)

/-- The Bench lines of the next row that an ACT has to read. -/
def Core.nextActLines (k : Core) : List Nat :=
  match k.nextAct with
  | some j => j.lines j.read
  | none => []

/-- An ACT has a read due by a cycle (R264), unless deliveries stand still (R138). -/
def Core.actDue (k : Core) (cyc : Nat) (still : Bool) : Option ActJob :=
  if still then none else k.nextAct.filter fun j => decide (j.start + j.read ≤ cyc)

/-- A BCOPY has a group due by a cycle (R268). -/
def BcopyJob.due (j : BcopyJob) (cyc : Nat) : Bool := decide (8 * j.next < j.lines) && decide (j.start + 1 + j.next ≤ cyc)

/-- The lines of a BCOPY's next group, counted from its first line (R268): downwards where its ranges overlap. -/
def BcopyJob.group (j : BcopyJob) : List Nat :=
  let n := min 8 (j.lines - 8 * j.next)
  let first := if j.down then j.lines - 8 * j.next - n else 8 * j.next
  lineRun first n

/-- A read due in a cycle: the slot and PC of its instruction, the lines it reads and those it writes. -/
structure DueRead where
  slot : Nat
  pc : Nat
  src : List Nat
  dst : List Nat
deriving DecidableEq, Repr

/-- The reads of a core that are due by a cycle. -/
def Core.dueReads (k : Core) (cyc : Nat) (still : Bool) : List DueRead :=
  ((List.range 4).filterMap fun a => match (k.array a).shadow with
    | .writing j => if j.due cyc then some ⟨1, j.pc, j.nextLines, []⟩ else none
    | _ => none) ++
  ((k.actDue cyc still).toList.map fun j => ⟨3, j.pc, j.lines j.read, []⟩) ++
  ((k.bcopies.filter fun j => j.due cyc).map fun j =>
    ⟨3, j.pc, j.group.map (j.src + ·), j.group.map (j.dst + ·)⟩)

/-- The PENDING lines of a due read, as what the core waits for. -/
def Core.dueWaits (k : Core) (d : DueRead) : List Need :=
  ((d.src ++ d.dst).filter fun i => (k.line i).st == .pending).map fun i =>
    Need.line i (((k.line i).hold.map fun h => h.cause).getD 0)

/-- The fault of a due read: an INVALID line (R222). -/
def Core.dueFault (k : Core) (d : DueRead) : Option FaultInfo :=
  if d.src.any fun i => (k.line i).st == .invalid then some ⟨fcUninit, 0, d.slot, d.pc, 6⟩ else none

/-- Every due WLD, ACT and BCOPY of a core reads. -/
def Core.readDue (k : Core) (cyc : Nat) (still : Bool) : Core :=
  let n := ((k.dueReads cyc still).map fun d => d.src.length).sum
  let arrays := (List.range 4).foldl (fun m a =>
    let ar := k.array a
    match ar.shadow with
    | .writing j => if j.due cyc then smapSet .reset m a { ar with shadow := .writing (j.step k) } else m
    | _ => m) k.arrays
  let acts := if (k.actDue cyc still).isSome then readOldest k (cyc + 3) k.acts else k.acts
  let ws := (k.bcopies.filter fun j => j.due cyc).flatMap fun j => j.group.map fun i =>
    let l := k.line (j.src + i)
    (⟨cyc, 15, .bench ⟨j.dst + i, l.data, BitVec.allOnes 128, l.poison⟩⟩ : Delayed)
  let bcopies := (k.bcopies.map fun j => if j.due cyc then { j with next := j.next + 1 } else j).filter fun j =>
    decide (8 * j.next < j.lines)
  { k with arrays := arrays, acts := acts, bcopies := bcopies, writes := k.writes ++ ws, reads := k.reads + n }

/-- A program cycle begins: reads due in it freeze the partition on a PENDING line, fault on an INVALID one, and are made
otherwise; none is made while the Bench ports serve an earlier cycle (R150). A read is made once, so a second beginning of a cycle
makes none again. -/
def State.beginCycle (s : State) (n : Nat) : State :=
  let p := s.part n
  if !p.advancing || p.stall != 0 then s
  else
    let still := s.arrayHold n
    let dues := (s.coresOf n).flatMap fun e => ((s.core e.2).dueReads p.cyc still).map fun d => (e, d)
    let waits := dues.flatMap fun x => ((s.core x.1.2).dueWaits x.2).map fun w => (⟨x.1.2, w, false, s.now⟩ : FreezeNeed)
    let faults := dues.filterMap fun x => ((s.core x.1.2).dueFault x.2).map fun f => (x.1, f)
    if !waits.isEmpty then s.freeze n waits
    else if !faults.isEmpty then faults.foldl (fun s x => s.raise n x.1.1 x.1.2 x.2) s
    else s.updCoresOf n fun k => k.readDue p.cyc still

/-! ### The end of a cycle -/

/-- A program write to a Bench line (R146, R148): a held line keeps its hold. -/
def BenchLine.put (l : BenchLine) (w : BWrite) : BenchLine :=
  let old := if l.st = .invalid then (0 : Line) else l.data
  let whole := w.mask == BitVec.allOnes 128
  let data : Line := if whole then w.data
    else BitVec.ofNat 1024 (mergeBytes old.toNat w.data.toNat 128 fun b => w.mask.getLsbD b)
  { l with
      st := if l.st = .pending then .pending else .valid
      data := data
      poison := if whole then w.poison else (l.st != .invalid && l.poison) || w.poison
      dirty0 := true, dirty1 := true }

/-- One effect on a core; faults are raised afterwards. -/
def Core.applyAct (k : Core) : Act → Core
  | .sreg i v => { k with s := smapSet 0 k.s i v }
  | .pred i b => if i = 0 then k else { k with p := smapSet false k.p i b }
  | .mreg i v => { k with m := smapSet .zero k.m i v }
  | .anchor i a => { k with an := smapSet 0 k.an i a }
  | .step v => { k with step := v }
  | .seed v => { k with seed := v }
  | .mclear i => { k with m := smapSet .zero k.m i .zero }
  | .mjoin i v => { k with m := smapUpd .zero k.m i fun x => x.join v }
  | .vreg i v => { k with v := smapSet .zero k.v i v }
  | .vload i part bits poison =>
    let v := k.vreg i
    let new : VReg := match part with
      | 0 => ⟨bits, poison⟩
      | 1 => ⟨v.bits.extractLsb' 4096 4096 ++ bits.extractLsb' 0 4096, v.poison || poison⟩
      | _ => ⟨bits.extractLsb' 0 4096 ++ v.bits.extractLsb' 0 4096, v.poison || poison⟩
    { k with v := smapSet .zero k.v i new }
  | .crumb c d => { k with ca := smapUpd .zero k.ca c fun a => a.apply d }
  | .bench w => k.setLine w.line ((k.line w.line).put w)
  | .land x i d p =>
    let k1 := k.landLine x i d p
    let xfers := k1.xfers.map fun y => if y.id = x then { y with dst := y.dst.filter (· != i) } else y
    { k1 with xfers := xfers.filter (fun y => !(y.id == x && y.dst.isEmpty)) }
  | .raise _ => k

/-- The effects due at the end of a cycle, in the order of R81, R149 and R186. -/
def Core.dueWrites (k : Core) (cyc : Nat) : List Delayed :=
  let now := k.writes.filter fun w => decide (w.due ≤ cyc)
  (List.range 17).flatMap fun rank => now.filter fun w => w.rank == rank

/-- An effect writes a Bench line through the write port (R150). -/
def Act.isBench : Act → Bool
  | .bench _ => true
  | .land .. => true
  | _ => false

/-- The effects that a cycle serves, and the Bench writes that it leaves to the next one, with `n` lines of the port free (R150). -/
def servePort : Nat → List Delayed → List Delayed × List Delayed
  | _, [] => ([], [])
  | 0, w :: ws =>
    let (now, late) := servePort 0 ws
    if w.act.isBench then (now, w :: late) else (w :: now, late)
  | n + 1, w :: ws =>
    let (now, late) := servePort (if w.act.isBench then n else n + 1) ws
    (w :: now, late)

/-- The faults among effects. -/
def actFaults (acts : List Delayed) : List FaultInfo :=
  acts.filterMap fun w => match w.act with
    | .raise f => some f
    | _ => none

/-- A core at the end of a cycle: its due effects as far as the write port serves them, the others kept for the next cycle, and the
extra cycles that the Bench ports need (R150). -/
def Core.endCycle (k : Core) (cyc : Nat) : Core × Nat :=
  let due := k.dueWrites cyc
  let (now, late) := servePort 8 due
  let rest := k.writes.filter fun w => !decide (w.due ≤ cyc)
  let k1 : Core := now.foldl (fun (k : Core) w => k.applyAct w.act) { k with writes := late.map (fun w => { w with due := cyc + 1 }) ++ rest }
  let w := (due.filter fun w => w.act.isBench).length
  ({ k1 with reads := 0, inBrp := k1.inBrp && decide (cyc + 1 < k1.nextAt) },
    max (ceilDiv k.reads 16) (ceilDiv w 8) - 1)

/-- A core has a bundle to issue, or holds in a step of R201. -/
def Core.active (k : Core) : Bool :=
  match k.seq with
  | .issuing | .settling .. | .met .. => true
  | _ => false

/-- A core holds in step 2 of R201 (R281). -/
def Core.meets (k : Core) : Bool :=
  match k.seq with
  | .met .. => true
  | _ => false

/-- The marks of a cycle that is over. -/
def Part.clearMarks (p : Part) : Part := { p with holdNow := false, faultNow := false, abandonNow := false, releasedNow := false }

/-- A telemetry bin is open: after the first GTB step the next one begins at its boundary (R40). -/
def State.inTelBin (s : State) : Bool := decide (s.tele.binStart ≤ s.now)

/-- A frozen ACLK cycle (R288, R301, R302). -/
def State.frozenCycle (s : State) (n : Nat) : State :=
  (s.noteEnded n).updPart n fun p =>
    { p.clearMarks with cycFrz := satAdd64 p.cycFrz 1, frzCycles := p.frzCycles + 1, telFrz := p.telFrz + b2n s.inTelBin }

/-- A program cycle ends and the next begins (R138, R149, R150, R280, R281, R301). -/
def State.programCycle (s : State) (n : Nat) : State :=
  let p := s.part n
  let still := s.arrayHold n
  let s0 := if p.stall = 0 then s.updCoresOf n fun k => k.readDue p.cyc still else s
  let ends := (s0.coresOf n).map fun e => (e, (s0.core e.2).endCycle p.cyc)
  let extra := ends.foldl (fun m x => max m x.2.2) 0
  let held := p.holdNow || p.stall != 0 || s.pipeHold n || (s.coresOf n).any fun e => (s.core e.2).meets
  let counts := (s.coresOf n).any fun e => (s.core e.2).active
  let s1 := ends.foldl (fun s x => s.setCore x.1.2 (if still then x.2.1.standStill else x.2.1)) s0
  let s2 := s1.setPart n { p with
    cyc := p.cyc + 1, stall := max (p.stall - 1) extra, rested := p.rested || held
    cycProg := if counts then satAdd64 p.cycProg 1 else p.cycProg, telProg := if counts then p.telProg + b2n s.inTelBin else p.telProg
    cycHold := if counts && held then satAdd64 p.cycHold 1 else p.cycHold }
  let s3 := (s0.coresOf n).foldl (fun s e =>
    s.raiseAll ⟨n, e.1, e.2⟩ (actFaults ((s0.core e.2).dueWrites p.cyc))) s2
  (s3.updPart n Part.clearMarks).beginCycle n

/-- One ACLK cycle of a partition. -/
def State.partCycle (s : State) (n : Nat) : State :=
  let p := s.part n
  if p.inReset || p.run.isNone || p.halted || p.perstHold then s.updPart n Part.clearMarks
  else if p.frozen then s.frozenCycle n
  else s.programCycle n

end Sys2Proof.Machine
end

