-- ==== Sys2Proof/Machine/Exchange.lean ====
section
/-! DEFINITION. The X slot (07_fiard_compute.md, R269 to R278), messages within the module (R284) and the results of collective
operations (R273 to R276). -/

namespace Sys2Proof.Machine

/-- A fault of an X-slot instruction. -/
def faultX (s : State) (r : CoreRef) (code : Nat) : InsRes := insFault s r code 4 0 6

/-! ### Messages -/

/-- This module's own ID and 0x0000 both name it (R270, R393). -/
def State.normNode (s : State) (a : MsgAddr) : MsgAddr := if s.namesSelf a.node then { a with node := 0 } else a

/-- A core of this module that can take messages (R270, R405): its partition is not held in reset and has the core. -/
def State.target (s : State) (a : MsgAddr) : Option Nat :=
  let p := s.part a.pt.toNat
  if p.inReset || p.hold then none else s.phys a.pt.toNat a.core.toNat

/-- The lines of a message enter the receive XQ of a core (R284). -/
def State.deliver (s : State) (k : Nat) (m : Msg) : State := s.updCore k fun c => { c with recvXq := c.recvXq ++ [m] }

/-- XSEND (R223, R224, R270, R393, R403, R460): it enters the send XQ; a local destination is checked. -/
def insXsend (rs rt : BitVec 5) (s : State) (r : CoreRef) : InsRes :=
  carriedOr s r <| replayOut s r 0 <|
    let k := s.core r.k
    let (line, n, tag) := msgSpan (k.sreg rs.toNat)
    let dst := s.normNode (msgAddr (k.sreg rt.toNat))
    if 65536 < line + n then faultX s r fcRange
    else if 16 ≤ k.sendXq.length then .wait [.sendXq]
    else
      checkSource s r 4 (lineRun line n) <|
        if dst.node = 0 ∧ (s.target dst).isNone then .ok (s.refuseAbort r.pt 4)
        else if dst.node ≠ 0 ∧ s.fab.node = 0 then .ok (s.refuseAbort r.pt 1)
        else
          let (id, k1) := k.accept .xsend (lineRun line n) [] 0 0 line
          let src : MsgAddr := ⟨0, BitVec.ofNat 4 r.pt, BitVec.ofNat 5 r.c⟩
          let k2 := { k1 with sendXq := k1.sendXq ++ [(⟨id, ⟨src, dst, tag, n, []⟩⟩ : SendMsg)] }
          .ok (s.setCore r.k k2.countXfer)

/-- A message leaves the send XQ once its destination has accepted it (R270, R284). -/
def Core.sent (k : Core) (id : Nat) : Core :=
  { k.dropXfer id with sendXq := k.sendXq.filter fun m => m.xfer != id }

/-- MESSAGE_ACCEPT (R270, R284, R405): message `idx` of a send XQ enters a receive XQ of this module that has room, in
send order for each destination. -/
def messageAccept (idx : Nat) (s : State) (r : CoreRef) : State :=
  let k := s.core r.k
  match k.sendXq[idx]? with
  | none => s
  | some m =>
    if m.msg.dst.node ≠ 0 ∨ m.msg.lines.length ≠ m.msg.count ∨
        (k.sendXq.take idx).any (fun e => e.msg.dst == m.msg.dst) then s
    else
      match s.target m.msg.dst with
      | none => (s.updCore r.k fun k => k.sent m.xfer).refuseAbort r.pt 4
      | some d =>
        if 16 ≤ (s.core d).recvXq.length ∨ s.holdsMessages m.msg.dst.pt.toNat m.msg.dst.core.toNat then s
        else (s.updCore r.k fun k => k.sent m.xfer).deliver d m.msg

/-- The oldest message that an XRECV matches, and the queue without it. -/
def takeMessage (p : Msg → Bool) : List Msg → Option (Msg × List Msg)
  | [] => none
  | m :: ms => if p m then some (m, ms) else (takeMessage p ms).map fun e => (e.1, m :: e.2)

/-- The message that an XRECV takes, and the state without it: in replay the core's record (R471), else the oldest of its
receive XQ. -/
def State.nextMessage (s : State) (r : CoreRef) (src : MsgAddr) (tag : Word) : Option (Msg × State) :=
  let isIt := fun (x : JrnlRec) => match x with
    | .msg _ m => m.isFrom src tag
    | _ => false
  match s.useRec r isIt with
  | some (.msg _ m, s1) => some (m, s1)
  | _ => (takeMessage (fun m => m.isFrom src tag) (s.core r.k).recvXq).map fun e =>
      (e.1, s.updCore r.k fun k => { k with recvXq := e.2 })

/-- XRECV (R147, R149, R224, R271): eight lines a cycle, the last by the end of cycle t + 2 + ⌈lines/8⌉. -/
def insXrecv (rs rt : BitVec 5) (s : State) (r : CoreRef) : InsRes :=
  carriedOr s r <|
    let k := s.core r.k
    let (line, n, tag) := msgSpan (k.sreg rs.toNat)
    let src := s.normNode (msgAddr (k.sreg rt.toNat))
    if 65536 < line + n then faultX s r fcRange
    else
      match s.nextMessage r src tag with
      | none => .wait [.message src tag]
      | some (m, s0) =>
        if m.count ≠ n then faultX s r fcRange
        else
          checkWrite s r (lineRun line n) <|
            let (id, k1) := (s0.core r.k).accept .xrecv [] (lineRun line n) 1 0 line
            let s1 := s0.setCore r.k k1.countXfer
            let s2 := m.lines.zipIdx.foldl (fun s e =>
              s.delay r (4 + e.2 / 8) 16 (.land id (line + e.2) e.1.1 e.1.2)) s1
            .ok s2

/-! ### XRED (R272 to R275) -/

/-- The bytes of source and destination of a member (R273, R274). .SUM exact sums 12-byte words whatever the format
field holds (DEDUCED, log 18). -/
def collSizes (op : CollOp) (f : XredFields) : Nat × Nat :=
  let w := if op = .sumExact then 12 else collWidth f.fmt
  match op with
  | .sumTree => (f.count * f.n * w, f.n * w)
  | .gather => (f.n * w, f.count * f.n * w)
  | .scatter => (if f.first = 0 then f.count * f.n * w else 0, f.n * w)
  | _ => (f.n * w, f.n * w)

/-- What a member presents before its source has been read. -/
def collInput (op : CollOp) (f : XredFields) : CollInput :=
  { op := op, n := f.n, fmt := f.fmt, anchor := f.anchor, lc := f.lc, first := f.first, count := f.count, mag := 0,
    nf := false, data := [], poison := false }

/-- The number of the core's next operation on a group, and the core after it. -/
def Core.nextOp (k : Core) (group : Word) : Nat × Core :=
  let i := smapGet 0 k.xbars group.toNat
  (i, { k with xbars := smapSet 0 k.xbars group.toNat (i + 1) })

/-- A replayed XRED whose contribution the group has and whose result is still to come takes its place in the operation
again: its oldest member of the core (R471). -/
def State.relink (s : State) (r : CoreRef) (group : Word) (id : Nat) : State :=
  let mine := fun (m : CollMember) => m.pt == r.pt && m.c == r.c && m.inp.op != .xbar && !m.linked && m.ready
  match s.fab.runs.find? fun u => u.group == group && u.locals.any mine with
  | none => s
  | some u =>
    let locals := u.locals.map fun m => if mine m then { m with k := r.k, xfer := id, linked := true } else m
    { s with fab := { s.fab with runs := s.fab.runs.map fun v =>
        if v.group = group ∧ v.idx = u.idx then { v with locals := locals } else v } }

/-- The next collective result that a core in replay has recorded for a group: its bytes and poison. -/
def State.useRes (s : State) (r : CoreRef) (group : Word) : Option ((List Byte × Bool) × State) :=
  match s.useRec r fun x => match x with
    | .res _ g _ _ => g == group.toNat
    | _ => false with
  | some (.res _ _ bs p, s1) => some ((bs, p), s1)
  | _ => none

/-- Whole lines of bytes put down at once. -/
def Core.putLines (k : Core) (ls : List Nat) (bs : List Byte) (poison : Bool) : Core :=
  ls.zipIdx.foldl (fun k e =>
    let cells := (List.range 128).map fun b => (bs[128 * e.2 + b]?).map fun v => (v, poison)
    k.setLine e.1 ((k.line e.1).arrive cells)) k

/-- A replayed XRED (R471): it sends nothing, and takes its recorded result, or waits for the one to come. The record holds the
`len` bytes of the destination and then the status line (log 26). -/
def State.replayRed (s : State) (r : CoreRef) (group : Word) (dstLine status len : Nat) (dst : List Nat) : State :=
  match s.useRes r group with
  | some ((bs, p), s1) =>
    s1.updCore r.k fun k =>
      ((k.putLines (dst.take (dst.length - 1)) (bs.take len) p).putLines [status] (bs.drop len) p).countXfer
  | none =>
    let (id, k1) := (s.core r.k).accept .xred [] dst 1 0 0
    let s1 := (s.setCore r.k k1.countXfer).relink r group id
    { s1 with fab := { s1.fab with runs := s1.fab.runs.map fun v => { v with locals := v.locals.map fun m =>
        if m.k = r.k ∧ m.xfer = id then { m with dst := dstLine, status := status } else m } } }

/-- A replayed XRED.MAX (R471): the record holds the magnitude and the non-finite mark (log 26). -/
def State.replayMax (s : State) (r : CoreRef) (group : Word) (mx : Nat) : State :=
  match s.useRes r group with
  | some ((bs, _), s1) =>
    let v : MaxReg := ⟨BitVec.ofNat 32 (bytesNat (bs.take 4)), (bs.getD 4 0) != 0⟩
    s1.updCore r.k fun k => { k.countXfer with maxReds := k.maxReds ++ [(⟨k.nextId, group, mx, some v, false⟩ : MaxRed)], nextId := k.nextId + 1 }
  | none =>
    let (id, k1) := (s.core r.k).accept .xred [] [] 1 0 0
    let k2 := { k1 with maxReds := k1.maxReds ++ [(⟨id, group, mx, none, false⟩ : MaxRed)] }
    (s.setCore r.k k2.countXfer).relink r group id

/-- XRED but for .MAX (R223 to R225, R272, R273, R460). -/
def insXred (op : CollOp) (rq : BitVec 5) (s : State) (r : CoreRef) : InsRes :=
  carriedOr s r <|
    let k := s.core r.k
    let dl := k.lineOf rq
    checkRead s r 4 [dl] <|
      let f := parseXred (k.line dl).data
      let (sb, db) := collSizes op f
      let sn := ceilDiv sb 128
      let dn := ceilDiv db 128
      if 4 ≤ f.fmt then faultX s r fcIllegal
      else if (sb ≠ 0 ∧ 65536 < f.src + sn) ∨ 65536 < f.dst + dn then faultX s r fcRange
      else
        let src := lineRun f.src sn
        let dst := lineRun f.dst dn ++ [f.status]
        match s.useOut r 1 f.group.toNat with
        | some s1 => .ok (s1.replayRed r f.group f.dst f.status db dst)
        | none => checkSource s r 4 src <| checkWrite s r dst <|
          let (i, k1) := k.nextOp f.group
          let (id, k2) := k1.accept .xred src dst 1 0 f.src
          let s1 := (s.setCore r.k k2.countXfer).countReads r 1
          .ok (s1.joinRun f.group i
            { pt := r.pt, c := r.c, k := r.k, xfer := id, mx := 0, src := f.src, dst := f.dst, status := f.status,
              pc := k.pc, inp := collInput op f, ready := src.isEmpty, linked := true })

/-- XRED.MAX (R83, R275, R460): its register is read at the issue. -/
def insXredMax (rq : BitVec 5) (mx : BitVec 2) (s : State) (r : CoreRef) : InsRes :=
  carriedOr s r <|
    let k := s.core r.k
    let group := (k.sreg rq.toNat).extractLsb' 0 32
    let v := k.mreg mx.toNat
    match s.useOut r 1 group.toNat with
    | some s1 => .ok (s1.replayMax r group mx.toNat)
    | none =>
      let (i, k1) := k.nextOp group
      let (id, k2) := k1.accept .xred [] [] 1 0 0
      let k3 := { k2 with maxReds := k2.maxReds ++ [(⟨id, group, mx.toNat, none, false⟩ : MaxRed)] }
      .ok ((s.setCore r.k k3.countXfer).joinRun group i
        { pt := r.pt, c := r.c, k := r.k, xfer := id, mx := mx.toNat, src := 0, dst := 0, status := 0, pc := k.pc
          inp := { collInput .max ⟨group, 0, 0, 0, 0, 0, 0, 0, 0, 0⟩ with mag := v.mag, nf := v.nf }, ready := true, linked := true })

/-! ### Results (R100, R273 to R275) -/

/-- The status line (R273). -/
def statusLine (fl : AxFlags) (participants : Nat) : Line :=
  BitVec.ofNat 1024 (fl.bits.toNat + participants * 2 ^ 32)

/-- Bytes written into the PENDING lines of a member, with their poison. -/
def Core.putResult (k : Core) (dst : Nat) (bs : List Byte) (poison : Bool) : Core :=
  (List.range (ceilDiv bs.length 128)).foldl (fun k q =>
    let cells := (List.range 128).map fun b => (bs[128 * q + b]?).map fun v => (v, poison)
    k.setLine (dst + q) ((k.line (dst + q)).arrive cells)) k

/-- One member's part of a result (R273, R275): a running maximum waits for its XFENCE. -/
def Core.takeResult (k : Core) (m : CollMember) (res : CollResult) (participants : Nat) : Core :=
  match k.xfer m.xfer with
  | none => k
  | some _ =>
    if m.inp.op = .max then
      { k.dropXfer m.xfer with
          maxReds := k.maxReds.map fun x => if x.xfer = m.xfer then { x with result := some res.max } else x }
    else
      let k1 := k.putResult m.dst (res.bytes m.inp.first) res.poison
      (k1.setLine m.status ((k1.line m.status).fill (statusLine res.fl participants) res.poison)).dropXfer m.xfer

/-- The data of an IN record of a result (R467, log 26). -/
def resultRecord (m : CollMember) (res : CollResult) (participants : Nat) : List Byte :=
  if m.inp.op = .max then natBytes 4 res.max.mag.toNat ++ natBytes 1 (b2n res.max.nf)
  else res.bytes m.inp.first ++ natBytes 128 (statusLine res.fl participants).toNat

/-- A result for a stopped or replaying partition goes into the journal of its context (R470). -/
def State.journalResult (s : State) (n : Nat) (x : JrnlRec) : State :=
  match (s.part n).ctx with
  | none => s
  | some cn =>
    let c := s.ctx cn
    s.setCtx cn { c with journal := c.journal ++ [x]
                         replay := if (s.part n).replay.isEmpty then c.replay else c.replay ++ [x] }

/-- COLLECTIVE_RESULT_WRITE (R100, R107, R273): destination, then status, to every participant of this module; a result
marked under R100 is an anchor violation of every local participating context. -/
def collectiveWrite (group : Word) (s : State) : State :=
  match s.readyRun group with
  | none => s
  | some (u, c) =>
    if c.head.op = .xbar then s
    else
      let res := collResult c.head u.results
      let s1 := u.locals.foldl (fun s m =>
        if m.linked then s.updCore m.k fun k => k.takeResult m res c.total
        else s.journalResult m.pt (.res m.c group.toNat (resultRecord m res c.total) res.poison)) s
      let s2 := s1.endRunOf group u.idx
      let s3 := { s2 with fab := { s2.fab with collLastBeat := s.now } }
      if res.marked then
        u.heads.foldl (fun s m => s.raiseFrom m.pt m.c (srcHub 0x200) ⟨fcAnchor, 0, 4, m.pc, 0⟩) s3
      else s3

/-! ### XBAR, XTIME, XFENCE (R276 to R278) -/

/-- XBAR (R276, R460, R471): it passes once its operation on the group has been released; in replay, by its record. -/
def insXbar (rg : BitVec 5) (s : State) (r : CoreRef) : InsRes :=
  carriedOr s r <|
    let k := s.core r.k
    let group := (k.sreg rg.toNat).extractLsb' 0 32
    let (i, k1) := k.nextOp group
    match s.useRec r fun x => x == .bar r.c group.toNat with
    | some (_, s1) =>
      .ok (if group = 0 then (s1.setCore r.k k1.countXfer).updPart r.pt fun p =>
          { p with xbarRel := smapUpd 0 p.xbarRel 0 fun n => max n (i + 1) }
        else s1.updCore r.k Core.countXfer)
    | none =>
      if i < smapGet 0 (s.part r.pt).xbarRel group.toNat then .ok (s.setCore r.k k1.countXfer)
      else .wait [.xbar group.toNat (i + 1)]

/-- A core that waits at an XBAR has reached it (R276): the engine counts it in, once. -/
def State.reachXbar (s : State) (r : CoreRef) (w : Need) : State :=
  match w with
  | .xbar g j =>
    if g = 0 ∨ j = 0 then s
    else
      let group := BitVec.ofNat 32 g
      let there := s.fab.runs.any fun u => u.group == group && u.idx == j - 1 &&
        u.locals.any fun m => m.pt == r.pt && m.c == r.c
      if there then s
      else
        s.joinRun group (j - 1)
          { pt := r.pt, c := r.c, k := r.k, xfer := 0, mx := 0, src := 0, dst := 0, status := 0
            pc := (s.core r.k).pc, inp := collInput .xbar ⟨group, 0, 0, 0, 0, 0, 0, 0, 0, 0⟩, ready := true, linked := true }
  | _ => s

/-- The partition freezes on a core's needs; a core whose bundle waits at an XBAR has reached it, whatever else it waits for
(R276, log 16). -/
def State.waitFor (s : State) (r : CoreRef) (ws : List Need) : State :=
  ws.foldl (fun s w => s.reachXbar r w) (s.freeze r.pt (ws.map fun w => ⟨r.k, w, false, s.now⟩))

/-- What a bundle's or an instruction's answer makes of the state, XBARs included. -/
def settleAll (s : State) (r : CoreRef) : InsRes → State
  | .wait ws => s.waitFor r ws
  | x => settleIns s r x

/-- The XBARs of group 0 that a partition's cores wait at: each core's operation. -/
def State.localBar (s : State) (n : Nat) : Option Nat :=
  let cores := s.coresOf n
  let js := (s.part n).needs.filterMap fun w => match w.need with
    | .xbar 0 j => some (w.core, j)
    | _ => none
  match js with
  | [] => none
  | (_, j) :: _ => if cores.all fun c => js.contains (c.2, j) then some j else none

/-- XBAR_RELEASE (R276): every member has reached the XBAR, and the partitions that wait are released. -/
def xbarRelease (n : Nat) (group : Word) (s : State) : State :=
  if group = 0 then
    match s.localBar n with
    | none => s
    | some j => s.updPart n fun p => { p with xbarRel := smapSet 0 p.xbarRel 0 j }
  else
    match s.readyRun group with
    | none => s
    | some (u, c) =>
      if c.head.op ≠ .xbar then s
      else
        let s1 := ((u.locals.map fun m => m.pt).dedup).foldl (fun s n =>
          s.updPart n fun p => { p with xbarRel := smapSet 0 p.xbarRel group.toNat (u.idx + 1) }) s
        s1.endRunOf group u.idx

/-- XTIME (R45, R277): a released operand passes; else the core's view decides. -/
def insXtime (rt : BitVec 5) (s : State) (r : CoreRef) : InsRes :=
  let k := s.core r.k
  let t := k.sreg rt.toNat
  let (v, s1) := s.gtbView
  if k.timeAt = some t ∨ t.toNat ≤ v.toNat then .ok (s1.updCore r.k fun k => { k with timeAt := none })
  else .wait [.time t]

/-- XTIME_RELEASE (R45): the core's view has reached the operand it waits for. -/
def xtimeRelease (s : State) (r : CoreRef) : State :=
  let due := fun (w : FreezeNeed) => match w.need with
    | .time t => w.core == r.k && t != 0 && decide (t.toNat ≤ s.now)
    | _ => false
  match (s.part r.pt).needs.find? due with
  | some ⟨_, .time t, _, _⟩ =>
    (s.updCore r.k fun k => { k with timeAt := some t }).updPart r.pt fun p =>
      { p with needs := p.needs.map fun w => if due w then { w with need := .time 0 } else w }
  | _ => s

/-- Results of XRED.MAX written to their registers (R275, R293): at the end of the cycle. -/
def State.applyMaxReds (s : State) (r : CoreRef) : State :=
  let s1 := (s.core r.k).maxReds.foldl (fun s x =>
    match x.result with
    | some v => if x.applied then s else s.delay r 1 1 (.mreg x.mx v)
    | none => s) s
  s1.updCore r.k fun k => { k with maxReds := k.maxReds.map fun x => { x with applied := x.applied || x.result.isSome } }

/-- XFENCE (R275, R278): it waits for the transfers numbered below `before`. -/
def insXfenceFrom (before : Nat) (p x : Bool) (s : State) (r : CoreRef) : InsRes :=
  let w : Need := .fence p x before
  if s.needMet r.pt ⟨r.k, w, false, s.now⟩ then .ok (if x then s.applyMaxReds r else s) else .wait [w]

/-- XFENCE on its own: every transfer so far is earlier. -/
def insXfence (p x : Bool) (s : State) (r : CoreRef) : InsRes := insXfenceFrom (s.core r.k).nextId p x s r

/-! ### The rows -/

/-- XSEND (R270). -/
def execXsend (pt : Pt) (c : LCore) (rs rt : BitVec 5) (s : State) : Out := runIns s pt c (insXsend rs rt s)
/-- MESSAGE_ACCEPT (R284). -/
def execMessageAccept (pt : Pt) (c : LCore) (idx : BitVec 4) (s : State) : Out :=
  onCore s pt c fun r => messageAccept idx.toNat s r
/-- XRECV (R271). -/
def execXrecv (pt : Pt) (c : LCore) (rs rt : BitVec 5) (s : State) : Out := runIns s pt c (insXrecv rs rt s)
/-- XRED.SUM exact (R274). -/
def execXredSumExact (pt : Pt) (c : LCore) (rq : BitVec 5) (s : State) : Out := runIns s pt c (insXred .sumExact rq s)
/-- XRED.SUM tree (R274). -/
def execXredSumTree (pt : Pt) (c : LCore) (rq : BitVec 5) (s : State) : Out := runIns s pt c (insXred .sumTree rq s)
/-- XRED.MAX (R275). -/
def execXredMax (pt : Pt) (c : LCore) (rq : BitVec 5) (mx : BitVec 2) (s : State) : Out :=
  runIns s pt c (insXredMax rq mx s)
/-- XRED.GATHER (R274). -/
def execXredGather (pt : Pt) (c : LCore) (rq : BitVec 5) (s : State) : Out := runIns s pt c (insXred .gather rq s)
/-- XRED.SCATTER (R274). -/
def execXredScatter (pt : Pt) (c : LCore) (rq : BitVec 5) (s : State) : Out := runIns s pt c (insXred .scatter rq s)
/-- COLLECTIVE_RESULT_WRITE (R273). -/
def execCollectiveResultWrite (group : Word) (s : State) : Out := .next (collectiveWrite group s)
/-- XBAR (R276). -/
def execXbar (pt : Pt) (c : LCore) (rg : BitVec 5) (s : State) : Out :=
  onCore s pt c fun r => if s.issuing r then settleAll s r (insXbar rg s r) else s
/-- XBAR_RELEASE (R276). -/
def execXbarRelease (pt : Pt) (group : Word) (s : State) : Out := .next (xbarRelease pt.toNat group s)
/-- XTIME (R277). -/
def execXtime (pt : Pt) (c : LCore) (rt : BitVec 5) (s : State) : Out := runIns s pt c (insXtime rt s)
/-- XTIME_RELEASE (R45). -/
def execXtimeRelease (pt : Pt) (c : LCore) (s : State) : Out := onCore s pt c fun r => xtimeRelease s r
/-- XFENCE (R278). -/
def execXfence (pt : Pt) (c : LCore) (p x : Bool) (s : State) : Out := runIns s pt c (insXfence p x s)

end Sys2Proof.Machine
end

