-- ==== Sys2Proof/Machine/Hang.lean ====
section
/-! DEFINITION. Hangs (15_hangs_reset.md R482 to R485, R494): the beats of cores and engines, the evidence of a budget overrun,
the suspects, and the steps of the reset ladder as they begin (R487, R492). -/

namespace Sys2Proof.Machine

/-! ### Units -/

/-- The unit that an operand names. -/
def engUnit : EngUnit → LadderUnit
  | .core d p => .core d.toNat p.toNat
  | .peel d e => .peel d.toNat e.toNat
  | .collective => .collective
  | .link p => .link p.toNat

/-- The source number of a unit (R30); a context and a partition are logged under their die (DEDUCED, log 24). -/
def State.unitSrc (s : State) : LadderUnit → Nat
  | .ctx n => srcNo (s.part (s.ctx n).pt.toNat).die.toNat 0
  | .core d p => srcCore (26 * d + p) 0
  | .peel d e => srcNo d (0x200 + e)
  | .collective => srcHub 0x200
  | .link p => srcHub (0x100 + p)
  | .part n => srcNo (s.part n).die.toNat 0
  | .module => srcHub 0

/-- The number of a step as RST_STAT.STEP gives it (R507). -/
def LadderUnit.stepNo : LadderUnit → Nat
  | .ctx _ => 1
  | .part _ => 3
  | .module => 4
  | _ => 2

/-- A step on a unit covers another unit (R487, R492). -/
def State.covers (s : State) (u t : LadderUnit) : Bool :=
  match u with
  | .module => true
  | .part n =>
    match t with
    | .part m => m == n
    | .ctx c => (s.ctx c).pts.contains n
    | .core d p => s.ptOfCore (26 * d + p) == some n
    | _ => false
  | _ => u == t

/-- A ladder event (R492): 0 started, 1 completed, 2 escalated. -/
def State.ladderEvent (s : State) (u : LadderUnit) (phase : Nat) : State :=
  s.event (s.unitSrc u) 0x0702 (detail3 (u.stepNo + 256 * phase) 0 0)

/-- A step begins (R492): narrower steps that it covers are absorbed. A reset that Abmito starts is
a wake event (R524). -/
def State.beginStep (s : State) (u : LadderUnit) : State :=
  let steps := s.ladder.steps.filter fun t => !s.covers u t.target
  let s1 := { s with ladder := { s.ladder with steps := steps ++ [(⟨u, s.now⟩ : LadderStep)] } }
  s1.wake.ladderEvent u 0

/-! ### Beats (R484) -/

/-- The limit of a request to a peer (R402), in ns. -/
def reqLimit : Nat := 2000000

/-- The requests of a Peel engine that wait for an answer: the GTB at which each one's own limit ends. -/
def State.engLimits (s : State) (d e : Nat) : List Nat :=
  let mine := fun (i : Issuer) => match i with
    | .peelRead d' e' _ _ _ => d' == d && e' == e
    | .peelWrite d' e' _ _ => d' == d && e' == e
    | _ => false
  ((s.fab.reqs.filter fun q => mine q.issuer).map fun q => q.first + reqLimit) ++
    ((s.host.reads.filter fun q => mine q.issuer).map fun q => q.sent + s.host.cplTo.toNat * 1000)

/-- A Peel engine beats now without moving a line: its queue is empty, or it waits only for answers that are not due. -/
def State.peelBeats (s : State) (d e : Nat) : Bool :=
  (s.engine d e).queue.isEmpty ||
    (!(s.engLimits d e).isEmpty && (s.engLimits d e).all fun t => decide (s.now < t))

/-- The last beat of a Peel engine. -/
def State.peelBeat (s : State) (d e : Nat) : Nat := if s.peelBeats d e then s.now else (s.engine d e).lastBeat

/-- The last beat of the collective engine: one that only waits for members beats now. -/
def State.collBeat (s : State) : Nat :=
  if s.fab.runs.all fun u => u.agreed.isNone then s.now else s.fab.collLastBeat

/-- Three windows of HANG_ENG_PERIOD have passed since a beat. -/
def State.engSilent (s : State) (beat : Nat) : Bool := decide (beat + 3 * s.ladder.engPeriod.toNat * 1000 ≤ s.now)

/-- An engine counts as hung (R484). A link engine whose port is OFF or in TRAIN beats. -/
def State.engHung (s : State) : LadderUnit → Bool
  | .peel d e => s.engSilent (s.peelBeat d e)
  | .collective => s.engSilent s.collBeat
  | .link p =>
    let q := smapGet Port.reset s.fab.ports p
    (q.st == .link || q.st == .up) && s.engSilent q.lastFlit
  | _ => false

/-! ### Detection (R483, R485, R494) -/

/-- The suspects of a hang (R494): context and partition. -/
def State.suspectsOf (s : State) (u : LadderUnit) : List (Nat × Nat) :=
  let ctxOn := fun n => (s.part n).ctx.map fun c => (c, n)
  match u with
  | .core d p => ((s.ptOfCore (26 * d + p)).bind ctxOn).toList
  | .peel d e => (((s.engine d e).queue.map fun x => x.pt).dedup).filterMap ctxOn
  | .collective => (((s.fab.runs.flatMap fun r => r.locals.map fun m => m.pt)).dedup).filterMap ctxOn
  | _ => []

/-- The tile of a partition, counted in commits from its kernel's start (R495). -/
def Part.tileNo (p : Part) : Nat := match p.run with
  | some i => i.tiles
  | none => 0

/-- A suspect of a hang, not recorded twice; a suspect that hangs again in its tile keeps its record (R495). -/
def State.addSuspect (s : State) (u : LadderUnit) (e : Nat × Nat) : State :=
  if s.ladder.suspects.any fun x => x.ctx == e.1 then s
  else { s with ladder := { s.ladder with suspects := s.ladder.suspects ++ [⟨e.1, u, (s.part e.2).tileNo, false⟩] } }

/-- A hang is detected (R483, R485, R492, R494, R543): recorded, logged and announced. One in a unit that a running step covers
starts nothing. With no suspect the verdict is transient (DEDUCED from R498, log 43). -/
def State.detectHang (s : State) (u : LadderUnit) (byBudget : Bool) : State :=
  if s.ladder.steps.any fun t => s.covers t.target u then s
  else
    let sus := s.suspectsOf u
    let mask : DWord := sus.foldl (fun (m : DWord) e => m ||| BitVec.ofNat 64 (2 ^ e.1)) 0
    let s1 := { s with ladder := { s.ladder with
      hangSrc := BitVec.ofNat 16 (s.unitSrc u), verdict := if sus.isEmpty then 1 else 0, byBudget := byBudget
      hangValid := true, suspectMask := mask } }
    let s2 := (sus.foldl (fun s e => s.addSuspect u e) s1).event (s.unitSrc u) 0x0701
      (detail3 (b2n byBudget) (mask.toNat % 2 ^ 32) (mask.toNat / 2 ^ 32))
    let s3 := sus.foldl (fun s e => s.sendMsix (e.2 + 1) 1) s2
    (if s3.ladder.hangAlert then s3.alert else s3).hwSet 0x003_0020 0x10_0000

/-- The transfers that a freeze of a partition waits for: the core and the kind of each. -/
def State.awaited (s : State) (n : Nat) : List (Nat × XferKind) :=
  (s.part n).needs.flatMap fun w =>
    let k := s.core w.core
    match w.need with
    | .line i _ =>
      (((k.line i).hold.bind fun h => (k.xfers.find? fun x => x.id == h.xfer)).map fun x => (w.core, x.kind)).toList
    | .fence .. | .settle => k.xfers.map fun x => (w.core, x.kind)
    | .peelQueue e => [(w.core, .peel e)]
    | _ => []

/-- The engine that moves a transfer. -/
def engineOf (k : Nat) : XferKind → Option LadderUnit
  | .peel e => some (.peel (k / 26) e)
  | .pbufImage e => some (.peel (k / 26) e)
  | .xred => some .collective
  | _ => none

/-- An engine has recorded no beat since a time. -/
def State.silentSince (s : State) (t : Nat) : LadderUnit → Bool
  | .peel d e => decide (s.peelBeat d e < t)
  | .collective => decide (s.collBeat < t)
  | _ => false

/-- What a budget overrun of a partition shows (R485): a core that issued nothing in the window while the partition neither
froze nor held, or an engine that the partition is frozen on and that has not beaten since. -/
def State.hangEvidence (s : State) (n : Nat) : Option LadderUnit :=
  let p := s.part n
  if p.frozen then
    ((s.awaited n).filterMap fun x => engineOf x.1 x.2).find? fun u => s.silentSince p.frzStart u
  else if p.rested then none
  else ((s.coresOf n).find? fun e => (s.core e.2).seq == .issuing && !p.issuedCores.contains e.1).map fun e =>
    .core (e.2 / 26) (e.2 % 26)

/-- CORE_HANG_DETECT (R483): a watched core without a heartbeat in three windows. -/
def coreHangDetect (s : State) (r : CoreRef) : State :=
  let k := s.core r.k
  if k.watched && decide (k.lastBeat + 3 * s.ladder.hangPeriod.toNat * 1000 ≤ s.now) then
    s.detectHang (.core (r.k / 26) (r.k % 26)) false
  else s

/-- ENGINE_HANG_DETECT (R484). -/
def engineHangDetect (u : LadderUnit) (s : State) : State := if s.engHung u then s.detectHang u false else s

/-! ### The rows -/

/-- CORE_HANG_DETECT (R483). -/
def execCoreHangDetect (pt : Pt) (c : LCore) (s : State) : Out := onCore s pt c fun r => coreHangDetect s r
/-- ENGINE_HANG_DETECT (R484). -/
def execEngineHangDetect (e : EngUnit) (s : State) : Out := .next (engineHangDetect (engUnit e) s)

end Sys2Proof.Machine
end

