-- ==== Sys2Proof/Machine/Answers.lean ====
section
/-! DEFINITION. Requests of this module to its peers and what answers them (12_thatre_fabric.md R402 to R405): data, an
acknowledgement, NOT_READY, XQ_FREE, a refusal, none at all. -/

namespace Sys2Proof.Machine

/-- The pending request of a pair and a sequence number (R402). -/
def State.findReq (s : State) (dst : NodeId) (seq : Word) : Option FabReq :=
  s.fab.reqs.find? fun q => q.dst == dst && q.seq == seq

/-- The state without a request. -/
def State.dropReq (s : State) (dst : NodeId) (seq : Word) : State :=
  { s with fab := { s.fab with reqs := s.fab.reqs.filter fun q => !(q.dst == dst && q.seq == seq) } }

/-- The host's one-sided operation ends (R404). -/
def State.finishFabOp (s : State) (reason : Nat) : State :=
  { s with fab := { s.fab with op := { s.fab.op with busy := false, done := true, error := BitVec.ofNat 3 reason } } }.hwSet 0x030_0214 2

/-- Bytes of a transfer's source have come, by their place in the row stream (R402, R541). A copy whose source is complete is
written. -/
def State.bringData (s : State) (d e k x off : Nat) (bytes : List Byte) (poison : Bool) : State :=
  let s1 := (s.updDesc d e k x fun y => { y with data := y.data ++ [(off, bytes, poison)] }).beatEngine d e
  match s1.findDesc k x with
  | some (_, y) => if y.kind == .copy && y.started then s1.sendWrites y e else s1
  | none => s1

/-- Bytes that a read which failed stands for: poisoned, and open (R403, log 9). -/
def lostBytes (len : Nat) : List Byte := (List.range len).map fun i => Config.freeByte 0 i

/-- The partition that a transfer of a core belongs to. -/
def State.xferPt (s : State) (k x : Nat) : Nat :=
  match s.findDesc k x with
  | some (_, d) => d.pt
  | none => (s.ptOfCore k).getD 0

/-- A request of the module fails with a reason (R403). -/
def State.failReq (s : State) (q : FabReq) (reason : Nat) : State :=
  let s1 := s.dropReq q.dst q.seq
  match q.issuer with
  | .peelRead d e k x off => s1.bringData d e k x off (lostBytes q.pkt.len) true
  | .peelWrite _ _ k x => s1.refuseAbort (s1.xferPt k x) reason
  | .message k x => (s1.updCore k fun c => c.sent x).refuseAbort ((s1.ptOfCore k).getD 0) reason
  | .fabOp _ => s1.finishFabOp reason

/-- A packet is addressed to this node, which accepts packets with an ID alone (R393). -/
def State.forMe (s : State) (p : Packet) : Bool := s.fab.node != 0 && p.dst == s.fab.node

/-- READ_DATA (R402): the bytes that a read asked for. -/
def readData (p : Packet) (s : State) : State :=
  match s.findReq p.src p.seq with
  | none => s
  | some q =>
    if !s.forMe p ∨ q.pkt.kind ≠ 0x01 ∨ p.payload.length ≠ q.pkt.len then s
    else
      let s1 := s.dropReq q.dst q.seq
      match q.issuer with
      | .peelRead d e k x off => s1.bringData d e k x off p.payload p.poison
      | .fabOp a => (s1.memWrite a (p.payload.map some) p.poison).finishFabOp 0
      | _ => s1

/-- ACK (R402, R405): a write or an atomic add is done; a message's entry is free and the next may go. -/
def ackReceive (p : Packet) (s : State) : State :=
  match s.findReq p.src p.seq with
  | none => s
  | some q =>
    if !s.forMe p ∨ q.pkt.kind = 0x01 then s
    else
      let s1 := s.dropReq q.dst q.seq
      match q.issuer with
      | .message k x => (s1.updCore k fun c => c.sent x).offerMessages k
      | .fabOp _ => s1.finishFabOp 0
      | .peelWrite d e _ _ => s1.beatEngine d e
      | _ => s1

/-- NOT_READY (R405): the message stays in the send XQ, and none is offered to that core until XQ_FREE. -/
def notReadyReceive (p : Packet) (s : State) : State :=
  match s.findReq p.src p.seq with
  | none => s
  | some q =>
    if !s.forMe p ∨ q.pkt.kind ≠ 0x06 then s
    else
      let s1 := s.dropReq q.dst q.seq
      let h : HeldMsg := ⟨q.dst, q.pkt.tag, q.pkt.addr.toNat % 512⟩
      { s1 with fab := { s1.fab with held := s1.fab.held ++ [h] } }

/-- XQ_FREE (R405): messages for that core are offered again. The packet names the core as a message does (DEDUCED, log 19). -/
def xqFreeReceive (p : Packet) (s : State) : State :=
  if !s.forMe p ∨ p.kind ≠ 0x08 then s
  else
    let s1 := { s with fab := { s.fab with
      held := s.fab.held.filter fun h => !(h.dst == p.src && h.core == p.addr.toNat % 512) } }
    (List.range 104).foldl State.offerMessages s1

/-- A member of this module in a collective operation of a group whose traffic is refused (R403). -/
def State.failColl (s : State) (group : Word) (idx reason : Nat) : State :=
  match s.findRun group idx with
  | none => s
  | some u => ((u.locals.map fun m => m.pt).dedup).foldl (fun s n => s.refuseAbort n reason) (s.endRunOf group idx)

/-- REFUSE (R403). One that answers collective traffic names it by the group and by the sequence number of what it answers, which is the
operation (log 16). -/
def refuseReceive (p : Packet) (s : State) : State :=
  if !s.forMe p ∨ p.kind ≠ 0x09 then s
  else
    match s.findReq p.src p.seq with
    | some q => if p.tag = q.pkt.tag then s.failReq q p.reason.toNat else s.failColl p.tag p.seq.toNat p.reason.toNat
    | none => s.failColl p.tag p.seq.toNat p.reason.toNat

/-- REQUEST_RESEND (R402): after 50 µs without an answer; a node without an ID sends none (R393). -/
def requestResend (dst : NodeId) (seq : Word) (s : State) : State :=
  match s.findReq dst seq with
  | none => s
  | some q =>
    if s.now < q.last + 50000 ∨ s.fab.node = 0 then s
    else
      { s with fab := { s.fab with reqs := s.fab.reqs.map fun (x : FabReq) =>
          if x.dst = dst ∧ x.seq = seq then { x with last := s.now } else x } }.toRouter q.pkt

/-- REQUEST_TIMEOUT (R402): unanswered 2 ms after it was first sent. -/
def requestTimeout (dst : NodeId) (seq : Word) (s : State) : State :=
  match s.findReq dst seq with
  | none => s
  | some q => if s.now < q.first + reqLimit then s else s.failReq q 1

/-! ### The rows -/

/-- READ_DATA (R402). -/
def execReadData (p : Packet) (s : State) : Out := .next (if p.kind = 0x02 then readData p s else s)
/-- ACK (R402). -/
def execAck (p : Packet) (s : State) : Out := .next (if p.kind = 0x05 then ackReceive p s else s)
/-- NOT_READY (R405). -/
def execNotReady (p : Packet) (s : State) : Out := .next (if p.kind = 0x07 then notReadyReceive p s else s)
/-- XQ_FREE (R405). -/
def execXqFree (p : Packet) (s : State) : Out := .next (xqFreeReceive p s)
/-- REFUSE (R403). -/
def execRefuse (p : Packet) (s : State) : Out := .next (refuseReceive p s)
/-- REQUEST_RESEND (R402). -/
def execRequestResend (dst : NodeId) (seq : Word) (s : State) : Out := .next (requestResend dst seq s)
/-- REQUEST_TIMEOUT (R402). -/
def execRequestTimeout (dst : NodeId) (seq : Word) (s : State) : Out := .next (requestTimeout dst seq s)

end Sys2Proof.Machine
end

