-- ==== Sys2Proof/Machine/EventLog.lean ====
section
/-! DEFINITION. The event log (19_health_ledger.md R585 to R590): delivery, commitment in the order of R47, the extension ring,
aggregated windows, the read ports. -/

namespace Sys2Proof.Machine

/-- The bytes of a committed record (R585). -/
def Event.bytes (e : Event) (seq : Nat) : List Byte :=
  natBytes 8 e.gtb ++ natBytes 2 e.src ++ natBytes 2 e.code ++ natBytes 4 seq ++ natBytes 1 (b2n e.late + 2 * b2n e.corrupt) ++
    natBytes 3 0 ++ natBytes 12 e.detail.toNat

/-- A record comes before a stamp and source in the order of R47. -/
def Event.before (e : Event) (k : Nat × Nat) : Bool := decide (e.gtb < k.1) || (e.gtb == k.1 && decide (e.src < k.2))

/-- The position of the record that comes first in the order of R47; of equal ones the one produced first. -/
def firstEvent : List Event → Option Nat
  | [] => none
  | e :: es =>
    match firstEvent es with
    | none => some 0
    | some j => match es[j]? with
      | some f => if f.before (e.gtb, e.src) then some (j + 1) else some 0
      | none => some 0

/-- The hub does not write the extension ring now (R588). -/
def State.extHeld (s : State) : Bool := s.power.st == .w4 || s.power.st == .w5 || s.mem.reforming.isSome

/-- A committed record written to the extension ring (R588). A place outside the host region takes no bytes (DEDUCED, log 33). -/
def State.extWrite (s : State) (e : Event) (seq : Nat) : State :=
  let size := s.log.extSize.toNat
  let a := s.log.extBase.toNat + 32 * (seq % size)
  if size = 0 then s
  else if s.extHeld then { s with log := { s.log with extSkip := satAdd32 s.log.extSkip 1 } }
  else if s.mem.hostTop < a + 32 then s
  else s.memPut a (e.bytes seq)

/-- A record is committed (R585 to R588). -/
def State.commitEvent (s : State) (e : Event) : State :=
  let n := s.log.next
  let key := if e.late then s.log.last else some (e.gtb, e.src)
  ({ s with log := { s.log with next := n + 1, ring := smapInsert s.log.ring (n % 16384) (n, e), last := key } }).extWrite e n

/-- A record arrives at the sort buffer; one that a committed record should have followed is committed late (R586). -/
def State.deliverEvent (s : State) (e : Event) : State :=
  match s.log.last with
  | some k => if e.before k then s.commitEvent { e with late := true } else { s with log := { s.log with buffer := s.log.buffer ++ [e] } }
  | none => { s with log := { s.log with buffer := s.log.buffer ++ [e] } }

/-- EVENT_DELIVER (R586): a source delivers its records in the order in which it produced them (R47). -/
def eventDeliver (idx : Nat) (s : State) : State :=
  match s.log.pending[idx]? with
  | none => s
  | some e =>
    if (s.log.pending.take idx).any fun x => x.src == e.src then s
    else { s with log := { s.log with pending := s.log.pending.eraseIdx idx } }.deliverEvent e

/-- EVENT_COMMIT (R586): the first buffered record, once the GTB has reached its stamp + 4 µs. -/
def eventCommit (s : State) : State :=
  match firstEvent s.log.buffer with
  | none => s
  | some i =>
    match s.log.buffer[i]? with
    | none => s
    | some e =>
      if s.now < e.gtb + 4000 then s
      else { s with log := { s.log with buffer := s.log.buffer.eraseIdx i } }.commitEvent e

/-- Every buffered record committed in order; `n` bounds their number. -/
def State.drainEvents : Nat → State → State
  | 0, s => s
  | n + 1, s =>
    match firstEvent s.log.buffer with
    | none => s
    | some i =>
      match s.log.buffer[i]? with
      | none => s
      | some e => ({ s with log := { s.log with buffer := s.log.buffer.eraseIdx i } }.commitEvent e).drainEvents n

/-- The record of an aggregation window (R589), stamped with the window's last nanosecond. -/
def AggWin.record (a : AggWin) (stamp : Nat) : Event :=
  { gtb := stamp, src := a.src, code := a.code
    detail := BitVec.ofNat 96 (min a.count (2 ^ 32 - 1) + 2 ^ 32 * (a.first % 2 ^ 64)), late := false, corrupt := false }

/-- EVENT_AGG_WINDOW_END (R589): the windows that have ended give one record each. -/
def eventAggWindowEnd (s : State) : State :=
  let ended := fun (a : AggWin) => decide ((a.window + 1) * 1000000 ≤ s.now)
  { s with log := { s.log with
      agg := s.log.agg.filter fun a => !ended a
      pending := s.log.pending ++ (s.log.agg.filter ended).map fun a => a.record ((a.window + 1) * 1000000 - 1) } }

/-- Everything stamped before the first GTB step is committed before it (R39, R586); open aggregation windows end there. -/
def State.flushEvents (s : State) : State :=
  let all := s.log.buffer ++ s.log.pending ++ s.log.agg.map fun a => a.record (s.now - 1)
  ({ s with log := { s.log with buffer := all, pending := [], agg := [] } }).drainEvents all.length

/-- What a capture of record `v` finds (R590, R591): the record and its flags. -/
def EventLog.capture (l : EventLog) (v : Nat) : BitVec 256 × Bool × Bool :=
  let d := (l.next + (2 ^ 32 - v)) % 2 ^ 32
  if d = 0 ∨ 2 ^ 31 ≤ d then (0, false, true)
  else if 16384 < d then (0, true, false)
  else match smapFind l.ring (v % 16384) with
    | some (n, e) => (BitVec.ofNat 256 (bytesNat (e.bytes n)), false, false)
    | none => (0, true, false)

/-- A read port after a write of EVT_PORT_SEQ (R590). -/
def ReadPort.captured (p : ReadPort) (v : Word) (c : BitVec 256 × Bool × Bool) : ReadPort :=
  { p with seq := v, capture := c.1, pos := 0, gone := c.2.1, notYet := c.2.2 }

/-- EVT_PORT_SEQ_WRITE (R590). -/
def evtPortSeqWrite (i3c : Bool) (v : Word) (s : State) : State :=
  let c := s.log.capture v.toNat
  if i3c then { s with log := { s.log with portI3c := s.log.portI3c.captured v c } }
  else { s with log := { s.log with port := s.log.port.captured v c } }

/-! ### The rows -/

/-- EVENT_DELIVER (R586). -/
def execEventDeliver (idx : BitVec 16) (s : State) : Out := .next (eventDeliver idx.toNat s)
/-- EVENT_COMMIT (R586). -/
def execEventCommit (s : State) : Out := .next (eventCommit s)
/-- EVENT_AGG_WINDOW_END (R589). -/
def execEventAggWindowEnd (s : State) : Out := .next (eventAggWindowEnd s)
/-- EVT_PORT_SEQ_WRITE (R590). -/
def execEvtPortSeqWrite (i3c : Bool) (v : Word) (s : State) : Out :=
  .next (if i3c then (if s.power.alwaysOn then evtPortSeqWrite true v s else s)
    else s.hostReg 0x002_0104 fun s => evtPortSeqWrite false v s)

end Sys2Proof.Machine
end

