-- ==== Sys2Proof/Machine/Drain.lean ====
section
/-! DEFINITION. The drain path (04_core.md R139 to R145; 07 R235 to R241): DRAIN and PBDRAIN, and the events
DRAIN_ROW_READ and DRAIN_ROW_WRITE. A row's output is formed when the row is read, from what the instruction captured at
its issue, and written 24 cycles later. -/

namespace Sys2Proof.Machine

/-- The output format of R235. -/
def drainFmt : Nat → Fmt
  | 0 => fp32
  | 1 => bf16
  | 2 => fp16
  | 3 => e4m3
  | 4 => e5m2
  | 5 => e3m2
  | 6 => e2m3
  | _ => e2m1

/-- The output format is an MX format. -/
def drainMx (f : DrainF) : Bool := decide (5 ≤ f.ofmt.toNat)

/-- The width of an output element in bits. -/
def drainWidth (f : DrainF) : Nat := (drainFmt f.ofmt.toNat).width

/-- The bytes of an output row (R143). -/
def drainBytes (f : DrainF) : Nat := 16 * (drainWidth f)

/-- The format of a DMUL or DFN operand (R236). -/
def operandFmt : Nat → Fmt
  | 0 => fp32
  | 1 => bf16
  | 2 => fp16
  | 3 => e4m3
  | _ => e5m2

/-- The lines of an operand row. -/
def operandLines (fmt : Nat) : Nat := (operandFmt fmt).width * 16 / 128

/-- The operand is read: OP is DMUL or DFN (R235). -/
def drainOperand (f : DrainF) : Bool := decide (2 ≤ f.op.toNat)

/-- A mask covers whole blocks of 32 columns (R143). -/
def maskWholeBlocks (m : BitVec 128) : Bool :=
  (List.range 4).all fun b => m.extractLsb' (32 * b) 32 == 0 || m.extractLsb' (32 * b) 32 == BitVec.allOnes 32

/-- The rows of a DRAIN (R139): to the highest row an MMA wrote, and row 0 for a ZERO bank; of a PBDRAIN, 128. -/
def drainRows (k : Core) (a : Nat) (j : DrainJob) : Nat :=
  match j.kind with
  | .drain b => max 1 (j.snap.getD ((k.array a).bank b)).top
  | .pbdrain _ => 128
  | .fold _ _ sb _ _ _ => if sb.isSome then 256 else 128

/-- The last byte written from a base line, with a row pitch, stays within the Bench (R224). -/
def benchSpanOk (line pitch rows bytes : Nat) : Bool :=
  decide (line * 128 + (rows - 1) * pitch + bytes ≤ 65536 * 128)

/-- The issue checks of DRAIN and PBDRAIN on fields and descriptor (R224, R225, R143): the codes met. -/
def drainFieldFaults (f : DrainF) (d : DrainDesc) (dest : DWord) (rows : Nat) : List Nat :=
  if f.dest = 3 ∨ ((f.op = 1 ∨ f.op = 3) ∧ 8 < f.fn.toNat) ∨ ((drainOperand f) ∧ 4 < d.opFmt) then [fcIllegal]
  else
    let destOk :=
      if f.dest = 0 then d.pitch % 128 == 0 && benchSpanOk (dest.toNat % 2 ^ 16) d.pitch rows (drainBytes f)
      else if f.dest = 1 then d.pitch % 128 == 0 && dest.toNat % 128 == 0 &&
        decide (dest.toNat + (rows - 1) * d.pitch + (drainBytes f) ≤ 2 ^ 26)
      else true
    let opOk := !(drainOperand f) || decide (d.opLine + (rows - 1) * d.opStride + operandLines d.opFmt ≤ 65536)
    let tapOk := !f.tap || benchSpanOk d.tapLine 16 rows 16
    let mxOk := !(drainMx f) || benchSpanOk d.mxLine 4 rows 4
    let biasOk := !f.bias || decide (d.bias + 4 ≤ 65536)
    let scaleOk := !f.scale || decide (d.scale + 4 ≤ 65536)
    (if destOk && opOk && tapOk && mxOk && biasOk && scaleOk then [] else [fcRange]) ++
      (if (drainMx f) && !maskWholeBlocks d.mask then [fcFormat] else [])

/-- The 128 FP32 values of four lines. -/
def Core.words4 (k : Core) (line : Nat) : List Word :=
  let n := linesNat ((lineRun line 4).map fun i => (k.line i).data)
  (List.range 128).map fun i => BitVec.ofNat 32 (elemAt n 32 i)

/-- A drain path holds one instruction running and one waiting (R238); one that has read its last row runs until that cycle's
end. -/
def ArrayS.pathFull (ar : ArrayS) (cyc : Nat) : Bool :=
  decide (2 ≤ ar.jobs.length) || (ar.lastRead == cyc && ar.jobs.any fun j => j.next == 0)

/-- The issue of a DRAIN or PBDRAIN (R235, R236, R238): the descriptor, bias and scale lines are read, and the job takes
its place on the drain path. `mark` is what the instruction, by its number, does to its bank or slot. -/
def issueDrain (kind : DrainKind) (a : Nat) (f : DrainF) (detail : Nat) (rows : Nat) (mark : Nat → Core → Core)
    (s : State) (r : CoreRef) : InsRes :=
  let k := s.core r.k
  let ar := k.array a
  if ar.pathFull (s.cyc r) then .hold
  else
    let dl := k.lineOf f.rq
    checkRead s r 1 [dl] <|
      let desc := parseDrainDesc (k.line dl).data
      let dest := k.sreg f.rd.toNat
      let bl := if f.bias then lineRun desc.bias 4 else []
      let sl := if f.scale then lineRun desc.scale 4 else []
      let faults := (drainFieldFaults f desc dest rows).map fun code => insInfo s r code 1 detail (1 + a)
      checkReadWith s r 1 faults ((bl ++ sl).filter fun i => decide (i < 65536)) <|
        let (id, k1) := k.fresh
        let job : DrainJob :=
          { id := id, kind := kind, issue := s.cyc r, f := f, desc := desc, dest := dest,
            bias := if f.bias then k.words4 desc.bias else [], scale := if f.scale then k.words4 desc.scale else [],
            biasPoison := k.linesPoison bl, scalePoison := k.linesPoison sl, seed := k.seed, step := k.step,
            anchor := k.anchor a, next := 0, snap := none, pc := k.pc, beyond := false }
        let k2 := mark id k1
        .ok ((s.setCore r.k (k2.setArray a { k2.array a with jobs := (k2.array a).jobs ++ [job] })).countReads r
          (1 + bl.length + sl.length))

/-- DRAIN (R135, R238, R239): its bank is SPENT at its issue. -/
def insDrain (a : ArrayNo) (bank : BitVec 1) (f : DrainF) (s : State) (r : CoreRef) : InsRes :=
  let b := bank.toNat
  issueDrain (.drain b) a.toNat f (arrDetail a.toNat b) (max 1 (((s.core r.k).array a.toNat).bank b).top)
    (fun _ k =>
      let ar := k.array a.toNat
      k.setArray a.toNat (ar.setBank b { ar.bank b with st := .spent })) s r

/-- PBDRAIN (R168, R174, R176): sets the slot's read mark, and takes its place in the order of the Proof Buffer. -/
def insPbdrain (a : ArrayNo) (slot : BitVec 3) (f : DrainF) (s : State) (r : CoreRef) : InsRes :=
  issueDrain (.pbdrain slot.toNat) a.toNat f (arrDetail a.toNat slot.toNat) 128
    (fun id k =>
      let k1 := k.setSlot slot.toNat { k.slot slot.toNat with readMark := true }
      { k1 with pbOps := k1.pbOps ++ [⟨id, .drain, [slot.toNat], false, 0, false⟩] }) s r

/-! ### Forming a row -/

/-- The logical index of row i, column n (R237). -/
def drainIndex (d : DrainDesc) (i n : Nat) : DWord :=
  d.base + BitVec.ofNat 64 i * d.rowStride + BitVec.ofNat 64 n * d.colStride

/-- What one entry becomes in steps 1 to 4 of R140: its FP32 value, its poison, and whether the bias set OVF or was a
precision-loss event. -/
structure DrainCell where
  val : Num
  poison : Bool
  ovf : Bool
  loss : Bool
deriving DecidableEq, Repr

/-- Steps 1 to 4 of R140 on the entry of column n. -/
def drainCell (j : DrainJob) (anchor : Int) (e : Ax80) (operand : Num) (opPoison : Bool) (n : Nat) : DrainCell :=
  let p := if j.f.bias then placeOnGrid anchor j.biasPoison (f32 (j.bias.getD n 0)) else ⟨0, .none, false⟩
  let e1 := e.add (p.ax 80)
  let v2 := rn (leaveGrid anchor e1)
  let v3 := if j.f.scale then rn (v2.mul (f32 (j.scale.getD n 0))) else v2
  let v4 :=
    if j.f.op = 1 then fnApply j.f.fn.toNat v3
    else if j.f.op = 2 then rn (v3.mul operand)
    else if j.f.op = 3 then rn (v3.mul (fnDeriv j.f.fn.toNat operand))
    else v3
  ⟨v4, e1.fl.psn || j.scalePoison || opPoison, p.fl.ovf, p.loss⟩

/-- The tap record of R142 over the unmasked cells: the row maximum and the row sum, and whether the sum set OVF. -/
def tapRecord (anchor : Int) (cells : List DrainCell) : BitVec 128 × Bool × Bool :=
  let mx := cells.foldl (fun m c => m.max c.val) (.inf true)
  let placed := cells.map fun c => placeOnGrid anchor c.poison c.val
  let sum := placed.foldl (fun (a : Ax80) p => a.add (p.ax 80)) Ax.zero
  (axWord sum ++ toF32 mx, placed.any (fun p => p.fl.ovf), placed.any (fun p => p.loss))

/-- The element codes of a row, and the four MX scale bytes (R143, R76). -/
def drainCodes (j : DrainJob) (i : Nat) (cells : List DrainCell) : List Nat × Word :=
  let rd := fun n =>
    if j.f.sr then Rnd.sr (srBits j.seed j.step j.desc.stream (drainIndex j.desc i n)) else Rnd.rne
  let vals := cells.zipIdx.map fun (c, n) => (rd n, c.val)
  if (drainMx j.f) then
    let blocks := (List.range 4).map fun b => mxBlock (drainFmt j.f.ofmt.toNat) ((vals.drop (32 * b)).take 32)
    (blocks.flatMap Prod.snd, packWord (blocks.zipIdx.map fun (b, n) => (b.1.toNat, 8 * n)))
  else
    (vals.map fun (rd, v) => (drainFmt j.f.ofmt.toNat).encode (if j.f.ofmt = 0 then .rne else rd) v, 0)

/-- The bank or slot that a drain-path instruction names. -/
def DrainKind.place : DrainKind → Nat
  | .drain b => b
  | .pbdrain s => s
  | .fold b _ _ _ _ _ => b

/-- A drain-path instruction is a PBDRAIN. -/
def DrainKind.isPb : DrainKind → Bool
  | .pbdrain _ => true
  | _ => false

/-- A row drained: its output for step 8, and the OVF and precision-loss events of its bias and taps (R107, R95). A loss of the bias
in a masked column is not counted (DESIGN CHOICE, log 49). -/
def drainRow (j : DrainJob) (anchor : Int) (i readAt : Nat) (row : AxRow) (operands : List Num) (opPoison : Bool) :
    DqRow × Bool × Bool :=
  let live := fun n => !j.desc.mask.getLsbD n
  let cells := (List.range 128).map fun n => drainCell j anchor (rowAt row n) (operands.getD n .nan) opPoison n
  let used := (cells.zipIdx.filter fun e => live e.2)
  let cs := used.map Prod.fst
  let (tap, tovf, tloss) := tapRecord j.desc.tapAnchor cs
  let (codes, scales) := drainCodes j i cells
  let poison := cs.any fun c => c.poison
  let elems := used.map fun (_, n) =>
    (drainIndex j.desc i n, BitVec.ofNat 32 (codes.getD n 0 + (if (drainMx j.f) then 256 * fieldOf scales (8 * (n / 32)) 8 else 0)))
  ({ pb := j.kind.isPb, readAt := readAt, row := i, f := j.f, desc := j.desc, dest := j.dest, out := packElems (drainWidth j.f) codes,
     mxScales := scales, tap := tap, poison := poison, maxr := if j.beyond then .zero else .ofValues (cs.map fun c => c.val),
     first := i == 0,
     crumb := if j.f.crumb then crumbAddOf j.desc.crumbKey j.step poison elems else ⟨0, 0, 0, 0, false⟩, detail := 4 * j.kind.place, pc := j.pc },
   cs.any (fun c => c.ovf) || (j.f.tap && tovf), cs.any (fun c => c.loss) || (j.f.tap && tloss))

/-! ### DRAIN_ROW_READ -/

/-- The job at the head of a drain path reads its next row in this cycle: the interlock and the order of the path let it, a DQ has room
for a drained row (R240), and the Proof Buffer is ready for it, a first row in the order of R174. -/
def drainMayRead (k : Core) (a : Nat) (j : DrainJob) (cyc : Nat) : Bool :=
  k.pathReady a j cyc && (j.isFold || !(k.array a).dqFull cyc) && !k.slotWaits j cyc &&
    (j.slotRow.isNone || j.next != 0 || pbMayBegin k j.id)

/-- The row the job reads next, the anchor it converts on (R103, R168, R170), and whether its bank is SUSPECT. -/
def drainSource (k : Core) (a : Nat) (j : DrainJob) : AxRow × Int × Bool :=
  match j.kind with
  | .drain b => let v := j.snap.getD ((k.array a).bank b); (v.row j.next, v.anchor.getD j.anchor, v.suspect)
  | .pbdrain sl =>
    let v := k.slot sl
    (smapGet [] v.rows j.next, if j.next = 0 then v.anchor.getD j.anchor else j.anchor, false)
  | .fold b _ _ _ _ _ => let v := j.snap.getD ((k.array a).bank b); (v.row j.next, v.anchor.getD 0, v.suspect)

/-- The drain path after a job has read a row, converting on `anchor`: the job leaves when it was the last. -/
def stepJobs (rows : Nat) (anchor : Int) : List DrainJob → List DrainJob
  | [] => []
  | j :: js => if j.next + 1 = rows then js else { j with next := j.next + 1, anchor := anchor } :: js

/-- An array whose drain path has read a row in a cycle (R138, R239). -/
def ArrayS.readRow (ar : ArrayS) (j : DrainJob) (rows : Nat) (anchor : Int) (cyc : Nat) : ArrayS :=
  { ar with
      jobs := stepJobs rows anchor ar.jobs, lastRead := cyc
      lastRow := if j.snap.isSome then some (j.kind.place, j.next) else none }

/-- DRAIN_ROW_READ (R139, R140, R239, R240, R458): the head of the drain path reads its next row. -/
def drainRowRead (a : Nat) (s : State) (r : CoreRef) : State :=
  let k := s.core r.k
  let ar := k.array a
  match ar.jobs with
  | [] => s
  | j :: _ =>
    if j.isFold || !(s.part r.pt).advancing || !drainMayRead k a j (s.cyc r) || (drainOperand j.f && (s.part r.pt).stall != 0) then s
    else
      let (row, anchor, suspect) := drainSource k a j
      if suspect then s.abandonTile r.pt (srcCore r.k (1 + a))
      else
        let ls := if (drainOperand j.f) then
          lineRun (j.desc.opLine + j.next * j.desc.opStride) (operandLines j.desc.opFmt) else []
        let rows := drainRows k a j
        let fmt := operandFmt j.desc.opFmt
        let data := linesNat (ls.map fun i => (k.line i).data)
        let operands := if (drainOperand j.f) then (List.range 128).map fun n => fmt.decode (elemAt data fmt.width n) else []
        let (out, ovf, loss) := drainRow j anchor j.next (s.cyc r) row operands (k.linesPoison ls)
        let done : State :=
          let k1 := k.setArray a { ar.readRow j rows anchor (s.cyc r) with dq := ar.dq ++ [out] }
          let k2 := match j.slotRow with
            | some (sl, _) => (k1.takePort sl (s.cyc r)).pbStep j.id 128
            | none => k1
          let s2 := ((s.setCore r.k k2).countReads r ls.length).countLoss r.k j.id loss
          if ovf && !j.beyond then s2.raise r.pt r.c r.k ⟨fcAnchor, arrDetail a j.kind.place, 1, j.pc, 1 + a⟩ else s2
        settleIns s r (match checkRead s r 1 ls (.ok done) with
          | .fault fs => .fault (fs.map fun f => { f with pc := j.pc })
          | x => x)

/-! ### DRAIN_ROW_WRITE -/

/-- The columns' mask as a mask of the row's bytes: a byte is written when the column it belongs to is (R115, R237). -/
def rowByteMask (f : DrainF) (mask : BitVec 128) (b : Nat) : Bool := !mask.getLsbD (8 * b / (drainWidth f))

/-- The writes of `n` bytes into Bench lines from a byte address (R148). -/
def byteWrites (at' n : Nat) (data : Nat) (mask : Nat → Bool) (poison : Bool) : List BWrite :=
  if n = 0 then []
  else
    (List.range ((at' + n - 1) / 128 - at' / 128 + 1)).filterMap fun q =>
      let line := at' / 128 + q
      let here := fun b => decide (at' ≤ line * 128 + b) && decide (line * 128 + b < at' + n) &&
        mask (line * 128 + b - at')
      let m := (List.range 128).foldl (fun (m : BitVec 128) b => if here b then m ||| BitVec.twoPow 128 b else m) 0
      if m = 0 then none
      else
        let shifted := if line * 128 ≤ at' then data <<< (8 * (at' - line * 128)) else data >>> (8 * (line * 128 - at'))
        some ⟨line, BitVec.ofNat 1024 shifted, m, poison⟩

/-- The Bench writes of a drained row: the row itself for DEST 0, its tap record and its MX scales (R142, R143, R145). -/
def DqRow.writes (q : DqRow) : List BWrite :=
  (if q.f.dest = 0 then
    byteWrites ((q.dest.toNat % 2 ^ 16) * 128 + q.row * q.desc.pitch) (drainBytes q.f) q.out
      (rowByteMask q.f q.desc.mask) q.poison else []) ++
  (if q.f.tap then byteWrites (q.desc.tapLine * 128 + 16 * q.row) 16 q.tap.toNat (fun _ => true) q.poison else []) ++
  (if (drainMx q.f) then byteWrites (q.desc.mxLine * 128 + 4 * q.row) 4 q.mxScales.toNat
    (fun b => !q.desc.mask.getLsbD (32 * b)) q.poison else [])

/-- What a written row does beside its destination: the running maximum and the Crumb accumulator (R80, R81, R144), and
the Bench writes, all at the end of the cycle. -/
def DqRow.effects (q : DqRow) (a : Nat) : List (Nat × Act) :=
  (if q.f.clr && q.first then [(0, Act.mclear q.f.mr.toNat)] else []) ++
  [(2, .mjoin q.f.mr.toNat q.maxr)] ++
  (if q.f.crumb then [(2, .crumb q.f.ca.toNat q.crumb)] else []) ++
  q.writes.map fun w => (10 + a, .bench w)

/-- A row written to the DSS (R140 step 8): each line's bytes merged, poisoned with the row. -/
def State.dssWrite (s : State) (d : Nat) (ws : List BWrite) : State :=
  ws.foldl (fun s w =>
    let l := s.dssLine d w.line
    let whole := w.mask == BitVec.allOnes 128
    s.setDssLine d w.line
      ⟨BitVec.ofNat 1024 (mergeBytes l.data.toNat w.data.toNat 128 fun b => w.mask.getLsbD b),
        if whole then w.poison else l.poison || w.poison⟩) s

/-- The row has been written: it leaves the DQ with its effects. -/
def State.dqPop (s : State) (r : CoreRef) (a : Nat) (q : DqRow) : State :=
  s.updCore r.k fun k =>
    let k1 := k.setArray a { k.array a with dq := (k.array a).dq.drop 1 }
    let k2 := (q.effects a).foldl (fun k e => k.delay (s.cyc r) e.1 e.2) k1
    { k2 with wlines := k2.wlines + q.writes.length }

/-- A freeze of cause 10 ends as the head row of an array's DQ is written (R285). -/
def Part.awaitsDq (p : Part) (k a : Nat) : Bool := p.needs.any fun w => w.core == k && w.need == .dqHead a

/-- DRAIN_ROW_WRITE (R140, R150, R240, R241): the head row of an array's DQ, 24 cycles after its read; a row that writes the Bench
waits while its ports serve an earlier cycle. -/
def drainRowWrite (a : Nat) (s : State) (r : CoreRef) : State :=
  let k := s.core r.k
  match (k.array a).dq with
  | [] => s
  | q :: _ =>
    if !((s.part r.pt).advancing || (s.part r.pt).awaitsDq r.k a) || s.cyc r < q.readAt + 24 ||
        (!q.writes.isEmpty && (s.part r.pt).stall != 0) then s
    else
      match checkWrite s r (q.writes.map fun w => w.line) (.ok s) with
      | .ok _ =>
        if q.f.dest = 1 then
          (s.dqPop r a q).dssWrite (r.k / 26) (byteWrites (q.dest.toNat + q.row * q.desc.pitch) (drainBytes q.f) q.out
            (rowByteMask q.f q.desc.mask) q.poison)
        else if q.f.dest = 2 then
          match s.streamRow r (q.dest.toNat % 8) (drainBytes q.f) (drainWidth q.f) (drainMx q.f)
            ((List.range (drainBytes q.f)).map fun b =>
              if rowByteMask q.f q.desc.mask b then some (BitVec.ofNat 8 (q.out >>> (8 * b))) else none) q.poison with
          | (s1, none) => s1.dqPop r a q
          | (s1, some code) => s1.raise r.pt r.c r.k ⟨code, a + q.detail, 1, q.pc, 1 + a⟩
        else s.dqPop r a q
      | .wait ws => s.freeze r.pt (ws.map fun w => ⟨r.k, w, false, s.now⟩)
      | _ => s

/-! ### The rows -/

/-- DRAIN (R235, R239). -/
def execDrain (pt : Pt) (c : LCore) (a : ArrayNo) (bank : BitVec 1) (f : DrainF) (s : State) : Out :=
  runIns s pt c (insDrain a bank f s)
/-- DRAIN_ROW_READ (R239). -/
def execDrainRowRead (pt : Pt) (c : LCore) (a : ArrayNo) (s : State) : Out :=
  onCore s pt c fun r => drainRowRead a.toNat s r
/-- DRAIN_ROW_WRITE (R140). -/
def execDrainRowWrite (pt : Pt) (c : LCore) (a : ArrayNo) (s : State) : Out :=
  onCore s pt c fun r => drainRowWrite a.toNat s r
/-- PBDRAIN (R168). -/
def execPbdrain (pt : Pt) (c : LCore) (a : ArrayNo) (slot : BitVec 3) (f : DrainF) (s : State) : Out :=
  runIns s pt c (insPbdrain a slot f s)

end Sys2Proof.Machine
end

