-- ==== Sys2Proof/Machine/ProofBuffer.lean ====
section
/-! DEFINITION. The Proof Buffer (05_proof_buffer.md): FOLD, PBZERO, PBSPILL, PBLOAD, and the events FOLD_ROW_ADD,
PB_IMAGE_HEADER_ARRIVE, PB_SLOT_ROW_TRANSFER. -/

namespace Sys2Proof.Machine

/-! ### Order (R166, R172, R174, R175) -/

/-- The next instruction of R175 of this core is one that a re-run suppresses. -/
def Core.pbSuppressed (k : Core) : Bool := decide (k.pbIssued < k.pbSuppress)

/-- An instruction of R175 has issued. -/
def Core.pbCount (k : Core) : Core := { k with pbIssued := k.pbIssued + 1 }

/-- An instruction takes its place in the order of R174. -/
def Core.pbPush (k : Core) (id : Nat) (kind : PbKind) (slots : List Nat) (suppressed : Bool) : Core :=
  { k with pbOps := k.pbOps ++ [⟨id, kind, slots, false, 0, suppressed⟩], pbIssued := k.pbIssued + 1 }

/-! ### FOLD -/

/-- FOLD (R162, R174, R176, R238): it takes its place on the drain path and in the order of R174; its bank is SPENT for
every later instruction, and its checks fall in the cycle of its first row. -/
def insFold (a : ArrayNo) (bank : BitVec 1) (sa : BitVec 3) (sb : Option (BitVec 3)) (rt : BitVec 5) (s : State)
    (r : CoreRef) : InsRes :=
  let k := s.core r.k
  let ar := k.array a.toNat
  let b := bank.toNat
  let slots := sa.toNat :: (sb.map BitVec.toNat).toList
  if ar.pathFull (s.cyc r) then .hold
  else if !k.pbSuppressed && slots.any (fun i => (k.slot i).readMark) then
    insFault s r fcState 1 (arrDetail a.toNat b) (1 + a.toNat)
  else
    let tags := k.sreg rt.toNat
    let was := (ar.bank b).st
    let kind := DrainKind.fold b sa.toNat (sb.map BitVec.toNat) (tags.extractLsb' 0 32) (tags.extractLsb' 32 32) was
    let (id, k1) := k.fresh
    let job : DrainJob :=
      { id := id, kind := kind, issue := s.cyc r, f := ⟨0, false, 0, false, false, false, 0, 0, false, false, 0, 0, 0, 0⟩,
        desc := parseDrainDesc 0, dest := 0, bias := [], scale := [], biasPoison := false,
        scalePoison := false, seed := 0, step := 0, anchor := k.anchor a.toNat, next := 0, snap := none, pc := k.pc, beyond := false }
    let ar1 := ar.setBank b { ar.bank b with st := .spent }
    .ok (s.setCore r.k ((k1.setArray a.toNat { ar1 with jobs := ar.jobs ++ [job] }).pbPush id .fold slots k.pbSuppressed))

/-- The faults of R164 that a FOLD meets before its first row (R102); a FOLD of a ZERO bank passes (R165). -/
def foldFaults (k : Core) (a : Nat) (bank : Bank) (b sa : Nat) (sb : Option Nat) (tagA tagB : Word) (was : BankState)
    (pc : Nat) : List FaultInfo :=
  let f := fun code => (⟨code, arrDetail a b, 1, pc, 1 + a⟩ : FaultInfo)
  let named := (sa, tagA) :: (sb.map fun x => (x, tagB)).toList
  if was = .zero then []
  else
    (if named.any fun x => (k.slot x.1).tag != x.2 then [f fcTileTag] else []) ++
    (if was = .open ∧ named.any (fun x => match (k.slot x.1).anchor with
        | some v => bank.anchor != some v
        | none => false) then [f fcAnchor] else []) ++
    (if was = .spent ∨ sb = some sa ∨ (sb.isNone ∧ 128 < bank.top) then [f fcState] else [])

/-- A slot that a FOLD of an OPEN bank begins to add into (R98, R165). -/
def PbSlot.foldInto (v : PbSlot) (bank : Bank) : PbSlot :=
  let count := addCount v.count bank.count
  let v := { v with isOpen := true, anchor := v.anchor.or bank.anchor, count := count }
  if axCapacity < count then { v with rows := (List.range 128).map fun i => (i, ovfRow (smapGet [] v.rows i)) } else v

/-- One row added into a slot (R97, R162). -/
def Core.foldRow (k : Core) (slot row : Nat) (src : AxRow) : Core :=
  let v := k.slot slot
  k.setSlot slot { v with rows := smapSet [] v.rows row (normRow (addRows (smapGet [] v.rows row) src)) }

/-- The bank of a FOLD that fails its checks has the state it had (R164). -/
def Core.unspend (k : Core) (a : Nat) (j : DrainJob) (b : Nat) (was : BankState) : Core :=
  let ar := k.array a
  if j.snap.isSome then k else k.setArray a (ar.setBank b { ar.bank b with st := was })

/-- A FOLD before its first row: the core with its slots bound, and the faults of R164 or of R98. -/
def foldBegin (k : Core) (a : Nat) (j : DrainJob) (suppressed : Bool) : Core × List FaultInfo :=
  match j.kind with
  | .fold b sa sb tagA tagB was =>
    let bank := j.snap.getD ((k.array a).bank b)
    let faults := if suppressed then [] else foldFaults k a bank b sa sb tagA tagB was j.pc
    if !faults.isEmpty then (k.unspend a j b was, faults)
    else if suppressed ∨ was ≠ .open then (k, [])
    else
      let k1 := (sa :: sb.toList).foldl (fun k x => k.setSlot x ((k.slot x).foldInto bank)) k
      (k1, if (sa :: sb.toList).any fun x => decide (axCapacity < (k1.slot x).count) then
        [⟨fcAnchor, arrDetail a b, 1, j.pc, 1 + a⟩] else [])
  | _ => (k, [])

/-- FOLD_ROW_ADD (R163, R164, R166, R174, R458): the FOLD at the head of an array's drain path adds its next row. -/
def foldRowAdd (a : Nat) (s : State) (r : CoreRef) : State :=
  let k := s.core r.k
  match (k.array a).jobs with
  | [] => s
  | j :: _ =>
    match j.kind, j.slotRow with
    | .fold _ _ _ _ _ was, some (slot, row) =>
      let suppressed := k.pbOps.any fun o => o.id == j.id && o.suppressed
      if !(s.part r.pt).advancing || !drainMayRead k a j (s.cyc r) then s
      else
        let (src, anchor, suspect) := drainSource k a j
        if j.next = 0 && suspect then s.abandonTile r.pt (srcCore r.k (1 + a))
        else
          let (k1, faults) := if j.next = 0 then foldBegin k a j suppressed else (k, [])
          if !faults.isEmpty then (s.setCore r.k k1).raiseAll r faults
          else
            let k2 := if suppressed || was != .open then k1 else k1.foldRow slot row src
            let rows := drainRows k a j
            let k3 := k2.setArray a ((k2.array a).readRow j rows anchor (s.cyc r))
            s.setCore r.k ((k3.takePort slot (s.cyc r)).pbStep j.id rows)
    | _, _ => s

/-! ### PBZERO, PBSPILL, PBLOAD -/

/-- A fault of a Proof Buffer instruction that names a slot. -/
def faultPb (s : State) (r : CoreRef) (code slot : Nat) : InsRes := insFault s r code 1 (arrDetail 0 slot) 6

/-- PBZERO (R168, R172, R174 to R176). -/
def insPbzero (slot : BitVec 3) (rt : BitVec 5) (s : State) (r : CoreRef) : InsRes :=
  let k := s.core r.k
  if k.pbSuppressed then .ok (s.updCore r.k Core.pbCount)
  else if (k.slot slot.toNat).readMark then faultPb s r fcState slot.toNat
  else
    let (id, k1) := k.fresh
    let k2 := k1.pbPush id (.zero ((k.sreg rt.toNat).extractLsb' 0 32)) [slot.toNat] false
    .ok (s.setCore r.k k2.pbSettle)

/-- The bytes of a spill image (R167). -/
def imageBytes : Nat := 278784

/-- The image lies in the host region, 256-aligned (R167, R224, R350). -/
def imageOk (s : State) (addr : Nat) : Bool := decide (addr % 256 = 0) && decide (addr + imageBytes ≤ s.mem.hostTop)

/-- The common part of PBSPILL and PBLOAD (R171, R175, R176, R224, R263): a descriptor in the engine's queue. -/
def insImage (kind : DescKind) (op : PbKind) (slot eng : BitVec 3) (ri : BitVec 5) (tag : Word) (s : State)
    (r : CoreRef) : InsRes :=
  let k := s.core r.k
  let addr := (k.sreg ri.toNat).toNat
  let d := r.k / 26
  let e := s.serving d eng.toNat
  if k.pbSuppressed then .ok (s.updCore r.k Core.pbCount)
  else if !imageOk s addr then faultPb s r fcRange slot.toNat
  else if (k.slot slot.toNat).readMark then faultPb s r fcState slot.toNat
  else if 32 ≤ (s.engine d e).queue.length then .wait [.peelQueue e]
  else
    let (id, k1) := k.fresh
    let (x, k2) := k1.accept (.pbufImage e) [] [] 0 0 0
    let k3 := k2.pbPush id op [slot.toNat] false
    let desc := { peelDesc ⟨0, 0, 0, 0, addr, 0, 0, 0, 0, 0⟩ r.pt r.k x k.pc with
      kind := kind, slot := slot.toNat, op := id, tag := tag }
    .ok ((s.setCore r.k k3).updEngine d e fun g => g.push s.now desc)

/-- PBSPILL.W (R168). -/
def insPbspillW (slot eng : BitVec 3) (ri : BitVec 5) (s : State) (r : CoreRef) : InsRes :=
  insImage .spillW .spillW slot eng ri 0 s r

/-- PBSPILL.A (R168). -/
def insPbspillA (slot eng : BitVec 3) (ri : BitVec 5) (s : State) (r : CoreRef) : InsRes :=
  insImage .spillA .spillA slot eng ri 0 s r

/-- PBLOAD (R168). -/
def insPbload (slot eng : BitVec 3) (ri rt : BitVec 5) (s : State) (r : CoreRef) : InsRes :=
  let tag := ((s.core r.k).sreg rt.toNat).extractLsb' 0 32
  insImage .load (.load tag) slot eng ri tag s r

/-! ### The image as its engine moves it -/

/-- The logical core of a physical one in its partition. -/
def State.logical (s : State) (n k : Nat) : Nat := ((s.coresOf n).find? fun e => e.2 == k).map Prod.fst |>.getD 0

/-- The anchor field of an image (R91, R167): `none` where it is neither 0x8000 nor within −512 to +511 (R169). -/
def imageAnchor (field : Nat) : Option (Option Int) :=
  if field = 0x8000 then some none
  else
    let a := (BitVec.ofNat 16 field).toInt
    if -512 ≤ a ∧ a ≤ 511 then some (some a) else none

/-- The faults that a header meets (R168, R169): a PBLOAD of an OPEN slot fails, a poisoned header or not (R170). -/
def headerFaults (d : PeelDesc) (v : PbSlot) (poisoned : Bool) (anchor : Option (Option Int)) (tag : Word) : List Nat :=
  match d.kind with
  | .load =>
    (if !poisoned ∧ tag ≠ d.tag then [fcTileTag] else []) ++ (if !poisoned ∧ anchor = none then [fcAnchor] else []) ++
      (if v.isOpen then [fcState] else [])
  | _ =>
    if poisoned then []
    else
      (if tag ≠ v.tag then [fcTileTag] else []) ++
        (match anchor, v.anchor with
        | none, _ => [fcAnchor]
        | some (some x), some y => if x = y then [] else [fcAnchor]
        | _, _ => [])

/-- The fault of an image's instruction. -/
def imageFault (code : Nat) (d : PeelDesc) : FaultInfo := ⟨code, arrDetail 0 d.slot, 1, d.pc, 6⟩

/-- The header is read once the slot's earlier instructions have been handled (R172), by a PBLOAD or by a PBSPILL.A of an
OPEN slot (R168). -/
def State.headerDue (s : State) (d : PeelDesc) : Bool :=
  let k := s.core d.core
  d.started && !d.headerOk && pbMayBegin k d.op && !pbEarlier k d.slot 127 d.op &&
    match d.kind with
    | .load => true
    | .spillA => (k.slot d.slot).isOpen
    | _ => false

/-- PB_IMAGE_HEADER_ARRIVE (R169, R170): a transfer whose check fails ends. An image with a poisoned header counts 0 addends, for a
PBSPILL.A too (DESIGN CHOICE, log 49: R170 says so of PBLOAD alone). -/
def pbHeaderArrive (d e idx : Nat) (s : State) : State :=
  match (s.engine d e).queue[idx]? with
  | none => s
  | some x =>
    if !s.headerDue x then s
    else
      let v := (s.core x.core).slot x.slot
      let poisoned := s.mem.linePoison (x.addr / 256)
      let anchor := imageAnchor (s.mem.field x.addr 2)
      let tag : Word := BitVec.ofNat 32 (s.mem.field (x.addr + 4) 4)
      let count := s.mem.field (x.addr + 8) 8
      let ok := fun (a : Option Int) (n : Nat) (psn : Bool) =>
        s.updDesc d e x.core x.xfer fun y => { y with headerOk := true, headerPoison := psn, imgAnchor := a, imgCount := n }
      let faults := (headerFaults x v poisoned anchor tag).map fun code => imageFault code x
      if !faults.isEmpty then (s.dropDesc e x).raiseAll ⟨x.pt, s.logical x.pt x.core, x.core⟩ faults
      else if poisoned then ok none 0 true
      else ok (anchor.getD none) count false

/-- The entries of an image row, with the poison of its lines and header (R91, R170). -/
def State.imageRow (s : State) (d : PeelDesc) (row : Nat) : List (BitVec 128 × AxFlags) :=
  (List.range 128).map fun c =>
    let i := d.addr + 64 + 16 * (128 * row + c)
    let f := d.addr + 262208 + 128 * row + c
    let psn := d.headerPoison || s.mem.linePoison (i / 256) || s.mem.linePoison (f / 256)
    let fl := AxFlags.ofBits (BitVec.ofNat 5 (s.mem.field f 1))
    (BitVec.ofNat 128 (s.mem.field i 16), { fl with psn := fl.psn || psn })

/-- The bytes of an image row: its 128 integers, then its 128 flag bytes. -/
def imageRowBytes (es : List (BitVec 128 × AxFlags)) : List Byte :=
  es.flatMap (fun e => natBytes 16 e.1.toNat) ++ es.map fun e => BitVec.ofNat 8 e.2.bits.toNat

/-- A slot's row as AX128 (R88). -/
def slotRow128 (v : PbSlot) (row : Nat) : List (BitVec 128 × AxFlags) :=
  (List.range 128).map fun c => let x := rowAt (smapGet [] v.rows row) c; (x.i.signExtend 128, x.fl)

/-- Two AX128 rows added (R97). -/
def addRows128 (a b : List (BitVec 128 × AxFlags)) : List (BitVec 128 × AxFlags) :=
  List.zipWith (fun x y => (x.1 + y.1, x.2.or y.2)) a b

/-- A row of an image narrowed into a slot (R99). -/
def narrowRow (es : List (BitVec 128 × AxFlags)) : AxRow := es.map fun e => ⟨e.1.setWidth 80, e.2⟩

/-- A row of an image loaded into a slot: one whose count is beyond the capacity has OVF set in every entry (R99). -/
def loadedRow (d : PeelDesc) (es : AxRow) : AxRow := if axCapacity < d.imgCount then es.map fun x => x.setOvf else es

/-- The slot after a row of a PBLOAD: the header comes with the first row, and the last decides an unbound one, unless a later
instruction clears the slot behind it (R168, R170). A slot that an unbound image leaves ZERO keeps the header's count and the loaded
entries (DESIGN CHOICE, log 49: R160 and R170 differ). -/
def PbSlot.loadRow (v : PbSlot) (d : PeelDesc) (row : Nat) (es : AxRow) (cleared : Bool) : PbSlot :=
  let v := if row = 0 then
      { v with tag := d.tag, anchor := d.imgAnchor, count := min d.imgCount 0xFFFF_FFFF, isOpen := d.imgAnchor.isSome }
    else v
  let v := { v with rows := smapSet [] v.rows row (normRow es) }
  if row = 127 ∧ !cleared then { v with isOpen := v.isOpen || d.headerPoison || d.imgPsn } else v

/-- The bytes of the image that a spill writes (R91, R167). -/
def PeelDesc.image (d : PeelDesc) : List Byte :=
  let anchor := match d.imgAnchor with
    | some a => (BitVec.ofInt 16 a).toNat
    | none => 0x8000
  let row := fun i => ((d.data.find? fun e => e.1 == i).map fun e => e.2.1).getD []
  natBytes 2 anchor ++ natBytes 2 0 ++ natBytes 4 d.tag.toNat ++ natBytes 8 d.imgCount ++ natBytes 48 0 ++
    ((List.range 128).flatMap fun i => (row i).take 2048) ++ ((List.range 128).flatMap fun i => (row i).drop 2048) ++
    natBytes 192 0

/-- A later-issued PBZERO or PBSPILL.W has begun to clear a slot. -/
def pbCleared (k : Core) (slot id : Nat) : Bool :=
  k.pbOps.any fun o => decide (id < o.id) && o.slots.contains slot && o.begun &&
    match o.kind with
    | .zero _ => true
    | .spillW => true
    | _ => false

/-- A slot row that a spill has read, cleared behind it, and the header with the first (R168, R172). -/
def PbSlot.spillRow (v : PbSlot) (row : Nat) : PbSlot := (if row = 0 then v.clearHead v.tag else v).clearRows row (row + 1)

/-- A slot row of a spill in its descriptor: with the first, the header that the image takes (R99, R168 to R170). The
64-bit addend count of the image saturates, and an image whose header was poisoned counts 0 (DESIGN CHOICE, log 49). -/
def PeelDesc.keepRow (d : PeelDesc) (v : PbSlot) (row : Nat) (bytes : List Byte) : PeelDesc :=
  { d with
      data := d.data ++ [(row, bytes, false)]
      tag := if row = 0 then v.tag else d.tag
      imgAnchor := if row = 0 then v.anchor else d.imgAnchor
      imgCount := if row = 0 then min (d.imgCount + v.count) (2 ^ 64 - 1) else d.imgCount }

/-- PB_SLOT_ROW_TRANSFER (R99, R166, R168, R170 to R172): the next slot row of an image transfer. A spill writes its image with the
last. -/
def pbRowTransfer (d e idx : Nat) (s : State) : State :=
  match (s.engine d e).queue[idx]? with
  | none => s
  | some x =>
    let k := s.core x.core
    let v := k.slot x.slot
    let row := x.received
    let cyc := (s.part x.pt).cyc
    if !x.started || decide (128 ≤ row) || !pbMayBegin k x.op || pbEarlier k x.slot row x.op ||
        (k.portBusy x.slot cyc && !(s.part x.pt).frozen) then s
    else
      let done := fun (slot : PbSlot) (f : PeelDesc → PeelDesc) =>
        ((s.updCore x.core fun k => ((k.setSlot x.slot slot).takePort x.slot cyc).pbStep x.op 128).updDesc d e x.core x.xfer fun y =>
          { f y with received := y.received + 1 }).beatEngine d e
      let spill := fun (bytes : List Byte) =>
        let s1 := done (v.spillRow row) fun y => y.keepRow v row bytes
        if row = 127 then s1.memPut x.addr (x.keepRow v row bytes).image else s1
      match x.kind with
      | .spillW => spill (imageRowBytes (slotRow128 v row))
      | .spillA =>
        if !v.isOpen && row == 0 then
          if pbEarlier k x.slot 127 x.op then s
          else
            (s.updCore x.core fun k =>
              { k.setSlot x.slot ((v.clearHead v.tag).clearRows 0 128) with pbOps := k.pbOps.filter fun o => o.id != x.op }.pbSettle).updDesc
              d e x.core x.xfer fun y => { y with received := 128 }
        else if !x.headerOk then s
        else spill (imageRowBytes (addRows128 (s.imageRow x row) (slotRow128 v row)))
      | .load =>
        if !x.headerOk then s
        else
          let es := loadedRow x (narrowRow (s.imageRow x row))
          let psn := x.imgPsn || es.any fun y => y.fl.psn
          let s1 := done (v.loadRow { x with imgPsn := psn } row es (pbCleared k x.slot x.op)) fun y => { y with imgPsn := psn }
          if row = 0 ∧ axCapacity < x.imgCount then
            s1.raiseAll ⟨x.pt, s.logical x.pt x.core, x.core⟩ [imageFault fcAnchor x]
          else s1
      | _ => s

/-- PEEL_TRANSFER_COMPLETE (R171, R630): an image transfer completes once its last row has moved. -/
def transferComplete (d e idx : Nat) (s : State) : State :=
  match (s.engine d e).queue[idx]? with
  | none => s
  | some x =>
    match x.kind with
    | .spillW | .spillA | .load => if x.started ∧ x.received = 128 then s.dropDesc e x else s
    | _ => s.completePeel e x

/-! ### The rows -/

/-- FOLD (R162). -/
def execFold (pt : Pt) (c : LCore) (a : ArrayNo) (bank : BitVec 1) (sa : BitVec 3) (sb : Option (BitVec 3))
    (rt : BitVec 5) (s : State) : Out := runIns s pt c (insFold a bank sa sb rt s)
/-- FOLD_ROW_ADD (R166). -/
def execFoldRowAdd (pt : Pt) (c : LCore) (a : ArrayNo) (s : State) : Out :=
  onCore s pt c fun r => foldRowAdd a.toNat s r
/-- PBZERO (R168). -/
def execPbzero (pt : Pt) (c : LCore) (slot : BitVec 3) (rt : BitVec 5) (s : State) : Out :=
  runIns s pt c (insPbzero slot rt s)
/-- PBSPILL.W (R168). -/
def execPbspillW (pt : Pt) (c : LCore) (slot eng : BitVec 3) (ri : BitVec 5) (s : State) : Out :=
  runIns s pt c (insPbspillW slot eng ri s)
/-- PBSPILL.A (R168). -/
def execPbspillA (pt : Pt) (c : LCore) (slot eng : BitVec 3) (ri : BitVec 5) (s : State) : Out :=
  runIns s pt c (insPbspillA slot eng ri s)
/-- PBLOAD (R168). -/
def execPbload (pt : Pt) (c : LCore) (slot eng : BitVec 3) (ri rt : BitVec 5) (s : State) : Out :=
  runIns s pt c (insPbload slot eng ri rt s)
/-- PB_IMAGE_HEADER_ARRIVE (R169). -/
def execPbImageHeaderArrive (die : DieNo) (eng : EngNo) (idx : BitVec 5) (s : State) : Out :=
  .next (pbHeaderArrive die.toNat eng.toNat idx.toNat s)
/-- PB_SLOT_ROW_TRANSFER (R171). -/
def execPbSlotRowTransfer (die : DieNo) (eng : EngNo) (idx : BitVec 5) (s : State) : Out :=
  .next (pbRowTransfer die.toNat eng.toNat idx.toNat s)
/-- PEEL_TRANSFER_COMPLETE (R630). -/
def execPeelTransferComplete (die : DieNo) (eng : EngNo) (idx : BitVec 5) (s : State) : Out :=
  .next (transferComplete die.toNat eng.toNat idx.toNat s)

end Sys2Proof.Machine
end

