-- ==== Sys2Proof/Machine/Flags.lean ====
section
/-! DEFINITION. The conditions of CMP and VCMP (R208, R250). The five flags of an anchored value stand in Grid.lean. -/

namespace Sys2Proof.Machine

/-- A condition of R208 on two integers of one width: 0 EQ, 1 NE, 2 LT, 3 LE, 4 GT, 5 GE signed; 6 LTU, 7 GEU. -/
def condInt {w : Nat} (cond : Nat) (a b : BitVec w) : Bool :=
  match cond with
  | 0 => a == b
  | 1 => a != b
  | 2 => a.slt b
  | 3 => a.sle b
  | 4 => b.slt a
  | 5 => b.sle a
  | 6 => a.ult b
  | _ => b.ule a

/-- A condition of R250 on two floating-point values: with a NaN operand only NE holds; zeros of both signs are equal. -/
def condNum (cond : Nat) (a b : Num) : Bool :=
  if a.isNan || b.isNan then cond == 1
  else
    match cond with
    | 0 => a.eqv b
    | 1 => !a.eqv b
    | 2 => a.lt b
    | 3 => !b.lt a
    | 4 => b.lt a
    | 5 => !a.lt b
    | _ => false

end Sys2Proof.Machine
end

