-- ==== Sys2Proof/Machine/Scalar.lean ====
section
/-! DEFINITION. The C slot (06_fiard_bundles.md, R206 to R217). Each instruction is a function of the core that issues
it; its row of the table is that function at the core's present program cycle. -/

namespace Sys2Proof.Machine

/-- The operations of R207. -/
inductive AluOp where
  | add | sub | and | or | xor | shl | shr | shrA | mul
deriving DecidableEq, Repr

/-- The result of an operation of R207. -/
def aluResult (op : AluOp) (a b : DWord) : DWord :=
  let sh := b.toNat % 64
  match op with
  | .add => a + b
  | .sub => a - b
  | .and => a &&& b
  | .or => a ||| b
  | .xor => a ^^^ b
  | .shl => a <<< sh
  | .shr => a >>> sh
  | .shrA => a.sshiftRight sh
  | .mul => a * b

/-- The latency of an operation (R206). -/
def aluLat : AluOp → Nat
  | .mul => 3
  | _ => 1

/-- A write through a specifier after a latency (R184, R185). -/
def writeSpec (s : State) (r : CoreRef) (lat : Nat) (rd : BitVec 6) (v : DWord) : InsRes :=
  .ok (s.delay r lat 1 (specWrite rd v))

/-- An illegal instruction in the C slot (R182). -/
def illegalC (s : State) (r : CoreRef) : InsRes := insFault s r fcIllegal 0 0 0

/-- The arithmetic, logic and shift instructions (R207). -/
def insAlu (op : AluOp) (rd ra : BitVec 6) (b : Src2) (s : State) (r : CoreRef) : InsRes :=
  if specOk rd && specOk ra && src2Ok b then
    let k := s.core r.k
    writeSpec s r (aluLat op) rd (aluResult op (k.readSpec ra) (k.src2 b))
  else illegalC s r

/-- LI (R209). -/
def insLi (rd : BitVec 6) (h : Bool) (imm : BitVec 41) (s : State) (r : CoreRef) : InsRes :=
  if specOk rd then
    writeSpec s r 1 rd
      (if h then imm.extractLsb' 0 32 ++ ((s.core r.k).readSpec rd).extractLsb' 0 32 else imm.signExtend 64)
  else illegalC s r

/-- CMP (R208). -/
def insCmp (pd cond : BitVec 3) (ra : BitVec 6) (b : Src2) (s : State) (r : CoreRef) : InsRes :=
  if specOk ra && src2Ok b then
    let k := s.core r.k
    .ok (s.delay r 1 1 (.pred pd.toNat (condInt cond.toNat (k.readSpec ra) (k.src2 b))))
  else illegalC s r

/-- A PC within the program that the kernel descriptor gives (R182). -/
def inProgram (k : Core) (t : Int) : Bool := decide (0 ≤ t) && decide (t < k.progLen)

/-- A branch target is allowed (R198): within the body of the innermost active loop, or within the program where none is active. -/
def targetOk (k : Core) (t : Int) : Bool :=
  match k.loops with
  | [] => inProgram k t
  | f :: _ => decide ((f.start : Int) ≤ t) && decide (t ≤ f.last)

/-- BRP (R194, R198, R210): the next bundle issues 3 cycles later, at the target or the one after the BRP. -/
def insBrp (p : BitVec 3) (inv : Bool) (off : BitVec 20) (s : State) (r : CoreRef) : InsRes :=
  let k := s.core r.k
  let t := (k.pc : Int) + off.toInt
  if targetOk k t then
    let taken := k.pred p.toNat != inv
    .ok (s.updCore r.k fun k =>
      { k with pc := if taken then t.toNat else k.pc + 1, nextAt := s.cyc r + 3, inBrp := true })
  else illegalC s r

/-- The count of a LOOP (R199, R211). -/
def loopCount (k : Core) : LoopCount → Option Nat
  | .imm v => some v.toNat
  | .reg r => if specOk r then
      let v := (k.readSpec r).toNat
      if v < 2 ^ 32 then some v else none
    else none

/-- LOOP (R195, R197, R199, R211). -/
def insLoop (len : BitVec 16) (count : LoopCount) (s : State) (r : CoreRef) : InsRes :=
  let k := s.core r.k
  match loopCount k count with
  | none => illegalC s r
  | some n =>
    if len.toNat = 0 ∨ 8191 < len.toNat ∨ k.loops.length ≥ 4 then illegalC s r
    else
      .ok (s.updCore r.k fun k =>
        if n = 0 then { k with pc := k.pc + 1 + len.toNat, nextAt := s.cyc r + 1, inBrp := false }
        else { k with pc := k.pc + 1, nextAt := s.cyc r + 1, inBrp := false, loops := ⟨k.pc + 1, k.pc + len.toNat, n⟩ :: k.loops })

/-- TILE (R201, R203): the core settles; a budget above 100,000 ns is illegal, and 0 means 20,000. -/
def insTile (budget : BitVec 17) (s : State) (r : CoreRef) : InsRes :=
  if 100000 < budget.toNat then illegalC s r
  else .ok (s.updCore r.k fun k =>
    { k with pc := k.pc + 1, nextAt := s.cyc r + 1
             seq := .settling false (if budget = 0 then 20000 else budget.toNat) k.pc })

/-- HALT (R212). -/
def insHalt (s : State) (r : CoreRef) : InsRes :=
  .ok (s.updCore r.k fun k => { k with pc := k.pc + 1, nextAt := s.cyc r + 1, seq := .settling true 0 k.pc })

/-- TRAP (R213): the fault is raised and the other slots of its bundle issue. -/
def insTrap (code : Byte) (s : State) (r : CoreRef) : InsRes := .okWith s [insInfo s r fcTrap 0 code.toNat 0]

/-- The anchor that ANC forms (R110, R111). -/
def ancValue (x y : MaxReg) (delta : BitVec 4) : Int :=
  clampAnchor (magExponent x.mag + magExponent y.mag + 1 + delta.toInt)

/-- ANC (R214): latency 2. -/
def insAnc (a mx my : BitVec 2) (delta : BitVec 4) (s : State) (r : CoreRef) : InsRes :=
  let k := s.core r.k
  .ok (s.delay r 2 1 (.anchor a.toNat (ancValue (k.mreg mx.toNat) (k.mreg my.toNat) delta)))

/-- STEPR.R (R215). -/
def insSteprR (rd : BitVec 6) (s : State) (r : CoreRef) : InsRes :=
  if specOk rd then writeSpec s r 1 rd ((s.core r.k).step.setWidth 64) else illegalC s r

/-- STEPR.W (R215). -/
def insSteprW (ra : BitVec 6) (s : State) (r : CoreRef) : InsRes :=
  if specOk ra then .ok (s.delay r 1 1 (.step (((s.core r.k).readSpec ra).extractLsb' 0 32))) else illegalC s r

/-- STEPR.INC (R215). -/
def insSteprInc (s : State) (r : CoreRef) : InsRes := .ok (s.delay r 1 1 (.step ((s.core r.k).step + 1)))

/-- SEEDR.R (R215). -/
def insSeedrR (rd : BitVec 6) (s : State) (r : CoreRef) : InsRes :=
  if specOk rd then writeSpec s r 1 rd (s.core r.k).seed else illegalC s r

/-- SEEDR.W (R215). -/
def insSeedrW (ra : BitVec 6) (s : State) (r : CoreRef) : InsRes :=
  if specOk ra then .ok (s.delay r 1 1 (.seed ((s.core r.k).readSpec ra))) else illegalC s r

/-- GTBR (R216). -/
def insGtbr (rd : BitVec 6) (s : State) (r : CoreRef) : InsRes :=
  if specOk rd then
    let (v, s') := s.gtbView
    writeSpec s' r 1 rd v
  else illegalC s r

/-- A heartbeat of a core (R205, R483). -/
def Core.beat (k : Core) (now : Nat) : Core := { k with lastBeat := now }

/-- HBEAT (R217). -/
def insHbeat (progress : BitVec 16) (s : State) (r : CoreRef) : InsRes :=
  .ok (s.updCore r.k fun k => { k.beat s.now with progress := progress })

/-! ### The rows -/

/-- NOP (R206). -/
def execNop (pt : Pt) (c : LCore) (s : State) : Out := runIns s pt c fun _ => .ok s
/-- LI (R209). -/
def execLi (pt : Pt) (c : LCore) (rd : BitVec 6) (h : Bool) (imm : BitVec 41) (s : State) : Out :=
  runIns s pt c (insLi rd h imm s)
/-- ADD (R207). -/
def execAdd (pt : Pt) (c : LCore) (rd ra : BitVec 6) (b : Src2) (s : State) : Out :=
  runIns s pt c (insAlu .add rd ra b s)
/-- SUB (R207). -/
def execSub (pt : Pt) (c : LCore) (rd ra : BitVec 6) (b : Src2) (s : State) : Out :=
  runIns s pt c (insAlu .sub rd ra b s)
/-- AND (R207). -/
def execAnd (pt : Pt) (c : LCore) (rd ra : BitVec 6) (b : Src2) (s : State) : Out :=
  runIns s pt c (insAlu .and rd ra b s)
/-- OR (R207). -/
def execOr (pt : Pt) (c : LCore) (rd ra : BitVec 6) (b : Src2) (s : State) : Out :=
  runIns s pt c (insAlu .or rd ra b s)
/-- XOR (R207). -/
def execXor (pt : Pt) (c : LCore) (rd ra : BitVec 6) (b : Src2) (s : State) : Out :=
  runIns s pt c (insAlu .xor rd ra b s)
/-- SHL (R207). -/
def execShl (pt : Pt) (c : LCore) (rd ra : BitVec 6) (b : Src2) (s : State) : Out :=
  runIns s pt c (insAlu .shl rd ra b s)
/-- SHR (R207). -/
def execShr (pt : Pt) (c : LCore) (rd ra : BitVec 6) (b : Src2) (s : State) : Out :=
  runIns s pt c (insAlu .shr rd ra b s)
/-- SHR.A (R207). -/
def execShrA (pt : Pt) (c : LCore) (rd ra : BitVec 6) (b : Src2) (s : State) : Out :=
  runIns s pt c (insAlu .shrA rd ra b s)
/-- MUL (R207). -/
def execMul (pt : Pt) (c : LCore) (rd ra : BitVec 6) (b : Src2) (s : State) : Out :=
  runIns s pt c (insAlu .mul rd ra b s)
/-- CMP (R208). -/
def execCmp (pt : Pt) (c : LCore) (pd cond : BitVec 3) (ra : BitVec 6) (b : Src2) (s : State) : Out :=
  runIns s pt c (insCmp pd cond ra b s)
/-- BRP (R194, R210). -/
def execBrp (pt : Pt) (c : LCore) (p : BitVec 3) (inv : Bool) (off : BitVec 20) (s : State) : Out :=
  runIns s pt c (insBrp p inv off s)
/-- LOOP (R195, R211). -/
def execLoop (pt : Pt) (c : LCore) (len : BitVec 16) (count : LoopCount) (s : State) : Out :=
  runIns s pt c (insLoop len count s)
/-- TILE (R201). -/
def execTile (pt : Pt) (c : LCore) (budget : BitVec 17) (s : State) : Out := runIns s pt c (insTile budget s)
/-- HALT (R212). -/
def execHalt (pt : Pt) (c : LCore) (s : State) : Out := runIns s pt c (insHalt s)
/-- TRAP (R213). -/
def execTrap (pt : Pt) (c : LCore) (code : Byte) (s : State) : Out := runIns s pt c (insTrap code s)
/-- ANC (R214). -/
def execAnc (pt : Pt) (c : LCore) (a mx my : BitVec 2) (delta : BitVec 4) (s : State) : Out :=
  runIns s pt c (insAnc a mx my delta s)
/-- STEPR.R (R215). -/
def execSteprR (pt : Pt) (c : LCore) (rd : BitVec 6) (s : State) : Out := runIns s pt c (insSteprR rd s)
/-- STEPR.W (R215). -/
def execSteprW (pt : Pt) (c : LCore) (ra : BitVec 6) (s : State) : Out := runIns s pt c (insSteprW ra s)
/-- STEPR.INC (R215). -/
def execSteprInc (pt : Pt) (c : LCore) (s : State) : Out := runIns s pt c (insSteprInc s)
/-- SEEDR.R (R215). -/
def execSeedrR (pt : Pt) (c : LCore) (rd : BitVec 6) (s : State) : Out := runIns s pt c (insSeedrR rd s)
/-- SEEDR.W (R215). -/
def execSeedrW (pt : Pt) (c : LCore) (ra : BitVec 6) (s : State) : Out := runIns s pt c (insSeedrW ra s)
/-- GTBR (R216). -/
def execGtbr (pt : Pt) (c : LCore) (rd : BitVec 6) (s : State) : Out := runIns s pt c (insGtbr rd s)
/-- HBEAT (R217). -/
def execHbeat (pt : Pt) (c : LCore) (progress : BitVec 16) (s : State) : Out := runIns s pt c (insHbeat progress s)

end Sys2Proof.Machine
end

