-- ==== Sys2Proof/Machine/Vector.lean ====
section
/-! DEFINITION. The V slot (07_fiard_compute.md, R246 to R262, timing of R279). -/

namespace Sys2Proof.Machine

/-! ### Elements of a register (R247) -/

/-- The 256 lanes. -/
def lanes (v : VWord) : List Word := (List.range 256).map fun i => v.extractLsb' (32 * i) 32

/-- The 128 FP64 elements. -/
def dlanes (v : VWord) : List DWord := (List.range 128).map fun i => v.extractLsb' (64 * i) 64

/-- A register of packed elements of width `w`; unused bytes are zero. -/
def ofElems (w : Nat) (xs : List Nat) : VWord := BitVec.ofNat 8192 (packElems w xs)

/-- A register of lanes. -/
def ofLanes (xs : List Word) : VWord := ofElems 32 (xs.map BitVec.toNat)

/-- A register of FP64 elements. -/
def ofDlanes (xs : List DWord) : VWord := ofElems 64 (xs.map BitVec.toNat)

/-! ### Issue on the vector unit -/

/-- A fault of a V-slot instruction. -/
def faultV (s : State) (r : CoreRef) (code : Nat) : InsRes := insFault s r code 2 0 5

/-- The unit is free, or the partition holds (R279); an instruction that issues occupies it for `occ` cycles. -/
def vUnit (s : State) (r : CoreRef) (occ : Nat) (go : State → InsRes) : InsRes :=
  if s.cyc r < (s.core r.k).vBusy then .hold
  else go (s.updCore r.k fun k => { k with vBusy := s.cyc r + occ })

/-- A write of a whole register after a latency (R185, R247). -/
def writeV (s : State) (r : CoreRef) (lat : Nat) (vd : BitVec 6) (bits : VWord) (poison : Bool) : InsRes :=
  .ok (s.delay r lat 1 (.vreg vd.toNat ⟨bits, poison⟩))

/-- A vector register of a core. -/
def State.v (s : State) (r : CoreRef) (i : BitVec 6) : VReg := (s.core r.k).vreg i.toNat

/-! ### VLD and VST (R248) -/

/-- The lines of a part. -/
def partLines (part : Nat) : Nat := if part = 0 then 8 else 4

/-- The VLDs of a core whose data has not returned. -/
def Core.vldsOut (k : Core) : Nat :=
  (k.writes.filter fun w => match w.act with
    | .vload .. => true
    | _ => false).length

/-- VLD (R222, R224, R225, R248). -/
def insVld (vd : BitVec 6) (rs : BitVec 5) (part : BitVec 2) (s : State) (r : CoreRef) : InsRes :=
  vUnit s r 1 fun s =>
    let k := s.core r.k
    let l := k.lineOf rs
    let n := partLines part.toNat
    if part = 3 then faultV s r fcIllegal
    else
      let ls := lineRun l n
      let bits : VWord := BitVec.ofNat 8192 (linesNat (ls.map fun i => (k.line i).data))
      let faults := (if 8 ≤ k.vldsOut then [insInfo s r fcOverflow 2 0 5] else []) ++
        (if 65536 < l + n then [insInfo s r fcRange 2 0 5] else [])
      checkReadWith s r 2 faults (ls.filter fun i => decide (i < 65536)) <|
        .ok ((s.delay r 6 1 (.vload vd.toNat part.toNat bits (ls.any fun i => (k.line i).poison))).countReads r n)

/-- VST (R146, R149, R224, R247, R248): its lines are written at the end of the issue cycle. -/
def insVst (va : BitVec 6) (rs : BitVec 5) (part : BitVec 2) (s : State) (r : CoreRef) : InsRes :=
  vUnit s r 1 fun s =>
    let l := (s.core r.k).lineOf rs
    let n := partLines part.toNat
    let v := s.v r va
    let first := if part = 2 then 4 else 0
    if part = 3 then faultV s r fcIllegal
    else if 65536 < l + n then faultV s r fcRange
    else
      checkWrite s r (lineRun l n) <|
        .ok ((List.range n).foldl (fun s i =>
          s.delay r 1 14 (.bench ⟨l + i, v.bits.extractLsb' (1024 * (first + i)) 1024, BitVec.allOnes 128, v.poison⟩)) s)

/-! ### Arithmetic, comparison and logic (R249, R250) -/

/-- The arithmetic instructions of R249. -/
inductive VArith where
  | add | sub | mul | max | min
deriving DecidableEq, Repr

/-- The result on values. -/
def VArith.num (op : VArith) (a b : Num) : Num :=
  match op with
  | .add => a.add b
  | .sub => a.sub b
  | .mul => a.mul b
  | .max => a.max b
  | .min => a.min b

/-- The result on INT32 lanes: wrapping, and the larger or smaller as signed integers. -/
def VArith.int (op : VArith) (a b : Word) : Word :=
  match op with
  | .add => a + b
  | .sub => a - b
  | .mul => a * b
  | .max => if a.slt b then b else a
  | .min => if b.slt a then b else a

/-- Occupancy and latency of a typed instruction (R279). -/
def typedOcc (ty : BitVec 2) : Nat := if ty = 1 then 4 else 1
/-- The latency of a typed instruction (R279). -/
def typedLat (ty : BitVec 2) : Nat := if ty = 1 then 7 else 4

/-- An arithmetic instruction lane by lane. -/
def vArith (op : VArith) (ty : BitVec 2) (a b : VWord) : VWord :=
  if ty = 0 then ofLanes (List.zipWith (fun x y => toF32 (op.num (f32 x) (f32 y))) (lanes a) (lanes b))
  else if ty = 1 then ofDlanes (List.zipWith (fun x y => toF64 (op.num (f64 x) (f64 y))) (dlanes a) (dlanes b))
  else ofLanes (List.zipWith op.int (lanes a) (lanes b))

/-- VADD, VSUB, VMUL, VMAX, VMIN (R249). -/
def insVarith (op : VArith) (vd va vb : BitVec 6) (ty : BitVec 2) (s : State) (r : CoreRef) : InsRes :=
  vUnit s r (typedOcc ty) fun s =>
    if ty = 3 then faultV s r fcIllegal
    else
      let a := s.v r va
      let b := s.v r vb
      writeV s r (typedLat ty) vd (vArith op ty a.bits b.bits) (a.poison || b.poison)

/-- Three lists combined. -/
def zipWith3 {α β γ δ : Type} (f : α → β → γ → δ) : List α → List β → List γ → List δ
  | a :: as, b :: bs, c :: cs => f a b c :: zipWith3 f as bs cs
  | _, _, _ => []

/-- VFMA (R249): rounded once. -/
def insVfma (vd va vb vc : BitVec 6) (ty : BitVec 2) (s : State) (r : CoreRef) : InsRes :=
  vUnit s r (typedOcc ty) fun s =>
    if 2 ≤ ty.toNat then faultV s r fcIllegal
    else
      let a := s.v r va
      let b := s.v r vb
      let c := s.v r vc
      let bits :=
        if ty = 0 then ofLanes (zipWith3 (fun x y z => toF32 (((f32 x).mul (f32 y)).add (f32 z))) (lanes a.bits)
          (lanes b.bits) (lanes c.bits))
        else ofDlanes (zipWith3 (fun x y z => toF64 (((f64 x).mul (f64 y)).add (f64 z))) (dlanes a.bits)
          (dlanes b.bits) (dlanes c.bits))
      writeV s r (typedLat ty) vd bits (a.poison || b.poison || c.poison)

/-- All ones or zero (R250). -/
def laneMask (w : Nat) (b : Bool) : BitVec w := if b then BitVec.allOnes w else 0

/-- VCMP (R250): LTU and GEU are allowed only for INT32. -/
def insVcmp (vd va vb : BitVec 6) (ty : BitVec 2) (cond : BitVec 3) (s : State) (r : CoreRef) : InsRes :=
  vUnit s r (typedOcc ty) fun s =>
    if ty = 3 ∨ (ty ≠ 2 ∧ 6 ≤ cond.toNat) then faultV s r fcIllegal
    else
      let a := s.v r va
      let b := s.v r vb
      let bits :=
        if ty = 0 then ofLanes (List.zipWith (fun x y => laneMask 32 (condNum cond.toNat (f32 x) (f32 y)))
          (lanes a.bits) (lanes b.bits))
        else if ty = 1 then ofDlanes (List.zipWith (fun x y => laneMask 64 (condNum cond.toNat (f64 x) (f64 y)))
          (dlanes a.bits) (dlanes b.bits))
        else ofLanes (List.zipWith (fun x y => laneMask 32 (condInt cond.toNat x y)) (lanes a.bits) (lanes b.bits))
      writeV s r (typedLat ty) vd bits (a.poison || b.poison)

/-- VSEL (R250). -/
def insVsel (vd va vb vc : BitVec 6) (s : State) (r : CoreRef) : InsRes :=
  vUnit s r 1 fun s =>
    let a := s.v r va
    let b := s.v r vb
    let c := s.v r vc
    writeV s r 4 vd
      (ofLanes (zipWith3 (fun x y z => if z = 0 then y else x) (lanes a.bits) (lanes b.bits) (lanes c.bits)))
      (a.poison || b.poison || c.poison)

/-- The logic and shift instructions of R249. -/
inductive VLogic where
  | and | or | xor | shl | shr | shrA
deriving DecidableEq, Repr

/-- The result on a lane: a shift takes vb[4:0]. -/
def VLogic.int (op : VLogic) (a b : Word) : Word :=
  let n := b.toNat % 32
  match op with
  | .and => a &&& b
  | .or => a ||| b
  | .xor => a ^^^ b
  | .shl => a <<< n
  | .shr => a >>> n
  | .shrA => a.sshiftRight n

/-- VAND, VOR, VXOR, VSHL, VSHR, VSHR.A (R249): INT32 only. -/
def insVlogic (op : VLogic) (vd va vb : BitVec 6) (ty : BitVec 2) (s : State) (r : CoreRef) : InsRes :=
  vUnit s r 1 fun s =>
    if ty ≠ 2 then faultV s r fcIllegal
    else
      let a := s.v r va
      let b := s.v r vb
      writeV s r 4 vd (ofLanes (List.zipWith op.int (lanes a.bits) (lanes b.bits))) (a.poison || b.poison)

/-- VPERM (R250). -/
def insVperm (vd va vb : BitVec 6) (s : State) (r : CoreRef) : InsRes :=
  vUnit s r 1 fun s =>
    let a := s.v r va
    let b := s.v r vb
    writeV s r 4 vd (ofLanes ((lanes b.bits).map fun i => a.bits.extractLsb' (32 * (i.toNat % 256)) 32))
      (a.poison || b.poison)

/-! ### VCVT (R251, R78) -/

/-- The formats of VCVT's codes but for INT32. -/
def cvtFmt : Nat → Fmt
  | 0 => fp32
  | 1 => fp64
  | 2 => bf16
  | 3 => fp16
  | 4 => e4m3
  | 5 => e5m2
  | 6 => e3m2
  | 7 => e2m3
  | _ => e2m1

/-- A code of an MX format. -/
def cvtMx (code : Nat) : Bool := decide (6 ≤ code) && decide (code ≤ 8)

/-- A code of one of the four narrow formats. -/
def cvtNarrow (code : Nat) : Bool := decide (2 ≤ code) && decide (code ≤ 5)

/-- The pairs of R78. -/
def cvtPair (src tgt : Nat) : Bool :=
  if src = tgt then false
  else if tgt = 0 then true
  else if src = 0 then true
  else cvtNarrow src && cvtNarrow tgt

/-- The source values of a VCVT (R60, R61, R251). -/
def cvtValues (src n : Nat) (v : VWord) : List Num :=
  let d := v.toNat
  (List.range n).map fun i =>
    if src = 9 then ofInt32 (BitVec.ofNat 32 (elemAt d 32 i))
    else
      let f := cvtFmt src
      if cvtMx src then mxValue f (BitVec.ofNat 8 (elemAt d 8 (768 + i / 32))) (elemAt d f.width i)
      else f.decode (elemAt d f.width i)

/-- The bytes of an MX result: 256 elements from byte 0 and their 8 scales from byte 768 (R251). -/
def cvtMxBits (f : Fmt) (xs : List (Rnd × Num)) : Nat :=
  let blocks := (List.range 8).map fun b => mxBlock f ((xs.drop (32 * b)).take 32)
  packElems f.width (blocks.flatMap Prod.snd) + packElems 8 (blocks.map fun b => b.1.toNat) * 2 ^ (8 * 768)

/-- The result register of a VCVT. -/
def cvtBits (tgt : Nat) (xs : List (Rnd × Num)) : VWord :=
  if tgt = 9 then ofLanes (xs.map fun x => toInt32 x.2)
  else
    let f := cvtFmt tgt
    if cvtMx tgt then BitVec.ofNat 8192 (cvtMxBits f xs)
    else ofElems f.width (xs.map fun x => f.encode x.1 x.2)

/-- VCVT (R71, R73, R78, R80, R81, R187, R251): a target that R71 rounds to nearest always draws nothing. -/
def insVcvt (vd va : BitVec 6) (src tgt : BitVec 4) (sr : Bool) (mr : BitVec 2) (clr : Bool) (ri rsm : BitVec 5)
    (s : State) (r : CoreRef) : InsRes :=
  vUnit s r 1 fun s =>
    if 10 ≤ src.toNat ∨ 10 ≤ tgt.toNat then faultV s r fcIllegal
    else if !cvtPair src.toNat tgt.toNat then faultV s r fcFormat
    else
      let k := s.core r.k
      let a := s.v r va
      let n := if src = 1 ∨ tgt = 1 then 128 else 256
      let xs := cvtValues src.toNat n a.bits
      let draws := sr && decide (2 ≤ tgt.toNat) && decide (tgt ≠ 9)
      let stream := (k.sreg rsm.toNat).extractLsb' 0 32
      let base := k.sreg ri.toNat
      let rnd := fun i => if draws then Rnd.sr (srBits k.seed k.step stream (base + BitVec.ofNat 64 i)) else .rne
      let s1 := if clr then s.delay r 6 0 (.mclear mr.toNat) else s
      let s2 := s1.delay r 6 2 (.mjoin mr.toNat (.ofValues xs))
      writeV s2 r 6 vd (cvtBits tgt.toNat (xs.zipIdx.map fun (x, i) => (rnd i, x))) a.poison

/-! ### VFN (R252) -/

/-- VFN. -/
def insVfn (vd va : BitVec 6) (fn : BitVec 4) (d : Bool) (s : State) (r : CoreRef) : InsRes :=
  vUnit s r 1 fun s =>
    if 9 ≤ fn.toNat then faultV s r fcIllegal
    else
      let a := s.v r va
      let f := fun (x : Word) => toF32 (if d then fnDeriv fn.toNat (f32 x) else fnApply fn.toNat (f32 x))
      writeV s r 12 vd (ofLanes ((lanes a.bits).map f)) a.poison

/-! ### VAXSUM (R257, R258) -/

/-- The accumulator that a vector register holds (R257). -/
structure VAcc where
  sum : Ax 128
  anchor : Int
  count : Nat
deriving DecidableEq, Repr

/-- The accumulator in a register. -/
def VAcc.ofBits (v : VWord) : VAcc :=
  ⟨⟨v.extractLsb' 0 128, .ofBits (v.extractLsb' 128 5)⟩, (v.extractLsb' 160 32).toInt, (v.extractLsb' 192 96).toNat⟩

/-- The register of an accumulator. -/
def VAcc.bits (a : VAcc) : VWord :=
  BitVec.ofNat 8192 (a.sum.i.toNat + a.sum.fl.bits.toNat * 2 ^ 128 + (BitVec.ofInt 32 a.anchor).toNat * 2 ^ 160 +
    a.count * 2 ^ 192)

/-- The modes of R257. -/
inductive AxMode where
  | f32 | f64 | w80 | w128 | tap | out32 | out64
deriving DecidableEq, Repr

/-- The largest n of a mode (R258). -/
def AxMode.limit : AxMode → Nat
  | .f64 => 128
  | .w80 => 85
  | .tap => 64
  | _ => 256

/-- An anchor in range (R85, R258). -/
def anchorOk (a : Int) : Bool := decide (-512 ≤ a) && decide (a ≤ 511)

/-- Sums of placed addends in AX128 (R93, R97), with the precision-loss and OVF events of their entry. -/
def placeAll (a : Ax 128) (anchor : Int) (poison : Bool) (xs : List Num) : Ax 128 × Bool × Bool :=
  let ps := xs.map (placeOnGrid anchor poison)
  (ps.foldl (fun a p => a.add (p.ax 128)) a, ps.any (fun p => p.loss), ps.any (fun p => p.fl.ovf))

/-- What a mode adds to an accumulator: the sum, the count added, and the events of R95 and R93. -/
def AxMode.addends (m : AxMode) (a : VAcc) (n : Nat) (b : VReg) : Ax 128 × Nat × Bool × Bool :=
  let words := fun (step off : Nat) => (List.range n).map fun i =>
    (axOfWord (b.bits.extractLsb' (8 * (step * i + off)) 96)).widen 128
  let sumWords := fun (ws : List (Ax 128)) => if b.poison then a.sum else ws.foldl Ax.add a.sum
  match m with
  | .f32 =>
    let (x, l, o) := placeAll a.sum a.anchor b.poison (((lanes b.bits).take n).map Machine.f32)
    (x, n, l, o)
  | .f64 =>
    let (x, l, o) := placeAll a.sum a.anchor b.poison (((dlanes b.bits).take n).map Machine.f64)
    (x, n, l, o)
  | .w80 => (sumWords (words 12 0), n * 2 ^ 30, false, false)
  | .tap => (sumWords (words 16 4), n * 2 ^ 30, false, false)
  | .w128 => (sumWords [(VAcc.ofBits b.bits).sum], (VAcc.ofBits b.bits).count, false, false)
  | _ => (a.sum, 0, false, false)

/-- The modes that add to the accumulator (R257, R258, R107): OVF that this instruction sets is an anchor violation in the
last cycle of its latency. -/
def vaxsumAdd (m : AxMode) (vd : BitVec 6) (a : VAcc) (psn : Bool) (b : VReg) (n : Nat) (s : State) (r : CoreRef) :
    InsRes :=
  let src := VAcc.ofBits b.bits
  if m = .w128 ∧ (src.anchor ≠ a.anchor ∨ !anchorOk src.anchor) then faultV s r fcAnchor
  else
    let (x, cnt, loss, ovf) := m.addends a n b
    let count := min (a.count + cnt) (2 ^ 96 - 1)
    let full := decide (2 ^ 78 < count)
    let x1 := if b.poison then x.setPsn else x
    let x2 := if full then x1.setOvf else x1
    let (id, k1) := (s.core r.k).fresh
    let s1 := (s.setCore r.k k1).countLoss r.k id loss
    let s2 := if ovf || (full && !a.sum.fl.ovf) then
        s1.delay r 8 3 (.raise ⟨fcAnchor, 0, 2, (s.core r.k).pc, 5⟩) else s1
    writeV s2 r 8 vd (VAcc.bits ⟨x2, a.anchor, count⟩) (psn || b.poison)

/-- The .OUT modes (R104 to R106, R257). -/
def vaxsumOut (m : AxMode) (vd : BitVec 6) (a : VAcc) (psn : Bool) (s : State) (r : CoreRef) : InsRes :=
  let x := leaveGrid a.anchor a.sum
  let bits := if m = .out64 then ofDlanes [toF64 x] else ofLanes [toF32 x]
  writeV s r 8 vd bits (psn || a.sum.fl.psn)

/-- VAXSUM (R257, R258). -/
def insVaxsum (m : AxMode) (vd va vb : BitVec 6) (clr : Bool) (ra : BitVec 5) (n1 : BitVec 9) (s : State)
    (r : CoreRef) : InsRes :=
  vUnit s r 1 fun s =>
    let v := s.v r va
    let n := n1.toNat + 1
    let anchor := clampAnchor (((s.core r.k).sreg ra.toNat).extractLsb' 0 16).toInt
    let a : VAcc := if clr then ⟨.zero, anchor, 0⟩ else VAcc.ofBits v.bits
    let psn := !clr && v.poison
    if (m ≠ .w128 ∧ m ≠ .out32 ∧ m ≠ .out64) ∧ m.limit < n then faultV s r fcRange
    else if !anchorOk a.anchor then faultV s r fcAnchor
    else
      match m with
      | .out32 | .out64 => vaxsumOut m vd a psn s r
      | _ => vaxsumAdd m vd a psn (s.v r vb) n s r

/-! ### VLEAV and VCRUMB (R259, R260) -/

/-- VLEAV. -/
def insVleav (vd : BitVec 6) (ri rsm : BitVec 5) (u : Bool) (s : State) (r : CoreRef) : InsRes :=
  vUnit s r 1 fun s =>
    let k := s.core r.k
    let w := fun i => leavenWord k.seed k.step ((k.sreg rsm.toNat).extractLsb' 0 32) (k.sreg ri.toNat + BitVec.ofNat 64 i)
    let x := fun i => if u then toF32 (.fin false ((w i).toNat >>> 8) (-24)) else w i
    writeV s r 10 vd (ofLanes ((List.range 256).map x)) false

/-- VCRUMB. -/
def insVcrumb (va : BitVec 6) (ca : BitVec 3) (width : BitVec 2) (count : BitVec 10) (ri rk : BitVec 5) (s : State)
    (r : CoreRef) : InsRes :=
  vUnit s r 1 fun s =>
    let k := s.core r.k
    let v := s.v r va
    let w := 8 * 2 ^ width.toNat
    let n := count.toNat + 1
    if width = 3 then faultV s r fcIllegal
    else if 8192 < n * w then faultV s r fcRange
    else
      let es := (List.range n).map fun i =>
        (k.sreg ri.toNat + BitVec.ofNat 64 i, BitVec.ofNat 32 (elemAt v.bits.toNat w i))
      .ok (s.delay r 6 2 (.crumb ca.toNat (crumbAddOf ((k.sreg rk.toNat).extractLsb' 0 32) k.step v.poison es)))

/-! ### VOPT (R261, R262) -/

/-- The exponent of unit(hi): E − 22, with E = −126 for zero and subnormal hi. -/
def optUnit (hi : Nat) : Int :=
  let e := (hi >>> 7) % 256
  (if e = 0 then -126 else (e : Int) - 127) - 22

/-- One weight updated: its new high and low value. -/
def optElem (hi : Nat) (lo : BitVec 16) (u : Word) : Nat × BitVec 16 :=
  let h := bf16.decode hi
  let w := if lo = 0 ∨ !h.isFinite then h else h.add (.fin (decide (lo.toInt < 0)) lo.toInt.natAbs (optUnit hi))
  let w2 := rn (w.add (f32 u))
  let hi2 := bf16.encode .rne w2
  let h2 := bf16.decode hi2
  match w2, h2 with
  | .fin .., .fin .. =>
    match w2.sub h2 with
    | .fin n m e =>
      let q := roundSteps .rne m e (optUnit hi2)
      (hi2, BitVec.ofInt 16 (signedMant n q))
    | _ => (hi2, 0)
  | _, _ => (hi2, 0)

/-- The planes after an update. -/
def optBits (a b : VWord) : VWord :=
  let res := (List.range 256).map fun i =>
    optElem (a.extractLsb' (16 * i) 16).toNat (a.extractLsb' (4096 + 16 * i) 16) (b.extractLsb' (32 * i) 32)
  ofElems 16 (res.map Prod.fst ++ res.map fun x => x.2.toNat)

/-- VOPT (R261, R262). -/
def insVopt (vd va vb vc : BitVec 6) (sel : Bool) (s : State) (r : CoreRef) : InsRes :=
  vUnit s r 1 fun s =>
    let a := s.v r va
    let b := s.v r vb
    let c := s.v r vc
    if sel ∧ c.poison then faultV s r fcPoison
    else if sel ∧ c.bits.extractLsb' 0 4 ≠ 0 then writeV s r 4 vd a.bits a.poison
    else writeV s r 4 vd (optBits a.bits b.bits) (a.poison || b.poison)

/-! ### The rows -/

/-- VLD (R248). -/
def execVld (pt : Pt) (c : LCore) (vd : BitVec 6) (rs : BitVec 5) (part : BitVec 2) (s : State) : Out :=
  runIns s pt c (insVld vd rs part s)
/-- VST (R248). -/
def execVst (pt : Pt) (c : LCore) (va : BitVec 6) (rs : BitVec 5) (part : BitVec 2) (s : State) : Out :=
  runIns s pt c (insVst va rs part s)
/-- VADD (R249). -/
def execVadd (pt : Pt) (c : LCore) (vd va vb : BitVec 6) (ty : BitVec 2) (s : State) : Out :=
  runIns s pt c (insVarith .add vd va vb ty s)
/-- VSUB (R249). -/
def execVsub (pt : Pt) (c : LCore) (vd va vb : BitVec 6) (ty : BitVec 2) (s : State) : Out :=
  runIns s pt c (insVarith .sub vd va vb ty s)
/-- VMUL (R249). -/
def execVmul (pt : Pt) (c : LCore) (vd va vb : BitVec 6) (ty : BitVec 2) (s : State) : Out :=
  runIns s pt c (insVarith .mul vd va vb ty s)
/-- VFMA (R249). -/
def execVfma (pt : Pt) (c : LCore) (vd va vb vc : BitVec 6) (ty : BitVec 2) (s : State) : Out :=
  runIns s pt c (insVfma vd va vb vc ty s)
/-- VMAX (R249). -/
def execVmax (pt : Pt) (c : LCore) (vd va vb : BitVec 6) (ty : BitVec 2) (s : State) : Out :=
  runIns s pt c (insVarith .max vd va vb ty s)
/-- VMIN (R249). -/
def execVmin (pt : Pt) (c : LCore) (vd va vb : BitVec 6) (ty : BitVec 2) (s : State) : Out :=
  runIns s pt c (insVarith .min vd va vb ty s)
/-- VCMP (R250). -/
def execVcmp (pt : Pt) (c : LCore) (vd va vb : BitVec 6) (ty : BitVec 2) (cond : BitVec 3) (s : State) : Out :=
  runIns s pt c (insVcmp vd va vb ty cond s)
/-- VSEL (R250). -/
def execVsel (pt : Pt) (c : LCore) (vd va vb vc : BitVec 6) (s : State) : Out :=
  runIns s pt c (insVsel vd va vb vc s)
/-- VAND (R249). -/
def execVand (pt : Pt) (c : LCore) (vd va vb : BitVec 6) (ty : BitVec 2) (s : State) : Out :=
  runIns s pt c (insVlogic .and vd va vb ty s)
/-- VOR (R249). -/
def execVor (pt : Pt) (c : LCore) (vd va vb : BitVec 6) (ty : BitVec 2) (s : State) : Out :=
  runIns s pt c (insVlogic .or vd va vb ty s)
/-- VXOR (R249). -/
def execVxor (pt : Pt) (c : LCore) (vd va vb : BitVec 6) (ty : BitVec 2) (s : State) : Out :=
  runIns s pt c (insVlogic .xor vd va vb ty s)
/-- VSHL (R249). -/
def execVshl (pt : Pt) (c : LCore) (vd va vb : BitVec 6) (ty : BitVec 2) (s : State) : Out :=
  runIns s pt c (insVlogic .shl vd va vb ty s)
/-- VSHR (R249). -/
def execVshr (pt : Pt) (c : LCore) (vd va vb : BitVec 6) (ty : BitVec 2) (s : State) : Out :=
  runIns s pt c (insVlogic .shr vd va vb ty s)
/-- VSHR.A (R249). -/
def execVshrA (pt : Pt) (c : LCore) (vd va vb : BitVec 6) (ty : BitVec 2) (s : State) : Out :=
  runIns s pt c (insVlogic .shrA vd va vb ty s)
/-- VPERM (R250). -/
def execVperm (pt : Pt) (c : LCore) (vd va vb : BitVec 6) (s : State) : Out := runIns s pt c (insVperm vd va vb s)
/-- VCVT (R251). -/
def execVcvt (pt : Pt) (c : LCore) (vd va : BitVec 6) (src tgt : BitVec 4) (sr : Bool) (mr : BitVec 2) (clr : Bool)
    (ri rsm : BitVec 5) (s : State) : Out := runIns s pt c (insVcvt vd va src tgt sr mr clr ri rsm s)
/-- VFN (R252). -/
def execVfn (pt : Pt) (c : LCore) (vd va : BitVec 6) (fn : BitVec 4) (d : Bool) (s : State) : Out :=
  runIns s pt c (insVfn vd va fn d s)
/-- VAXSUM.F32 (R257). -/
def execVaxsumF32 (pt : Pt) (c : LCore) (vd va vb : BitVec 6) (clr : Bool) (ra : BitVec 5) (n1 : BitVec 9)
    (s : State) : Out := runIns s pt c (insVaxsum .f32 vd va vb clr ra n1 s)
/-- VAXSUM.F64 (R257). -/
def execVaxsumF64 (pt : Pt) (c : LCore) (vd va vb : BitVec 6) (clr : Bool) (ra : BitVec 5) (n1 : BitVec 9)
    (s : State) : Out := runIns s pt c (insVaxsum .f64 vd va vb clr ra n1 s)
/-- VAXSUM.W80 (R257). -/
def execVaxsumW80 (pt : Pt) (c : LCore) (vd va vb : BitVec 6) (clr : Bool) (ra : BitVec 5) (n1 : BitVec 9)
    (s : State) : Out := runIns s pt c (insVaxsum .w80 vd va vb clr ra n1 s)
/-- VAXSUM.W128 (R257). -/
def execVaxsumW128 (pt : Pt) (c : LCore) (vd va vb : BitVec 6) (clr : Bool) (ra : BitVec 5) (n1 : BitVec 9)
    (s : State) : Out := runIns s pt c (insVaxsum .w128 vd va vb clr ra n1 s)
/-- VAXSUM.TAP (R257). -/
def execVaxsumTap (pt : Pt) (c : LCore) (vd va vb : BitVec 6) (clr : Bool) (ra : BitVec 5) (n1 : BitVec 9)
    (s : State) : Out := runIns s pt c (insVaxsum .tap vd va vb clr ra n1 s)
/-- VAXSUM.OUT32 (R257). -/
def execVaxsumOut32 (pt : Pt) (c : LCore) (vd va vb : BitVec 6) (clr : Bool) (ra : BitVec 5) (n1 : BitVec 9)
    (s : State) : Out := runIns s pt c (insVaxsum .out32 vd va vb clr ra n1 s)
/-- VAXSUM.OUT64 (R257). -/
def execVaxsumOut64 (pt : Pt) (c : LCore) (vd va vb : BitVec 6) (clr : Bool) (ra : BitVec 5) (n1 : BitVec 9)
    (s : State) : Out := runIns s pt c (insVaxsum .out64 vd va vb clr ra n1 s)
/-- VLEAV (R259). -/
def execVleav (pt : Pt) (c : LCore) (vd : BitVec 6) (ri rsm : BitVec 5) (u : Bool) (s : State) : Out :=
  runIns s pt c (insVleav vd ri rsm u s)
/-- VCRUMB (R260). -/
def execVcrumb (pt : Pt) (c : LCore) (va : BitVec 6) (ca : BitVec 3) (width : BitVec 2) (count : BitVec 10)
    (ri rk : BitVec 5) (s : State) : Out := runIns s pt c (insVcrumb va ca width count ri rk s)
/-- VOPT (R261). -/
def execVopt (pt : Pt) (c : LCore) (vd va vb vc : BitVec 6) (sel : Bool) (s : State) : Out :=
  runIns s pt c (insVopt vd va vb vc sel s)

end Sys2Proof.Machine
end

