-- ==== Sys2Proof/Machine/Issue.lean ====
section
/-! DEFINITION. A bundle issues (06_fiard_bundles.md): fetch, the slots of R178, legality (R182, R196 to R198), and the
joint answer of its instructions (R181). -/

namespace Sys2Proof.Machine

/-- What an instruction of a slot does at its issue. -/
abbrev Ins := State → CoreRef → InsRes

/-! ### Slots (R178, R206, R219) -/

/-- STEPR and SEEDR (R206, R215). -/
def decodeStep (x : Nat) : Option Ins :=
  match slotBits x 46 2 with
  | 0 => some (insSteprR (slotBits x 40 6))
  | 1 => some (insSteprW (slotBits x 40 6))
  | 2 => some insSteprInc
  | _ => none

/-- SEEDR (R206, R215). -/
def decodeSeed (x : Nat) : Option Ins :=
  match slotBits x 46 2 with
  | 0 => some (insSeedrR (slotBits x 40 6))
  | 1 => some (insSeedrW (slotBits x 40 6))
  | _ => none

/-- The count of a LOOP (R206). -/
def slotCount (x : Nat) : LoopCount := if slotBit x 31 then .imm (slotBits x 0 31) else .reg (slotBits x 25 6)

/-- An instruction of the ADD layout. -/
def decodeAlu (op : AluOp) (x : Nat) : Option Ins := some (insAlu op (slotBits x 42 6) (slotBits x 36 6) (slotSrc2 x))

/-- The C slot (R206): 56 bits, opcode in [55:48]. -/
def decodeC (x : Nat) : Option Ins :=
  match x / 2 ^ 48 % 256 with
  | 0x00 => some fun s _ => .ok s
  | 0x01 => some (insLi (slotBits x 42 6) (slotBit x 41) (slotBits x 0 41))
  | 0x02 => decodeAlu .add x
  | 0x03 => decodeAlu .sub x
  | 0x04 => decodeAlu .and x
  | 0x05 => decodeAlu .or x
  | 0x06 => decodeAlu .xor x
  | 0x07 => decodeAlu .shl x
  | 0x08 => decodeAlu .shr x
  | 0x09 => decodeAlu .shrA x
  | 0x0A => decodeAlu .mul x
  | 0x0B => some (insCmp (slotBits x 39 3) (slotBits x 36 3) (slotBits x 42 6) (slotSrc2 x))
  | 0x10 => some (insBrp (slotBits x 45 3) (slotBit x 44) (slotBits x 24 20))
  | 0x11 => some (insLoop (slotBits x 32 16) (slotCount x))
  | 0x12 => some (insTile (slotBits x 31 17))
  | 0x13 => some insHalt
  | 0x14 => some (insTrap (slotBits x 40 8))
  | 0x18 => some (insAnc (slotBits x 46 2) (slotBits x 44 2) (slotBits x 42 2) (slotBits x 38 4))
  | 0x19 => decodeStep x
  | 0x1A => decodeSeed x
  | 0x1B => some (insGtbr (slotBits x 42 6))
  | 0x1C => some (insHbeat (slotBits x 32 16))
  | _ => none

/-- The M slot (R226). -/
def decodeM (x : Nat) : Option Ins :=
  match x / 2 ^ 48 % 256 with
  | 0x01 => some (insWld (slotBits x 46 2) (slotBits x 42 4) (slotBits x 40 2) (slotBits x 38 2) (slotBits x 33 5)
      (slotBits x 28 5))
  | 0x02 => some (insWswap (slotBits x 44 4))
  | 0x03 => some (insMma (slotBits x 46 2) (slotBits x 42 4) (slotBits x 38 4) (slotBits x 30 8))
  | 0x04 => some (insDrain (slotBits x 46 2) (slotBits x 45 1) (slotDrainF x))
  | 0x05 => some (insPbdrain (slotBits x 46 2) (slotBits x 43 3) (slotDrainF x))
  | 0x06 => some (insFold (slotBits x 46 2) (slotBits x 45 1) (slotBits x 42 3)
      (if slotBit x 41 then some (slotBits x 38 3) else none) (slotBits x 33 5))
  | 0x07 => some (insZoa (slotBits x 40 8))
  | 0x08 => some (insPbzero (slotBits x 45 3) (slotBits x 40 5))
  | 0x09 => some (if slotBit x 47 then insPbspillA (slotBits x 44 3) (slotBits x 41 3) (slotBits x 36 5)
      else insPbspillW (slotBits x 44 3) (slotBits x 41 3) (slotBits x 36 5))
  | 0x0A => some (insPbload (slotBits x 44 3) (slotBits x 41 3) (slotBits x 36 5) (slotBits x 31 5))
  | 0x0B => some (insIdle (slotBits x 44 4) (slotBits x 24 20))
  | _ => none

/-- The mode of a VAXSUM (R257): 7 is not assigned. -/
def axMode : Nat → Option AxMode
  | 0 => some .f32
  | 1 => some .f64
  | 2 => some .w80
  | 3 => some .w128
  | 4 => some .tap
  | 5 => some .out32
  | 6 => some .out64
  | _ => none

/-- The V slot (R246 to R262): 64 bits, opcode in [63:56]. -/
def decodeV (x : Nat) : Option Ins :=
  let vd := slotBits x 50 6
  let va := slotBits x 44 6
  let vb := slotBits x 38 6
  let vc := slotBits x 32 6
  let ty := slotBits x 30 2
  match x / 2 ^ 56 % 256 with
  | 0x01 => some (insVld vd (slotBits x 27 5) (slotBits x 25 2))
  | 0x02 => some (insVst va (slotBits x 27 5) (slotBits x 25 2))
  | 0x10 => some (insVarith .add vd va vb ty)
  | 0x11 => some (insVarith .sub vd va vb ty)
  | 0x12 => some (insVarith .mul vd va vb ty)
  | 0x13 => some (insVfma vd va vb vc ty)
  | 0x14 => some (insVarith .max vd va vb ty)
  | 0x15 => some (insVarith .min vd va vb ty)
  | 0x16 => some (insVcmp vd va vb ty (slotBits x 27 3))
  | 0x17 => some (insVsel vd va vb vc)
  | 0x18 => some (insVlogic .and vd va vb ty)
  | 0x19 => some (insVlogic .or vd va vb ty)
  | 0x1A => some (insVlogic .xor vd va vb ty)
  | 0x1B => some (insVlogic .shl vd va vb ty)
  | 0x1C => some (insVlogic .shr vd va vb ty)
  | 0x1D => some (insVlogic .shrA vd va vb ty)
  | 0x1E => some (insVperm vd va vb)
  | 0x20 => some (insVcvt vd va (slotBits x 28 4) (slotBits x 24 4) (slotBit x 23) (slotBits x 21 2) (slotBit x 20)
      (slotBits x 15 5) (slotBits x 10 5))
  | 0x21 => some (insVfn vd va (slotBits x 28 4) (slotBit x 27))
  | 0x22 => (axMode (x / 2 ^ 29 % 8)).map fun m =>
      insVaxsum m vd va vb (slotBit x 28) (slotBits x 23 5) (slotBits x 14 9)
  | 0x23 => some (insVleav vd (slotBits x 27 5) (slotBits x 22 5) (slotBit x 21))
  | 0x24 => some (insVcrumb va (slotBits x 29 3) (slotBits x 27 2) (slotBits x 17 10) (slotBits x 12 5)
      (slotBits x 7 5))
  | 0x25 => some (insVopt vd va vb vc (slotBit x 31))
  | _ => none

/-- The D slot (R263): 48 bits, opcode in [47:40]. -/
def decodeD (x : Nat) : Option Ins :=
  match x / 2 ^ 40 % 256 with
  | 0x01 => some (insAct (slotBits x 35 5) (slotBits x 27 8) (slotBits x 23 4) (slotBits x 18 5) (slotBits x 13 5))
  | 0x02 => some (insPeel (slotBits x 37 3) (slotBits x 32 5))
  | 0x03 => some (insBcopy (slotBits x 35 5) (slotBits x 30 5) (slotBits x 18 12))
  | 0x04 => some (insDssld (slotBits x 35 5) (slotBits x 30 5) (slotBits x 18 12))
  | 0x05 => some (insDssst (slotBits x 35 5) (slotBits x 30 5) (slotBits x 18 12))
  | _ => none

/-- XRED (R272): operations 5 to 7 are not assigned. -/
def decodeXred (x : Nat) : Option Ins :=
  let rq := slotBits x 8 5
  match x / 2 ^ 13 % 8 with
  | 0 => some (insXred .sumExact rq)
  | 1 => some (insXred .sumTree rq)
  | 2 => some (insXredMax rq (slotBits x 6 2))
  | 3 => some (insXred .gather rq)
  | 4 => some (insXred .scatter rq)
  | _ => none

/-- The X slot (R269 to R278): 24 bits, opcode in [23:16]. `before` numbers the transfers that are earlier than the bundle: an XFENCE
waits for no other (R278). -/
def decodeX (before x : Nat) : Option Ins :=
  match x / 2 ^ 16 % 256 with
  | 0x01 => some (insXsend (slotBits x 11 5) (slotBits x 6 5))
  | 0x02 => some (insXrecv (slotBits x 11 5) (slotBits x 6 5))
  | 0x03 => decodeXred x
  | 0x04 => some (insXbar (slotBits x 11 5))
  | 0x05 => some (insXtime (slotBits x 11 5))
  | 0x06 => some (insXfenceFrom before (slotBit x 15) (slotBit x 14))
  | _ => none

/-! ### A bundle -/

/-- The slot of a bundle whose valid bit is `v`; none where it holds nothing (R180). -/
def slotOf (b : Bundle) (v lo w : Nat) : Option Nat :=
  if b.getLsbD v then some (b.toNat / 2 ^ lo % 2 ^ w) else none

/-- LEND (R178). -/
def lendBit (b : Bundle) : Bool := b.getLsbD 250

/-- The bundle's reserved bits are zero (R178, R182). -/
def bundleReservedOk (b : Bundle) : Bool := !b.getLsbD 249 && !b.getLsbD 248

/-- What a valid slot does: its instruction, or the fault of an opcode that nothing assigns (R182, R225). -/
def slotRun (slot : Nat) (d : Nat → Option Ins) (x : Option Nat) : Ins := fun s r =>
  match x with
  | none => .ok s
  | some v =>
    match d v with
    | some f => f s r
    | none => insFault s r fcIllegal slot 0 0

/-- The opcode in a C slot that holds one. -/
def slotOpcode (x : Option Nat) : Nat :=
  match x with
  | some v => v / 2 ^ 48 % 256
  | none => 0

/-- A LOOP or BRP in the C slot. -/
def slotLoops (x : Option Nat) : Bool := slotOpcode x == 0x10 || slotOpcode x == 0x11

/-- A LOOP, BRP, TILE or HALT in the C slot: it moves the PC, and writes no register. -/
def slotMoves (x : Option Nat) : Bool := decide (0x10 ≤ slotOpcode x) && decide (slotOpcode x ≤ 0x13)

/-- The loop rules of R196 and R197 for a bundle at `pc`: a LEND closes the innermost loop, at whose end stands a LEND;
and no LOOP or BRP stands beside a LEND. -/
def lendOk (k : Core) (lend loops : Bool) : Bool :=
  match k.loops with
  | [] => !lend
  | f :: _ => (lend == (k.pc == f.last)) && !(lend && loops)

/-- The loop stack and the PC after a bundle with LEND (R196). -/
def endLoop (pc : Nat) : List LoopFrame → Nat × List LoopFrame
  | [] => (pc + 1, [])
  | f :: fs =>
    if 1 < f.count then (f.start, { f with count := f.count - 1 } :: fs)
    else
      match fs with
      | g :: _ => if pc = g.last then endLoop pc fs else (pc + 1, fs)
      | [] => (pc + 1, [])

/-- The sequencer moves on (R193, R196): a LOOP or a BRP has set the PC itself. -/
def Core.moveOn (k : Core) (pc at' : Nat) (lend loops : Bool) : Core :=
  if loops then k
  else
    let (p, l) := if lend then endLoop pc k.loops else (pc + 1, k.loops)
    { k with pc := p, loops := l, nextAt := at' + 1, inBrp := false }

/-- The answers of a bundle's slots in turn, each on what the earlier ones leave: the waits, whether one holds, the faults that keep
it from issuing, those that it raises as it issues (R98, R213), and the state. -/
structure BundleRes where
  waits : List Need
  hold : Bool
  faults : List FaultInfo
  late : List FaultInfo
  st : State

/-- One slot's answer joined. -/
def BundleRes.join (b : BundleRes) (f : Ins) (r : CoreRef) : BundleRes :=
  match f b.st r with
  | .wait ws => { b with waits := b.waits ++ ws }
  | .hold => { b with hold := true }
  | .fault fs => { b with faults := b.faults ++ fs }
  | .ok s => { b with st := s }
  | .okWith s fs => { b with st := s, late := b.late ++ fs }

/-- The slots of a bundle on a state, in the order C, M, V, D, X in which their writes are applied (R186); a C slot that moves the PC
comes last, since the others record it. No instruction reads what another slot of its bundle writes (R181). -/
def runSlots (b : Bundle) (s : State) (r : CoreRef) : BundleRes :=
  let c := slotOf b 255 192 56
  let before := (s.core r.k).nextId
  let r0 := BundleRes.mk [] false [] [] s
  let r1 := if slotMoves c then r0 else r0.join (slotRun 0 decodeC c) r
  let r2 := r1.join (slotRun 1 decodeM (slotOf b 254 136 56)) r
  let r3 := r2.join (slotRun 2 decodeV (slotOf b 253 72 64)) r
  let r4 := r3.join (slotRun 3 decodeD (slotOf b 252 24 48)) r
  let r5 := r4.join (slotRun 4 (decodeX before) (slotOf b 251 0 24)) r
  if slotMoves c then r5.join (slotRun 0 decodeC c) r else r5

/-- The fault of a bundle that breaks a loop rule (R196, R197), recorded against the C slot: the spec names no slot for one without
an instruction there (DESIGN CHOICE, log 47). -/
def lendFaults (k : Core) (b : Bundle) : List FaultInfo :=
  if lendOk k (lendBit b) (slotLoops (slotOf b 255 192 56)) then [] else [⟨fcIllegal, 0, 0, k.pc, 0⟩]

/-- A bundle of a core that may issue it: it freezes the partition, holds it, faults with no effect, or issues all its
slots (R181, R182, R213). `also` is what the faults of other cores in this cycle add to its own. -/
def issueBundle (b : Bundle) (also : State → State) (s : State) (r : CoreRef) : State :=
  let k := s.core r.k
  let res := runSlots b s r
  if !res.waits.isEmpty then s.waitFor r res.waits.dedup
  else if res.hold then s.holdCycle r.pt
  else
    let faults := lendFaults k b ++ res.faults
    if !faults.isEmpty then also (s.raiseAll r (res.late ++ faults))
    else
      let s1 := res.st.updCore r.k fun q => q.moveOn k.pc (s.cyc r) (lendBit b) (slotLoops (slotOf b 255 192 56))
      if res.late.isEmpty then s1 else also (s1.raiseAll r res.late)

/-- The fault of a bundle as a whole (R182): its PC is outside the program, or its reserved bits are not zero. -/
def wholeFault (k : Core) : Option FaultInfo :=
  if !inProgram k k.pc || !bundleReservedOk (k.bundle k.pc) then some ⟨fcIllegal, 0, 7, k.pc, 0⟩ else none

/-- A core's next bundle is due in this program cycle. -/
def bundleDue (s : State) (r : CoreRef) : Bool :=
  (s.core r.k).seq == .issuing && decide ((s.core r.k).nextAt ≤ s.cyc r)

/-- What the drain paths of a core freeze on: a full DQ whose head row waits on an event of variable length (R240), one to the DSS, or
any that is not the Bench's where `stream` says that its engine is late. -/
def dqNeeds (k : Core) (cyc : Nat) (stream : Bool) : List Need :=
  ((List.range 4).filter fun a => let ar := k.array a
    ar.dqFrozen cyc || (stream && ar.dqFull cyc && ar.dq.head?.any fun q => q.f.dest == 2)).map Need.dqHead

/-- What a core's drain paths and its due bundle would wait for, and whether the bundle would hold. -/
def assess (s : State) (r : CoreRef) : List Need × Bool :=
  let k := s.core r.k
  let dq := dqNeeds k (s.cyc r) false
  if bundleDue s r && (wholeFault k).isNone then
    let res := runSlots (k.bundle k.pc) s r
    (dq ++ res.waits.dedup, res.hold)
  else (dq, false)

/-- The faults of a core's due bundle, which is raised in this program cycle whichever core issues first. -/
def dueFaults (s : State) (r : CoreRef) : List FaultInfo :=
  let k := s.core r.k
  if !bundleDue s r then []
  else
    match wholeFault k with
    | some f => [f]
    | none =>
      let res := runSlots (k.bundle k.pc) s r
      res.late ++ lendFaults k (k.bundle k.pc) ++ res.faults

/-- The cores of a partition. -/
def State.refsOf (s : State) (n : Nat) : List CoreRef := (s.coresOf n).map fun e => ⟨n, e.1, e.2⟩

/-- A core's bundle issues: its notices are spent, and the tile boundary is past. -/
def State.issued (s : State) (r : CoreRef) : State :=
  s.updPart r.pt fun p =>
    { p with atYield := false, notices := p.notices.filter (fun x => x.1 != r.k), issuedCores := natSetInsert p.issuedCores r.c }

/-- The faults that the due bundles of a core's partners raise in its cycle (R298): each on the state before the cycle's issues. -/
def raiseOthers (s0 : State) (r : CoreRef) (t : State) : State :=
  ((s0.refsOf r.pt).filter fun q => q.k != r.k).foldl (fun t q => t.raiseAll q (dueFaults s0 q)) t

/-- BUNDLE_ISSUE (R181, R193, R282, R287, R298): the next bundle of a core whose cycle has come. A bundle due on any core of the
partition in this cycle that must wait freezes them all, and one that must hold holds them all. -/
def bundleIssue (s : State) (r : CoreRef) : State :=
  let k := s.core r.k
  if !s.issuing r || !bundleDue s r then s
  else
    let all := (s.refsOf r.pt).map fun q => (q, assess s q)
    let waiting := all.filter fun e => !e.2.1.isEmpty
    if !waiting.isEmpty then waiting.foldl (fun s e => s.waitFor e.1 e.2.1) s
    else if all.any fun e => e.2.2 then s.holdCycle r.pt
    else
      match wholeFault k with
      | some f => raiseOthers s r (s.raise r.pt r.c r.k f)
      | none => issueBundle (k.bundle k.pc) (raiseOthers s r) (s.issued r) r

/-- BUNDLE_ISSUE (R181). -/
def execBundleIssue (pt : Pt) (c : LCore) (s : State) : Out := onCore s pt c fun r => bundleIssue s r

end Sys2Proof.Machine
end

