-- ==== Sys2Proof/Machine/Freeze.lean ====
section
/-! DEFINITION. Freezes (08_freeze_and_schedule.md, R285 to R287, R632): notices, the assessment that freezes a partition,
the end of a freeze, and the ACT row that goes on in one. -/

namespace Sys2Proof.Machine

/-- PRODUCER_NOTICE (R286): a cause of a core will end. -/
def producerNotice (cause : Nat) (s : State) (r : CoreRef) : State :=
  s.updPart r.pt fun p =>
    if p.notices.contains (r.k, cause) then p else { p with notices := p.notices ++ [(r.k, cause)] }

/-- What a core's due pop waits for (R233): an AQ that an ACT still fills. -/
def popNeeds (s : State) (r : CoreRef) : List Need :=
  let k := s.core r.k
  match k.mmas with
  | [] => []
  | j :: _ =>
    if j.popAt ≤ s.cyc r ∧ k.aq = [] ∧ k.acts ≠ [] then [.aqRow] else []

/-- What a settling core waits for: transfers beyond their planned arrival (R201, R285 cause 11). -/
def settleNeeds (s : State) (r : CoreRef) : List Need :=
  let k := s.core r.k
  match k.seq with
  | .settling .. => if k.quiet && !k.xfers.all (s.xferOpen r.k) then [.settle] else []
  | _ => []

/-- FREEZE_BEGIN (R240, R287): the assessment of a core's next bundle, pop, settling and DQ heads; a needed item without notice freezes the
partition. -/
def freezeBegin (s : State) (r : CoreRef) : State :=
  let p := s.part r.pt
  if p.inReset || p.run.isNone || p.halted || p.perstHold then s
  else
    let ws := ((assess s r).1 ++ popNeeds s r ++ settleNeeds s r ++ dqNeeds (s.core r.k) (s.cyc r) true).dedup.filter
      fun w => !p.notices.contains (r.k, w.cause)
    if ws.isEmpty then s else s.waitFor r ws

/-- FREEZE_END (R287, R302): the first cycle after every active cause has ended, at least one cycle after the freeze
began. The cycle that was to begin then begins. -/
def freezeEnd (n : Nat) (s : State) : State :=
  let s1 := s.noteEnded n
  let p := s1.part n
  if p.frozen && decide (1 ≤ p.frzCycles) && p.needs.all (fun w => w.ended) then
    (s1.setPart n p.chargeFreeze).beginCycle n else s1

/-- The first row read and not delivered enters the AQ. -/
def Core.takeActRow (k : Core) : Core :=
  match nextActRow k.acts with
  | some (x, acts) => { k with aq := k.aq ++ [x.2], acts := acts }
  | none => k

/-- ACT_ROW_FREEZE_DELIVER (R264, R632): in a freeze of cause 3, the awaited row is read and enters the AQ. -/
def actFreezeDeliver (s : State) (r : CoreRef) : State :=
  let k := s.core r.k
  let due := (s.part r.pt).needs.any fun w => w.core == r.k && w.need == .aqRow
  if !due || !k.aq.isEmpty then s
  else if (nextActRow k.acts).isSome then s.setCore r.k k.takeActRow
  else
    let pc := (k.acts.head?.map fun j => j.pc).getD 0
    match checkRead s r 3 k.nextActLines
        (.ok (s.setCore r.k ({ k with acts := readOldest k (s.cyc r) k.acts }.takeActRow))) with
    | .fault fs => s.raiseAll r (fs.map fun f => { f with pc := pc })
    | x => settleIns s r x

/-! ### The rows -/

/-- PRODUCER_NOTICE (R286). -/
def execProducerNotice (pt : Pt) (c : LCore) (cause : BitVec 4) (s : State) : Out :=
  onCore s pt c fun r => producerNotice cause.toNat s r
/-- FREEZE_BEGIN (R287). -/
def execFreezeBegin (pt : Pt) (c : LCore) (s : State) : Out := onCore s pt c fun r => freezeBegin s r
/-- FREEZE_END (R287). -/
def execFreezeEnd (pt : Pt) (s : State) : Out := .next (freezeEnd pt.toNat s)
/-- ACT_ROW_FREEZE_DELIVER (R632). -/
def execActRowFreezeDeliver (pt : Pt) (c : LCore) (s : State) : Out := onCore s pt c fun r => actFreezeDeliver s r

end Sys2Proof.Machine
end

