-- ==== Sys2Proof/Machine/Tiles.lean ====
section
/-! DEFINITION. Tiles (06_fiard_bundles.md R201 to R205; 08 R293 to R295): settling, the checks, the commit, and the end of
a tile's window. -/

namespace Sys2Proof.Machine

/-- The register writes that R275 defers, made as a core settles (R293). -/
def Core.takeMaxReds (k : Core) : Core :=
  let m := k.maxReds.foldl (fun m x =>
    match x.result with
    | some v => if x.applied then m else smapSet .zero m x.mx v
    | none => m) k.m
  { k with m := m, maxReds := k.maxReds.map fun x => { x with applied := x.applied || x.result.isSome } }

/-- TILE_SETTLE_MEET (R201 steps 1 and 2, R293): a core whose work is done has settled; until then it holds. -/
def settleMeet (s : State) (r : CoreRef) : State :=
  let k := s.core r.k
  match k.seq with
  | .settling halt budget at' =>
    if !(s.part r.pt).advancing || !k.quiet || !k.xfers.all (s.xferOpen r.k) then s
    else s.setCore r.k { k.takeMaxReds with seq := .met halt budget at' }
  | _ => s

/-- A core has settled at a TILE or a HALT (R201 step 2). -/
def Core.hasMet (k : Core) : Bool :=
  match k.seq with
  | .met .. => true
  | _ => false

/-- The PC of the TILE or HALT at which a core has settled. -/
def Core.tilePc (k : Core) : Nat :=
  match k.seq with
  | .met _ _ p => p
  | _ => k.pc

/-- The first OPEN bank of a core: its array and its number (R136). -/
def Core.openBank (k : Core) : Option (Nat × Nat) :=
  ((List.range 4).flatMap fun a => [(a, 0), (a, 1)]).find? fun e => ((k.array e.1).bank e.2).st == .open

/-- The checks of R294 in their order: the first that a core fails, with the core. -/
def commitFault (s : State) (n : Nat) : Option (CoreRef × FaultInfo) :=
  let rs := s.refsOf n
  let bank := rs.findSome? fun r =>
    let k := s.core r.k
    k.openBank.map fun e => (r, (⟨fcState, arrDetail e.1 e.2, 0, k.tilePc, 1 + e.1⟩ : FaultInfo))
  let queue := rs.findSome? fun r =>
    let k := s.core r.k
    if k.aq.isEmpty then none else some (r, (⟨fcQueueAtTile, 0, 0, k.tilePc, 6⟩ : FaultInfo))
  let stream := rs.findSome? fun r =>
    let k := s.core r.k
    if k.xfers.any (s.xferOpen r.k) then some (r, (⟨fcQueueAtTile, 0, 0, k.tilePc, 6⟩ : FaultInfo)) else none
  (bank.or queue).or stream

/-- An array at a commit (R128, R135): no weights, every bank ZERO. -/
def ArrayS.commit (a : ArrayS) : ArrayS :=
  { a with active := none, shadow := .empty, bank0 := .zero, bank1 := .zero }

/-- The commit state of R202. -/
def Core.toCommit (k : Core) : CommitState :=
  { pc := k.pc, s := k.s, p := k.p, loops := k.loops, m := k.m, an := k.an, ca := k.ca, step := k.step, seed := k.seed }

/-- One core at a commit (R201 step 4, R175, R205, R460, R631): with no hold the next bundle issues two
cycles after the TILE. -/
def Core.commitTile (k : Core) (cyc now : Nat) : Core :=
  let halt := match k.seq with
    | .met h _ _ => h
    | _ => false
  { (k.beat now) with
      arrays := (k.arrays.map fun e => (e.1, e.2.commit)).filter fun e => e.2 != .reset
      v := [], pb := (k.pb.map fun e => (e.1, { e.2 with readMark := false })).filter fun e => e.2 != .zero
      pbIssued := 0, pbSuppress := 0, carried := 0, issuedXfers := 0, maxReds := []
      commit := k.toCommit, nextAt := max (cyc + 1) (k.nextAt + 1), seq := if halt then .halted else .issuing
      watched := !halt, recvXq := if halt then [] else k.recvXq }

/-- The budget that the window of a commit has: the least of the TILEs met (R203, log 20); none where every core halts. -/
def commitBudget (s : State) (n : Nat) : Option Nat :=
  (s.refsOf n).foldl (fun b r =>
    match (s.core r.k).seq with
    | .met false x _ => some (match b with | none => x | some y => min x y)
    | _ => b) none

/-- Messages that HALTs discard (R295). -/
def haltDrops (s : State) (n : Nat) : Nat :=
  (s.refsOf n).foldl (fun t r =>
    match (s.core r.k).seq with
    | .met true _ _ => t + (s.core r.k).recvXq.length
    | _ => t) 0

/-- Every core of the partition will have halted with this commit. -/
def allHalt (s : State) (n : Nat) : Bool :=
  (s.refsOf n).all fun r =>
    match (s.core r.k).seq with
    | .met h _ _ => h
    | .halted => true
    | _ => false

/-- The slip of a kernel (R302): its program cycles without re-executed ones, beyond the plan. -/
def Part.slipOf (p : Part) : Nat :=
  match p.run with
  | some i => ((p.cycProg - i.prog0 - (p.cycReexec - i.reexec0)) - i.plan).toNat
  | none => 0

/-- TILE_BUDGET_EXPIRE (R203, R48, R485): the GTB reaches the end of the window before the next commit. Where R485 sees a hang,
no fault is recorded and the window is over. -/
def budgetExpire (n : Nat) (s : State) : State :=
  let p := s.part n
  match p.winEnd with
  | some e => if p.run.isSome && !p.inReset && decide (e ≤ s.now) then
      match s.hangEvidence n with
      | some u => (s.updPart n fun q => { q with winEnd := none }).detectHang u true
      | none => s.raisePart n fcBudget (srcCore ((s.phys n 0).getD 0) 0)
    else s
  | none => s

/-- The GTB has reached the end of a partition's window (R203). -/
def Part.windowOver (p : Part) (now : Nat) : Bool := p.winEnd.any fun e => decide (e ≤ now)

/-- TILE_COMMIT (R201 steps 3 and 4, R202, R203, R294, R295, R302): on one cycle for the whole partition; a commit at the end of the
window is an overrun (R48). Here a partition holds while PERST_N is asserted (R548) and halts for the debugger (R602). -/
def tileCommit (n : Nat) (s : State) : State :=
  let p := s.part n
  if !p.advancing || (s.refsOf n).isEmpty || !(s.refsOf n).all (fun r => (s.core r.k).hasMet) then s
  else if p.windowOver s.now then budgetExpire n s
  else
    match commitFault s n with
    | some (r, f) => s.raise n r.c r.k f
    | none =>
      let last := allHalt s n
      let halt := p.dbgReq && !last
      let s1 := s.updCoresOf n fun k =>
        let k1 := k.commitTile p.cyc s.now
        { k1 with watched := k1.watched && !halt }
      s1.setPart n { p with
        halted := p.halted || halt, dbgReq := p.dbgReq && !halt, winStart := s.now
        winEnd := if halt then none else (commitBudget s n).map (s.now + ·), budget := (commitBudget s n).getD p.budget
        tileProg0 := p.cycProg, xqDrop := satAdd64 p.xqDrop (haltDrops s n)
        slip := if last then satAdd64 p.slip p.slipOf else p.slip
        run := p.run.map fun i => { i with tiles := i.tiles + 1 }, atYield := !last, issuedCores := [], rested := false
        perstHold := s.host.perst || s.bs.paused }

/-! ### The rows -/

/-- TILE_SETTLE_MEET (R201). -/
def execTileSettleMeet (pt : Pt) (c : LCore) (s : State) : Out := onCore s pt c fun r => settleMeet s r
/-- TILE_COMMIT (R201). -/
def execTileCommit (pt : Pt) (s : State) : Out := .next (tileCommit pt.toNat s)
/-- TILE_BUDGET_EXPIRE (R203). -/
def execTileBudgetExpire (pt : Pt) (s : State) : Out := .next (budgetExpire pt.toNat s)

end Sys2Proof.Machine
end

