-- ==== Sys2Proof/Machine/Contexts.lean ====
section
/-! DEFINITION. Contexts on the cores (13_contexts_serving.md R417 to R421, R428): saving and restoring them, the switch at
a yield point, column repairs that wait for one (R131), and their configuration (R418). -/

namespace Sys2Proof.Machine

/-- The bytes of one core's part of a save area (R418). -/
def corePart : Nat := 10027008

/-- An area is written whose layout the spec leaves open (log 9), under a seed of its own. -/
def State.writeOpen (s : State) (base len : Nat) : State :=
  { s with mem := s.mem.openArea base len (s.free + 1), free := s.free + 1 }

/-- What a core's context holds (R417, R420): its VALID lines, its slots with their tags, its commit state. -/
def Core.save (k : Core) : SavedCore :=
  ⟨k.bench.filter fun e => e.2.st == .valid, k.pb, k.commit, k.seq == .halted⟩

/-- A core with a saved context in place of its own (R420). -/
def Core.load (k : Core) (v : SavedCore) : Core :=
  { (k.restore v.commit k.nextAt) with
      commit := v.commit, bench := v.bench, pb := v.pb, arrays := [], v := [], seq := if v.halted then .halted else .noKernel
      xfers := [], maxReds := [], pbOps := [], pbIssued := 0, pbSuppress := 0, carried := 0, issuedXfers := 0, streamFree := 0
      pbPort := [] }

/-- A context is live (R426): it may run entries. -/
def Ctx.live (c : Ctx) : Bool :=
  match c.st with
  | .idle | .resident | .running => true
  | _ => false

/-- The copy of a context that runs on a partition is its secondary one. -/
def Ctx.secondOn (c : Ctx) (n : Nat) : Bool := c.express && c.pt.toNat != n

/-- The saved cores of the copy that runs on a partition. -/
def Ctx.savedOn (c : Ctx) (n : Nat) : SMap SavedCore := if c.secondOn n then c.saved2 else c.saved

/-- The context with the saved cores of one copy replaced. -/
def Ctx.setSaved (c : Ctx) (n : Nat) (m : SMap SavedCore) : Ctx :=
  if c.secondOn n then { c with saved2 := m } else { c with saved := m }

/-- The save area of the copy that runs on a partition. -/
def Ctx.areaOn (c : Ctx) (n : Nat) : Nat := (if c.secondOn n then c.save2 else c.save).toNat

/-- What the cores of a partition hold of their context. -/
def State.snapshot (s : State) (n : Nat) : SMap SavedCore :=
  (s.coresOf n).foldl (fun m e => smapSet .fresh m e.1 (s.core e.2).save) []

/-- A context's saved cores put on the cores of a partition. -/
def State.loadCores (s : State) (n : Nat) (m : SMap SavedCore) : State :=
  (s.coresOf n).foldl (fun s e => s.updCore e.2 fun k => k.load (smapGet .fresh m e.1)) s

/-- The program of a kernel in the stores of a partition's cores (R191). -/
def Core.loadProg (k : Core) (p : CoreProg) : Core :=
  { k with prog := p.bundles.zipIdx.foldl (fun m b => smapSet 0 m b.2 b.1) [], progLen := p.bundles.length }

/-- A kernel of a context's Loaf. -/
def State.kernelOf (s : State) (c : Ctx) (num : Nat) : Option Kernel :=
  match (s.loaf c.loaf.toNat).image with
  | some i => i.kernels.find? fun k => k.number.toNat == num
  | none => none

/-- Every core's program of a kernel written into its store (R191). -/
def State.loadProgs (s : State) (n : Nat) (k : Kernel) : State :=
  (s.coresOf n).foldl (fun s e => s.updCore e.2 fun c => c.loadProg (k.progs.getD e.1 ⟨0, []⟩)) s

/-- A kernel's run leaves the cores: its counts so far replace the counters at its start (R302). -/
def Part.suspend (p : Part) (i : RunInfo) : RunInfo :=
  { i with prog0 := p.cycProg - i.prog0, reexec0 := p.cycReexec - i.reexec0, budget := p.budget }

/-- What a core holds of its kernel alone (R192, R202). -/
def Core.kernelRegs (k : Core) : KernelRegs := ⟨k.commit.pc, k.commit.s, k.commit.p, k.commit.loops, k.seq == .halted⟩

/-- A core goes on with a kernel that had yielded. -/
def Core.loadRegs (k : Core) (v : KernelRegs) : Core :=
  { k with pc := v.pc, s := v.s, p := v.p, loops := v.loops, seq := if v.halted then .halted else .noKernel
           commit := { k.commit with pc := v.pc, s := v.s, p := v.p, loops := v.loops } }

/-- The context on a partition leaves its cores (R420): it is saved to its area, and a kernel that has not ended waits to be
resumed. A DEAD context is not saved. -/
def State.switchOut (s : State) (n : Nat) : State :=
  let p := s.part n
  match p.ctx with
  | none => s
  | some cn =>
    let c := s.ctx cn
    let s1 :=
      if c.live then
        let m := s.snapshot n
        let s0 := s.setCtx cn ({ c with st := .idle }.setSaved n m)
        s0.writeOpen (c.areaOn n) (p.count.toNat * corePart)
      else s
    let s2 := match p.run, s.runningEntry n with
      | some i, some a => s1.updEntry a.idx fun a => 
        { a with saved := some (p.suspend i)
                 regs := (s.coresOf n).foldl (fun m (e : Nat × Nat) => smapSet .zero m e.1 (s.core e.2).kernelRegs) [] }
      | _, _ => s1
    (s2.endRun n).updPart n fun p => { p with ctx := none }

/-- The entry of a context whose background kernel has yielded on a partition. -/
def State.suspendedEntry (s : State) (cn : Nat) : Option Admitted :=
  s.bs.run.find? fun a => a.ctx == cn && a.saved.isSome

/-- A suspended kernel goes on (R428, R482): its program, its budget window from now, and the watch of its cores
(DEDUCED from R482 and R602 that the window opens at the resume, log 42). -/
def State.resumeRun (s : State) (n : Nat) (a : Admitted) (i : RunInfo) : State :=
  let s1 := match s.kernelOf (s.ctx a.ctx) a.kernel with
    | some k => s.loadProgs n k
    | none => s
  let s0 := (s1.coresOf n).foldl (fun s e => s.updCore e.2 fun k => k.loadRegs (smapGet .zero a.regs e.1)) s1
  let s2 := s0.updCoresOf n fun k =>
    { k with seq := if k.seq = .halted then .halted else .issuing, watched := k.seq != .halted, lastBeat := s.now
             nextAt := (s.part n).cyc }
  let s3 := s2.updPart n fun p =>
    { p with run := some { i with prog0 := p.cycProg - i.prog0, reexec0 := p.cycReexec - i.reexec0 }
             winStart := s.now, winEnd := some (s.now + i.budget), budget := i.budget, tileProg0 := p.cycProg
             issuedCores := [], rested := false, atYield := false }
  (s3.updEntry a.idx fun b => { b with saved := none, regs := [] }).setCtx a.ctx { s3.ctx a.ctx with st := .running }

/-- An entry waits to start on a partition. -/
def Admitted.waitsOn (a : Admitted) (c : Ctx) (n : Nat) : Bool :=
  if c.isPrimary n then a.primary == .waiting else a.express && c.pt2.toNat == n && a.secondary == .waiting

/-- The entries that wait to start on a partition, in admission order (R428). -/
def State.waiting (s : State) (n : Nat) : List Admitted := s.bs.run.filter fun a => a.waitsOn (s.ctx a.ctx) n

/-- A background kernel runs on a partition (R428). -/
def Part.bgRun (p : Part) : Bool := match p.run with
  | some i => i.background
  | none => false

/-- The first deadline entry that waits to start on a partition (R428). -/
def State.waitingDeadline (s : State) (n : Nat) : Option Admitted := (s.waiting n).find? fun a => a.deadline != 0

/-- The incoming context of a switch takes the cores from the outgoing one (R420). -/
def State.takeCores (s : State) (n cn : Nat) : State :=
  let s1 := (s.switchOut n).loadCores n ((s.ctx cn).savedOn n)
  (s1.updPart n fun p => { p with ctx := some cn }).setCtx cn { s1.ctx cn with st := .resident }

/-- The context switch of R420: the incoming context takes the cores. A kernel of it that has yielded goes on, unless a
deadline entry waits, which its context may come to run (R428). -/
def State.switchTo (s : State) (n cn : Nat) : State :=
  let p := s.part n
  let c := s.ctx cn
  if p.inReset || p.frozen || p.halted || s.stoppedOn n || !p.replay.isEmpty ||
      (p.run.isSome && !(p.atYield && p.bgRun)) || !c.live || !c.pts.contains n then s
  else
    match (s.suspendedEntry cn).bind fun a => a.saved.map fun i => (a, i) with
    | some (a, i) =>
      match s.waitingDeadline n with
      | some b => if p.ctx == some cn || b.ctx != cn then s else s.takeCores n cn
      | none => (if p.ctx == some cn then s else s.takeCores n cn).resumeRun n a i
    | none => if p.ctx == some cn then s else s.takeCores n cn

/-- A Crust register holds a map that waits for a TILE (R131, R601): a core map or a repair map. -/
def isMapOffset (off : Nat) : Bool :=
  (0x060_2000 ≤ off && off < 0x060_2080) || (0x060_4000 ≤ off && off < 0x060_5A00 && off % 0x40 < 0x10)

/-- The hearth die that a core map or repair map belongs to. -/
def mapDie (off : Nat) : Nat := if off < 0x060_2080 then (off - 0x060_2000) / 0x20 else (off - 0x060_4000) / 0x40 / 26

/-- The physical core whose repair map stands at an offset, if it is one. -/
def mapCoreOf (off : Nat) : Option Nat := if 0x060_4000 ≤ off then some ((off - 0x060_4000) / 0x40) else none

/-- A map's new word concerns a partition: the repair map of one of its cores, or an entry of its die's core map that changes
one of its cores. -/
def State.mapConcerns (s : State) (n : Nat) (w : Nat × Word) : Bool :=
  match mapCoreOf w.1 with
  | some k => (s.coresOf n).any fun e => e.2 == k
  | none =>
    let p := s.part n
    p.die.toNat == mapDie w.1 && (List.range 4).any fun i =>
      let l := w.1 % 0x20 + i
      decide (p.first.toNat ≤ l) && decide (l < p.first.toNat + p.count.toNat) &&
        fieldOf w.2 (8 * i) 8 != fieldOf (s.crust.read w.1) (8 * i) 8

/-- Maps that wait and concern a partition take effect at its TILE boundary (R131). -/
def State.applyMaps (s : State) (n : Nat) : State :=
  let hit := s.crust.waiting.filter fun w => s.mapConcerns n w
  let c := hit.foldl (fun c w => c.put w.1 w.2) s.crust
  { s with crust := { c with waiting := c.waiting.filter fun w => !s.mapConcerns n w } }

/-- A checkpoint of the context of a partition (R466): the copy that does not hold the last one takes it, its lines' dirty
bits clear, and the journal is empty. -/
def State.checkpoint (s : State) (n : Nat) : State :=
  let p := s.part n
  match p.ctx with
  | none => s
  | some cn =>
    let c := s.ctx cn
    let free := !(s.bs.run.any fun a => a.deadline != 0 && (s.ctx a.ctx).pts.contains n)
    if c.express || !c.live || c.stopped || !p.replay.isEmpty || !(p.atYield || p.run.isNone) || !free then s
    else
      let copy := !c.lastCopy
      let s1 := s.setCtx cn { c with
        ckpt := some (s.snapshot n), lastCopy := copy, jrnlFull := false, journal := [], ckptGtb := s.now, since := []
        ckptRun := match p.run, s.runningEntry n with
          | some i, some a => some (a, p.suspend i)
          | _, _ => none }
      let s2 := s1.updCoresOf n fun k =>
        { k with bench := (k.bench.map fun e =>
            (e.1, if copy then { e.2 with dirty1 := false } else { e.2 with dirty0 := false })).filter (fun e => e.2 != .empty) }
      s2.writeOpen (c.rwd.toNat + b2n copy * (p.count.toNat * corePart)) (p.count.toNat * corePart)

/-- The background kernel of a partition gives way at its TILE: a deadline entry waits (R428). -/
def State.mustYield (s : State) (n : Nat) : Bool := (s.part n).atYield && (s.part n).bgRun && (s.waitingDeadline n).isSome

/-- TILE_YIELD (R201 step 5): the partition goes on, unless its background kernel must yield, switches, takes a repair map, or is
checkpointed. -/
def tileYield (n : Nat) (a : YieldAct) (s : State) : State :=
  if !(s.part n).atYield then s
  else
    match a with
    | .none => if s.mustYield n then s.switchOut n else s.updPart n fun p => { p with atYield := false }
    | .switch cn => s.switchTo n cn.toNat
    | .repair => s.applyMaps n
    | .checkpoint => s.checkpoint n

/-! ### Configuration (R418, R473) -/

/-- Two ranges of addresses overlap. -/
def rangesMeet (a la b lb : Nat) : Bool := decide (a < b + lb) && decide (b < a + la)

/-- The checks of R418 on a context about to be created. -/
def State.ctxBad (s : State) (c : Ctx) : Bool :=
  let count := (s.part c.pt.toNat).count.toNat
  let area := count * corePart
  let top := s.mem.hostTop
  let rwdLen := 2 * area + c.jsize.toNat * mib
  c.pts.any (fun n => (s.part n).count == 0) || (s.loaf c.loaf.toNat).st != .ready ||
    (s.model c.model.toNat).cur.isNone ||
    decide (top < c.save.toNat + area) || (c.express && decide (top < c.save2.toNat + area)) ||
    (!c.express && (c.jsize == 0 || decide (c.rwd.toNat % 256 ≠ 0) || decide (top < c.rwd.toNat + rwdLen) ||
      rangesMeet c.rwd.toNat rwdLen c.save.toNat area))

/-- An entry of a context is admitted and not complete. -/
def State.ctxBusy (s : State) (cn : Nat) : Bool := s.bs.run.any fun a => a.ctx == cn

/-- CTX_CFG_WRITE (R418) of the selected context. -/
def ctxCfgWrite (v : Word) (s : State) : State :=
  let cn := s.bs.ctxSel.toNat
  let c := s.ctx cn
  let en := v.getLsbD 31
  let new : Ctx := { c with pt := v.extractLsb' 0 4, pt2 := v.extractLsb' 4 4, express := v.getLsbD 8
                            loaf := v.extractLsb' 9 4, model := v.extractLsb' 13 4, ctxlen := v.extractLsb' 17 2
                            en := en }
  if c.st = .free ∨ c.st = .dead then
    let s0 := (List.range 16).foldl (fun s n =>
      if (s.part n).ctx = some cn then s.updPart n fun p => { p with ctx := none } else s) s
    if !en then s0.setCtx cn { new with st := .free, bad := false }
    else if s.ctxBad new then s0.setCtx cn { new with st := .free, bad := true }
    else
      s0.setCtx cn { new with st := .idle, bad := false, unpaired := false, code := 0, lastCopy := false
                              jrnlFull := false, rewinds := 0, ckptGtb := 0, saved := [], saved2 := [], ckpt := none
                              journal := [], replay := [], ckptRun := none, since := [], redo := [], stopped := false
                              lost1 := false, lost2 := false }
  else if !en && !s.ctxBusy cn then
    let s0 := (List.range 16).foldl (fun s n =>
      if (s.part n).ctx = some cn then s.updPart n fun p => { p with ctx := none } else s) s
    s0.setCtx cn { new with st := .free }
  else s

/-! ### Loaf slots (R419, R569) -/

/-- The bytes of an ASCII tag. -/
def asciiBytes (t : String) : List Byte := t.toList.map fun c => BitVec.ofNat 8 c.toNat

/-- The signed message of an object (R554). -/
def signedMessage (tag : String) (covered : List Byte) : List Byte :=
  asciiBytes tag ++ natBytes 64 (Config.sha512 covered).toNat

/-- Both signatures of an object, in the order of R554: 0 for none failed, 1 Ed25519, 2 ML-DSA-65. The key bytes are the
32-byte Ed25519 key followed by the ML-DSA-65 key (R552). -/
def verifyBoth (keys : List Byte) (tag : String) (covered ed ml : List Byte) : Nat :=
  let m := signedMessage tag covered
  if !Config.ed25519Verify (keys.take 32) m ed then 1
  else if !Config.mldsa65Verify (keys.drop 32) m ml then 2
  else 0

/-- The Recipe ID of the part (R326). -/
def recipeId : DWord := 0x0001_0101_0130_0101

/-- A context names a Loaf slot. -/
def State.loafNamed (s : State) (i : Nat) : Bool := s.ctxs.any fun e => e.2.en && e.2.loaf.toNat == i

/-- The state with a Loaf slot replaced. -/
def State.setLoaf (s : State) (i : Nat) (v : LoafSlot) : State := { s with loafs := smapSet .reset s.loafs i v }

/-- LOAF_LOAD (R419, R569): a slot that holds no READY Loaf starts to be verified. -/
def loafLoad (s : State) : State :=
  let i := s.bs.loafSel.toNat
  let l := s.loaf i
  if l.st = .empty ∨ l.st = .refused then s.setLoaf i { l with st := .verifying, base := l.addr, image := none, keys := s.sec.pubs }
  else s

/-- A bundle from its 32 bytes, lowest first (R179). -/
def bundleOf (bs : List Byte) : Bundle := BitVec.ofNat 256 (bytesNat bs)

/-- A core's program in a Loaf at an address (R179, R189). -/
def Mem.prog (m : Mem) (base : Nat) (p : ProgAt) : CoreProg :=
  ⟨p.entry, (List.range p.len.toNat).map fun i => bundleOf (m.readRun (base + p.off.toNat + 32 * i) 32).1⟩

/-- The WCET entry at an address (R305). -/
def Mem.wcet (m : Mem) (a : Nat) : Wcet :=
  { tiles := m.field (a + 4) 4, cPlan := m.field (a + 8) 8, cTile := m.field (a + 16) 4, tMem := m.field (a + 20) 4
    tMemTile := m.field (a + 24) 4, nFab := m.field (a + 28) 2, nFabTile := m.field (a + 30) 2, nHost := m.field (a + 32) 2
    nHostTile := m.field (a + 34) 2 }

/-- Where a kernel's WCET entry stands in a Loaf: the first entry of its section with the kernel's number (R305). -/
def Mem.wcetAt (m : Mem) (base : Nat) (h : LoafHead) (number : Nat) : Option Nat :=
  ((List.range h.kernels).map fun i => base + h.wcets.off.toNat + 64 * i).find? fun a => m.field a 4 == number

/-- A kernel of a Loaf at an address; none where it has no WCET entry. -/
def Mem.kernel (m : Mem) (base : Nat) (h : LoafHead) (d : KernelDesc) : Option Kernel :=
  (m.wcetAt base h d.number.toNat).map fun a => ⟨d.number, d.cores, d.budget, d.argc, d.progs.map (m.prog base), m.wcet a⟩

/-- The signatures of a Loaf at an address verify against the publisher slot that its signature block names: they cover every byte
before their section (R553, R554, R569). -/
def Mem.loafSigned (m : Mem) (base : Nat) (h : LoafHead) (keys : SMap (Option (List Byte))) : Bool :=
  let at' := base + h.signatures.off.toNat
  let bytes := fun a n => (m.readRun a n).1
  match smapGet none keys (m.field at' 1) with
  | some ks => verifyBoth ks "DXLOAF01" (bytes base h.signatures.off.toNat) (bytes (at' + 4) 64) (bytes (at' + 68) 3309) == 0
  | none => false

/-- LOAF_VERIFY_DONE (R419, R190, R554, R569): READY when both signatures and the Recipe ID are right. A kernel without a WCET entry
is not in the Loaf (DEDUCED, log 13). -/
def loafVerifyDone (i : Nat) (h : LoafHead) (s : State) : State :=
  let l := s.loaf i
  if l.st ≠ .verifying then s
  else if s.mem.loafSigned l.base.toNat h l.keys && h.recipe == recipeId then
    s.setLoaf i { l with st := .ready, image := some ⟨h, h.table.filterMap (s.mem.kernel l.base.toNat h)⟩, keys := [] }
  else s.setLoaf i { l with st := .refused, image := none, keys := [] }

/-- LOAF_UNLOAD (R419): refused while a context names the slot. -/
def loafUnload (s : State) : State :=
  let i := s.bs.loafSel.toNat
  if s.loafNamed i then s else s.setLoaf i { s.loaf i with st := .empty, image := none }

/-! ### The rows -/

/-- TILE_YIELD (R201). -/
def execTileYield (pt : Pt) (a : YieldAct) (s : State) : Out := .next (tileYield pt.toNat a s)
/-- CONTEXT_SWITCH (R420). -/
def execContextSwitch (pt : Pt) (ctx : CtxNo) (s : State) : Out := .next (s.switchTo pt.toNat ctx.toNat)
/-- CHECKPOINT (R466). -/
def execCheckpoint (pt : Pt) (s : State) : Out := .next (s.checkpoint pt.toNat)
/-- CTX_CFG_WRITE (R418). -/
def execCtxCfgWrite (v : Word) (s : State) : Out := .next (s.hostReg 0x080_0104 fun s => ctxCfgWrite v s)
/-- LOAF_LOAD (R419). -/
def execLoafLoad (s : State) : Out := .next (s.hostReg 0x080_020C fun s => loafLoad s)
/-- LOAF_VERIFY_DONE (R419). -/
def execLoafVerifyDone (slot : BitVec 4) (head : LoafHead) (s : State) : Out := .next (loafVerifyDone slot.toNat head s)
/-- LOAF_UNLOAD (R419). -/
def execLoafUnload (s : State) : Out := .next (s.hostReg 0x080_020C fun s => loafUnload s)

end Sys2Proof.Machine
end

