-- ==== Sys2Proof/Machine/Serving.lean ====
section
/-! DEFINITION. The Batch Sheet (13_contexts_serving.md R422 to R436): admission at a tick, the start and the completion of
kernels (R192, R212, R318 to R320), completion records, Express pairs, aborts. -/

namespace Sys2Proof.Machine

/-! ### Entries and records -/

/-- The address of a Batch Sheet entry (R422). -/
def BatchSheet.entryAt (b : BatchSheet) (idx : Nat) : Nat := b.base.toNat + 256 * idx

/-- The bytes of a completion record (R431). -/
def Completion.bytes (c : Completion) (now : Nat) : List Byte :=
  let late := c.deadline != 0 && !c.reject && decide (c.deadline ≤ now)
  natBytes 2 c.idx ++ natBytes 1 c.status ++ natBytes 1 c.code ++ natBytes 4 c.tag.toNat ++ natBytes 8 now ++
    natBytes 8 c.startGtb ++ natBytes 4 (min c.slip (2 ^ 32 - 1)) ++ natBytes 1 (c.flags + 16 * b2n late) ++ natBytes 3 0

/-- Entries that are bound to a generation of a model slot: admitted ones and those whose record is still to be written
(R437). -/
def State.boundCount (s : State) (model : Nat) (gen : Word) : Nat :=
  (s.bs.run.filter fun a => a.model == model && a.gen == gen).length +
    (s.bs.due.filter fun c => c.model == model && c.gen == gen && !c.reject).length

/-- The region of a generation overlaps another (R441). -/
def GenInfo.overlaps (g h : GenInfo) : Bool := rangesMeet g.base.toNat g.len.toNat h.base.toNat h.len.toNat

/-- What the end of bound entries does to a model slot (R440, R441): a retiring generation with none left is released, a
CLOSED slot's current one as well, and a load that waits for memory goes on when nothing overlaps it. -/
def State.genRelease (s : State) (i : Nat) : State :=
  let m := s.model i
  let free := fun (g : Option GenInfo) => match g with
    | some x => s.boundCount i x.id == 0
    | none => false
  let m := if free m.old then { m with old := none } else m
  let m := if m.closed && free m.cur then { m with cur := none } else m
  let hit := fun (g : Option GenInfo) => match g, m.load with
    | some x, some y => y.overlaps x
    | _, _ => false
  s.setModel i (if m.st = .waitMemory && !hit m.cur && !hit m.old then { m with st := .loading } else m)

/-- A completion record is written (R431, R436, R440, R543, R544): the record, CT_HEAD, the entry's STATE, the messages; the
sequences are free again, and a generation may be released. -/
def State.writeCompletion (s : State) (c : Completion) : State :=
  let b := s.bs
  let s0 := (s.memPut (b.ctBase.toNat + 32 * b.ctHead) (c.bytes s.now)).memPut (b.entryAt c.idx) [if c.reject then 3 else 4]
  let busy := b.seqBusy.filter fun q => !(c.seqFirst ≤ q && q < c.seqFirst + c.seqCount)
  let s1 := { s0 with bs := { b with ctHead := (b.ctHead + 1) % max b.ctSize.toNat 1, seqBusy := busy } }
  let s2 := match c.msix with
    | some v => s1.sendMsix 0 v
    | none => s1
  let s3 := match c.ctx with
    | some cn => s2.sendMsix ((s2.ctx cn).pt.toNat + 1) 2
    | none => s2
  s3.genRelease c.model

/-- COMPLETION_WRITE (R431): the oldest record that waits. -/
def completionWrite (s : State) : State :=
  match s.bs.due with
  | [] => s
  | c :: cs => ({ s with bs := { s.bs with due := cs } }).writeCompletion c

/-! ### Admission (R425 to R427) -/

/-- The data rate of a memory build in MT/s (R346). -/
def memRate (code : Nat) : Nat :=
  match code with
  | 0 => 10667
  | 1 => 9600
  | 2 => 8533
  | _ => 6400

/-- A weight of R370. -/
def Mem.qos (m : Mem) (n : Nat) : Nat := (smapGet 16 m.qosPt n).toNat

/-- The guaranteed share of a partition in bytes per ns (R365), with the exact payload of a group, 16 bytes per transfer of
its ten channels (DEDUCED from R346, log 42). -/
def State.share (s : State) (n : Nat) : Rat :=
  let total := s.mem.qosHub.toNat + ((List.range 16).map s.mem.qos).sum
  if total = 0 then 0
  else (s.mem.qos n * s.mem.activeCount * memRate s.fuse.memCode.toNat * 16 : Nat) / ((total * 1000 : Nat) : Rat)

/-- The switch bound of R421 at the full size of two contexts (R427); none where the share is 0. -/
def State.switchBound (s : State) (n : Nat) : Option Rat :=
  if s.share n = 0 then none
  else some (20000 + ((2 * (s.part n).count.toNat * 9961472 : Nat) : Rat) / s.share n)

/-- base() of R304, in ns at a floor in MHz. -/
def wcetBase (mhz c tm nf nh : Nat) : Rat :=
  ((c * 1000 : Nat) : Rat) / (mhz : Rat) * (101 / 100) + (4 / 100) * (tm : Rat) + (nf * 1200 + nh * 2000 : Nat)

/-- The WCET of R304 rounded up. -/
def wcetTotal (w : Wcet) (mhz : Nat) : Nat :=
  (wcetBase mhz w.cPlan w.tMem w.nFab w.nHost + wcetBase mhz w.cTile w.tMemTile w.nFabTile w.nHostTile + 1000).ceil.toNat

/-- The admitted entries that name a partition, in admission order. -/
def State.entriesOn (s : State) (n : Nat) : List Admitted := s.bs.run.filter fun a => (s.ctx a.ctx).pts.contains n

/-- F_P of R427. -/
def State.lastProjected (s : State) (n g : Nat) : Rat :=
  match ((s.entriesOn n).filter fun a => a.deadline != 0).getLast? with
  | some a => a.projected
  | none => (g : Nat)

/-- W of R427. -/
def State.bgWindow (s : State) (n g : Nat) : Nat :=
  let p := s.part n
  if p.bgRun then p.winEnd.getD g else g

/-- The context a partition will hold when its last admitted deadline entry ends, or else the one it holds (DEDUCED, log 42). -/
def State.heldCtx (s : State) (n : Nat) : Option Nat :=
  match ((s.entriesOn n).filter fun a => a.deadline != 0).getLast? with
  | some a => some a.ctx
  | none => (s.part n).ctx

/-- The projected completion C of R427; none where a switch has no bound. -/
def State.project (s : State) (cn : Nat) (w : Wcet) (g : Nat) : Option Rat :=
  let pts := (s.ctx cn).pts
  let start := pts.foldl (fun m n => max m (max (s.lastProjected n g) ((s.bgWindow n g : Nat) : Rat))) ((g : Nat) : Rat)
  let x := pts.foldl (fun m n =>
    match m, (if s.heldCtx n = some cn then some 0 else s.switchBound n) with
    | some a, some b => some (max a b)
    | _, _ => none) (some (0 : Rat))
  x.map fun x => start + x + ((wcetTotal w s.power.floorMhz : Nat) : Rat) + 2000

/-- The checks of R436 on one sequence. -/
def State.seqOk (s : State) (i cn tokens : Nat) : Bool :=
  let a := s.bs.seqBase.toNat + 32 * i
  let len := s.mem.field (a + 4) 4
  decide (i < 2048) && s.mem.field a 1 == 1 && s.mem.field (a + 1) 1 == cn &&
    decide (len + tokens ≤ 64 * s.mem.field (a + 8) 4) && decide (len + tokens ≤ 4096 * 2 ^ (s.ctx cn).ctxlen.toNat)

/-- The link makes no promise to the host tier (R532, R546). Before a first training it reads the reset value of R551
(DEDUCED, log 35). -/
def State.degraded (s : State) : Bool :=
  s.host.trained && !(s.host.gen == 6 && s.host.width == 16 && s.host.flit) || (s.host.l0p && s.power.st == .w0)

/-- What becomes of an entry at its tick (R426). -/
inductive Decision where
  | reject (reason : Nat)
  | hold
  | enter (a : Admitted)
deriving DecidableEq, Repr

/-- The host region's bytes of an entry by their place (R423). -/
def State.entryField (s : State) (idx off len : Nat) : Nat := s.mem.field (s.bs.entryAt idx + off) len

/-- The class a partition takes (R426). -/
def BatchSheet.classOf (b : BatchSheet) (n : Nat) : Nat := b2n (smapGet false b.ptExpress n)

/-- The decision on an entry at tick g, by the checks of R426 in their order. An entry whose model slot is CLOSED is held
before any of them (R441). -/
def State.decideEntry (s : State) (idx g : Nat) : Decision :=
  let f := s.entryField idx
  let cls := f 1 1
  let cn := f 2 1
  let c := s.ctx cn
  let known := decide (cn < 64) && c.st != .free
  let ms := c.model.toNat
  let m := s.model ms
  let n := f 20 1
  let d := f 8 8
  let gen := f 16 4
  let q0 := f 22 2
  let qn := f 24 2
  if known && m.closed then .hold
  else if known && c.livePts.any (fun p => (s.part p).inReset || (s.part p).hold || s.bs.classOf p != cls) then .reject 1
  else if !known || !c.live || b2n c.express != cls then .reject 2
  else
    match s.kernelOf c (f 4 2) with
    | none => .reject 3
    | some k =>
      if n != k.argc.toNat || c.livePts.any (fun p => (s.part p).count != k.cores) then .reject 3
      else if d != 0 && d ≤ g then .reject 4
      else if c.express && d == 0 then .reject 5
      else
        match m.cur with
        | none => .reject 6
        | some cur =>
          if gen != 0 && gen != cur.id.toNat then .reject 6
          else if (List.range qn).any fun i => !s.seqOk (q0 + i) cn (f 26 2) then .reject 7
          else if c.pts.any (fun p => decide (64 ≤ (s.entriesOn p).length)) then .reject 8
          else
            let c? := s.project cn k.wcet g
            let fits := match c? with
              | some x => decide (x < ((d : Nat) : Rat)) && !(s.degraded && k.wcet.nHost != 0)
              | none => false
            if d != 0 && !fits then .reject 9
            else
              let args := (List.range n).map fun i => if i = f 21 1 then cur.base else BitVec.ofNat 64 (f (64 + 8 * i) 8)
              let fl := f 3 1
              .enter
                { idx := idx, serial := s.bs.serial, express := c.express, ctx := cn, kernel := f 4 2, deadline := d, gen := cur.id, model := ms
                  args := args
                  setStep := if fl.testBit 0 then some (BitVec.ofNat 32 (f 28 4)) else none
                  setSeed := if fl.testBit 1 then some (BitVec.ofNat 64 (f 32 8)) else none
                  msix := if fl.testBit 2 then some (f 6 2) else none
                  tag := BitVec.ofNat 32 (f 40 4), shadowMask := BitVec.ofNat 16 (f 44 2)
                  shadowOff := BitVec.ofNat 64 (f 48 8), seqFirst := q0, seqCount := qn
                  projected := c?.getD 0, started := false, startGtb := 0, slip := 0, slip2 := 0, poison1 := false, poison2 := false
                  primary := if c.lost1 then .lost else .waiting
                  secondary := if c.lost2 then .lost else .waiting
                  crumbs1 := [], crumbs2 := [], saved := none, regs := [] }

/-- A STATE byte of an entry. -/
def State.setEntryState (s : State) (idx : Nat) (st : Byte) : State :=
  s.memPut (s.bs.entryAt idx) [st]

/-- A decision takes effect (R425, R426, R436): a rejected entry has its reason and its record at once. -/
def State.applyDecision (s : State) (idx : Nat) (was : Bool) : Decision → State
  | .hold =>
    if was then s
    else { s.setEntryState idx 5 with bs := { s.bs with held := natSetInsert s.bs.held idx } }
  | .reject r =>
    let f := s.entryField idx
    let cn := f 2 1
    let c : Completion :=
      { idx := idx, status := 2, code := r, tag := BitVec.ofNat 32 (f 40 4), startGtb := 0, slip := 0
        flags := b2n (decide (cn < 64) && (s.ctx cn).st != .free && (s.ctx cn).unpaired) * 8
        deadline := f 8 8, msix := if (f 3 1).testBit 2 then some (f 6 2) else none
        ctx := if cn < 64 && (s.ctx cn).st != .free then some cn else none
        model := (s.ctx cn).model.toNat, gen := 0, seqFirst := 0, seqCount := 0, reject := true }
    let s1 := { s.memPut (s.bs.entryAt idx + 46) [BitVec.ofNat 8 r] with
                       bs := { s.bs with held := natSetErase s.bs.held idx, rejected := satAdd32 s.bs.rejected 1 } }
    s1.writeCompletion c
  | .enter a =>
    let busy := (List.range a.seqCount).foldl (fun q i => natSetInsert q (a.seqFirst + i)) s.bs.seqBusy
    { s.setEntryState idx 2 with
        bs := { s.bs with held := natSetErase s.bs.held idx, admitted := satAdd32 s.bs.admitted 1, serial := s.bs.serial + 1
                          run := s.bs.run ++ [a], seqBusy := busy } }

/-- An ACTIVATE takes effect at a tick (R440), with no retiring generation left (DEDUCED from R437, log 42); a CLOSE takes effect at
the tick after it (R441), and ends with it. -/
def State.genTick (s : State) (i : Nat) : State :=
  let m := s.model i
  let m := if m.closeReq then { m with closed := true, closeReq := false } else m
  let m := if m.activate && m.st == .verified && m.old.isNone then
      { m with old := m.cur, cur := m.load, load := none, shards := [], st := .none, activate := false, closed := false }
    else m
  (s.setModel i m).genRelease i

/-- The scanner reads entries from BS_SCAN on, at most `k` (R425): it passes those that are READY. -/
def State.scan (s : State) (g : Nat) : Nat → State
  | 0 => s
  | k + 1 =>
    let i := s.bs.scan
    if s.entryField i 0 1 != 1 then s
    else
      let s1 := { s with bs := { s.bs with scan := (i + 1) % max s.bs.size.toNat 1 } }
      State.scan (s1.applyDecision i false (s1.decideEntry i g)) g k

/-- The last admission tick at or before a time (R49). -/
def tickOf (t : Nat) : Nat := t - t % 10000

/-- ADMISSION_TICK (R39, R425, R499, R524, R525): generations first, then held entries in index order, then new ones. Outside
W0 nothing is decided; in W1 to W3 a READY entry is a wake event. -/
def admissionTick (s : State) : State :=
  let g := tickOf s.now
  if g ≤ s.bs.lastTick then s
  else
    let s0 := { s with bs := { s.bs with lastTick := g, sawReady := s.entryField s.bs.scan 0 1 == 1 || !s.bs.held.isEmpty } }
    let s1 := (List.range 16).foldl State.genTick s0
    if !s1.bs.en || !s1.bs.scanner || s1.bs.paused || s1.host.perst || s1.sec.boot != 1 then s1
    else
      match s1.power.st with
      | .w0 =>
        if s1.power.exiting then s1
        else
          let s2 := s1.bs.held.foldl (fun s i => s.applyDecision i true (s.decideEntry i g)) s1
          s2.scan g 256
      | .w1 | .w2 | .w3 =>
        if s1.entryField s1.bs.scan 0 1 == 1 || !s1.bs.held.isEmpty then
          { s1 with power := { s1.power with exiting := true, target := .w0 }, host := { s1.host with l0p := false } } else s1
      | _ => s1

/-! ### Kernels -/

/-- The next entry to start on a partition (R428): deadline entries in admission order, and a background entry only while
none waits and none is suspended there; a suspended one whose context has died is to end. A rewound partition first runs again what its checkpoint
does not hold (R470). -/
def State.nextEntry (s : State) (n : Nat) : Option Admitted :=
  let ws := s.waiting n
  match ((s.part n).ctx.map fun cn => (s.ctx cn).redo).getD [], ws.find? fun a => a.deadline != 0 with
  | a :: _, _ => some a
  | [], some a => some a
  | [], none =>
    match s.bs.run.find? fun a => a.saved.isSome && (s.ctx a.ctx).pts.contains n with
    | some a => if (s.ctx a.ctx).live then none else some a
    | none => ws.head?

/-- The argument words of a copy (R424, R433): the secondary copy takes those the shadow mask names with the offset. -/
def Admitted.argsFor (a : Admitted) (second : Bool) : List DWord :=
  a.args.zipIdx.map fun (w, i) => if second && a.shadowMask.getLsbD i then w + a.shadowOff else w

/-- One core at a kernel's start (R192, R424): its program, PC, arguments, cleared registers, STEP and SEED; then as at a
commit. -/
def Core.startKernel (k : Core) (p : CoreProg) (a : Admitted) (second : Bool) (cyc now : Nat) : Core :=
  let k1 := { k.loadProg p with
    pc := p.entry.toNat
    s := (a.argsFor second).zipIdx.foldl (fun m (w : DWord × Nat) => smapSet 0 m w.2 w.1) []
    p := [], loops := [], step := a.setStep.getD k.step, seed := a.setSeed.getD k.seed
    seq := .issuing, nextAt := 0, inBrp := false, xbars := smapErase k.xbars 0 }
  k1.commitTile cyc now

/-- A partition may start a kernel now. -/
def State.canStart (s : State) (n : Nat) : Bool :=
  let p := s.part n
  !p.inReset && !p.hold && p.run.isNone && !p.halted && !s.stoppedOn n && !p.outOfService && !s.host.perst && !s.bs.paused && s.power.st == .w0 &&
    !s.power.exiting

/-- KERNEL_START (R191, R192, R424, R428, R433): the next entry of the partition whose context is on its cores. An entry
whose context has died before its start ends with the context's code (DEDUCED from R431, R432, log 42). -/
def kernelStart (n : Nat) (s : State) : State :=
  if !s.canStart n then s
  else
    match s.nextEntry n with
    | none => s
    | some a =>
      let c := s.ctx a.ctx
      let p := s.part n
      if !c.live then s.complete a 1 c.code.toNat 0
      else if p.ctx ≠ some a.ctx then s
      else
        match s.kernelOf c a.kernel with
        | none => s
        | some k =>
          let second := c.secondOn n
          let budget := if k.budget = 0 then 20000 else k.budget.toNat
          let s1 := (s.coresOf n).foldl (fun s e =>
            s.updCore e.2 fun x => x.startKernel (k.progs.getD e.1 ⟨0, []⟩) a second p.cyc s.now) s
          let s2 := s1.setPart n { p with
            run := some { entry := a.serial, ctx := a.ctx, kernel := a.kernel, startGtb := s.now, plan := k.wcet.cPlan
                          background := a.deadline == 0, tiles := 0, prog0 := p.cycProg, reexec0 := p.cycReexec, budget := budget }
            winStart := s.now, winEnd := some (s.now + budget), budget := budget, tileProg0 := p.cycProg
            atYield := false, yieldReq := false, issuedCores := [], rested := false, xbarRel := smapErase p.xbarRel 0 }
          let s3 := { s2 with bs := { s2.bs with run := s2.bs.run.map fun (b : Admitted) =>
            if b.serial ≠ a.serial then b
            else
              let b := if second then { b with secondary := .running } else { b with primary := .running }
              { b with started := true, startGtb := if b.started then b.startGtb else s.now } } }
          let c3 := s3.ctx a.ctx
          s3.setCtx a.ctx { c3 with st := .running, redo := c3.redo.drop 1
                                    since := if c3.express then [] else c3.since ++ [a] }

/-! ### Crumbs at the end of a kernel (R318 to R320) -/

/-- One accumulator joined into the groups, in the order of (Step, Key). -/
def crumbJoin : List (Word × Word × CrumbAcc) → CrumbAcc → List (Word × Word × CrumbAcc)
  | [], a => [(a.step, a.key, a)]
  | (st, ky, b) :: gs, a =>
    if a.step = st ∧ a.key = ky then
      (st, ky, { b with value := b.value + a.value, count := b.count + a.count, mixed := b.mixed || a.mixed
                        poison := b.poison || a.poison }) :: gs
    else if a.step < st ∨ (a.step = st ∧ a.key < ky) then (a.step, a.key, a) :: (st, ky, b) :: gs
    else (st, ky, b) :: crumbJoin gs a

/-- The groups of a partition's accumulators with a count (R318). -/
def State.crumbGroups (s : State) (n : Nat) : List (Word × Word × CrumbAcc) :=
  ((s.coresOf n).flatMap fun e => (s.core e.2).ca.filterMap fun x => if x.2.count = 0 then none else some x.2).foldl
    crumbJoin []

/-- The bytes of a Crumb log record (R319). -/
def crumbBytes (g : Word × Word × CrumbAcc) (kernel ctx : Nat) : List Byte :=
  natBytes 8 g.2.2.value.toNat ++ natBytes 8 g.2.2.count.toNat ++ natBytes 4 g.1.toNat ++ natBytes 4 g.2.1.toNat ++
    natBytes 4 kernel ++ natBytes 1 ctx ++ natBytes 1 (b2n g.2.2.mixed + 2 * b2n g.2.2.poison) ++ natBytes 2 0

/-- The records that the Crumb log holds (R320). -/
def crumbRecords : Nat := 2097152

/-- A record goes into the Crumb log (R320). -/
def State.crumbWrite (s : State) (bytes : List Byte) : State :=
  let c := s.crumbLog
  let next := (c.head + 1) % crumbRecords
  if !c.en then s
  else if next = c.tail ∧ c.mode then { s with crumbLog := { c with lost := satAdd32 c.lost 1 } }
  else
    let c := if next = c.tail then { c with tail := (c.tail + 1) % crumbRecords, lost := satAdd32 c.lost 1 } else c
    { s.memPut (s.mem.crumbBase + 32 * s.crumbLog.head) bytes with crumbLog := { c with head := next } }

/-- The Crumb accumulators that were read are cleared, in the context's kept values as well (R192, R318). -/
def State.clearCrumbs (s : State) (n : Nat) : State :=
  let rest := fun (m : SMap CrumbAcc) => m.filter fun e => e.2.count == 0
  s.updCoresOf n fun k => { k with ca := rest k.ca, commit := { k.commit with ca := rest k.commit.ca } }

/-- The Crumbs of a partition are logged and cleared (R318). -/
def State.logCrumbs (s : State) (n kernel ctx : Nat) : State :=
  ((s.crumbGroups n).foldl (fun s g => s.crumbWrite (crumbBytes g kernel ctx)) s).clearCrumbs n

/-- Every core of a partition has halted (R212). -/
def State.allHalted (s : State) (n : Nat) : Bool :=
  !(s.coresOf n).isEmpty && (s.coresOf n).all fun e => (s.core e.2).seq == .halted

/-- A kernel's slip and its Crumb records, kept with its entry for the copy that ran on a partition (R302, R434). -/
def Admitted.ended (a : Admitted) (primary : Bool) (slip : Nat) (crumbs : List (Word × Word × CrumbAcc)) : Admitted :=
  if primary then { a with slip := slip, crumbs1 := crumbs } else { a with slip2 := slip, crumbs2 := crumbs }

/-- The core whose Crumb accumulators carry POISON at the end of a kernel, with its source number; the scanner where none does (log 42). -/
def State.poisonedCore (s : State) (n : Nat) : Nat × Nat :=
  match (s.coresOf n).find? fun e => (s.core e.2).ca.any fun x => x.2.poison && x.2.count != 0 with
  | some e => (e.1, srcCore e.2 7)
  | none => (0, srcHub 0x350)

/-- KERNEL_COMPLETE (R212, R302, R318, R432): Crumbs logged; a Bulk entry completes, an Express copy has ended. A poisoned
result raises POISON_CONSUMED (R363). A kernel that a rewind runs again after its entry has completed logs and completes
nothing again (DEDUCED from R471, log 42). -/
def kernelComplete (n : Nat) (s : State) : State :=
  let p := s.part n
  match p.run with
  | none => s
  | some i =>
    if !s.allHalted n then s
    else
      match s.runningEntry n with
      | none =>
        let s1 := ((s.clearCrumbs n).endRun n).updCoresOf n fun k => { k with seq := .noKernel }
        s1.setCtx i.ctx { s1.ctx i.ctx with st := .resident }
      | some a =>
        let prim := (s.ctx i.ctx).isPrimary n
        let groups := s.crumbGroups n
        let crumb := groups.any fun g => g.2.2.poison
        let s1 := (s.logCrumbs n i.kernel i.ctx).updEntry a.idx fun b =>
          let b := b.ended prim p.slipOf groups
          if crumb then b.poison prim else b
        if crumb || (if prim then a.poison1 else a.poison2) then
          let u := s.poisonedCore n
          s1.raisePart n fcPoison u.2 u.1
        else
          let s2 := (s1.endRun n).updCoresOf n fun k => { k with seq := .noKernel }
          let s3 := s2.setCtx i.ctx { s2.ctx i.ctx with st := .resident }
          if a.express then s3.updEntry a.idx fun b => b.endCopy prim .halted
          else s3.complete (a.ended prim p.slipOf groups) 0 0 0

/-! ### Express pairs (R433 to R435) -/

/-- How a copy counts in the comparison of R434: POISON_CONSUMED on one copy alone makes it a lost one. -/
def copyView (e other : CopyEnd) : CopyEnd :=
  if e = .fault fcPoison ∧ other ≠ .fault fcPoison then .lost else e

/-- The copies of an Express entry can be compared (R434): each has ended, or one has and the other is lost. -/
def Admitted.comparable (a : Admitted) : Bool :=
  let ended := fun (e : CopyEnd) => e != .waiting && e != .running
  ended a.primary && ended a.secondary

/-- The status, code and flags of R434. -/
def Admitted.compare (a : Admitted) : Nat × Nat × Nat :=
  match copyView a.primary a.secondary, copyView a.secondary a.primary with
  | .halted, .halted => if a.crumbs1 = a.crumbs2 then (0, 0, 0) else (4, 0, 0)
  | .halted, .lost => (0, 0, 4)
  | .lost, .halted => (0, 0, 6)
  | .fault x, .fault y => if x = y then (1, x, 0) else (4, 0, 0)
  | _, _ => (4, 0, 0)

/-- EXPRESS_COMPARE (R434, R435): the entry completes; a lost copy leaves the context unpaired, and any end but DONE leaves
it DEAD. -/
def expressCompare (idx : Nat) (s : State) : State :=
  match s.bs.run.find? fun a => a.idx == idx && a.express with
  | none => s
  | some a =>
    if !a.comparable then s
    else
      let r := a.compare
      let c := s.ctx a.ctx
      if r.1 = 0 then
        let l1 := c.lost1 || copyView a.primary a.secondary == .lost
        let l2 := c.lost2 || copyView a.secondary a.primary == .lost
        (s.setCtx a.ctx { c with unpaired := c.unpaired || l1 || l2, lost1 := l1, lost2 := l2 }).complete
          (if a.primary = .halted then a else { a with slip := a.slip2 }) 0 0 r.2.2
      else (s.setCtx a.ctx { c with st := .dead }).complete a r.1 r.2.1 r.2.2

/-- EXPRESS_REPAIR (R435): a lost copy is made again from the survivor's state on a healthy partition of its die, in an
interval without entries of the context. -/
def expressRepair (cn n : Nat) (s : State) : State :=
  let c := s.ctx cn
  let p := s.part n
  let lostPt := if c.lost1 then c.pt.toNat else c.pt2.toNat
  let livePt := if c.lost1 then c.pt2.toNat else c.pt.toNat
  if !c.express || !c.unpaired || (c.lost1 && c.lost2) || s.ctxBusy cn || !c.live || p.inReset || p.quarantined ||
      p.die != (s.part lostPt).die || p.count != (s.part livePt).count || !smapGet false s.bs.ptExpress n then s
  else
    let data := if (s.part livePt).ctx = some cn then s.snapshot livePt else c.savedOn livePt
    let pt := BitVec.ofNat 4 n
    let s0 := if (s.part lostPt).ctx = some cn then s.updPart lostPt fun p => { p with ctx := none } else s
    s0.setCtx cn
      (if c.lost1 then { c with pt := pt, saved := data, lost1 := false, unpaired := false }
       else { c with pt2 := pt, saved2 := data, lost2 := false, unpaired := false })

/-! ### Yielding and aborting -/

/-- BACKGROUND_YIELD (R428): at its TILE a background kernel gives way to a deadline entry, of its own context as well (log 42). -/
def backgroundYield (n : Nat) (s : State) : State := if s.mustYield n then s.switchOut n else s

/-- BS_ABORT (R430): an entry that has not started ends with code 0; one that has, with its context aborted, 0x30. -/
def bsAbort (idx : Nat) (s : State) : State :=
  match s.bs.run.find? fun a => a.idx == idx with
  | none => s
  | some a =>
    if !a.started then s.complete a 3 0 0
    else
      let c := s.ctx a.ctx
      let s0 := s.complete a 3 fcAborted 0
      let s1 := c.pts.foldl (fun s n =>
        if (s.part n).ctx = some a.ctx && (s.part n).run.isSome then s.abortPart n (srcHub 0x350) else s) s0
      let c1 := s1.ctx a.ctx
      let s2 := s1.setCtx a.ctx { c1 with st := .dead, code := BitVec.ofNat 8 fcAborted }
      { s2 with ladder := { s2.ladder with steps := s2.ladder.steps ++ [⟨.ctx a.ctx, s.now⟩] } }

/-- A size of R444 is a power of two from 16 to 4,096. -/
def sizeOk (n : Nat) : Bool := [16, 32, 64, 128, 256, 512, 1024, 2048, 4096].contains n

/-- BS_CFG_WRITE (R444): while EN is 1 only EN is written; EN is refused on a bad configuration. -/
def bsCfgWrite (v : Word) (s : State) : State :=
  let b := s.bs
  if b.en then { s with bs := { b with en := v.getLsbD 16 } }
  else
    let size := v.extractLsb' 0 13
    let good := sizeOk size.toNat && sizeOk b.ctSize.toNat && decide (size.toNat ≤ b.ctSize.toNat) &&
      decide (b.base.toNat + 256 * size.toNat ≤ s.mem.hostTop) &&
      decide (b.ctBase.toNat + 32 * b.ctSize.toNat ≤ s.mem.hostTop)
    if v.getLsbD 16 && !good then { s with bs := { b with size := size, cfgBad := true } }.hwSet 0x080_000C 0x8000_0000
    else { s with bs := { b with size := size, en := v.getLsbD 16 } }

/-! ### The rows -/

/-- ADMISSION_TICK (R425). -/
def execAdmissionTick (s : State) : Out := .next (admissionTick s)
/-- KERNEL_START (R192). -/
def execKernelStart (pt : Pt) (s : State) : Out := .next (kernelStart pt.toNat s)
/-- KERNEL_COMPLETE (R212). -/
def execKernelComplete (pt : Pt) (s : State) : Out := .next (kernelComplete pt.toNat s)
/-- COMPLETION_WRITE (R431). -/
def execCompletionWrite (s : State) : Out := .next (completionWrite s)
/-- EXPRESS_COMPARE (R434). -/
def execExpressCompare (idx : BitVec 12) (s : State) : Out := .next (expressCompare idx.toNat s)
/-- EXPRESS_REPAIR (R435). -/
def execExpressRepair (ctx : CtxNo) (pt : Pt) (s : State) : Out := .next (expressRepair ctx.toNat pt.toNat s)
/-- BACKGROUND_YIELD (R428). -/
def execBackgroundYield (pt : Pt) (s : State) : Out := .next (backgroundYield pt.toNat s)
/-- BS_ABORT (R430). -/
def execBsAbort (entry : BitVec 12) (s : State) : Out := .next (s.hostReg 0x080_0024 fun s => bsAbort entry.toNat s)
/-- BS_CFG_WRITE (R444). -/
def execBsCfgWrite (v : Word) (s : State) : Out := .next (s.hostReg 0x080_0008 fun s => bsCfgWrite v s)

end Sys2Proof.Machine
end

