-- ==== Sys2Proof/Machine/Generations.lean ====
section
/-! DEFINITION. Weight generations (13_contexts_serving.md R437 to R442): loading a manifest and its shards, activating,
closing and cancelling. -/

namespace Sys2Proof.Machine

/-- The bytes of a shard's entry in a manifest (R438). -/
def shardAt (i : Nat) : Nat := 16 + 128 * i

/-- A shard of a manifest in memory (R438). -/
def Mem.shard (m : Mem) (base i : Nat) : ShardInfo :=
  { offset := m.field (base + shardAt i) 8, length := m.field (base + shardAt i + 8) 8
    hash := BitVec.ofNat 512 (m.field (base + shardAt i + 16) 64), primary := 0, replica := 0, done := false }

/-- The signature block of a manifest verifies against the publisher slot it names (R553, R554, R569). -/
def State.manifestOk (s : State) (base count : Nat) : Bool :=
  let at' := base + shardAt count
  let bytes := fun a n => (s.mem.readRun a n).1
  match smapGet none s.sec.pubs (s.mem.field at' 1) with
  | some keys =>
    verifyBoth keys "DXMANI01" (bytes base (shardAt count)) (bytes (at' + 4) 64) (bytes (at' + 68) 3309) == 0
  | none => false

/-- A load fails (R439): GEN_STAT.SHARD names the shard, and CLOSE ends (R441). -/
def ModelSlot.fail (m : ModelSlot) (shard : Nat) : ModelSlot :=
  { m with st := .failed, shard := BitVec.ofNat 16 shard, load := none, shards := [], activate := false, closed := false
           closeReq := false }

/-- GEN_LOAD (R438, R441): the manifest is read and verified, and the fetches begin, or the load waits for memory. It acts
when no load of the slot is in progress or verified (DESIGN CHOICE, log 21). A manifest for another slot, with ID 0, with a
region beyond the host region, or whose signatures fail ends FAILED (DEDUCED, log 22). -/
def genLoad (s : State) : State :=
  let i := s.bs.genSel.toNat
  let m := s.model i
  if m.st ≠ .none ∧ m.st ≠ .failed then s
  else
    let base := m.manifest.toNat
    let count := s.mem.field (base + 6) 2
    let id := s.mem.field base 4
    let g : GenInfo := ⟨BitVec.ofNat 32 id, m.region, BitVec.ofNat 64 (s.mem.field (base + 8) 8)⟩
    if id = 0 ∨ s.mem.field (base + 4) 2 ≠ i ∨ !s.manifestOk base count ∨ s.mem.hostTop < g.base.toNat + g.len.toNat then
      s.setModel i (m.fail 0)
    else
      let hit := fun (o : Option GenInfo) => match o with
        | some x => g.overlaps x
        | none => false
      let waits := hit m.cur || hit m.old
      s.setModel i { m with
        st := if count = 0 then .verified else if waits then .waitMemory else .loading
        shard := 0, loadStart := s.now, load := some g, shards := (List.range count).map (s.mem.shard base)
        activate := false }

/-- A shard that does not match is fetched again, up to three times from its primary source, then three from its replica
(R439; DEDUCED, log 22: three besides the first); none when every fetch has failed. -/
def ShardInfo.retry (x : ShardInfo) : Option ShardInfo :=
  if x.primary < 3 then some { x with primary := x.primary + 1 }
  else if x.replica < 3 then some { x with replica := x.replica + 1 }
  else none

/-- The state with one shard of a load replaced; the load is VERIFIED when every shard has matched. -/
def ModelSlot.setShard (m : ModelSlot) (i : Nat) (x : ShardInfo) : ModelSlot :=
  let xs := m.shards.set i x
  { m with shards := xs, st := if xs.all ShardInfo.done then .verified else m.st }

/-- GEN_SHARD_ARRIVE (R438, R439): the bytes land at the shard's offset of the region and are hashed. -/
def genShardArrive (i k : Nat) (f : ShardFetch) (s : State) : State :=
  let m := s.model i
  match m.load, m.shards[k]? with
  | some g, some x =>
    if m.st ≠ .loading ∨ x.done then s
    else
      let a := g.base.toNat + x.offset
      let check := fun (s : State) (bs : List Byte) =>
        if BitVec.ofNat 512 (Config.sha512 bs).toNat = x.hash then s.setModel i (m.setShard k { x with done := true })
        else
          match x.retry with
          | some y => s.setModel i (m.setShard k y)
          | none => s.setModel i (m.fail k)
      match f with
      | .data bs => check (s.memPut a (bs.take x.length)) bs
      | .inPlace => check s (s.mem.readRun a x.length).1
      | .refused => s.setModel i (m.fail k)
  | _, _ => s

/-- GEN_TIMEOUT_EXPIRE (R439): the first shard that has not matched is missing. -/
def genTimeoutExpire (i : Nat) (s : State) : State :=
  let m := s.model i
  if (m.st = .loading ∨ m.st = .waitMemory) ∧ m.loadStart + m.timeout.toNat * 1000000 ≤ s.now then
    s.setModel i (m.fail (m.shards.findIdx fun x => !x.done))
  else s

/-- GEN_ACTIVATE (R440): it takes effect at the next tick. -/
def genActivate (s : State) : State :=
  let i := s.bs.genSel.toNat
  let m := s.model i
  if m.st = .verified then s.setModel i { m with activate := true } else s

/-- GEN_CLOSE (R441): from the next tick. It acts on a load that waits for memory (DEDUCED, log 21). -/
def genClose (s : State) : State :=
  let i := s.bs.genSel.toNat
  let m := s.model i
  if m.st = .waitMemory then s.setModel i { m with closeReq := true } else s

/-- A range of addresses (first byte, length) without the bytes of another. -/
def rangeMinus (r : Nat × Nat) (b m : Nat) : List (Nat × Nat) :=
  if rangesMeet r.1 r.2 b m then
    [(r.1, b - r.1), (max r.1 (b + m), r.1 + r.2 - (b + m))].filter fun x => x.2 != 0
  else [r]

/-- The bytes of a load's region that a discarded load leaves undefined (R442): those outside the regions in service, into
which nothing was written (R441). -/
def ModelSlot.openRanges (m : ModelSlot) : List (Nat × Nat) :=
  let cut := fun (rs : List (Nat × Nat)) (g : Option GenInfo) => match g with
    | some x => rs.flatMap fun r => rangeMinus r x.base.toNat x.len.toNat
    | none => rs
  match m.load with
  | some g => cut (cut [(g.base.toNat, g.len.toNat)] m.cur) m.old
  | none => []

/-- GEN_CANCEL (R442): a load is discarded, and the bytes of its region are open unless it was verified; CLOSE ends. -/
def genCancel (s : State) : State :=
  let i := s.bs.genSel.toNat
  let m := s.model i
  let off := { m with st := .none, shard := 0, load := none, shards := [], activate := false, closed := false
                      closeReq := false }
  if m.st = .loading ∨ m.st = .waitMemory then
    (m.openRanges.foldl (fun s r => s.writeOpen r.1 r.2) s).setModel i off
  else if m.st = .verified then s.setModel i off
  else s

/-! ### The rows -/

/-- GEN_LOAD (R438). -/
def execGenLoad (s : State) : Out := .next (s.hostReg 0x080_0318 fun s => genLoad s)
/-- GEN_SHARD_ARRIVE (R439). -/
def execGenShardArrive (slot : BitVec 4) (shard : BitVec 16) (f : ShardFetch) (s : State) : Out :=
  .next (genShardArrive slot.toNat shard.toNat f s)
/-- GEN_TIMEOUT_EXPIRE (R439). -/
def execGenTimeoutExpire (slot : BitVec 4) (s : State) : Out := .next (genTimeoutExpire slot.toNat s)
/-- GEN_ACTIVATE (R440). -/
def execGenActivate (s : State) : Out := .next (s.hostReg 0x080_0318 fun s => genActivate s)
/-- GEN_CLOSE (R441). -/
def execGenClose (s : State) : Out := .next (s.hostReg 0x080_0318 fun s => genClose s)
/-- GEN_CANCEL (R442). -/
def execGenCancel (s : State) : Out := .next (s.hostReg 0x080_0318 fun s => genCancel s)

end Sys2Proof.Machine
end

