-- ==== Sys2Proof/Machine/Faults.lean ====
section
/-! DEFINITION. Silent errors, Crust registers, Tasting and quarantine (14_faults_spares.md R445 to R457), core failure and the
reset of a partition (R464, R479, R487, R490). -/

namespace Sys2Proof.Machine

/-! ### Crust registers (R447 to R449, R600, R601) -/

/-- An offset of a Crust register (R600). -/
def isCrustOffset (off : Nat) : Bool :=
  decide (off % 4 = 0) &&
    ((0x060_1000 ≤ off && off < 0x060_1100) || (0x060_2000 ≤ off && off < 0x060_2080 && off % 0x20 < 0x18) ||
      (0x060_3000 ≤ off && off < 0x060_30A0) || (0x060_3400 ≤ off && off < 0x060_34A0) ||
      (0x060_3600 ≤ off && off < 0x060_3610) || (0x060_4000 ≤ off && off < 0x060_5A00 && off % 0x40 < 0x10) ||
      (0x060_8000 ≤ off && off < 0x060_8400))

/-- The die index in whose Ledger region a Crust register's MAP record stands (log 23). -/
def crustDie (off : Nat) : Nat :=
  if isMapOffset off then mapDie off
  else if off < 0x060_3400 then 5 + (off - 0x060_3000) / 32
  else dieHub

/-- A register of which R579 records each commit. -/
def isMapRecord (off : Nat) : Bool := decide (0x060_2000 ≤ off) && decide (off < 0x060_8000)

/-- A group's state and active index as MEM_GRP_STATEg and the group map give them (R370, R600). -/
def Mem.groupWord (m : Mem) (g : Nat) : Word :=
  let x := m.group g
  packWord [(x.state, 0), (x.failed.toNat, 3), (if x.retired then 63 else (m.active.filter (· < g)).length, 13)]

/-- A Crust register takes a word (R448). The group map is what the memory runs by. -/
def State.crustPut (s : State) (off : Nat) (w : Word) : State :=
  let s1 := { s with crust := s.crust.put off w }
  if 0x060_3000 ≤ off ∧ off < 0x060_30A0 then
    let g := (off - 0x060_3000) / 4
    { s1 with mem := s1.mem.setGroup g { s1.mem.group g with
        failed := BitVec.ofNat 10 (fieldOf w 3 10), retired := fieldOf w 13 6 == 63 } }
  else s1

/-- A register as its latest commit gives it, which may still wait for a TILE (R131). -/
def Crust.latest (c : Crust) (off : Nat) : Word := ((c.waiting.find? fun e => e.1 == off).map Prod.snd).getD (c.read off)

/-- The word that the latest MAP record of a register gives (R579). -/
def Ledger.mapWord (l : Ledger) (off : Nat) : Option Word :=
  (((l.good (crustDie off)).filter fun r => r.type == 0x07 && bytesNat (r.payload.take 4) == off).getLast?).map fun r =>
    BitVec.ofNat 32 (bytesNat ((r.payload.drop 4).take 4))

/-- The MAP record of a committed word (R579). -/
def State.mapRecord (s : State) (off : Nat) (w : Word) : State :=
  if isMapRecord off then s.ledgerAppend (crustDie off) 0x07 (srcHub 0x370) (natBytes 4 off ++ natBytes 4 w.toNat) else s

/-- A committed word: a map that concerns a partition with a kernel waits for its TILE (R131). -/
def State.crustTake (s : State) (e : Nat × Word) : State :=
  let waits := isMapOffset e.1 && (List.range 16).any fun n => (s.part n).run.isSome && s.mapConcerns n e
  let s1 := s.mapRecord e.1 e.2
  if waits then
    { s1 with crust := { s1.crust with waiting := s1.crust.waiting.filter (fun w => w.1 != e.1) ++ [e] } }
  else s1.crustPut e.1 e.2

/-- The bytes that the CRC of a commit covers (R601). -/
def stagedBytes (es : List (Word × Word)) : List Byte := es.flatMap fun e => natBytes 4 e.1.toNat ++ natBytes 4 e.2.toNat

/-- Words in the staging registers with their CRC (R448, R601). -/
def State.stage (s : State) (es : List (Word × Word)) (crc : Word) : State :=
  { s with crust := { s.crust with staged := es, crc := crc, badAddr := false } }

/-- The staged words are committed (R448): the commit is counted. -/
def State.commitStaged (s : State) : State :=
  let s1 := s.crust.staged.foldl (fun s e => s.crustTake (e.1.toNat, e.2)) s
  { s1 with crust := { s1.crust with commits := satAdd32 s1.crust.commits 1 } }

/-- Abmito commits words on its own account (R448, R480). -/
def State.commitWords (s : State) (es : List (Nat × Word)) : State :=
  let ws := es.map fun e => (BitVec.ofNat 32 e.1, e.2)
  (s.stage ws (crc32 (stagedBytes ws))).commitStaged

/-- A repair map names four columns in rising order (R132). -/
def repairMapOk (w : Word) : Bool :=
  let c := fun i => fieldOf w (8 * i) 8
  decide (c 0 < c 1) && decide (c 1 < c 2) && decide (c 2 < c 3) && decide (c 3 < 132)

/-- A word that Abmito may stage: a repair map is one of R132. -/
def stagedOk (e : Word × Word) : Bool :=
  !(decide (0x060_4000 ≤ e.1.toNat) && decide (e.1.toNat < 0x060_5A00) && decide (e.1.toNat % 0x40 < 0x10)) || repairMapOk e.2

/-- CRUST_COMMIT (R448, R601): a wrong CRC or an offset outside R600 commits nothing. Abmito stages no repair map that R132 excludes
(log 14). -/
def crustCommit (es : List (Word × Word)) (crc : Word) (s : State) : State :=
  if 64 < es.length ∨ !es.all stagedOk then s
  else
    let s0 := s.stage es crc
    if crc32 (stagedBytes es) ≠ crc then { s0 with crust := { s0.crust with crcFail := true } }.hwSet 0x060_000C 2
    else if es.any fun e => !isCrustOffset e.1.toNat then { s0 with crust := { s0.crust with badAddr := true } }
    else s0.commitStaged

/-- The copies of a register that differ from the majority. -/
def CrustReg.badCopies (r : CrustReg) : Nat := ([r.a, r.b, r.c].filter fun w => w != r.read).length

/-- The copies of a register that differ from the majority are rewritten, counted and logged (R449). -/
def State.scrubReg (s : State) (e : Nat × CrustReg) : State :=
  let c := s.crust.setReg e.1 (.all e.2.read)
  let s1 := { s with crust := { c with repairs := min 65535 (c.repairs + e.2.badCopies) } }
  (s1.life (crustDie e.1) fun l => { l with crustRepairs := satAdd64 l.crustRepairs e.2.badCopies }).event
    (srcHub 0x370) 0x0303 (detail3 e.1 0 0)

/-- A register group whose CRC no longer matches is committed again from the Ledger's copy (R449); registers of which the Ledger keeps
none stand as they are (log 11). -/
def State.scrubGroup (s : State) (g : Nat) : State :=
  if s.crust.groupCrc g = s.crust.heldCrc g then s
  else s.commitWords (((crustGroupOffsets g).filter isMapRecord).map fun off => (off, (s.ledger.mapWord off).getD (crustReset off)))

/-- CRUST_SCRUB (R449). -/
def crustScrub (s : State) : State :=
  let s1 := (s.crust.regs.filter fun e => e.2.badCopies != 0).foldl State.scrubReg s
  ((s.crust.regs.map fun e => crustGroup e.1) ++ s.crust.crcs.map Prod.fst).dedup.foldl State.scrubGroup s1

/-! ### SRAM errors (R445, R446) -/

/-- The structure of R445 in which an error is, in table order, and the source that finds it (R30; a unit that the table does not
name is taken as the one it belongs to, log 24). -/
def State.eccUnit (s : State) (e : EccAt) : Nat × Nat :=
  let core := fun (pt : Pt) (c : LCore) (u : Nat) => srcCore ((s.phys pt.toNat c.toNat).getD 0) u
  match e with
  | .bench pt c _ => (0, core pt c 6)
  | .dss d _ => (1, srcNo d.toNat 0x220)
  | .proofBuffer pt c _ _ _ => (2, core pt c 6)
  | .bank pt c a _ => (3, core pt c (1 + a.toNat))
  | .pipeline pt c => (4, core pt c 1)
  | .regs pt c => (5, core pt c 0)
  | .store pt c _ => (6, core pt c 0)
  | .router .. => (7, srcHub 0x180)
  | .coll .. => (7, srcHub 0x200)
  | .eventLog _ => (8, srcHub 0x310)

/-- The address or entry that the event of an uncorrectable error names (R589). -/
def eccDetail : EccAt → BitVec 96
  | .bench _ _ l => detail3 l.toNat 0 0
  | .dss _ l => detail3 l.toNat 0 0
  | .proofBuffer _ _ v r c => detail3 (v.toNat * 16384 + r.toNat * 128 + c.toNat) 0 0
  | .bank _ _ a b => detail3 (arrDetail a.toNat b.toNat) 0 0
  | .coll g i => detail3 g.toNat i.toNat 0
  | .eventLog q => detail3 q.toNat 0 0
  | _ => 0

/-- PSN set in one entry of a slot (R173, R445). -/
def PbSlot.markPsn (v : PbSlot) (row col : Nat) : PbSlot :=
  let cells := (List.range 128).map fun i => (smapGet [] v.rows row).getD i Ax.zero
  { v with rows := smapSet [] v.rows row (cells.zipIdx.map fun (x, i) => if i = col then { x with fl := { x.fl with psn := true } } else x) }

/-- The core that an error stands in exists. -/
def State.eccHere (s : State) : EccAt → Bool
  | .bench pt c _ => (s.phys pt.toNat c.toNat).isSome
  | .proofBuffer pt c _ _ _ => (s.phys pt.toNat c.toNat).isSome
  | .bank pt c _ _ => (s.phys pt.toNat c.toNat).isSome
  | .pipeline pt c => (s.phys pt.toNat c.toNat).isSome
  | .regs pt c => (s.phys pt.toNat c.toNat).isSome
  | .store pt c _ => (s.phys pt.toNat c.toNat).isSome
  | _ => true

/-- What an uncorrectable error does (R445): poison, PSN, SUSPECT, an abandoned tile, a corrupt record. Where only one of two
copies fails, the other is read and nothing is lost. -/
def State.eccEffect (s : State) (src : Nat) (e : EccAt) : State :=
  match e with
  | .bench pt c l =>
    match s.phys pt.toNat c.toNat with
    | some k => if ((s.core k).line l.toNat).st = .invalid then s
        else s.updCore k fun x => x.setLine l.toNat { x.line l.toNat with poison := true }
    | none => s
  | .dss d l => s.setDssLine d.toNat l.toNat { s.dssLine d.toNat l.toNat with poison := true }
  | .proofBuffer pt c v r col =>
    match s.phys pt.toNat c.toNat with
    | some k => s.updCore k fun x => x.setSlot v.toNat ((x.slot v.toNat).markPsn r.toNat col.toNat)
    | none => s
  | .bank pt c a b =>
    match s.phys pt.toNat c.toNat with
    | some k => s.updCore k fun x =>
        let ar := x.array a.toNat
        x.setArray a.toNat (ar.setBank b.toNat { ar.bank b.toNat with suspect := true })
    | none => s
  | .pipeline pt _ => s.abandonTile pt.toNat src
  | .regs pt _ => s.abandonTile pt.toNat src
  | .store .. => s
  | .router n i => { s with fab := { s.fab with ports := smapUpd .reset s.fab.ports n.toNat fun p =>
      { p with queue := p.queue.zipIdx.map fun e => if e.2 = i then { e.1 with poison := true } else e.1 } } }
  | .coll g i => { s with fab := { s.fab with runs := s.fab.runs.map fun u =>
      if u.group = g ∧ u.idx = i.toNat then
        { u with locals := u.locals.map fun m => { m with inp := { m.inp with poison := true } }
                 shares := u.shares.map fun x => (x.1, x.2.1, { x.2.2 with poison := true })
                 results := u.results.map fun r => { r with share := { r.share with poison := true } } }
      else u } }
  | .eventLog q =>
    match smapFind s.log.ring q.toNat with
    | some (n, v) => { s with log := { s.log with ring := smapInsert s.log.ring q.toNat (n, { v with corrupt := true }) } }
    | none => s

/-- The error makes poison (R474). -/
def eccPoisons : EccAt → Bool
  | .bench .. => true
  | .dss .. => true
  | .proofBuffer .. => true
  | .coll .. => true
  | .router .. => true
  | _ => false

/-- SRAM_ECC_ERROR (R445, R446, R474): counted by structure and die; a correction leaves no trace but its count. -/
def sramEccError (e : EccAt) (uncorrectable : Bool) (s : State) : State :=
  let (i, src) := s.eccUnit e
  if !s.eccHere e then s
  else if !uncorrectable then
    if i = 4 then s
    else
      (s.life (src / 2048) fun l => { l with eccCorrected := smapUpd 0 l.eccCorrected i (satAdd64 · 1) }).eventAgg src 0x0301
  else
    let s1 := s.life (src / 2048) fun l =>
      { l with eccUncorrectable := smapUpd 0 l.eccUncorrectable i (satAdd64 · 1)
               poison := if eccPoisons e then satAdd64 l.poison 1 else l.poison }
    (s1.event src 0x0302 (eccDetail e)).eccEffect src e

/-! ### Partition reset (R487, R490, R595, R596) -/

/-- A context can be rewound (R473, R476, R497): a complete checkpoint exists and the journal has not filled. -/
def Ctx.rewindable (c : Ctx) : Bool := !c.express && c.live && c.ckpt.isSome && !c.jrnlFull

/-- The Peel reads of a partition whose data has all come, as IN records (R470 step 2). -/
def State.peelRecords (s : State) (n : Nat) : List JrnlRec :=
  (List.range 8).flatMap fun e => (s.engine (s.part n).die.toNat e).queue.filterMap fun d =>
    if d.pt ≠ n ∨ !d.started ∨ !(d.kind == .into || d.kind == .copy) ∨ !(d.space == 1 || d.space == 2) ∨ d.sent then none
    else
      match (List.range (d.rowBytes * d.rows)).mapM d.came, (s.coresOf n).find? fun x => x.2 == d.core with
      | some bs, some x => some (.peel x.1 (bs.map Prod.fst) (bs.any Prod.snd))
      | _, _ => none

/-- A partition's members of operations in flight at a stop (R470): each waits to be taken up again, and one whose source has not been
read is presented anew, once (R471). -/
def State.stopMembers (s : State) (n : Nat) : State :=
  let gone := s.fab.runs.flatMap fun u => (u.locals.filter fun m => m.pt == n && !m.ready).map fun m => (m.k, u.group)
  let runs := s.fab.runs.map fun u => { u with locals := u.locals.map fun m => if m.pt = n then { m with linked := false } else m }
  gone.foldl (fun s g => s.updCore g.1 fun k => { k with xbars := smapUpd 0 k.xbars g.2.toNat (· - 1) })
    { s with fab := { s.fab with runs := runs } }

/-- A core at a stop for a rewind (R470 step 1): messages read in full stay on their way, every other transfer is cancelled. -/
def Core.stopCore (k : Core) : Core :=
  let sends := k.xfers.filter fun x => x.kind == .xsend && x.src.isEmpty
  { k.abort with
      xfers := sends, sendXq := k.sendXq.filter fun m => sends.any fun x => x.id == m.xfer, recvXq := k.recvXq }

/-- The Peel writes of a partition whose source has been read in full are made (R470 step 1). -/
def State.finishWrites (s : State) (n : Nat) : State :=
  (List.range 8).foldl (fun s e =>
    ((s.engine (s.part n).die.toNat e).queue.filter fun d => d.pt == n && d.started && d.kind == .out).foldl
      (fun s d => s.sendWrites d e) s) s

/-- The partition stops, its context to be rewound (R470 steps 1 and 2, R494). -/
def State.stopForRewind (s : State) (n : Nat) : State :=
  match (s.part n).ctx with
  | none => s
  | some cn =>
    let recs := s.peelRecords n
    let s1 := ((s.finishWrites n).stopMembers n).filterDescs (s.part n).die.toNat fun d => d.pt != n
    let s2 := (s1.updCoresOf n Core.stopCore).endRun n
    let ks := (s.coresOf n).map Prod.snd
    let s3 := { s2 with
      fab := { s2.fab with reqs := s2.fab.reqs.filter fun q => match q.issuer with
        | .peelRead _ _ k _ _ => !ks.contains k
        | _ => true }
      host := { s2.host with reads := s2.host.reads.filter fun q => match q.issuer with
        | .peelRead _ _ k _ _ => !ks.contains k
        | _ => true } }
    let c := s3.ctx cn
    (s3.setCtx cn { c with stopped := true, journal := c.journal ++ recs }).updPart n fun p => { p with replay := [] }

/-- A core after a reset of its partition (R487): everything but its service state; a core whose context will be rewound keeps
its messages. -/
def Core.afterReset (k : Core) (keep : Bool) : Core :=
  { Core.reset with
      failed := k.failed, retired := k.retired, nextId := k.nextId
      xfers := if keep then k.xfers else [], sendXq := if keep then k.sendXq else []
      recvXq := if keep then k.recvXq else [], xbars := k.xbars }

/-- A partition after a reset of it: its configuration and its hold stay (R157, R596). -/
def Part.afterReset (p : Part) (ctx : Option Nat) : Part :=
  { Part.reset with
      hold := p.hold, refused := p.refused, quarantined := p.quarantined, die := p.die, first := p.first, count := p.count
      en := p.en, bad := p.bad, writeIgnored := p.writeIgnored, outOfService := p.outOfService, ctx := ctx
      telProg := p.telProg, telFrz := p.telFrz }

/-- What a partition reset does at once (R487, R490): the resident context is stopped for a rewind, or ends with
PARTITION_RESET, an Express one by the loss of a copy; every core of the partition loses its state. -/
def State.resetPartition (s : State) (n : Nat) : State :=
  let keep := match (s.part n).ctx with
    | some cn => (s.ctx cn).rewindable
    | none => false
  let s1 := if keep then s.stopForRewind n
    else if (s.part n).ctx.isSome then (s.killContext n fcPtReset true).withdraw n else s.withdraw n
  let s2 := s1.updCoresOf n fun k => k.afterReset keep
  s2.setPart n ((s2.part n).afterReset (if keep then (s.part n).ctx else none))

/-- A partition reset begins as a step of the ladder (R487, R492). -/
def State.startPartReset (s : State) (n : Nat) : State := (s.resetPartition n).beginStep (.part n)

/-- Every entry of a context that has died completes with a code. -/
def State.endEntries (s : State) (cn code : Nat) : State :=
  (s.bs.run.filter fun a => a.ctx == cn && !a.express).foldl (fun s a => s.complete a 1 code 0) s

/-- A context bound to a partition ends with PARTITION_RESET; an Express one loses that copy (R477, R479). -/
def State.endBound (s : State) (n : Nat) : State :=
  (List.range 64).foldl (fun s cn =>
    let c := s.ctx cn
    if !c.live ∨ !c.pts.contains n then s
    else if c.express then s.loseCopy cn (c.isPrimary n)
    else (s.setCtx cn { c with st := .dead, code := BitVec.ofNat 8 fcPtReset, stopped := false }).endEntries cn fcPtReset) s

/-! ### Failed cores and spares (R464, R470 step 3, R479, R480) -/

/-- The logical core of a die that a physical core serves. -/
def State.logicalOf (s : State) (d p : Nat) : Option Nat := (List.range 24).find? fun l => s.mapCore d l == p

/-- The spare physical cores of a die, ascending: in no place of the core map, and neither failed,
retired nor fused off (R22). -/
def State.spareCores (s : State) (d : Nat) : List Nat :=
  ((List.range 26).filter fun p => s.isSpare d p).take (s.die d).sparesLeft

/-- A core map entry as a committed word. -/
def State.mapWord (s : State) (d l p : Nat) : Nat × Word :=
  let off := 0x060_2000 + 0x20 * d + 4 * (l / 4)
  let w := s.crust.read off
  (off, packWord ((List.range 4).map fun i => (if i = l % 4 then p else fieldOf w (8 * i) 8, 8 * i)))

/-- A physical core is retired (R478, R480): one spare of its die less, where one is used up. -/
def State.retireCore (s : State) (d p : Nat) (uses : Bool) : State :=
  let s1 := s.updCore (26 * d + p) fun k => { k with failed := true, retired := true }
  let x := s1.die d
  let s2 := s1.setDie d { x with sparesLeft := if uses then x.sparesLeft - 1 else x.sparesLeft }
  (s2.spare d .cores (srcCore (26 * d + p) 0) (s2.die d).sparesLeft).otp fun o => { o with cores := smapUpd 0 o.cores d (· + 1) }

/-- The last spare is gone (R479): the partition is reset, its contexts end, it is BAD, and the die exposes one core less. -/
def State.noSpare (s : State) (n d p : Nat) : State :=
  let s1 := (s.endBound n).startPartReset n
  let s2 := (s1.updPart n fun q => { q with bad := true }).retireCore d p false
  s2.setDie d { s2.die d with lostCores := (s2.die d).lostCores + 1 }

/-- A core is declared failed (R464, R470, R476, R479). -/
def State.coreFail (s : State) (d p : Nat) : State :=
  let k := s.core (26 * d + p)
  if 26 ≤ p ∨ k.failed ∨ k.retired ∨ s.fusedOff d p then s
  else
    let s0 := s.updCore (26 * d + p) fun k => { k with failed := true }
    match s0.ptOfCore (26 * d + p) with
    | none => if (s.logicalOf d p).isNone ∧ (s.die d).sparesLeft ≠ 0 then s0.retireCore d p true else s0
    | some n =>
      if (s0.spareCores d).isEmpty then s0.noSpare n d p
      else
        match (s0.part n).ctx with
        | none => s0
        | some cn =>
          if (s0.ctx cn).rewindable then s0.stopForRewind n else (s0.killContext n fcPtReset true).withdraw n

/-- CORE_FAIL (R464). -/
def coreFail (d p : Nat) (s : State) : State := s.coreFail d p

/-! ### Tasting (R450 to R457) -/

/-- The progress of an array changed. -/
def State.updTaste (s : State) (x : TasteAt) (f : TasteArr → TasteArr) : State :=
  let d := s.die x.die.toNat
  s.setDie x.die.toNat { d with taste := smapUpd .reset d.taste (4 * x.p.toNat + x.a.toNat) f }

/-- The array's progress. -/
def State.tasteAt (s : State) (x : TasteAt) : TasteArr := smapGet .reset (s.die x.die.toNat).taste (4 * x.p.toNat + x.a.toNat)

/-- A round is over on an array: its sums are gone. -/
def State.nextRound (s : State) (x : TasteAt) : State :=
  s.updTaste x fun t => { TasteArr.reset with round := t.round, seed := t.seed, doneThisPeriod := t.doneThisPeriod, quarantined := t.quarantined }

/-- The Tasting Crumb of an array (R452). -/
def TasteArr.crumb (t : TasteArr) : DWord := (List.range 128).foldl (fun v c => v + smapGet 0 t.acc c) 0

/-- Two arrays agree on a round: equal Crumbs and flag words (R454). -/
def TasteArr.agrees (t u : TasteArr) : Bool := t.crumb == u.crumb && t.flags == u.flags

/-- Arrays on different dies that have completed one round with one seed (R454). -/
def State.comparable (s : State) (xs : List TasteAt) : Bool :=
  decide ((xs.map fun x => x.die).Nodup) && xs.all (fun x => (s.tasteAt x).done) &&
    xs.all fun x => xs.all fun y => (s.tasteAt x).round == (s.tasteAt y).round && (s.tasteAt x).seed == (s.tasteAt y).seed

/-- A TASTING record (R579, log 23): round number, format, decision, and the arrays. -/
def State.tasteRecord (s : State) (round : Word) (decision : Nat) (xs : List TasteAt) : State :=
  match xs with
  | [] => s
  | x :: _ =>
    s.ledgerAppend x.die.toNat 0x05 (srcNo x.die.toNat 0x210)
      (natBytes 4 round.toNat ++ natBytes 1 (tasteFmt round) ++ natBytes 1 decision ++
        xs.flatMap fun y => natBytes 1 (26 * y.die.toNat + y.p.toNat) ++ natBytes 1 y.a.toNat)

/-- The rounds passed and failed of a die (R582). -/
def State.tasteLife (s : State) (x : TasteAt) (pass : Bool) : State :=
  s.life x.die.toNat fun l =>
    if pass then { l with tastePass := satAdd64 l.tastePass 1 } else { l with tasteFail := satAdd64 l.tasteFail 1 }

/-- A bypass entry moved from a spare column onto a failed one (R130): the four columns ascending again. -/
def moveColumn (w : Word) (failed spare : Nat) : Word :=
  let cols := ((List.range 4).map fun i => fieldOf w (8 * i) 8).map fun c => if c = spare then failed else c
  packWord ((cols.foldl natSetInsert []).zipIdx.map fun (c, i) => (c, 8 * i))

/-- A move that R130 allows: from a bypassed column at 128 or above, which neither a fuse nor an earlier repair has `fixed`, onto one
that is not bypassed. -/
def moveOk (fixed : NatSet) (w : Word) (failed spare : Nat) : Bool :=
  let cols := (List.range 4).map fun i => fieldOf w (8 * i) 8
  cols.contains spare && decide (128 ≤ spare) && !fixed.contains spare && !cols.contains failed && decide (failed < 132)

/-- The repair map of an array. -/
def tasteMap (x : TasteAt) : Nat := 0x060_4000 + 0x40 * (26 * x.die.toNat + x.p.toNat) + 4 * x.a.toNat

/-- The source number of an array. -/
def tasteSrc (x : TasteAt) : Nat := srcCore (26 * x.die.toNat + x.p.toNat) (1 + x.a.toNat)

/-- The key of an array among those of its die. -/
def tasteKey (x : TasteAt) : Nat := 4 * x.p.toNat + x.a.toNat

/-- The bypass entries of an array that Abmito may not move (R130): the fused ones and those on failed columns. -/
def State.fixedCols (s : State) (x : TasteAt) : NatSet :=
  smapGet [] s.fuse.colsOff (4 * (26 * x.die.toNat + x.p.toNat) + x.a.toNat) ++ smapGet [] (s.die x.die.toNat).movedCols (tasteKey x)

/-- The moves may be made one after another. -/
def movesOk (fixed : NatSet) (w : Word) : List (Byte × Byte) → Bool
  | [] => true
  | (f, v) :: ms => moveOk fixed w f.toNat v.toNat && movesOk (f.toNat :: fixed) (moveColumn w f.toNat v.toNat) ms

/-- One failed column repaired (R130 to R132, R454, R480), in the array's map `w` as its latest commit gives it. -/
def State.repairColumn (s : State) (x : TasteAt) (w : Word) (e : Byte × Byte) : State :=
  let d := x.die.toNat
  let die := s.die d
  let s1 := s.setDie d { die with fieldCols := min 255 (die.fieldCols + 1)
                                  movedCols := smapUpd [] die.movedCols (tasteKey x) fun m => natSetInsert m e.1.toNat }
  let s2 := ((s1.spare d .columns (tasteSrc x) (s1.die d).fieldCols e.1.toNat).otp fun o =>
    { o with cols := smapUpd 0 o.cols d fun n => min 255 (n + 1) }).event (tasteSrc x) 0x0602 (detail3 e.1.toNat 0 0)
  s2.commitWords [(tasteMap x, moveColumn w e.1.toNat e.2.toNat)]

/-- Failed columns repaired, one entry at a time (R130). -/
def State.repairColumns (s : State) (x : TasteAt) (w : Word) : List (Byte × Byte) → State
  | [] => s
  | e :: es => (s.repairColumn x w e).repairColumns x (moveColumn w e.1.toNat e.2.toNat) es

/-- The physical column that carries a column of an array, by its repair map in force (R130). -/
def State.physColumn (s : State) (x : TasteAt) (c : Nat) : Nat :=
  let w := s.crust.read (tasteMap x)
  ((List.range 132).filter fun i => !((List.range 4).any fun j => fieldOf w (8 * j) 8 == i)).getD c 132

/-- The bypassed columns of an array that Abmito may still bring into use (R130). -/
def State.spareColumns (s : State) (x : TasteAt) : List Nat :=
  let w := s.crust.latest (tasteMap x)
  ((List.range 4).map fun i => fieldOf w (8 * i) 8).filter fun c => decide (128 ≤ c) && !(s.fixedCols x).contains c

/-- The columns whose accumulators differ between two arrays (R454). -/
def columnsApart (t u : TasteArr) : List Nat := (List.range 128).filter fun c => smapGet 0 t.acc c != smapGet 0 u.acc c

/-- An array convicted against one that was right (R454): one or two columns with spares enough are repaired; else the array, and with it
its core, has failed. -/
def State.convict (s : State) (x z : TasteAt) (spares : List Byte) : State :=
  let cols := (columnsApart (s.tasteAt x) (s.tasteAt z)).map (s.physColumn x)
  let repairs := (cols.map fun c => BitVec.ofNat 8 c).zip spares
  let s1 := (((s.tasteRecord (s.tasteAt x).round 2 [x]).tasteLife x false).nextRound x)
  let w := s.crust.latest (tasteMap x)
  if (cols.length = 1 ∨ cols.length = 2) ∧ cols.length ≤ (s.spareColumns x).length then s1.repairColumns x w repairs
  else (s1.event (tasteSrc x) 0x0602 (detail3 x.a.toNat 0 0)).coreFail x.die.toNat x.p.toNat

/-- Arrays that do not agree with `z` are convicted against it, each with the spares chosen for it; the others have done the round. -/
def State.convictAll (s : State) (z : TasteAt) : List TasteAt → List (List Byte) → State
  | [], _ => s.nextRound z
  | x :: xs, vs =>
    if (s.tasteAt x).agrees (s.tasteAt z) then (s.convictAll z xs vs).nextRound x
    else (s.convict x z (vs.headD [])).convictAll z xs vs.tail

/-- The columns chosen for the arrays that would be convicted against `z` are ones that R130 lets Abmito move. -/
def State.choiceOk (s : State) (z : TasteAt) : List TasteAt → List (List Byte) → Bool
  | [], _ => true
  | x :: xs, vs =>
    if (s.tasteAt x).agrees (s.tasteAt z) then s.choiceOk z xs vs
    else
      let cols := columnsApart (s.tasteAt x) (s.tasteAt z)
      let repairs := (cols.map fun c => BitVec.ofNat 8 (s.physColumn x c)).zip (vs.headD [])
      (!(decide (1 ≤ cols.length) && decide (cols.length ≤ 2) && decide (cols.length ≤ (s.spareColumns x).length)) ||
        ((vs.headD []).length == cols.length && movesOk (s.fixedCols x) (s.crust.latest (tasteMap x)) repairs)) && s.choiceOk z xs vs.tail

/-- No two of four arrays agree (R454): every one is quarantined. -/
def State.unresolved (s : State) (xs : List TasteAt) : State :=
  let s1 := s.tasteRecord ((xs.head?.map fun x => (s.tasteAt x).round).getD 0) 3 xs
  let s2 := xs.foldl (fun s x => ((s.tasteLife x false).nextRound x).updTaste x fun t => { t with quarantined := true }) s1
  { s2 with tele := { s2.tele with tasteUnresolved := true } }.hwSet 0x050_0704 1

/-- A round that two arrays do not agree on goes to a referee (R454). -/
def State.toReferee (s : State) (x y : TasteAt) : State :=
  let rd := (s.tasteAt x).round
  let s1 := (s.tasteRecord rd 1 [x, y]).event (srcNo x.die.toNat 0x210) 0x0601 (detail3 rd.toNat 0 0)
  { s1 with tele := { s1.tele with tasteFail := satAdd32 s1.tele.tasteFail 1 } }

/-- TASTING_ROUND_COMPLETE (R454): Abmito compares the Tasting Crumbs and flag words of the arrays that have completed a round. -/
def tastingRoundComplete (r : TasteCheck) (s : State) : State :=
  let t := s.tasteAt
  match r with
  | .pair x y =>
    if !s.comparable [x, y] then s
    else if (t x).agrees (t y) then
      let s1 := (((s.nextRound x).nextRound y).tasteLife x true).tasteLife y true
      { s1 with tele := { s1.tele with tastePass := satAdd32 s1.tele.tastePass 1 } }
    else s.toReferee x y
  | .referee x y z spares =>
    if !s.comparable [x, y, z] ∨ (t x).agrees (t y) ∨ !((t x).agrees (t z) || (t y).agrees (t z)) ∨ !s.choiceOk z [x, y] spares then s
    else s.convictAll z [x, y] spares
  | .fourth x y z w spares =>
    if !s.comparable [x, y, z, w] ∨ (t x).agrees (t y) ∨ (t x).agrees (t z) ∨ (t y).agrees (t z) then s
    else if !([x, y, z].any fun v => (t v).agrees (t w)) then s.unresolved [x, y, z, w]
    else if s.choiceOk w [x, y, z] spares then s.convictAll w [x, y, z] spares
    else s

/-- TASTING_PERIOD_END (R456): arrays of exposed cores without a complete round are counted, and a period begins. -/
def tastingPeriodEnd (s : State) : State :=
  let starved := (List.range 4).flatMap fun d => (List.range (s.exposed d)).flatMap fun l => (List.range 4).filter fun a =>
    decide (s.mapCore d l < 26) && !(smapGet TasteArr.reset (s.die d).taste (4 * s.mapCore d l + a)).doneThisPeriod
  let s1 := (List.range 4).foldl (fun s d =>
    let x := s.die d
    let m := x.taste.map fun e => (e.1, { e.2 with doneThisPeriod := false })
    s.setDie d { x with taste := m.filter fun e => e.2 != TasteArr.reset }) s
  { s1 with tele := { s1.tele with tasteStarved := min 255 starved.length } }

/-! ### Quarantine (R455) -/

/-- A partition leaves reset unless it is held, quarantined, BAD or out of service (R596, R455, R479, R477). -/
def Part.leaveReset (p : Part) : Part :=
  { p with inReset := p.hold || p.quarantined || p.bad || p.outOfService || !p.en }

/-- PARTITION_QUARANTINE (R455, R596): with no entry admitted, the partition is held in reset; a release written in the same cycle is
refused. -/
def partitionQuarantine (n : Nat) (s : State) : State :=
  let p := s.part n
  if !(s.entriesOn n).isEmpty || p.quarantined then s
  else
    let s1 := (s.setPart n { p with
      quarantined := true, hold := p.hold || p.releasedNow, inReset := p.inReset || p.releasedNow
      refused := p.refused || p.releasedNow }).hwSetIf p.releasedNow (0x010_0000 + 0x1_0000 * n) 4
    if p.inReset || p.releasedNow then s1 else s1.startPartReset n

/-- QUARANTINE_TESTS_DONE (R455): the partition is released, or the core of a convicted unit has failed. -/
def quarantineTestsDone (n : Nat) (convicted : Option LCore) (s : State) : State :=
  let p := s.part n
  if !p.quarantined then s
  else
    let s1 := s.ledgerAppend p.die.toNat 0x05 (srcNo p.die.toNat 0x210)
      (natBytes 4 0 ++ natBytes 1 0xFF ++ natBytes 1 (if convicted.isSome then 5 else 4) ++ natBytes 1 n)
    match convicted with
    | none =>
      let busy := s.ladder.steps.any fun t => t.target == .part n
      s1.updPart n fun q => let q1 := { q with quarantined := false }; if busy then { q1 with inReset := true } else q1.leaveReset
    | some c =>
      match s.phys n c.toNat with
      | some k => (s1.event (srcCore k 0) 0x0602 (detail3 k 0 0)).coreFail (k / 26) (k % 26)
      | none => s1

/-! ### The rows -/

/-- TILE_ABANDON (R458, R459). -/
def execTileAbandon (pt : Pt) (src : SrcNo) (s : State) : Out :=
  .next (if unitOk src.toNat then s.abandonTile pt.toNat src.toNat else s)
/-- SRAM_ECC_ERROR (R445). -/
def execSramEccError (e : EccAt) (uncorrectable : Bool) (s : State) : Out := .next (sramEccError e uncorrectable s)
/-- SRAM_SCRUB (R446): an error is acted on where it is found, so none is left for the scrub; it stalls and changes nothing. -/
def execSramScrub (s : State) : Out := .next s
/-- CRUST_COMMIT (R448). -/
def execCrustCommit (entries : List (Word × Word)) (crc : Word) (s : State) : Out := .next (crustCommit entries crc s)
/-- CRUST_SCRUB (R449). -/
def execCrustScrub (s : State) : Out := .next (crustScrub s)
/-- TASTING_ROUND_COMPLETE (R454). -/
def execTastingRoundComplete (r : TasteCheck) (s : State) : Out := .next (tastingRoundComplete r s)
/-- TASTING_PERIOD_END (R456). -/
def execTastingPeriodEnd (s : State) : Out := .next (tastingPeriodEnd s)
/-- PARTITION_QUARANTINE (R455). -/
def execPartitionQuarantine (pt : Pt) (s : State) : Out := .next (partitionQuarantine pt.toNat s)
/-- QUARANTINE_TESTS_DONE (R455). -/
def execQuarantineTestsDone (pt : Pt) (convicted : Option LCore) (s : State) : Out :=
  .next (quarantineTestsDone pt.toNat convicted s)
/-- CORE_FAIL (R464). -/
def execCoreFail (die : DieNo) (p : BitVec 5) (s : State) : Out := .next (coreFail die.toNat p.toNat s)

end Sys2Proof.Machine
end

