-- ==== Sys2Proof/Machine/Ports.lean ====
section
/-! DEFINITION. The router's ports (12_thatre_fabric.md R371 to R397, R410): training, flits and retry, lanes, hellos, the
choice of a time master, the choice of a port for a packet. -/

namespace Sys2Proof.Machine

/-! ### Ports and lanes (R371, R383) -/

/-- A port. -/
def State.port (s : State) (n : Nat) : Port := smapGet .reset s.fab.ports n
/-- The state with a port replaced. -/
def State.setPort (s : State) (n : Nat) (p : Port) : State :=
  { s with fab := { s.fab with ports := smapSet .reset s.fab.ports n p } }
/-- The state with a port changed. -/
def State.updPort (s : State) (n : Nat) (f : Port → Port) : State := s.setPort n (f (s.port n))

/-- FAB_PORT_STAT of a port (R415). -/
def portStatOff (n : Nat) : Nat := 0x030_1004 + 0x100 * n

/-- The source number of a router port (R30). -/
def srcPort (n : Nat) : Nat := srcHub (0x100 + n)

/-- The source number of a lane of a port, at its electrical side (R30). -/
def srcLane (n l : Nat) : Nat :=
  if n < 32 then srcNo (10 + n / 8) (0x100 + 8 * (n % 8) + l) else srcNo (18 + (n - 32) / 4) (0x100 + 4 * ((n - 32) % 4) + l)

/-- The lanes of a port. -/
def portLanes (n : Nat) : Nat := if n < 32 then 8 else 4

/-- The largest width that a number of working lanes allows (R383). -/
def widthFor (n lanes : Nat) : Option Nat := (if n < 32 then [8, 7, 6, 4] else [4, 2]).find? fun w => decide (w ≤ lanes)

/-- A port sends flits: in LINK and in UP (R376). -/
def Port.linked (p : Port) : Bool := p.st == .link || p.st == .up

/-- What a port keeps when it leaves LINK or UP (R415). -/
def Port.down (p : Port) : Port :=
  { Port.reset with
      en := p.en, rateCap := p.rateCap, timeEn := p.timeEn, downSeen := p.downSeen, widthChanged := p.widthChanged
      retries := p.retries, trainFails := p.trainFails }

/-! ### Flits (R379) -/

/-- The CRC-64 of a flit (R379): the polynomial of ECMA-182, the rest open (log 11). -/
def crc64 (bytes : List Byte) : BitVec 64 :=
  let up := fun (r : BitVec 64) (b : Byte) => (List.range 8).foldl (fun (r : BitVec 64) _ =>
    (r <<< 1) ^^^ (if r.msb then 0x42F0E1EBA9EA3693 else 0)) (r ^^^ (b.setWidth 64 <<< 56))
  let down := fun (r : BitVec 64) (b : Byte) => (List.range 8).foldl (fun (r : BitVec 64) _ =>
    (r >>> 1) ^^^ (if r.getLsbD 0 then 0xC96C5795D7870F42 else 0)) (r ^^^ b.setWidth 64)
  bytes.foldl (if Config.flitCrcReflected then down else up) Config.flitCrcInit ^^^ Config.flitCrcOut

/-- `k` bits of a flit from a bit. -/
def flitField (f : MemLine) (lo w : Nat) : Nat := (f.toNat >>> lo) % 2 ^ w

/-- The CRC of a flit is good (R379). -/
def flitGood (f : MemLine) : Bool :=
  flitField f (8 * 248) 64 == (crc64 ((List.range 248).map fun i => BitVec.ofNat 8 (flitField f (8 * i) 8))).toNat

/-- The header of a flit (R379). -/
structure FlitHead where
  vc : Nat
  type : Nat
  seq : BitVec 12
  ack : BitVec 12
  nak : Bool
  crvc : Nat
  credits : Nat
deriving DecidableEq, Repr

/-- A flit (R379): 8 bytes of header, 240 of packet data, the CRC. -/
def flitOf (h : FlitHead) (data : List Byte) : MemLine :=
  let body := natBytes 8 (h.vc + h.type * 2 ^ 2 + h.seq.toNat * 2 ^ 4 + h.ack.toNat * 2 ^ 16 + b2n h.nak * 2 ^ 28 + h.crvc * 2 ^ 29 +
    h.credits * 2 ^ 32) ++ data
  BitVec.ofNat 2048 (bytesNat (body ++ natBytes 8 (crc64 body).toNat))

/-! ### Sending (R380, R381, R385 to R387) -/

/-- The virtual channel of a packet kind (R386). -/
def packetVc (p : Packet) : Nat :=
  match p.kind.toNat with
  | 0x01 | 0x03 | 0x04 | 0x06 => 0
  | 0x02 | 0x05 | 0x07 | 0x08 | 0x09 => 1
  | 0x10 => 2
  | _ => 3

/-- A packet's bytes: 32 of header and its payload (R385). -/
def packetBytes (p : Packet) : List Byte :=
  natBytes 2 p.dst.toNat ++ natBytes 2 p.src.toNat ++ [p.kind, p.flow] ++ natBytes 2 p.len ++ natBytes 4 p.seq.toNat ++
    natBytes 4 p.tag.toNat ++ natBytes 8 p.addr.toNat ++ natBytes 4 p.reason.toNat ++ [BitVec.ofNat 8 (b2n p.poison)] ++
    natBytes 1 p.hops ++ [0, 0] ++ p.payload

/-- The receive buffer of a channel in flits (R380). -/
def bufferFlits : Nat → Nat
  | 2 => 512
  | 3 => 32
  | _ => 256

/-- A channel has a data flit to send, the credit for it, and the replay buffer room (R376, R380, R381). -/
def Port.canFlit (p : Port) (vc : Nat) : Bool :=
  (p.st == .up || (p.st == .link && vc == 3)) && smapGet 0 p.credits vc != 0 && decide (p.sent.length < 512) &&
    (!(smapGet [] p.rest vc).isEmpty || p.queue.any fun k => packetVc k == vc)

/-- The channel of the next data flit (R380): VC3 first, the others one flit each in turn. -/
def Port.nextVc (p : Port) : Option Nat :=
  if p.canFlit 3 then some 3 else ([0, 1, 2].map fun i => (p.turn + i) % 3).find? p.canFlit

/-- Packets of a channel follow bytes until a flit is full, without padding (R387): the bytes, the packets taken, those left. -/
def fillFlit (vc : Nat) : List Byte → List Packet → List Byte × List Packet × List Packet
  | bs, [] => (bs, [], [])
  | bs, k :: ks =>
    if packetVc k = vc ∧ bs.length < 240 then
      let r := fillFlit vc (bs ++ packetBytes k) ks
      (r.1, k :: r.2.1, r.2.2)
    else
      let r := fillFlit vc bs ks
      (r.1, r.2.1, k :: r.2.2)

/-- The channel whose credits the next flit returns, and how many. -/
def Port.giveBack (p : Port) : Nat × Nat :=
  match p.owed with
  | [] => (0, 0)
  | e :: _ => (e.1, min 65535 e.2)

/-- A flit made by a port (R379): it carries the ACK of what has come and returns credits. -/
def Port.makeFlit (p : Port) (vc type : Nat) (nak : Bool) (data : List Byte) : MemLine × Port :=
  let c := p.giveBack
  (flitOf ⟨vc, type, p.txSeq, p.rxSeq - 1, nak, c.1, c.2⟩ data,
    { p with owed := smapUpd 0 p.owed c.1 (· - c.2), ackDue := false })

/-- A data flit of a channel (R379, R381, R387): the packets that it begins, the flit, the port. -/
def Port.dataFlit (p : Port) (vc : Nat) : List Packet × MemLine × Port :=
  let (bs, taken, left) := fillFlit vc (smapGet [] p.rest vc) p.queue
  let data := bs.take 240 ++ (List.range (240 - bs.length)).map fun i => Config.flitFill (bs.length + i)
  let (f, q) := p.makeFlit vc 0 false data
  (taken, f, { q with
    queue := left, rest := smapSet [] q.rest vc (bs.drop 240), credits := smapUpd 0 q.credits vc (· - 1), txSeq := q.txSeq + 1
    sent := q.sent ++ [⟨q.txSeq, f, 0⟩], turn := if vc = 3 then q.turn else (vc + 1) % 3 })

/-- A flit without packet data (R379, R381). -/
def Port.idleFlit (p : Port) (nak : Bool) : MemLine × Port := p.makeFlit 0 1 nak (List.replicate 240 0)

/-- Data flits, while there is one to send: what leaves, and the port. The replay buffer bounds their number. -/
def Port.pump (n : Nat) : Nat → Port → List Output × Port
  | 0, p => ([], p)
  | fuel + 1, p =>
    match p.nextVc with
    | none => ([], p)
    | some vc =>
      let d := p.dataFlit vc
      let r := Port.pump n fuel d.2.2
      ((d.1.map fun k => .packet n k) ++ (.flit n d.2.1 :: r.1), r.2)

/-- Idle flits, while credits or an ACK are to be told and no data flit has told them (R381). -/
def Port.idle (n : Nat) : Nat → Port → List Output × Port
  | 0, p => ([], p)
  | fuel + 1, p =>
    if p.owed.isEmpty && !p.ackDue then ([], p)
    else
      let d := p.idleFlit false
      let r := Port.idle n fuel d.2
      (.flit n d.1 :: r.1, r.2)

/-- What a port has sent leaves the module, and its link engine beats (R484). -/
def State.sendAll (s : State) (n : Nat) (r : List Output × Port) : State :=
  r.1.foldl State.emit (s.setPort n (if r.1.isEmpty then r.2 else { r.2 with lastFlit := s.now }))

/-- A port sends what it can (R380, R381). -/
def State.pumpPort (s : State) (n : Nat) : State :=
  if !(s.port n).linked then s
  else
    let r := Port.pump n 512 (s.port n)
    let i := Port.idle n 8 r.2
    s.sendAll n (r.1 ++ i.1, i.2)

/-- A packet given to a port. -/
def State.portSend (s : State) (n : Nat) (k : Packet) : State :=
  (s.updPort n fun p => { p with queue := p.queue ++ [k] }).pumpPort n

/-! ### Routing (R394 to R397) -/

/-- An entry of the routing table (R394, R415). -/
def State.routeEntry (s : State) (dst : NodeId) : BitVec 24 := smapGet 0xFF_FFFF s.fab.route dst.toNat

/-- The live next hops of an entry, in table order (R395). -/
def State.live (s : State) (dst : NodeId) : List Nat :=
  let e := s.routeEntry dst
  ((List.range 4).map fun i => (e.toNat >>> (6 * i)) % 64).filter fun n => decide (n ≤ 39) && (s.port n).st == .up

/-- The hash of R395. -/
def routeHash (src dst flow : Nat) : Nat :=
  let h := ((src * 0x9E37) ^^^ (dst * 0x7F4B) ^^^ (flow * 0x2C1B)) % 2 ^ 16
  h ^^^ (h >>> 7)

/-- The port of a packet (R395); none where no next hop is live. -/
def State.choosePort (s : State) (p : Packet) : Option Nat :=
  let l := s.live p.dst
  l[routeHash p.src.toNat p.dst.toNat p.flow.toNat % l.length]?

/-- A packet that arrived on a port is discarded and counted (R386, R415); one that came on none is not. -/
def State.countDiscard (s : State) (n : Nat) : State :=
  if n < 40 then s.updPort n fun q => { q with trainFails := min 65535 (q.trainFails + 1) } else s

/-- A packet with no live next hop is discarded, and the router returns REFUSE to its source (R397): for a request in the name of its
destination, so that the pair and the number of R402 name it, else in its own (DEDUCED, log 30). The module's own request fails
at once; its own answers are dropped. -/
def State.unroutable (s : State) (port : Nat) (p : Packet) : State :=
  let request := packetVc p == 0 || packetVc p == 2
  if p.src = s.fab.node then
    if !request then s
    else match s.findReq p.dst p.seq with
      | some q => if packetVc p = 0 then s.failReq q 1 else s.failColl p.tag p.reason.toNat 1
      | none => if packetVc p = 2 then s.failColl p.tag p.reason.toNat 1 else s
  else
    let s1 := s.countDiscard port
    if s.fab.node = 0 then s1
    else s1.toRouter
      { p with dst := p.src, src := if request then p.dst else s.fab.node, kind := 0x09, len := 0, reason := 1, poison := false, hops := 0
               payload := [] }

/-- A packet sent on its way (R395, R397); it came on a port, or on none. -/
def State.sendVia (s : State) (port : Nat) (p : Packet) : State :=
  match s.choosePort p with
  | some n => s.portSend n p
  | none => s.unroutable port p

/-! ### The choice of a time master (R410) -/

/-- The pairs that the ports offer, with their ports: hops above 15 are ignored. -/
def State.offers (s : State) : List (Nat × Nat × Nat) :=
  (List.range 40).filterMap fun n =>
    let p := s.port n
    if p.timeEn && p.st == .up then
      p.advert.bind fun a => if a.hops + 1 ≤ 15 then some (a.master.toNat, a.hops + 1, n) else none
    else none

/-- A pair is better than another (R410). -/
def betterPair (a b : Nat × Nat × Nat) : Bool :=
  decide (a.1 < b.1) || (a.1 == b.1 && (decide (a.2.1 < b.2.1) || (a.2.1 == b.2.1 && decide (a.2.2 < b.2.2))))

/-- The best offer. -/
def State.bestOffer (s : State) : Option (Nat × Nat × Nat) :=
  s.offers.foldl (fun o x => match o with
    | some y => if betterPair x y then some x else some y
    | none => some x) none

/-- The node adverts itself (R410). -/
def State.advertsSelf (s : State) : Bool :=
  s.time.timeCapable && s.fab.node != 0 && (s.time.lockedOnce || s.time.timedOut)

/-- The best pair is the node's own advert. -/
def State.ownBest (s : State) : Bool :=
  s.advertsSelf && match s.bestOffer with
    | some x => !decide (x.1 < s.fab.node.toNat)
    | none => true

/-- The port that leads to the time parent (R410, R415). -/
def State.timeParent (s : State) : Option Nat :=
  if s.ownBest then none else s.bestOffer.map fun x => x.2.2

/-- What the node adverts (R410): itself as master, or the master it is locked to. -/
def State.advertNow (s : State) : Option Advert :=
  if s.time.master then some ⟨s.fab.node, 0⟩
  else if s.time.locked then s.bestOffer.map fun x => ⟨BitVec.ofNat 16 x.1, x.2.1⟩
  else none

/-- HOLDOVER set or cleared, with its event (R43, R589). -/
def State.setHoldover (s : State) (b : Bool) : State :=
  if s.time.holdover = b then s
  else { s with time := { s.time with holdover := b } }.event (srcHub 0x300) 0x0103 (detail3 (b2n b) 0 0)

/-- The election (R410): the node whose best pair is its own advert is the master and locked. Once it has been locked, a node that no
master is reachable for holds over (R43). The wait of R413 begins anew at a new parent. -/
def State.elect (s : State) : State :=
  if s.ownBest then
    { s with time := { s.time with
        master := true, locked := true, lockedOnce := true, masterId := s.fab.node, parent := none } }.setHoldover false
  else
    let alone := s.time.lockedOnce && s.bestOffer.isNone
    let port := s.bestOffer.map fun x => x.2.2
    let s1 := { s with time := { s.time with
      master := false, locked := s.time.locked && !alone, masterId := (s.bestOffer.map fun x => BitVec.ofNat 16 x.1).getD 0
      parent := port, lastSync := if port = s.time.parent then s.time.lastSync else s.now } }
    if alone then s1.setHoldover true else s1

/-! ### Link loss (R384, R397) -/

/-- A port loses its link, for the reason at this place of R384's list, from 0; the number that its event shows is open (log 38).
The packets that wait on it take another port. -/
def State.linkLoss (s : State) (n cause : Nat) : State :=
  let p := s.port n
  if !p.linked then s
  else
    let s1 := ((s.setPort n { p.down with downSeen := true }).hwSet (portStatOff n) 0x200).event (srcPort n) 0x0503
      (detail3 (Config.causeCode 0x0503 cause 0).toNat 0 0)
    ((p.queue.filter fun k => packetVc k != 3).foldl (fun s k => s.sendVia n k) s1).elect

/-- A command at a port: the module has the port and power (R414). -/
def State.atPort (s : State) (n : Nat) (f : State → State) : State := if n < 40 ∧ s.power.routes then f s else s

/-- LINK_LOSS (R384): too few lanes remain. -/
def linkLost (n : Nat) (s : State) : State := s.atPort n fun s => s.linkLoss n 0

/-! ### Training (R376, R377) -/

/-- A port begins to train. -/
def Port.train (p : Port) (now : Nat) : Port :=
  if p.st == .off && p.en && p.signal && p.backoff.isNone then { p with st := .train, trainStart := now } else p

/-- PORT_SIGNAL_DETECT (R376). -/
def portSignalDetect (n : Nat) (s : State) : State :=
  s.atPort n fun s => s.updPort n fun p => ({ p with signal := true }).train s.now

/-- The Crust register of a port's retired lanes (R600). -/
def laneOffset (n : Nat) : Nat := 0x060_3400 + 4 * n

/-- PORT_TRAIN_COMPLETE (R376, R377, R380, R383): LINK, with credits and sequence numbers at zero, the peer told of the receive
buffers; no lane is out any more. An optical port needs the lasers of its bay (R609). -/
def portTrainComplete (n lanes : Nat) (fast : Bool) (s : State) : State :=
  s.atPort n fun s =>
    let p := s.port n
    match widthFor n (min lanes (portLanes n)) with
    | none => s
    | some w =>
      if p.st ≠ .train ∨ (n < 32 ∧ !(smapGet .reset s.bays (n / 8)).on) then s
      else
        let s1 := s.setPort n { p.down with
          st := .link, signal := true, width := w, rate := fast && p.rateCap, lanes := min lanes (portLanes n)
          lastHello := s.now, owed := (List.range 4).map fun vc => (vc, bufferFlits vc) }
        (if s.crust.read (laneOffset n) = 0 then s1 else s1.commitWords [(laneOffset n, 0)]).pumpPort n

/-- The training limit of a port in ns (R376). -/
def trainLimit (n : Nat) : Nat := if n < 32 then 300000000 else 500000000

/-- PORT_TRAIN_TIMEOUT (R376). -/
def portTrainTimeout (n : Nat) (s : State) : State :=
  s.atPort n fun s =>
    let p := s.port n
    if p.st ≠ .train ∨ s.now < p.trainStart + trainLimit n then s
    else s.setPort n { p.down with signal := p.signal, backoff := some s.now, trainFails := min 65535 (p.trainFails + 1) }

/-- TRAIN_BACKOFF_END (R376). -/
def trainBackoffEnd (n : Nat) (s : State) : State :=
  s.atPort n fun s =>
    let p := s.port n
    match p.backoff with
    | none => s
    | some t => if s.now < t + 100000000 then s else s.setPort n (({ p with backoff := none }).train s.now)

/-! ### Lanes (R383) -/

/-- A lane of a link has changed: counted for the Health Ledger (R582). -/
def State.countLinks (s : State) (src retries lanes : Nat) : State :=
  { s with ledger := { s.ledger with links := smapUpd (0, 0) s.ledger.links src fun e =>
      (satAdd64 e.1 retries, satAdd64 e.2 lanes) } }

/-- LANE_RETIRE (R383, R384, R478, R480): a lane leaves service until the port next trains. -/
def laneRetire (n l : Nat) (s : State) : State :=
  s.atPort n fun s =>
    let p := s.port n
    if !p.linked ∨ portLanes n ≤ l ∨ p.lanesOut.contains l then s
    else
      let out := natSetInsert p.lanesOut l
      let w := widthFor n (p.lanes - out.length)
      let s1 := ((s.setPort n { p with lanesOut := out }).countLinks (srcPort n) 0 1).spare (srcLane n l / 2048) .fabricLanes
        (srcLane n l) (w.getD 0)
      let s2 := s1.commitWords [(laneOffset n, BitVec.ofNat 32 ((out.map fun i => 2 ^ i).sum))]
      match w with
      | none => s2.linkLoss n 0
      | some w =>
        if w = p.width then s2
        else ((s2.updPort n fun q => { q with width := w, widthChanged := true }).hwSet (portStatOff n) 0x400).event
           (srcPort n) 0x0502 (detail3 w 0 0)

/-! ### Receiving flits (R379 to R381) -/

/-- A flit is discarded and its replay requested by a NAK (R381). -/
def State.requestReplay (s : State) (n : Nat) : State :=
  let s1 := ((s.updPort n fun p => { p with retries := min 65535 (p.retries + 1) }).countLinks (srcPort n) 1 0).eventAgg (srcPort n) 0x0501
  let d := (s1.port n).idleFlit true
  s1.sendAll n ([.flit n d.1], d.2)

/-- What the peer acknowledges, and the credits it returns (R379, R380). -/
def Port.acked (p : Port) (f : MemLine) : Port :=
  let i := p.sent.findIdx fun x => x.seq == BitVec.ofNat 12 (flitField f 16 12)
  { p with sent := if i < p.sent.length then p.sent.drop (i + 1) else p.sent
           credits := smapUpd 0 p.credits (flitField f 29 2) (· + flitField f 32 16) }

/-- The place that a data flit took in its channel's receive buffer is free again: its packets arrive as rows of their own (R380,
log 29). -/
def Port.taken (p : Port) (f : MemLine) : Port :=
  { p with rxSeq := p.rxSeq + 1, owed := smapUpd 0 p.owed (flitField f 0 2) (· + 1), ackDue := true }

/-- The flits that wait for an acknowledgement are sent again, in order (R381). -/
def State.replay (s : State) (n : Nat) : State :=
  let p := s.port n
  s.sendAll n (p.sent.map fun x => .flit n x.flit, { p with sent := p.sent.map fun x => { x with replays := x.replays + 1 } })

/-- FLIT_RECEIVE (R379, R381, R384): discarded, or taken with what it acknowledges and returns. A NAK replays what follows the ACK,
unless a flit of it has been replayed eight times. -/
def flitReceive (n : Nat) (f : MemLine) (s : State) : State :=
  s.atPort n fun s =>
    let p := s.port n
    let data := flitField f 2 2 == 0
    if !p.linked then s
    else if !flitGood f || (data && flitField f 4 12 != p.rxSeq.toNat) then s.requestReplay n
    else
      let p1 := p.acked f
      let s1 := s.setPort n (if data then p1.taken f else p1)
      if flitField f 28 1 = 0 then s1.pumpPort n
      else if p1.sent.any fun x => decide (8 ≤ x.replays) then s1.linkLoss n 1
      else (s1.replay n).pumpPort n

/-! ### Hellos (R376, R378, R384, R390, R391) -/

/-- The payload of a HELLO (R390); `down` announces that the port goes down. -/
def State.helloBytes (s : State) (n : Nat) (down : Bool) : List Byte :=
  let p := s.port n
  let ad := s.advertNow
  let inReset := s.ladder.steps.any fun t => t.target == .module
  natBytes 8 s.fuse.uid.toNat ++ natBytes 2 s.fab.node.toNat ++ natBytes 1 n ++ natBytes 1 (p.width + 16 * b2n p.rate) ++
    natBytes 1 (s.power.st.code + 8 * b2n inReset) ++
    natBytes 1 (b2n s.time.timeCapable + 2 * b2n s.time.locked + 4 * b2n s.time.master + 8 * b2n down) ++
    natBytes 2 ((ad.map fun a => a.master.toNat).getD 0) ++ natBytes 1 ((ad.map fun a => a.hops).getD 0) ++ List.replicate 47 0

/-- A packet of the time and hello kinds, sent on one port. -/
def State.linkPacket (s : State) (dst : NodeId) (kind : Byte) (payload : List Byte) : Packet :=
  { dst := dst, src := s.fab.node, kind := kind, flow := 0, len := payload.length, seq := 0, tag := 0, addr := 0
    reason := 0, poison := false, hops := 0, payload := payload }

/-- A HELLO on a port (R390). -/
def State.hello (s : State) (n : Nat) (down : Bool) : State := s.portSend n (s.linkPacket 0xFFFF 0x20 (s.helloBytes n down))

/-- HELLO_SEND (R390). -/
def helloSend (s : State) : State :=
  if !s.power.routes then s
  else (List.range 40).foldl (fun s n => if (s.port n).linked then s.hello n false else s) s

/-- The peer as a hello tells of it (R391, R410). -/
def Port.hear (p : Port) (h : HelloInfo) (now : Nat) : Port :=
  { p with
      st := .up, lastHello := now, peerNode := h.node, peerPort := h.port, peerUid := some h.uid
      advert := if h.advMaster = 0 then none else some ⟨h.advMaster, h.advHops.toNat⟩ }

/-- A duplicate of the module's own node ID (R391). -/
def State.dupCheck (s : State) (h : HelloInfo) : State :=
  if h.node = 0 ∨ h.node ≠ s.fab.node then s
  else
    let s1 := { s with fab := { s.fab with dupId := true } }.hwSet 0x030_0010 1
    if s1.fab.alertEn then s1.alert else s1

/-- HELLO (R376, R378, R384, R391). -/
def helloReceive (n : Nat) (h : HelloInfo) (s : State) : State :=
  s.atPort n fun s =>
    let p := s.port n
    let other : Bool := match p.peerUid with
      | some u => p.st == .up && u != h.uid
      | none => false
    if !p.linked then s
    else if other then
      let s1 := s.linkLoss n 3
      s1.updPort n fun q => ({ q with signal := true }).train s.now
    else if h.uid = s.fuse.uid then s.setPort n { p with loopback := true, lastHello := s.now }
    else if h.goingDown then s.linkLoss n 3
    else (((({ s with time := { s.time with upFirst := some (s.time.upFirst.getD s.now) } }).setPort n (p.hear h s.now)).dupCheck h).elect).pumpPort n

/-- HELLO_TIMEOUT (R384). -/
def helloTimeout (n : Nat) (s : State) : State :=
  s.atPort n fun s => if s.now < (s.port n).lastHello + 300000 then s else s.linkLoss n 2

/-! ### The rows -/

/-- HELLO_SEND (R390). -/
def execHelloSend (s : State) : Out := .next (helloSend s)
/-- HELLO (R376). -/
def execHello (port : BitVec 6) (h : HelloInfo) (s : State) : Out := .next (helloReceive port.toNat h s)
/-- HELLO_TIMEOUT (R384). -/
def execHelloTimeout (port : BitVec 6) (s : State) : Out := .next (helloTimeout port.toNat s)
/-- PORT_SIGNAL_DETECT (R376). -/
def execPortSignalDetect (port : BitVec 6) (s : State) : Out := .next (portSignalDetect port.toNat s)
/-- PORT_TRAIN_COMPLETE (R377). -/
def execPortTrainComplete (port : BitVec 6) (lanes : BitVec 4) (fast : Bool) (s : State) : Out :=
  .next (portTrainComplete port.toNat lanes.toNat fast s)
/-- PORT_TRAIN_TIMEOUT (R376). -/
def execPortTrainTimeout (port : BitVec 6) (s : State) : Out := .next (portTrainTimeout port.toNat s)
/-- TRAIN_BACKOFF_END (R376). -/
def execTrainBackoffEnd (port : BitVec 6) (s : State) : Out := .next (trainBackoffEnd port.toNat s)
/-- FLIT_RECEIVE (R381). -/
def execFlitReceive (port : BitVec 6) (flit : MemLine) (s : State) : Out := .next (flitReceive port.toNat flit s)
/-- LANE_RETIRE (R383). -/
def execLaneRetire (port : BitVec 6) (lane : BitVec 3) (s : State) : Out := .next (laneRetire port.toNat lane.toNat s)
/-- LINK_LOSS (R384). -/
def execLinkLoss (port : BitVec 6) (s : State) : Out := .next (linkLost port.toNat s)

end Sys2Proof.Machine
end

