-- ==== Sys2Proof/Machine/Router.lean ====
section
/-! DEFINITION. The router and one-sided access (12_thatre_fabric.md R388 to R408, R414): requests from peers, messages from peers,
collective traffic, transit, the host's one-sided operations, the writes of the routing table, the node ID and the groups. -/

namespace Sys2Proof.Machine

/-! ### When the module serves (R414) -/

/-- One-sided access to memory is served. -/
def State.servesMem (s : State) : Bool :=
  decide (s.power.st.code ≤ 3) && !s.moduleReset && s.mem.reforming.isNone

/-- One-sided access to a DSS is served. -/
def State.servesDss (s : State) : Bool := decide (s.power.st.code ≤ 2) && !s.moduleReset

/-- Messages and collectives are served. -/
def State.servesCores (s : State) : Bool :=
  decide (s.power.st.code ≤ 2) && !s.moduleReset && s.mem.reforming.isNone && !s.host.perst

/-- A place of this module is served. -/
def State.servesPlace (s : State) : Place → Bool
  | .mem _ => s.servesMem
  | .dss .. => s.servesDss
  | _ => false

/-! ### Windows and execution (R399 to R401) -/

/-- A window admits a request (R400). -/
def FabWin.admits (w : FabWin) (src kind : Nat) (a len : Nat) : Bool :=
  w.en && decide (w.base.toNat ≤ a) && decide (a + len ≤ w.limit.toNat) && decide (w.lo.toNat ≤ src) && decide (src ≤ w.hi.toNat) &&
    match kind with
    | 0x01 => w.r
    | 0x03 => w.w
    | _ => w.a

/-- The length and the address of a request suit its kind (R386, R401). -/
def reqShape (kind a len : Nat) : Bool :=
  if kind = 0x04 then decide (len % 12 = 0) && decide (12 ≤ len) && decide (len ≤ 2040) && decide (a % 4 = 0)
  else decide (1 ≤ len) && decide (len ≤ 2048)

/-- Why an access to this module's memories is refused (R399, R403, R414); 0 for none. -/
def State.refusal (s : State) (kind a len : Nat) : Nat :=
  let p := s.fabLocal a len
  match p with
  | .bad r => r
  | _ => if !reqShape kind a len then 3 else if s.servesPlace p then 0 else 4

/-- Why a peer's request is refused: by service (R414), by its windows (R400), by its address (log 30). -/
def State.judge (s : State) (p : Packet) : Nat :=
  let a := p.addr.toNat
  let len := if p.kind = 0x01 then p.len else p.payload.length
  let pl := s.fabLocal a len
  if (!s.servesMem && !s.servesDss) || (match pl with | .bad _ => false | _ => !s.servesPlace pl) then 4
  else if (List.range 16).any fun k => (smapGet FabWin.reset s.fab.wins k).admits p.src.toNat p.kind.toNat a len then
    s.refusal p.kind.toNat a len
  else 2

/-- A place some bytes further. -/
def Place.shift (p : Place) (n : Nat) : Place :=
  match p with
  | .mem a => .mem (a + n)
  | .dss d o => .dss d (o + n)
  | x => x

/-- Bytes written at a place of this module (R361, R401). -/
def State.putLocal (s : State) (p : Place) (bs : List Byte) (poison : Bool) : State :=
  match p with
  | .mem a => s.memWrite a (bs.map some) poison
  | .dss d o => s.dssPut d o (bs.map some) poison
  | _ => s

/-- One word added at a place (R401): the sum modulo 2^80, the flags joined. A word that touches a poisoned line stays or becomes
poisoned (DEDUCED for the other line of a word that crosses two, log 9). -/
def State.addWord (s : State) (p : Place) (w : List Byte) (poison : Bool) : State :=
  let old := s.readPlace p 12
  let x := axOfWord (BitVec.ofNat 96 (bytesNat (old.map Prod.fst)))
  let y := axOfWord (BitVec.ofNat 96 (bytesNat w))
  let sum : Ax80 := ⟨x.i + y.i, x.fl.or y.fl⟩
  s.putLocal p (natBytes 12 (axWord sum).toNat) (poison || old.any Prod.snd)

/-- An atomic add of words (R401). -/
def State.atomicAdd (s : State) (p : Place) (bs : List Byte) (poison : Bool) : State :=
  (List.range (bs.length / 12)).foldl (fun s i => s.addWord (p.shift (12 * i)) ((bs.drop (12 * i)).take 12) poison) s

/-- A refusal of a peer's request (R403, R415), which a duplicate will hear again. -/
def State.tellRefuse (s : State) (p : Packet) (reason : Nat) : State :=
  (({ s with fab := { s.fab with refused := true, told := s.fab.told ++ [(⟨p.src, p.seq, 0x09, BitVec.ofNat 32 reason⟩ : Told)] } }).hwSet
    0x030_0010 4).sendAnswer
    p.src 0x09 p.flow p.seq p.tag p.addr (BitVec.ofNat 32 reason) [] false

/-- READ_DATA for a request (R362, R401). -/
def State.answerRead (s : State) (p : Packet) : State :=
  let bs := s.readPlace (s.fabLocal p.addr.toNat p.len) p.len
  s.sendAnswer p.src 0x02 p.flow p.seq p.tag p.addr 0 (bs.map Prod.fst) (bs.any Prod.snd)

/-- ACK for a request. -/
def State.answerAck (s : State) (p : Packet) : State := s.sendAnswer p.src 0x05 p.flow p.seq p.tag p.addr 0 [] false

/-- A READ, WRITE or ATOMIC_ADD from a peer executed (R400, R401). -/
def State.oneSided (s : State) (p : Packet) : State :=
  let r := s.judge p
  let pl := s.fabLocal p.addr.toNat p.payload.length
  if r ≠ 0 then s.tellRefuse p r
  else match p.kind.toNat with
    | 0x01 => s.answerRead p
    | 0x03 => (s.putLocal pl p.payload p.poison).answerAck p
    | _ => (s.atomicAdd pl p.payload p.poison).answerAck p

/-! ### Messages from peers (R405) -/

/-- The message that a packet carries; its source core is not in it (log 19). -/
def messageOf (p : Packet) : Msg :=
  let n := p.payload.length / 128
  { src := ⟨p.src, 0, 0⟩, dst := ⟨0, p.addr.extractLsb' 0 4, p.addr.extractLsb' 4 5⟩, tag := p.tag, count := n
    lines := (List.range n).map fun i => (BitVec.ofNat 1024 (bytesNat ((p.payload.drop (128 * i)).take 128)), p.poison) }

/-- The filter of a partition admits a node (R405, R415). -/
def State.filterAdmits (s : State) (n src : Nat) : Bool :=
  let w := smapGet 0x0000_FFFF s.fab.msgFilter n
  src == s.fab.node.toNat || (decide (fieldOf w 0 16 ≤ src) && decide (src ≤ fieldOf w 16 16))

/-- A MESSAGE from a peer (R386, R405): filtered, refused, turned away while the receive XQ is full, or accepted. -/
def State.takeMessage (s : State) (p : Packet) : State :=
  let m := messageOf p
  let n := m.dst.pt.toNat
  let c := m.dst.core.toNat
  let bad := decide (p.payload.length % 128 ≠ 0) || decide (p.payload.length = 0) || decide (2048 < p.payload.length)
  if !s.servesCores then s.tellRefuse p 4
  else if !s.filterAdmits n p.src.toNat then s.tellRefuse p 5
  else if bad then s.tellRefuse p 3
  else match s.target m.dst with
    | none => s.tellRefuse p 4
    | some k =>
      if 16 ≤ (s.core k).recvXq.length ∨ s.holdsMessages n c ∨ s.fab.owed.any (fun o => o.1 == p.src && o.2.2 == (n, c)) then
        let owed := if s.fab.owed.any (fun o => o.1 == p.src && o.2.2 == (n, c)) then s.fab.owed else s.fab.owed ++ [(p.src, p.flow, n, c)]
        ({ s with fab := { s.fab with owed := owed, told := s.fab.told ++ [(⟨p.src, p.seq, 0x07, 0⟩ : Told)] } }).sendAnswer
          p.src 0x07 p.flow p.seq p.tag p.addr 0 [] false
      else (s.deliver k m).answerAck p

/-- A node that was told NOT_READY for a core can be told XQ_FREE (R405): the core's queue has room, or the core takes no message
at all, so that the sender offers its message again. -/
def State.roomFor (s : State) (n c : Nat) : Bool :=
  match s.target ⟨0, BitVec.ofNat 4 n, BitVec.ofNat 5 c⟩ with
  | none => true
  | some k => decide ((s.core k).recvXq.length < 16) && !s.holdsMessages n c

/-- XQ_FREE to every node that waits for a core with room (R405), on the flow of its message (R395). -/
def State.tellFree (s : State) : State :=
  if s.fab.owed.isEmpty then s
  else
    let free := s.fab.owed.filter fun o => s.roomFor o.2.2.1 o.2.2.2
    free.foldl (fun s o => s.sendAnswer o.1 0x08 o.2.1 0 0 (BitVec.ofNat 64 (o.2.2.1 + 16 * o.2.2.2)) 0 [] false)
      { s with fab := { s.fab with owed := s.fab.owed.filter fun o => !s.roomFor o.2.2.1 o.2.2.2 } }

/-! ### Sequence order (R402) -/

/-- A request in its turn. -/
def State.runRequest (s : State) (p : Packet) : State :=
  let s1 := { s with fab := { s.fab with execSeq := smapSet 0 s.fab.execSeq p.src.toNat (p.seq + 1) } }
  if p.kind = 0x06 then s1.takeMessage p else s1.oneSided p

/-- The requests of a source that arrived early and whose turn has come. -/
def State.runEarly (s : State) (src : NodeId) : Nat → State
  | 0 => s
  | n + 1 =>
    match s.fab.early.find? fun p => p.src == src && p.seq == smapGet 0 s.fab.execSeq src.toNat with
    | none => s
    | some p =>
      ({ s with fab := { s.fab with early := s.fab.early.filter fun q => !(q.src == src && q.seq == p.seq) } }.runRequest p).runEarly src n

/-- A duplicate is answered as before and not executed again (R402); a read has its data again where it is served (R414). -/
def State.answerAgain (s : State) (p : Packet) : State :=
  match s.fab.told.find? fun t => t.src == p.src && t.seq == p.seq with
  | some t => s.sendAnswer p.src t.kind p.flow p.seq p.tag p.addr t.reason [] false
  | none =>
    if p.kind ≠ 0x01 then s.answerAck p
    else if s.judge p = 0 then s.answerRead p
    else s.tellRefuse p (s.judge p)

/-- A VC0 request arrives at its destination (R393, R402): in turn, up to 64 ahead of it, or again. -/
def State.arriveRequest (s : State) (p : Packet) : State :=
  if s.fab.node = 0 ∨ p.dst ≠ s.fab.node ∨ !s.power.routes then s
  else
    let d := (p.seq - smapGet 0 s.fab.execSeq p.src.toNat).toNat
    if d = 0 then (s.runRequest p).runEarly p.src 64
    else if 2 ^ 31 ≤ d then s.answerAgain p
    else
      let mine := s.fab.early.filter fun q => q.src == p.src
      if 64 ≤ mine.length ∨ mine.any (fun q => q.seq == p.seq) then s
      else { s with fab := { s.fab with early := s.fab.early ++ [p] } }

/-! ### Collective traffic (R406, R408) -/

/-- Engine data from a node of the group (R407, R408). A member, a contribution or a result that has come is not taken twice. -/
def State.takeCollective (s : State) (group : Word) (idx : Nat) (node : NodeId) : CollMsg → State
  | .mismatch =>
    match s.findRun group idx with
    | some u => s.failRun u
    | none => s.endRunOf group idx
  | .member x => (s.addToRun group idx fun u => { u with remote := u.remote ++ [(node, x)] }).advanceRun group idx
  | .share seg x =>
    (s.addToRun group idx fun u =>
      if u.shares.any (fun y => y.1 == node && y.2.1 == seg) then u else { u with shares := u.shares ++ [(node, seg, x)] }).advanceRun
      group idx
  | .result seg x marked =>
    (s.addToRun group idx fun u =>
      if u.results.any (fun r => r.seg == seg) then u else { u with results := u.results ++ [⟨seg, x, marked⟩] }).advanceRun group idx

/-- COLLECTIVE (R406 to R408, R414, R416): engine data of a group's operation from another node. Where the module does not serve it, it
is refused; where no entry in force lists this node once and the sender, the operation fails under R407 (log 16). -/
def collectiveArrive (group k : Word) (node : NodeId) (m : CollMsg) (s : State) : State :=
  let idx := k.toNat
  let lists := match s.groupEntry group with
    | some g => s.groupLists g && (s.otherNodes group).contains node
    | none => false
  if s.fab.node = 0 ∨ !s.power.routes then s
  else if !s.servesCores then
    ({ s with fab := { s.fab with refused := true } }.hwSet 0x030_0010 4).sendAnswer node 0x09
      (0xC0#8 + (Config.collectiveFlow group).setWidth 8) k group 0 4 [] false
  else if !lists then
    let s1 := match s.findRun group idx with
      | some u => s.failRun u
      | none => s
    if m = .mismatch then s1 else s1.collTell group idx [node] .mismatch
  else if idx < s.collDoneOf group then s
  else s.takeCollective group idx node m

/-! ### Transit (R386, R395 to R397) -/

/-- The kinds of R386 that the routing tables carry. -/
def routedKinds : List Nat := [1, 2, 3, 4, 5, 6, 7, 8, 9, 0x10]

/-- The kinds of R386 that travel on one link or by a directed path. -/
def linkKinds : List Nat := [0x20, 0x21, 0x22, 0x23, 0x24]

/-- A packet for this node, taken in by its kind (R386, R396). Engine data, hellos, MANAGE and time packets have rows of their own. -/
def State.takePacket (s : State) (p : Packet) : State :=
  match p.kind.toNat with
  | 0x01 | 0x03 | 0x04 | 0x06 => s.arriveRequest p
  | 0x02 => readData p s
  | 0x05 => ackReceive p s
  | 0x07 => notReadyReceive p s
  | 0x08 => xqFreeReceive p s
  | 0x09 => refuseReceive p s
  | _ => s

/-- PACKET_FORWARD (R386, R388, R395 to R397): a packet of no kind of R386 is discarded and counted; the others are taken in here,
discarded, or sent on. -/
def packetForward (port : Nat) (p : Packet) (s : State) : State :=
  if !s.power.routes ∨ p.kind.toNat ∈ linkKinds then s
  else if p.kind.toNat ∉ routedKinds then s.countDiscard port
  else if s.forMe p then s.takePacket p
  else if p.dst = 0xFFFF then s.countDiscard port
  else if 32 ≤ p.hops + 1 then ({ s with fab := { s.fab with ttlDrop := true } }.hwSet 0x030_0010 2).countDiscard port
  else s.sendVia port { p with hops := p.hops + 1 }

/-- The router takes a packet of the module's own (R393, R395, R396). -/
def State.routeOwn (s : State) (p : Packet) : State :=
  if s.fab.node = 0 then s else if s.forMe p then s.takePacket p else s.sendVia 64 p

/-- The router takes the packets that wait for it, in order (log 2). -/
def State.routeOutbox (s : State) : State :=
  if s.fab.outbox.isEmpty ∨ !s.power.routes then s
  else s.fab.outbox.foldl State.routeOwn { s with fab := { s.fab with outbox := [] } }

/-! ### The host's one-sided operations (R404) -/

/-- The end of an operation that the module serves itself (R399, R401). -/
def State.localOp (s : State) (a len : Nat) (bytes : List Byte) (poison : Bool) : State :=
  let op := s.fab.op
  let kind := match op.kind.toNat with
    | 0 => 0x01
    | 1 => 0x03
    | _ => 0x04
  let r := s.refusal kind a len
  let pl := s.fabLocal a len
  if r ≠ 0 then s.finishFabOp r
  else match op.kind.toNat with
    | 0 =>
      let bs := s.readPlace pl len
      (s.memWrite op.localAddr.toNat (bs.map fun b => some b.1) (bs.any Prod.snd)).finishFabOp 0
    | 1 => (s.putLocal pl bytes poison).finishFabOp 0
    | _ => (s.atomicAdd pl bytes poison).finishFabOp 0

/-- The checks of R404. -/
def State.fabOpBad (s : State) (len : Nat) : Bool :=
  let op := s.fab.op
  decide (s.mem.hostTop < op.localAddr.toNat + len) || op.kind == 3 ||
    (op.kind == 2 && (decide (len % 12 ≠ 0) || decide (op.addr.toNat % 4 ≠ 0)))

/-- FAB_OP_GO (R404): a write with GO while an operation runs is ignored. -/
def fabOpGo (v : Word) (s : State) : State :=
  if s.fab.op.busy ∧ v.getLsbD 31 then s
  else
    let op := { s.fab.op with kind := v.extractLsb' 0 2, len := v.extractLsb' 2 11 }
    let s1 := { s with fab := { s.fab with op := op } }
    let len := op.len.toNat + 1
    if !v.getLsbD 31 then s1
    else if s1.fabOpBad len then s1.finishFabOp 3
    else
      let s2 := { s1 with fab := { s1.fab with op := { op with busy := true, error := 0 } } }
      let (src, poison) := s2.mem.readRun op.localAddr.toNat len
      let (bytes, psn) := if op.kind = 0 then ([], false) else (src, poison)
      let node := op.addr.extractLsb' 48 16
      let a := op.addr.toNat % 2 ^ 48
      if s2.namesSelf node then s2.localOp a len bytes psn
      else if s2.fab.node = 0 then s2.finishFabOp 1
      else
        let kind : Byte := if op.kind = 0 then 0x01 else if op.kind = 1 then 0x03 else 0x04
        s2.sendReq node kind 0 0 (BitVec.ofNat 64 a) len bytes psn (.fabOp op.localAddr.toNat)

/-! ### Register rows of the fabric (R389, R398, R416) -/

/-- FAB_RT_DATA_WRITE (R398): the whole entry at once. -/
def fabRtDataWrite (v : Word) (s : State) : State :=
  { s with fab := { s.fab with route := smapSet 0xFF_FFFF s.fab.route s.fab.rtAddr.toNat (v.extractLsb' 0 24) } }

/-- FAB_NODE_ID_WRITE (R389). -/
def fabNodeIdWrite (v : Word) (s : State) : State :=
  let v := s.clears 0x030_0000 v
  let cleared := s.fab.writeIgnored && !v.getLsbD 16
  let node := v.extractLsb' 0 16
  let allowed := (s.fab.node == 0 || (List.range 16).all fun n => (s.part n).inReset) && node != 0xFFFF
  if allowed then ({ s with fab := { s.fab with node := node, writeIgnored := cleared } }).elect
  else { s with fab := { s.fab with writeIgnored := true } }.hwSet 0x030_0000 0x1_0000

/-- The write clears VALID (R416). -/
def clearsValid (f : CollField) (v : Word) : Bool :=
  match f with
  | .size => !v.getLsbD 28
  | _ => false

/-- COLL_GROUP_ENTRY_WRITE (R416): of the selected entry, while it is not VALID or in the write that clears VALID. -/
def collGroupEntryWrite (f : CollField) (v : Word) (s : State) : State :=
  let i := s.fab.grpSel.toNat
  let g := smapGet CollGroup.reset s.fab.groups i
  if g.valid && !clearsValid f v then s
  else
    let g1 := match f with
      | .grpId => { g with id := v }
      | .size => { g with pTotal := v.extractLsb' 0 16, nNodes := v.extractLsb' 16 12, valid := v.getLsbD 28 }
      | .place => { g with localPt := v.extractLsb' 0 16, nlBase := v.extractLsb' 16 16 }
    { s with fab := { s.fab with groups := smapSet .reset s.fab.groups i g1 } }

/-! ### The rows -/

/-- PACKET_FORWARD (R395). -/
def execPacketForward (port : BitVec 6) (p : Packet) (s : State) : Out := .next (packetForward port.toNat p s)
/-- READ (R401). -/
def execRead (p : Packet) (s : State) : Out := .next (if p.kind = 0x01 then s.arriveRequest p else s)
/-- WRITE (R401). -/
def execWrite (p : Packet) (s : State) : Out := .next (if p.kind = 0x03 then s.arriveRequest p else s)
/-- ATOMIC_ADD (R401). -/
def execAtomicAdd (p : Packet) (s : State) : Out := .next (if p.kind = 0x04 then s.arriveRequest p else s)
/-- MESSAGE (R405). -/
def execMessage (p : Packet) (s : State) : Out := .next (if p.kind = 0x06 then s.arriveRequest p else s)
/-- COLLECTIVE (R408). -/
def execCollective (group k : Word) (node : NodeId) (m : CollMsg) (s : State) : Out :=
  .next (collectiveArrive group k node m s)
/-- FAB_OP_GO (R404). -/
def execFabOpGo (v : Word) (s : State) : Out := .next (s.fabReg 0x030_0210 fun s => fabOpGo v s)
/-- FAB_RT_DATA_WRITE (R398). -/
def execFabRtDataWrite (v : Word) (s : State) : Out := .next (s.fabReg 0x030_0104 fun s => fabRtDataWrite v s)
/-- FAB_NODE_ID_WRITE (R389). -/
def execFabNodeIdWrite (v : Word) (s : State) : Out := .next (s.fabReg 0x030_0000 fun s => fabNodeIdWrite v s)
/-- COLL_GROUP_ENTRY_WRITE (R416). -/
def execCollGroupEntryWrite (f : CollField) (v : Word) (s : State) : Out :=
  .next (s.fabReg 0x040_0010 fun s => collGroupEntryWrite f v s)

end Sys2Proof.Machine
end

