-- ==== Sys2Proof/Machine/Clock.lean ====
section
/-! DEFINITION. The clocks (01_module.md R32, R33, R38): what one TCLK cycle does. With no command waiting, a step is one TCLK
cycle (log 2). -/

namespace Sys2Proof.Machine

/-- ACLK of the hearth dies runs (R32): the main rails are up and the module is in W0 or W1. -/
def State.aclkRuns (s : State) : Bool :=
  s.power.rails && match s.power.st with
    | .w0 | .w1 => true
    | _ => false

/-- A cycle of ACLK may begin (R33): at a cycle boundary the step chosen for it is taken, and with a droop indicated the cycle is
stretched. -/
def Die.startCycle (x : Die) : Die := if x.phase = 0 then { x with freqMhz := x.nextMhz, stretching := x.stretching || x.droop } else x

/-- One ACLK cycle of a die ends (R33): its partitions advance, the next cycle takes the step chosen for it, and stretching ends with
the first cycle that begins after the detector has cleared. -/
def State.aclkCycle (s : State) (d : Nat) : State :=
  let s1 := (List.range 16).foldl (fun s n => if (s.part n).die.toNat = d then s.partCycle n else s) s
  let x := s1.die d
  s1.setDie d { x with stretching := x.stretching && x.droop, freqMhz := x.nextMhz }

/-- The ACLK of a die in one TCLK cycle, in 1/2000 of an ACLK cycle at the die's step; a stretched cycle takes twice its period
(R33, log 2). -/
def State.tickDie (s : State) (d : Nat) : State :=
  let x := (s.die d).startCycle
  let p := x.phase + (if x.stretching then x.freqMhz else 2 * x.freqMhz)
  let new := x.stretching && !(s.die d).stretching
  let s1 := (s.setDie d { x with phase := p % 2000, stretchSeen := x.stretchSeen || new }).hwSetIf new (0x001_0100 + 4 * d) 0x2_0000
  (List.range (p / 2000)).foldl (fun s _ => s.aclkCycle d) s1

/-- The module is idle (R522). -/
def State.idle (s : State) : Bool :=
  s.bs.run.isEmpty && s.bs.due.isEmpty && !s.bs.sawReady && !(s.parts.any fun e => e.2.run.isSome) &&
    !(s.loafs.any fun e => e.2.st == .verifying) && !(s.models.any fun e => e.2.st == .loading || e.2.st == .waitMemory) &&
    s.ladder.dump.isNone && s.mem.reforming.isNone && !s.fab.op.busy

/-- The start of the present idle time is kept (R522). -/
def State.trackIdle (s : State) : State :=
  { s with power := { s.power with idleFrom := if s.idle then some (s.power.idleFrom.getD s.now) else none } }

/-- One TCLK cycle: the GTB advances by the rate word (R38), the ACLKs run, and the router takes the module's own packets (R395, log 2).
Without its input the module is dark (R611). -/
def State.tick (s : State) : State :=
  if !s.power.alwaysOn then s else
  let s1 := ({ s with time := { s.time with gtb := s.time.gtb + s.time.rate }, sets := [] }).trackIdle
  let s2 := if s1.aclkRuns then (List.range 4).foldl State.tickDie s1 else s1
  s2.tellFree.routeOutbox

end Sys2Proof.Machine
end

