-- ==== Sys2Proof/Machine/Codec.lean ====
section
/-! DEFINITION. How a line stands in the ten bursts of its group (11_memory.md R347, R349, R360): its place, its RS(10,8) codewords over
GF(2^8), the poison form. -/

namespace Sys2Proof.Machine

/-! ### GF(2^8) with x^8 + x^4 + x^3 + x^2 + 1 (R347) -/

/-- A field element times α = 2. -/
def gfDouble (b : Byte) : Byte := if b.getLsbD 7 then (b <<< 1) ^^^ 0x1D else b <<< 1

/-- The product of two field elements. -/
def gfMul (a b : Byte) : Byte :=
  (List.range 8).foldl (fun acc i => gfDouble acc ^^^ (if a.getLsbD (7 - i) then b else 0)) 0

/-- α^p. -/
def gfPow : Nat → Byte
  | 0 => 1
  | p + 1 => gfDouble (gfPow p)

/-- The inverse of a field element other than 0: its power 254. -/
def gfInv (a : Byte) : Byte :=
  ((List.range 7).foldl (fun (x : Byte × Byte) _ => (gfMul x.1 x.1, gfMul x.2 (gfMul x.1 x.1))) (a, 1)).2

/-- The sum of field elements. -/
def gfSum (bs : List Byte) : Byte := bs.foldl (· ^^^ ·) 0

/-! ### Places (R347, R349) -/

/-- The line within its group: i of R349. -/
def Mem.indexOfLine (m : Mem) (line : Nat) : Nat := line / m.activeCount

/-- The first check position of line i of a group; the second is the next one. -/
def checkAt (i : Nat) : Nat := 2 * (i % 5)

/-- The position of data burst b of line i: the b-th of the other eight, ascending. -/
def dataAt (i b : Nat) : Nat := if b < checkAt i then b else b + 2

/-- The data burst at a position that is no check position. -/
def burstAt (i p : Nat) : Nat := if p < checkAt i then p else p - 2

/-- The ten bytes of the codeword of line i for the data bytes of one offset (R347): both syndromes are 0. -/
def codeword (i : Nat) (data : List Byte) : List Byte :=
  let c := checkAt i
  let s0 := gfSum data
  let s1 := gfSum (data.zipIdx.map fun (d, b) => gfMul d (gfPow (dataAt i b)))
  let x := gfMul (s1 ^^^ gfMul s0 (gfPow (c + 1))) (gfInv (gfPow c ^^^ gfPow (c + 1)))
  (List.range 10).map fun p =>
    if p = c then x else if p = c + 1 then s0 ^^^ x else data.getD (burstAt i p) 0

/-- Both syndromes of ten bytes are 0 (R347). -/
def isCodeword (cs : List Byte) : Bool :=
  gfSum cs == 0 && gfSum (cs.zipIdx.map fun (c, p) => gfMul c (gfPow p)) == 0

/-- The byte of the poison form at position p, offset k (R360). -/
def poisonByte (p k : Nat) : Byte := BitVec.ofNat 8 (0x50 + p) ^^^ BitVec.ofNat 8 k

/-- The byte that stands at offset k of the burst at position p of a line. -/
def Mem.burstByte (m : Mem) (line p k : Nat) : Byte :=
  if m.poison.contains line then poisonByte p k
  else (codeword (m.indexOfLine line) ((List.range 8).map fun b => m.byte (256 * line + 32 * b + k))).getD p 0

/-- Every burst of a line that is not erased equals the poison form (R360). -/
def Mem.looksPoison (m : Mem) (line : Nat) (erased : BitVec 10) : Bool :=
  (List.range 10).all fun p => erased.getLsbD p || (List.range 32).all fun k => m.burstByte line p k == poisonByte p k

end Sys2Proof.Machine
end

