-- ==== Sys2Proof/Machine/Dram.lean ====
section
/-! DEFINITION. The memory dies (11_memory.md R347 to R368): what the group codec does on a read, a write and a patrol scrub,
failed positions, refresh, and reform. -/

namespace Sys2Proof.Machine

/-! ### Failed positions (R352 to R354) -/

/-- The offset of a group's map register (R600). -/
def groupMapOffset (g : Nat) : Nat := 0x060_3000 + 4 * g

/-- The module notes a group that enters DEGRADED2 or CRITICAL (R354). -/
def State.groupChanged (s : State) (g old : Nat) : State :=
  let new := (s.mem.group g).state
  if new = old ∨ !(new == 2 || new == 3) then s
  else
    let s1 := (({ s with mem := { s.mem with stateChanged := true } }).hwSet 0x020_0024 8).event (srcGroup g) 0x0401 (detail3 g new 0)
    let s2 := if new = 2 then s1.ledgerFlag (5 + g / 8) (srcGroup g) 1 else s1
    if s2.mem.alertEn then s2.alert else s2

/-- The source number of the channel at a position of a group (R30, R345). -/
def srcChannel (g p : Nat) : Nat := srcNo (5 + g / 8) (0x100 + 16 * (g % 8) + p)

/-- A position of a group is marked failed (R352, R353, R480). -/
def State.positionFail (s : State) (g p : Nat) : State :=
  if 40 ≤ g ∨ 10 ≤ p ∨ (s.mem.group g).failed.getLsbD p then s
  else
    let x := s.mem.group g
    let y := { x with failed := x.failed ||| BitVec.ofNat 10 (2 ^ p) }
    let s1 := (s.otp fun o => { o with positions := o.positions ||| BitVec.ofNat 400 (2 ^ (10 * g + p)) }).spare (5 + g / 8) .memory
      (srcChannel g p) (popCount10 y.failed)
    let s2 := s1.event (srcGroup g) 0x0402 (detail3 g p 0)
    (s2.commitWords [(groupMapOffset g, (s2.mem.setGroup g y).groupWord g)]).groupChanged g x.state

/-! ### The codec (R351, R357, R360) -/

/-- What the codec makes of a line: it stands as written, it was corrected, it comes back as poison, or it may be taken for
another line without notice. -/
inductive Decoded where
  | clean
  | corrected
  | lost
  | unsure
  | wrong
deriving DecidableEq, Repr

/-- The codec on a line of a group (R351), by the positions flagged on this read and the unflagged symbol errors of its worst
codeword. In DEGRADED1 any unflagged error reads as poison, and in DEGRADED2 none is seen. In HEALTHY more than the code corrects
is poison when it is detected: always beyond two erasures, and for an erasure or none with a single further error (DEDUCED from
the distance of RS(10,8), log 37). -/
def MemGroup.decode (g : MemGroup) (flagged : BitVec 10) (unflagged : Nat) : Decoded :=
  let f := popCount10 (flagged &&& ~~~g.failed)
  match g.state with
  | 0 =>
    if 2 < f then .lost
    else if unflagged = 0 then (if f = 0 then .clean else .corrected)
    else if f = 0 ∧ unflagged = 1 then .corrected
    else if f = 1 ∧ unflagged = 1 then .lost
    else .unsure
  | 1 => if 1 < f ∨ unflagged ≠ 0 then .lost else .corrected
  | 2 => if f ≠ 0 then .lost else if unflagged ≠ 0 then .wrong else .corrected
  | _ => .lost

/-- The 1 s window of the erasure counts (R352). -/
def State.eraseWindow (s : State) : Nat := s.now / 1000000000

/-- Erasure corrections are counted at the positions in service (R352). -/
def State.countErasures (s : State) (g : Nat) (flagged : BitVec 10) : State :=
  let x := s.mem.group g
  let c0 := if x.window = s.eraseWindow then x.counts else []
  let c := (List.range 10).foldl (fun c p => if flagged.getLsbD p && !x.failed.getLsbD p then smapUpd 0 c p (· + 1) else c) c0
  { s with mem := s.mem.setGroup g { x with counts := c, window := s.eraseWindow } }

/-- The positions at which a window has seen more than 1,024 erasure corrections are marked failed (R352). -/
def State.failWorn (s : State) (g : Nat) : State :=
  ((s.mem.group g).counts.filter fun e => decide (1024 < e.2)).foldl (fun s e => s.positionFail g e.1) s

/-- What a decoded line leaves in the logs: corrections and losses, under the group's codec (R52, R589). A CRITICAL group logs
nothing of its reads, and a line that reads as poison already is no new loss. -/
def State.logDecoded (s : State) (line : Nat) (flagged : BitVec 10) (v : Decoded) : State :=
  let g := s.mem.groupOfLine line
  match v with
  | .corrected => ((s.countErasures g flagged).eventAgg (srcGroup g) 0x0301).failWorn g
  | .lost => if s.mem.linePoison line then s else s.event (srcGroup g) 0x0302 (detailD (line * 256))
  | _ => s

/-- A line stands in the poison form, or its unerased bursts all equal it (R360). -/
def Mem.poisonForm (m : Mem) (line : Nat) (flagged : BitVec 10) : Bool :=
  m.poison.contains line || m.looksPoison line ((m.group (m.groupOfLine line)).failed ||| flagged)

/-- What the codec answers once the open choice is made: an undetected error is a free one. A line in the poison form reads as
poison except where DEGRADED2 does not see the error (R360). -/
def State.settleDecode (s : State) (line : Nat) (flagged : BitVec 10) (v : Decoded) : Decoded × State :=
  let poison := s.mem.poisonForm line flagged
  match v with
  | .wrong => (.wrong, s)
  | .unsure =>
    let (b, s1) := s.draw 1
    if poison ∨ b = 1 then (.lost, s1) else (.wrong, s1)
  | x => (if poison then .lost else x, s)

/-- What a codec read leaves for those who read the line after it (log 37). -/
def Mem.noteRead (m : Mem) (line seed : Nat) (v : Decoded) : Mem :=
  match v with
  | .wrong => { m with errs := smapInsert m.errs line (some seed) }
  | .lost => if m.poison.contains line then m else { m with errs := smapInsert m.errs line none }
  | _ => { m with errs := smapErase m.errs line }

/-- MCLK runs, so that the memory controllers work (R32). -/
def State.mclkRuns (s : State) : Bool :=
  s.power.rails && match s.power.st with
    | .w4 | .w5 => false
    | _ => true

/-- One read of a line by its codec (R351, R360): logged, and noted for those who read the line. -/
def State.codecRead (s : State) (line : Nat) (flagged : BitVec 10) (unflagged : Nat) : Decoded × State :=
  let (v, s1) := s.settleDecode line flagged ((s.mem.group (s.mem.groupOfLine line)).decode flagged unflagged)
  let s2 := s1.logDecoded line flagged v
  (v, { s2 with mem := s2.mem.noteRead line s2.free v, free := s2.free + 1 })

/-- MEM_LINE_READ (R351, R360). There is no line at or above A. -/
def memLineRead (line : Nat) (flagged : BitVec 10) (unflagged : Nat) (s : State) : State :=
  if !s.mclkRuns ∨ s.mem.top ≤ line * 256 then s
  else
    let s1 := (s.codecRead line flagged unflagged).2
    let r := s1.mem.readRun (line * 256) 256
    { s1 with reply := some (.bytes r.1 r.2) }

/-- The bytes of a line that a mask selects. -/
def maskedLine (data : MemLine) (mask : BitVec 256) : List (Option Byte) :=
  (List.range 256).map fun i => if mask.getLsbD i then some (data.extractLsb' (8 * i) 8) else none

/-- MEM_LINE_WRITE (R355, R358, R361): whole, or a read, merge and write of the line. -/
def memLineWrite (line : Nat) (data : MemLine) (mask : BitVec 256) (poisoned : Bool) (s : State) : State :=
  if !s.mclkRuns ∨ s.mem.top ≤ line * 256 then s else s.memWrite (line * 256) (maskedLine data mask) poisoned

/-- PATROL_SCRUB_LINE (R357): a corrected line is rewritten as it was, one that cannot be corrected becomes poison; one whose
error is not seen is rewritten with open bytes. A CRITICAL group takes no write (R355). -/
def patrolScrubLine (line : Nat) (flagged : BitVec 10) (unflagged : Nat) (s : State) : State :=
  if !s.mclkRuns ∨ !s.mem.scrubEn ∨ s.mem.top ≤ line * 256 ∨ s.mem.lineCritical line then s
  else
    let (v, s1) := s.codecRead line flagged unflagged
    match v with
    | .wrong => { s1 with mem := s1.mem.rewriteLine line }
    | .lost => if s1.mem.poison.contains line then s1 else { s1 with mem := s1.mem.poisonLine line }.logPoison line
    | _ => s1

/-! ### Failed positions (R352) -/

/-- A package has failed: its position in all eight groups of its die (R345, R353). -/
def State.packageFail (s : State) (g p : Nat) : State :=
  (List.range 8).foldl (fun s j => s.positionFail (8 * (g / 8) + j) p) s

/-- MEM_POSITION_FAIL (R352, R353): Abmito marks a position of a group that has failed its training, or a failed package. -/
def memPositionFail (g p : Nat) (package : Bool) (s : State) : State := if package then s.packageFail g p else s.positionFail g p

/-- MEM_CHAN_FAIL (R352): the host marks a position. -/
def memChanFail (g p : Nat) (s : State) : State := s.positionFail g p

/-! ### Refresh (R359) -/

/-- HOT_REFRESH (R359): the channel whose device is above 85 °C. -/
def hotRefresh (ch : Nat) (s : State) : State :=
  if 400 ≤ ch then s
  else { s with mem := { s.mem with hotRefresh := true } }.event (srcNo (5 + ch / 80) 0x090) 0x0403 (detail3 ch 0 0)

/-! ### Reform (R366 to R368) -/

/-- The groups of a mask. -/
def maskGroups (m : BitVec 40) : List Nat := (List.range 40).filter fun g => m.getLsbD g

/-- Why a reform is refused, as MEM_REFORM_STAT.ERROR gives it: the first reason of R367's list. -/
def State.reformError (s : State) : Nat :=
  let gs := maskGroups s.mem.reformMask
  if (List.range 16).any fun n => !(s.part n).inReset then 1
  else if s.power.st ≠ .w0 then 3
  else if gs.any (fun g => (s.mem.group g).retired) ∨ s.mem.active.all (fun g => gs.contains g) then 2
  else 0

/-- MEM_REFORM_START (R367, R368): refused with its reason, or begun with the retirement recorded. A reform that runs goes on. -/
def memReformStart (s : State) : State :=
  if s.mem.reforming.isSome then s
  else
    let e := s.reformError
    if e ≠ 0 then { s with mem := { s.mem with reformDone := true, reformError := BitVec.ofNat 2 e } }.hwSet 0x020_0014 2
    else
      let s1 := (maskGroups s.mem.reformMask).foldl (fun s g =>
        (s.otp fun o => { o with groups := o.groups ||| BitVec.ofNat 40 (2 ^ g) }).spare (5 + g / 8) .memory (srcGroup g) 0) s
      { s1 with mem := { s1.mem with reforming := some s1.mem.reformMask, reformError := 0 } }

/-- The groups of a mask retire: the words of the new group map, which all active indices follow. -/
def State.retireGroups (s : State) (gs : List Nat) : State :=
  let m := gs.foldl (fun (m : Mem) g => m.setGroup g { m.group g with retired := true }) s.mem
  s.commitWords ((List.range 40).map fun g => (groupMapOffset g, m.groupWord g))

/-- The lines that a reform copies as poison (R361, R366, R368): those below the new end that read as poison. -/
def Mem.copiedPoison (m : Mem) (limit : Nat) : List Nat :=
  if m.active.any fun g => (m.group g).state == 3 then (List.range (limit / 256)).filter m.linePoison
  else m.poison.filter (· < limit / 256)

/-- Lines with errors are settled as a copy of them finds them: poison, or open bytes. -/
def Mem.settleErrs (m : Mem) : Mem :=
  m.errs.foldl (fun m e => match e.2 with
    | none => { m with poison := natSetInsert m.poison e.1, errs := smapErase m.errs e.1 }
    | some _ => m.rewriteLine e.1) m

/-- The memory after a reform: what lies below the new end of the host region is kept, the rest is zero (R366). -/
def Mem.reformed (m : Mem) (poison : List Nat) (limit : Nat) : Mem :=
  let cut := fun (a : Area) => { a with len := min a.len (limit - a.base) }
  { m with
      cells := m.cells.filter fun c => decide (c.1 < limit)
      areas := (m.areas.map cut).filter fun a => a.len != 0
      poison := poison, reforming := none, reformDone := true, reformError := 0 }

/-- MEM_REFORM_DONE (R366, R368). -/
def memReformDone (s : State) : State :=
  match s.mem.reforming with
  | none => s
  | some mask =>
    let s := { s with mem := s.mem.settleErrs }
    let s1 := s.retireGroups (maskGroups mask)
    let limit := s1.mem.hostTop
    let poison := s.mem.copiedPoison limit
    let s2 := { s1 with
      mem := { s1.mem.reformed poison limit with poisonCnt := satAdd32 s1.mem.poisonCnt poison.length }
      crumbLog := { s1.crumbLog with head := 0, tail := 0, lost := 0 } }
    poison.foldl State.logPoison (s2.hwSet 0x020_0014 2)

/-- A reset during a reform leaves the new group set (R368). -/
def State.cutReform (s : State) : State :=
  match s.mem.reforming with
  | none => s
  | some mask => s.retireGroups (maskGroups mask)

/-! ### The rows -/

/-- MEM_LINE_READ (R351). -/
def execMemLineRead (line : DWord) (flagged : BitVec 10) (unflagged : BitVec 2) (s : State) : Out :=
  .next (memLineRead line.toNat flagged unflagged.toNat s)
/-- MEM_LINE_WRITE (R358). -/
def execMemLineWrite (line : DWord) (data : MemLine) (mask : BitVec 256) (poisoned : Bool) (s : State) : Out :=
  .next (memLineWrite line.toNat data mask poisoned s)
/-- MEM_POSITION_FAIL (R352, R353). -/
def execMemPositionFail (group : BitVec 6) (pos : BitVec 4) (package : Bool) (s : State) : Out :=
  .next (memPositionFail group.toNat pos.toNat package s)
/-- MEM_CHAN_FAIL (R352). -/
def execMemChanFail (group : BitVec 6) (pos : BitVec 4) (s : State) : Out :=
  .next (s.hostReg 0x020_0020 fun s => memChanFail group.toNat pos.toNat s)
/-- PATROL_SCRUB_LINE (R357). -/
def execPatrolScrubLine (line : DWord) (flagged : BitVec 10) (unflagged : BitVec 2) (s : State) : Out :=
  .next (patrolScrubLine line.toNat flagged unflagged.toNat s)
/-- REFRESH (R359): a channel is blocked for at most 210 ns, which changes nothing in the memory. -/
def execRefresh (_channel : BitVec 9) (s : State) : Out := .next s
/-- HOT_REFRESH (R359). -/
def execHotRefresh (device : BitVec 9) (s : State) : Out := .next (hotRefresh device.toNat s)
/-- HOT_REFRESH_END (R359, R370): no device is above 85 °C. -/
def execHotRefreshEnd (s : State) : Out := .next { s with mem := { s.mem with hotRefresh := false } }
/-- MEM_REFORM_START (R366). -/
def execMemReformStart (s : State) : Out := .next (s.hostReg 0x020_0010 fun s => memReformStart s)
/-- MEM_REFORM_DONE (R366). -/
def execMemReformDone (s : State) : Out := .next (memReformDone s)

end Sys2Proof.Machine
end

