-- ==== Sys2Proof/Machine/Rewind.lean ====
section
/-! DEFINITION. Checkpoint journal, rewind and replay (14_faults_spares.md R465 to R472). -/

namespace Sys2Proof.Machine

/-! ### The journal (R467, R468) -/

/-- The 256 bytes that a line of memory or of a DSS holds. -/
def State.undoBytes (s : State) (n space addr : Nat) : List Byte :=
  let a := addr - addr % 256
  if space = 0 then (s.mem.readRun a 256).1
  else (List.range 256).map fun i => (s.dssByte (s.part n).die.toNat (a + i)).1

/-- A record of an event (R467); a message is the latest that the core's receive XQ has taken. -/
def State.journalRec (s : State) (n : Nat) : JrnlEvent → Option JrnlRec
  | .undo space addr => some (.undo space.toNat (addr.toNat - addr.toNat % 256) (s.undoBytes n space.toNat addr.toNat))
  | .inp c kind group data poison =>
    match kind.toNat with
    | 0 => match s.phys n c.toNat with
      | some k => (s.core k).recvXq.getLast?.map fun m => .msg c.toNat m
      | none => none
    | 1 => some (.res c.toNat group.toNat data poison)
    | 2 => some (.bar c.toNat group.toNat)
    | 3 => some (.peel c.toNat data poison)
    | _ => none
  | .out c kind group => if kind.toNat ≤ 2 then some (.out c.toNat kind.toNat group.toNat) else none

/-- JOURNAL_APPEND (R467, R468): a record of the Bulk context on a partition, or the journal is full. The journal's bytes are
open (log 9). -/
def journalAppend (n : Nat) (e : JrnlEvent) (full : Bool) (s : State) : State :=
  match (s.part n).ctx with
  | none => s
  | some cn =>
    let c := s.ctx cn
    if c.express ∨ !c.live ∨ c.jrnlFull then s
    else if full then (s.setCtx cn { c with jrnlFull := true }).hwSet (rwdStatKey cn) 4
    else
      match s.journalRec n e with
      | none => s
      | some x =>
        let s1 := s.setCtx cn { c with journal := c.journal ++ [x] }
        if c.journal.isEmpty then
          s1.writeOpen (c.rwd.toNat + 2 * ((s.part n).count.toNat * corePart)) (c.jsize.toNat * mib)
        else s1

/-! ### Rewind (R470) -/

/-- An UNDO record applied. -/
def State.applyUndo (s : State) (n : Nat) : JrnlRec → State
  | .undo space addr bs =>
    if space = 0 then s.memPut addr bs else s.dssPut (s.part n).die.toNat addr (bs.map some) false
  | _ => s

/-- A failed core's place, messages and counts go to the spare that takes its logical number (R470 step 3). -/
def State.moveCore (s : State) (d l old new : Nat) : State :=
  let a := 26 * d + old
  let b := 26 * d + new
  let k := s.core a
  let s1 := s.updCore b fun x =>
    { x with nextId := max x.nextId k.nextId, xfers := k.xfers, sendXq := k.sendXq, recvXq := k.recvXq, xbars := k.xbars
             seq := .stopped }
  let s2 := s1.updCore a fun x => { x.afterReset false with failed := x.failed, retired := x.retired }
  let s3 := { s2 with fab := { s2.fab with reqs := s2.fab.reqs.map fun (q : FabReq) => match q.issuer with
    | .message k' x => if k' = a then { q with issuer := .message b x } else q
    | _ => q } }
  s3.commitWords [s3.mapWord d l new]

/-- The failed core replaced: spares are tested in ascending order, those that fail the acceptance test are retired, and the first
that passes takes the core's logical number; none where no spare passes. -/
def State.takeSpare (s : State) (d l p : Nat) : List Nat → List Bool → Option State
  | [], _ => none
  | _, [] => none
  | v :: vs, ok :: tests =>
    if ok then some ((s.retireCore d p true).moveCore d l p v)
    else State.takeSpare (s.retireCore d v true) d l p vs tests

/-- The failed cores of a partition: logical core of the die and physical core. -/
def State.failedOf (s : State) (n : Nat) : List (Nat × Nat) :=
  let p := s.part n
  (s.coresOf n).filterMap fun e => if (s.core e.2).failed then some (p.first.toNat + e.1, e.2 % 26) else none

/-- The contents of a rewound context (R470 steps 4 to 6): UNDO records in reverse, every core from the checkpoint, and the
partition in replay. -/
def State.restoreCtx (s : State) (n cn : Nat) (m : SMap SavedCore) : State :=
  let c := s.ctx cn
  let s1 := c.journal.reverse.foldl (fun s x => s.applyUndo n x) s
  let taken := fun (k : Core) (i : Nat) => k.recvXq.filter fun x => !c.journal.contains (.msg i x)
  let s2 := (s1.coresOf n).foldl (fun s e => s.updCore e.2 fun k =>
    { (k.load (smapGet .fresh m e.1)) with
        xfers := k.xfers, recvXq := taken k e.1, xbars := smapErase k.xbars 0 }) s1
  let c1 := { c with stopped := false, rewinds := if c.rewinds = 255 then 255 else c.rewinds + 1, replay := c.journal
                     redo := c.since, since := [], st := .resident }
  let s3 := (s2.setCtx cn c1).updPart n fun p =>
    { p with replay := (s2.coresOf n).map Prod.fst, ctx := some cn, xbarRel := smapErase p.xbarRel 0 }
  match c.ckptRun with
  | some (a, i) =>
    let known := s3.bs.run.any fun b => b.serial == a.serial
    (s3.updEntry a.idx fun b => if b.serial = a.serial then { b with primary := .running } else b).resumeRun n
      (if known then a else { a with idx := 4096 }) i
  | none => s3

/-- An entry that was started after the checkpoint waits to be started again. -/
def Ctx.again (c : Ctx) (a : Admitted) : Admitted :=
  if c.since.any fun b => b.serial == a.serial then { a with primary := .waiting } else a

/-- REWIND (R470, R490, R495): a failed core's place is taken by a spare that passes, or R479 applies; a stopped context is
restored and replays. -/
def rewind (n : Nat) (tests : List Bool) (s : State) : State :=
  let p := s.part n
  let d := p.die.toNat
  if p.inReset then s
  else
    let s1 : Option State := match s.failedOf n with
      | [] => some s
      | (l, q) :: _ => s.takeSpare d l q (s.spareCores d) tests
    match s1 with
    | none => match s.failedOf n with
      | (_, q) :: _ => s.noSpare n d q
      | [] => s
    | some s1 =>
      match p.ctx with
      | none => s1
      | some cn =>
        let c := s1.ctx cn
        match c.stopped, c.ckpt with
        | true, some m =>
          ({ s1 with bs := { s1.bs with run := s1.bs.run.map fun (a : Admitted) => if a.ctx = cn then c.again a else a } }).restoreCtx n cn m
        | _, _ => s1

/-- REPLAY_END (R471): a core whose records are used up leaves replay; recorded messages that no XRECV took enter its receive XQ. -/
def replayEnd (s : State) (r : CoreRef) : State :=
  let p := s.part r.pt
  if !p.replay.contains r.c then s
  else
    match p.ctx with
    | none => s.updPart r.pt fun p => { p with replay := natSetErase p.replay r.c }
    | some cn =>
      let c := s.ctx cn
      let mine := c.replay.filter fun x => x.core == some r.c
      let isMsg := fun (x : JrnlRec) => match x with
        | .msg .. => true
        | _ => false
      if !mine.all isMsg then s
      else
        let ms := mine.filterMap fun x => match x with
          | .msg _ m => some m
          | _ => none
        let s1 := s.setCtx cn { c with replay := c.replay.filter fun x => x.core != some r.c && x.core.isSome }
        let s2 := s1.updCore r.k fun k => { k with recvXq := k.recvXq ++ ms }
        s2.updPart r.pt fun p => { p with replay := natSetErase p.replay r.c }

/-! ### The rows -/

/-- REWIND (R470). -/
def execRewind (pt : Pt) (tests : List Bool) (s : State) : Out := .next (rewind pt.toNat tests s)
/-- REPLAY_END (R471). -/
def execReplayEnd (pt : Pt) (c : LCore) (s : State) : Out := onCore s pt c fun r => replayEnd s r
/-- JOURNAL_APPEND (R467). -/
def execJournalAppend (pt : Pt) (r : JrnlEvent) (full : Bool) (s : State) : Out :=
  .next (journalAppend pt.toNat r full s)

end Sys2Proof.Machine
end

