-- ==== Sys2Proof/Machine/Reset.lean ====
section
/-! DEFINITION. The reset ladder (15_hangs_reset.md R487 to R500), the verdicts on hangs, partition configuration and release
(R157, R596), module reset and power cycle. -/

namespace Sys2Proof.Machine

/-! ### Context abort and engine reset (R487 to R489, R494, R496, R497) -/

/-- A suspect is taken off the list. -/
def State.dropSuspect (s : State) (cn : Nat) : State :=
  { s with ladder := { s.ladder with suspects := s.ladder.suspects.filter fun x => x.ctx != cn } }

/-- A verdict falls (R507). -/
def State.setVerdict (s : State) (v : BitVec 3) : State := { s with ladder := { s.ladder with verdict := v } }

/-- The partitions on whose cores a context is. -/
def State.residentPts (s : State) (cn : Nat) : List Nat :=
  (s.ctx cn).pts.filter fun n => (s.part n).ctx == some cn

/-- A suspect is aborted (R488, R494, R496, R497): a Bulk one stops to be rewound, or ends where it cannot be; an Express one loses
the copy on the hung engine, and ends where both copies are suspects of it. -/
def State.abortSuspect (s : State) (x : Suspect) : State :=
  let c := s.ctx x.ctx
  let on := (s.suspectsOf x.hung).filterMap fun e => if e.1 = x.ctx then some e.2 else none
  let ns := (s.residentPts x.ctx)
  if c.express then
    if c.pts.all fun n => on.contains n then
      let s1 := ns.foldl (fun s n => (s.killContext n fcAborted false).withdraw n) s
      (s1.setCtx x.ctx { s1.ctx x.ctx with st := .dead, code := BitVec.ofNat 8 fcAborted }).dropSuspect x.ctx |>.setVerdict 4
    else (ns.filter fun n => on.contains n).foldl (fun s n => (s.killContext n fcAborted true).withdraw n) s
  else if c.rewindable then ns.foldl (fun s n => s.stopForRewind n) s
  else ((ns.foldl (fun s n => (s.killContext n fcPtReset true).withdraw n) s).dropSuspect x.ctx).setVerdict 4

/-- CONTEXT_ABORT (R487, R488): a named context; one that is no suspect ends with ABORTED (R489). -/
def contextAbort (cn : Nat) (s : State) : State :=
  let s1 := match s.ladder.suspects.find? fun x => x.ctx == cn with
    | some x => s.abortSuspect x
    | none => (s.residentPts cn).foldl (fun s n => s.abortPart n (srcNo (s.part n).die.toNat 0)) s
  s1.beginStep (.ctx cn)

/-- A core at an engine reset (R487): Bench, Proof Buffer and commit state stay. -/
def Core.engineReset (k : Core) : Core :=
  { Core.reset with
      bench := k.abort.bench, pb := k.pb, commit := k.commit, failed := k.failed, retired := k.retired, nextId := k.nextId
      xbars := k.xbars
      seq := if k.seq = .noKernel then .noKernel else .stopped }

/-- Cores without their transfers in an engine: the PENDING lines of withdrawn transfers become INVALID. -/
def Core.dropEngine (k : Core) (mine : XferKind → Bool) : Core :=
  let gone := k.xfers.filter fun x => mine x.kind
  { k with
      xfers := k.xfers.filter fun x => !mine x.kind
      bench := (k.bench.map fun e => (e.1, match e.2.hold with
        | some h => if gone.any (fun x => x.id == h.xfer) then e.2.withdraw else e.2
        | none => e.2)).filter fun e => e.2 != .empty }

/-- Every core of the module changed. -/
def State.updAllCores (s : State) (f : Core → Core) : State :=
  { s with cores := (s.cores.map fun e => (e.1, f e.2)).filter fun e => e.2 != .reset }

/-- A port whose link layer trains again (R376, R487). -/
def Port.retrain (p : Port) (now : Nat) : Port :=
  { Port.reset with
      en := p.en, rateCap := p.rateCap, timeEn := p.timeEn, downSeen := p.downSeen, widthChanged := p.widthChanged
      retries := p.retries, trainFails := p.trainFails, signal := p.signal
      st := if p.en && p.signal then .train else .off, trainStart := now }

/-- Every context with work in an engine is aborted as a suspect before the engine's reset (R156, R488, R494). -/
def State.abortSuspects (s : State) (u : LadderUnit) : State :=
  (s.suspectsOf u).foldl (fun s e =>
    if !(s.ctx e.1).live || (s.ctx e.1).stopped then s
    else
      let s1 := s.addSuspect u e
      match s1.ladder.suspects.find? fun x => x.ctx == e.1 with
      | some x => s1.abortSuspect { x with hung := u }
      | none => s1) s

/-- What an engine reset loses (R487), its suspects gone before. -/
def State.loseEngine (s : State) : LadderUnit → State
  | .core d p => (s.updCore (26 * d + p) Core.engineReset).dropRequests [26 * d + p]
  | .peel d e =>
    let s1 := s.setEngine d e { s.engine d e with queue := [], lastBeat := s.now }
    let mine := fun (x : XferKind) => x == .peel e || x == .pbufImage e
    let s2 := (List.range 26).foldl (fun s p => s.updCore (26 * d + p) fun k => k.dropEngine mine) s1
    let keep := fun (i : Issuer) => match i with
      | .peelRead d' e' _ _ _ => !(d' == d && e' == e)
      | .peelWrite d' e' _ _ => !(d' == d && e' == e)
      | _ => true
    { s2 with fab := { s2.fab with reqs := s2.fab.reqs.filter fun q => keep q.issuer }
              host := { s2.host with reads := s2.host.reads.filter fun q => keep q.issuer } }
  | .collective =>
    let s1 := s.updAllCores fun k => k.dropEngine fun x => x == .xred
    { s1 with fab := { s1.fab with runs := [], collLastBeat := s.now } }
  | .link p =>
    { s with fab := { s.fab with ports := smapUpd .reset s.fab.ports p fun q => q.retrain s.now } }
  | _ => s

/-- An engine reset (R487, R488). -/
def State.resetEngine (s : State) (u : LadderUnit) : State := (s.abortSuspects u).loseEngine u

/-- ENGINE_RESET (R487, R488). -/
def engineReset (u : LadderUnit) (s : State) : State := (s.resetEngine u).beginStep u

/-! ### Module reset (R487, R491) and power cycle (R500) -/

/-- A port after a power cycle: its registers at their Reset values (R415), its link as transit forwarding keeps it (R500). -/
def Port.powerCycled (p : Port) (now : Nat) : Port :=
  let q := { p with en := true, rateCap := true, timeEn := true, downSeen := false, widthChanged := false, retries := 0, trainFails := 0 }
  if q.st = .off && q.signal then q.retrain now else q

/-- Every admitted entry that is not complete has its record with PARTITION_RESET written (R491), after those that wait. -/
def State.endAllEntries (s : State) : State :=
  let s1 := s.bs.run.foldl (fun s a => s.complete a 1 fcPtReset 0) s
  s1.bs.due.foldl State.writeCompletion { s1 with bs := { s1.bs with due := [] } }

/-- The hearth dies after a module reset: spares and retirements stay, and so does ACLK with its status in the always-on domain
(R18, R54, R592). -/
def Die.afterReset (d : Die) : Die :=
  { Die.reset with
      freqMhz := d.freqMhz, nextMhz := d.nextMhz, thermal := d.thermal, droop := d.droop, stretching := d.stretching, stretchSeen := d.stretchSeen
      phase := d.phase, lostCores := d.lostCores, movedCols := d.movedCols, sparesLeft := d.sparesLeft, fieldCols := d.fieldCols
      engines := (d.engines.map fun e => (e.1, { Engine.reset with servedBy := e.2.servedBy, retired := e.2.retired })).filter
        fun e => e.2 != .reset }

/-- The hearth dies without power (R521): no droop is indicated and no cycle is stretched. -/
def Die.unpowered (d : Die) : Die := { d.afterReset with droop := false, stretching := false, phase := 0 }

/-- The hearth dies after a power cycle: ACLK's status is at its reset values (R18, R54). -/
def Die.powerCycled (d : Die) : Die := { d.unpowered with freqMhz := 1100, nextMhz := 1100, thermal := false, stretchSeen := false }

/-- The memory after a module reset: its contents stay, but for one in a reform (R629, R368, R487). -/
def Mem.afterReset (m : Mem) : Mem :=
  let g := m.groups.map fun e => (e.1, { e.2 with counts := [], window := 0 })
  let m1 := { Mem.reset with cells := m.cells, poison := m.poison, errs := m.errs, areas := m.areas, groups := g.filter fun e => e.2 != .reset }
  if m.reforming.isSome then m1.initialise else m1

/-- The Ledger's registers after a module reset (R591). -/
def Ledger.afterReset (l : Ledger) : Ledger :=
  { l with marginWarn := false, compacting := false, corrupt := 0, alertEn := false, sweep := 86400 }

/-- The fabric after a module reset: the router stays, the collective engine and the requests of cores go (R415, R416). -/
def Fabric.afterReset (f : Fabric) : Fabric :=
  { f with
      grpSel := 0, groups := [], nlSel := 0, nodeList := [], runs := [], collDone := [], held := []
      reqs := f.reqs.filter fun q => q.issuer.core.isNone }

/-- The port to the host after a module reset (R551): the link goes down. -/
def HostPort.afterReset (h : HostPort) : HostPort := { HostPort.reset with perst := h.perst, replayCnt := 0 }

/-- Debug mode ends (R573). -/
def Security.relock (x : Security) : Security := { x with debug := false, scopes := 0 }

/-- Maps that wait take effect: no partition holds weights any more (R131). -/
def State.flushMaps (s : State) : State :=
  let s1 := s.crust.waiting.foldl (fun s e => s.crustPut e.1 e.2) s
  { s1 with crust := { s1.crust with waiting := [] } }

/-- Everything that a module reset covers is at its reset value (R487, R491, R592). With the rails up the module is in W0 at once, from
W1 to W4 too, and the captures of R15 stay (DESIGN CHOICE, logs 17 and 31). -/
def State.moduleCleared (s : State) : State :=
  { s with
      cores := (s.cores.map fun e => (e.1, { e.2.afterReset false with xbars := [] })).filter fun e => e.2 != .reset
      dies := (s.dies.map fun e => (e.1, e.2.afterReset)).filter fun e => e.2 != .reset
      parts := [], ctxs := [], loafs := [], models := [], bs := .reset, mem := s.mem.afterReset, tele := .reset
      crumbLog := .reset, ledger := s.ledger.afterReset, fab := s.fab.afterReset, host := s.host.afterReset
      log := { s.log with port := { s.log.port with page := 0 }, portI3c := { s.log.portI3c with page := 0 } }
      sec := s.sec.relock, scratch := 0, links := s.links.map fun e => (e.1, { e.2 with lost := false })
      power := { s.power with st := if s.power.rails then .w0 else s.power.st, exiting := false,
                                target := if s.power.rails then .w0 else s.power.target,
                              idleFrom := none }
      ladder := { s.ladder with suspects := [] } }

/-- A module reset begins (R487, R491). -/
def State.startModuleReset (s : State) : State := ((s.endAllEntries.flushMaps.cutReform).moduleCleared.settleAlert).beginStep .module

/-- PWR_CYCLE_REQ_N is asserted (R500), after the COUNTERS records of R579. -/
def State.requestPowerCycle (s : State) : State :=
  if s.ladder.pwrReq then s
  else
    let s1 := (List.range 20).foldl State.writeCounters s
    { s1 with ladder := { s1.ladder with pwrReq := true } }.emit (.pin "PWR_CYCLE_REQ_N" true)

/-- The module after a power cycle (R500, R487): transit forwarding, the Health Ledger, the OTP and what they record stay; the
always-on domain is at its reset values. The captures of R15 end (DESIGN CHOICE, log 17). -/
def State.powerCycled (s : State) : State :=
  let r := State.reset
  State.settleAlert { r with
      pending := s.pending, free := s.free, out := s.out, fuse := s.fuse
      ledger := { s.ledger.afterReset with inconsistent := false, scanned := false }
      crust := { Crust.reset with regs := s.crust.regs, crcs := s.crust.crcs }
      cores := (s.cores.map fun e => (e.1, { e.2.afterReset false with xbars := [] })).filter fun e => e.2 != .reset
      dies := (s.dies.map fun e => (e.1, e.2.powerCycled)).filter fun e => e.2 != .reset
      mem := s.mem.afterReset.initialise
      fab := { Fabric.reset with ports := (s.fab.ports.map fun e => (e.1, e.2.powerCycled 0)).filter fun e => e.2 != .reset }
      host := { HostPort.reset with perst := s.host.perst }
      sec := { Security.reset with flash := s.sec.flash }
      power := { Power.reset with pwrEn := s.power.pwrEn, pwrEnAt := s.power.pwrEnAt, vinMv := s.power.vinMv
                                  current := s.power.current, slotId := s.power.slotId }
      bays := s.bays, alertN := s.alertN }

/-- POWER_CYCLE (R500): with PWR_EN low and PWR_CYCLE_REQ_N asserted. -/
def powerCycle (s : State) : State :=
  if s.power.pwrEn || !s.ladder.pwrReq then s else (s.flushMaps.cutReform.powerCycled).emit (.pin "PWR_CYCLE_REQ_N" false)

/-! ### Steps of the ladder (R487, R488, R492) -/

/-- The limit of a step in ns (R487). -/
def LadderUnit.limit : LadderUnit → Nat
  | .ctx _ => 100000
  | .part _ => 5000000
  | .module => 100000000
  | _ => 500000

/-- A step's end: the unit is back. -/
def State.stepDone (s : State) (u : LadderUnit) : State :=
  match u with
  | .part n => s.updPart n Part.leaveReset
  | .module => { s with bs := { s.bs with scanner := s.time.lockedOnce || s.time.holdover }
                        time := { s.time with resetLeft := s.now } }
  | _ => s

/-- The state without a running step. -/
def State.dropStep (s : State) (i : Nat) : State :=
  { s with ladder := { s.ladder with steps := s.ladder.steps.eraseIdx i } }

/-- LADDER_STEP_COMPLETE (R487, R492). -/
def ladderStepComplete (i : Nat) (s : State) : State :=
  match s.ladder.steps[i]? with
  | none => s
  | some t => ((s.dropStep i).stepDone t.target).ladderEvent t.target 1

/-- The next step covering a unit (R487, R488, R500): after the abort of a suspect, a reset of the engine that hung. Where a context abort
was not for a hang, the engine that has not stopped is reset by a command of its own (R489). -/
def State.escalate (s : State) (u : LadderUnit) : State :=
  match u with
  | .ctx cn =>
    match s.ladder.suspects.find? fun x => x.ctx == cn with
    | some x => (s.resetEngine x.hung).beginStep x.hung
    | none => s
  | .core d p =>
    match s.ptOfCore (26 * d + p) with
    | some n => s.startPartReset n
    | none => s
  | .peel d _ => (List.range 16).foldl (fun s n =>
      if (s.part n).die.toNat = d ∧ (s.part n).en then s.startPartReset n else s) s
  | .module => s.requestPowerCycle
  | _ => s.startModuleReset

/-- LADDER_STEP_TIMEOUT (R488, R492). -/
def ladderStepTimeout (i : Nat) (s : State) : State :=
  match s.ladder.steps[i]? with
  | none => s
  | some t =>
    if s.now < t.start + t.target.limit then s
    else
      let s1 := ((s.dropStep i).ladderEvent t.target 2)
      (({ s1 with ladder := { s1.ladder with escalated := true } }).hwSet 0x003_0004 0x10).escalate t.target

/-- PARTITION_RESET (R487): no second one while a step covers the partition (R492). -/
def partitionReset (n : Nat) (s : State) : State :=
  if s.ladder.steps.any fun t => s.covers t.target (.part n) then s else s.startPartReset n

/-- RST_REQ for a partition (R493). -/
def rstReqPartition (n : Nat) (s : State) : State :=
  if s.ladder.steps.any fun t => s.covers t.target (.part n) then { s with ladder := { s.ladder with ignored := true } }.hwSet 0x003_0004 0x20
  else s.startPartReset n

/-! ### Verdicts (R495 to R498) -/

/-- The Peel engine that takes over a retired one's number (R498): the next engine of the die in service (DEDUCED, log 27). -/
def State.otherEngine (s : State) (d e : Nat) : Option Nat :=
  ((List.range 7).map fun i => (e + 1 + i) % 8).find? fun x => !(s.engine d x).retired

/-- A convicted unit is failed (R495, R498). -/
def State.failUnit (s : State) : LadderUnit → State
  | .core d p => s.coreFail d p
  | .peel d e =>
    match s.otherEngine d e with
    | none => s
    | some x =>
      let s1 := (List.range 8).foldl (fun s i =>
        if i = e ∨ s.serving d i = e then s.updEngine d i fun g => { g with servedBy := some x } else s) s
      let s2 := s1.updEngine d e fun g => { g with retired := true }
      (s2.spare d .engines (srcNo d (0x200 + e)) x).otp fun o =>
        { o with engines := smapUpd 0 o.engines d fun b => b ||| BitVec.ofNat 8 (2 ^ e) }
  | u =>
    let src := s.unitSrc u
    if s.ladder.convictedHub.contains src then
      ((s.otp fun o => { o with retire := true }).ledgerFlag dieHub src 2).startModuleReset |> fun s =>
        { s with ledger := { s.ledger with retireFlag := true } }
    else { s with ladder := { s.ladder with convictedHub := natSetInsert s.ladder.convictedHub src } }.startModuleReset

/-- The undecided suspect with the lowest context number (R494). -/
def State.firstSuspect (s : State) : Option Suspect :=
  s.ladder.suspects.foldl (fun o x => match o with
    | some y => if y.ctx ≤ x.ctx then some y else some x
    | none => some x) none

/-- A context found guilty ends with ABORTED (R495, R496). -/
def State.guilty (s : State) (x : Suspect) : State :=
  let cn := x.ctx
  let c := s.ctx cn
  let s1 := if c.express then
      let s0 := (s.residentPts cn).foldl (fun s n => (s.killContext n fcAborted false).withdraw n) s
      { s0 with bs := { s0.bs with run := s0.bs.run.map fun (a : Admitted) => if a.ctx = cn ∧ a.started then
          { a with primary := .fault fcAborted, secondary := .fault fcAborted } else a } }
    else
      let s0 := (s.residentPts cn).foldl (fun s n => (s.withdraw n).updPart n fun p => { p with replay := [] }) s
      ((s0.bs.run.filter fun a => a.ctx == cn && a.started).foldl (fun s a => s.complete a 1 fcAborted 0)
        ((s.residentPts cn).foldl (fun s n => s.endRun n) s0)).setCtx cn
          { c with st := .dead, code := BitVec.ofNat 8 fcAborted, stopped := false }
  let s2 := s1.dropSuspect cn
  { s2 with ladder := { s2.ladder with verdict := 3, guilty := BitVec.ofNat 6 cn, guiltyValid := true } }.hwSet 0x003_0030 0x40

/-- HANG_VERDICT (R494 to R498): on the suspect with the lowest context number. -/
def hangVerdict (v : Verdict) (s : State) : State :=
  match s.firstSuspect with
  | none => s
  | some x =>
    match v with
    | .committed =>
      let s1 := s.dropSuspect x.ctx
      if s1.ladder.suspects.isEmpty ∧ s1.ladder.verdict = 0 then s1.setVerdict 1 else s1
    | .hungAgain convict =>
      if !(s.ctx x.ctx).express && convict && !x.failed then
        let s1 := { s with ladder := { s.ladder with
          verdict := 2, suspects := s.ladder.suspects.map fun (y : Suspect) => if y.ctx = x.ctx then { y with failed := true } else y } }
        s1.failUnit x.hung
      else s.guilty x

/-! ### The Oven Timer (R499, R500) -/

/-- A management reset (R499, R573): the management cores boot again. -/
def State.managementReset (s : State) : State :=
  let s := s.endDebug
  { s with sec := { s.sec with boot := 0, busy := false }, ladder := { s.ladder with ovtLast := none, ovtFrom := s.now } }

/-- OVEN_TIMER_RESTART (R499): by Abmito, or by the Starter ROM while the recovery window is open (R561). -/
def ovenTimerRestart (s : State) : State := { s with ladder := { s.ladder with ovtLast := some s.now } }

/-- OVEN_TIMER_EXPIRE (R499, R500). -/
def ovenTimerExpire (s : State) : State :=
  match s.ladder.ovtLast with
  | none => if s.ladder.ovtFrom + 1000000000 ≤ s.now then s.requestPowerCycle else s
  | some t =>
    if s.now < t + 50000000 then s
    else
      let n := min 255 (s.ladder.expiries + 1)
      let again := match s.ladder.ovtFirst with
        | some f => decide (s.now < f + 10000000000)
        | none => false
      let s1 := ({ s with ladder := { s.ladder with
        expiries := n, ovtFirst := if again then s.ladder.ovtFirst else some s.now } }).event (srcHub 0x360) 0x0703 (detail3 n 0 0)
      if again then s1.requestPowerCycle else s1.managementReset

/-! ### Configuration and release of partitions (R157, R535, R596) -/

/-- The partitions whose configuration names a die. -/
def State.configured (s : State) (d : Nat) : List Nat :=
  (List.range 16).filter fun n => (s.part n).en && (s.part n).die.toNat == d

/-- The logical cores of a partition within its die. -/
def Part.range (p : Part) : List Nat := (List.range p.count.toNat).map (p.first.toNat + ·)

/-- The checks of R157. -/
def State.cfgBad (s : State) (n : Nat) : Bool :=
  let p := s.part n
  let d := p.die.toNat
  let ns := s.configured d
  let exposed := s.exposed d
  let all := ns.flatMap fun m => (s.part m).range
  decide (4 < ns.length) || !decide (all.Nodup) || !(List.range exposed).all (fun l => all.contains l) ||
    all.any fun l => decide (exposed ≤ l)

/-- The logical numbering of a die becomes dense again (R479): the places of retired cores close up. -/
def State.densify (s : State) (d : Nat) : State :=
  let live := ((List.range 24).map fun l => s.mapCore d l).filter fun p =>
    decide (p < 26) && !(s.core (26 * d + p)).retired
  let words := (List.range 6).map fun w =>
    (0x060_2000 + 0x20 * d + 4 * w, packWord ((List.range 4).map fun i => (live.getD (4 * w + i) 0xFF, 8 * i)))
  if (List.range 24).any fun l => decide (s.mapCore d l < 26) && (s.core (26 * d + s.mapCore d l)).retired then
    s.commitWords words
  else s

/-- PT_CFG_WRITE (R157, R535). -/
def ptCfgWrite (n : Nat) (vf : Bool) (v : Word) (s : State) : State :=
  let p := s.part n
  if vf then s
  else if !(p.inReset && (p.hold || p.quarantined)) then (s.setPart n { p with writeIgnored := true }).hwSet (0x010_0010 + 0x1_0000 * n) 0x4000
  else
    let v := s.clears (0x010_0010 + 0x1_0000 * n) v
    let s1 := s.setPart n { p with
      die := v.extractLsb' 0 2, first := v.extractLsb' 2 5, count := v.extractLsb' 7 5, en := v.getLsbD 12
      writeIgnored := p.writeIgnored && !v.getLsbD 14 }
    let d := (v.extractLsb' 0 2).toNat
    if (List.range 16).all fun m => !((s1.part m).en && (s1.part m).die.toNat == d) || (s1.part m).inReset then s1.densify d else s1

/-- PT_RST_HOLD_WRITE (R157, R493, R535, R596). -/
def ptRstHoldWrite (n : Nat) (vf hold : Bool) (s : State) : State :=
  let p := s.part n
  let busy := s.ladder.steps.any fun t => s.covers t.target (.part n)
  if vf then s
  else if !hold then
    let p1 := { p with bad := s.cfgBad n }
    if !p1.en || p1.bad || p1.quarantined || p1.outOfService then (s.setPart n { p1 with refused := true }).hwSet (0x010_0000 + 0x1_0000 * n) 4
    else s.setPart n { p1 with hold := false, inReset := p1.inReset && busy, releasedNow := p1.inReset && !busy }
  else if p.inReset then s.setPart n { p with hold := true }
  else if busy then
    (({ s with ladder := { s.ladder with ignored := true } }.setPart n { p with refused := true }).hwSet 0x003_0004 0x20).hwSet
      (0x010_0000 + 0x1_0000 * n) 4
  else (s.setPart n { p with hold := true }).startPartReset n

/-! ### The rows -/

/-- CONTEXT_ABORT (R487). -/
def execContextAbort (ctx : CtxNo) (s : State) : Out := .next (contextAbort ctx.toNat s)
/-- ENGINE_RESET (R487). -/
def execEngineReset (e : EngUnit) (s : State) : Out := .next (engineReset (engUnit e) s)
/-- PARTITION_RESET (R487). -/
def execPartitionReset (pt : Pt) (s : State) : Out := .next (partitionReset pt.toNat s)
/-- MODULE_RESET (R491). -/
def execModuleReset (s : State) : Out := .next s.startModuleReset
/-- POWER_CYCLE (R500). -/
def execPowerCycle (s : State) : Out := .next (powerCycle s)
/-- LADDER_STEP_COMPLETE (R487). -/
def execLadderStepComplete (idx : BitVec 8) (s : State) : Out := .next (ladderStepComplete idx.toNat s)
/-- LADDER_STEP_TIMEOUT (R488). -/
def execLadderStepTimeout (idx : BitVec 8) (s : State) : Out := .next (ladderStepTimeout idx.toNat s)
/-- HANG_VERDICT (R495). -/
def execHangVerdict (v : Verdict) (s : State) : Out := .next (hangVerdict v s)
/-- RST_REQ_PARTITION (R493). -/
def execRstReqPartition (pt : Pt) (s : State) : Out := .next (s.hostReg 0x003_0000 fun s => rstReqPartition pt.toNat s)
/-- RST_REQ_MODULE (R493): taken at any time. -/
def execRstReqModule (s : State) : Out := .next (s.hostReg 0x003_0000 fun s => s.startModuleReset)
/-- RST_REQ_POWER_CYCLE (R493, R500): taken at any time. -/
def execRstReqPowerCycle (s : State) : Out := .next (s.hostReg 0x003_0000 fun s => s.requestPowerCycle)
/-- OVEN_TIMER_RESTART (R499). -/
def execOvenTimerRestart (s : State) : Out := .next (ovenTimerRestart s)
/-- OVEN_TIMER_EXPIRE (R499). -/
def execOvenTimerExpire (s : State) : Out := .next (ovenTimerExpire s)
/-- PT_CFG_WRITE (R157). -/
def execPtCfgWrite (pt : Pt) (vf : Bool) (v : Word) (s : State) : Out :=
  .next (s.hostReg (0x010_0010 + 0x1_0000 * pt.toNat) fun s => ptCfgWrite pt.toNat vf v s)
/-- PT_RST_HOLD_WRITE (R596). -/
def execPtRstHoldWrite (pt : Pt) (vf hold : Bool) (s : State) : Out :=
  .next (s.hostReg (0x010_0000 + 0x1_0000 * pt.toNat) fun s => ptRstHoldWrite pt.toNat vf hold s)

end Sys2Proof.Machine
end

