-- ==== Sys2Proof/Machine/Dump.lean ====
section
/-! DEFINITION. Crash dumps (15_hangs_reset.md R501 to R507). The headers of R505 stand as the spec gives them; the data of
the records are open (log 39). -/

namespace Sys2Proof.Machine

/-- A unit is in the scope of a dump (R501, R502). Those of a partition are its cores (DEDUCED, log 39). -/
def State.inScope (s : State) (u : DumpScope) (src : Nat) : Bool :=
  match u with
  | .module => true
  | .hub => src / 2048 == dieHub
  | .die d => src / 2048 == d.toNat
  | .part n => (s.coresOf n.toNat).any fun e => decide (srcCore e.2 0 ≤ src) && decide (src < srcCore e.2 8)

/-- Some memory die does not answer (R503): it has no power, or its link to the hub is lost. -/
def State.memDieDead (s : State) : Bool :=
  !s.power.rails || (List.range 5).any fun d =>
    (smapGet .reset s.links (srcHub (0x3C4 + d))).lost || (smapGet .reset s.links (srcNo (5 + d) 0x3C4)).lost

/-- A dump begins, or is skipped while one is held (R501, R504). One that runs goes on. A dump is a wake event (R524). -/
def State.startDump (s : State) (trigger : Nat) (scope : DumpScope) : State :=
  if s.ladder.dump.isSome then s
  else if s.ladder.full && !s.ladder.overwrite then
    { s with ladder := { s.ladder with skipped := min 255 (s.ladder.skipped + 1) } }
  else { s with ladder := { s.ladder with dump := some ⟨trigger, scope, s.now, [], s.memDieDead, s.ladder.sram⟩ } }.wake

/-- DUMP_START (R501): before a partition reset, a module reset or a power cycle, while AUTO is set. -/
def dumpStart (pt : Option Pt) (cycle : Bool) (s : State) : State :=
  if !s.ladder.auto then s
  else match pt with
    | some n => s.startDump 1 (.part n)
    | none => s.startDump (if cycle then 3 else 2) .module

/-- The scope that DUMP_CTRL names (R507); 7 names none. -/
def Ladder.dumpScope (l : Ladder) : Option DumpScope :=
  match l.scope.toNat with
  | 0 => some .module
  | 1 => some .hub
  | 2 => some (.die 0)
  | 3 => some (.die 1)
  | 4 => some (.die 2)
  | 5 => some (.die 3)
  | 6 => some (.part l.scopePt)
  | _ => none

/-- DUMP_GO (R501). -/
def dumpGo (s : State) : State :=
  match s.ladder.dumpScope with
  | some u => s.startDump 0 u
  | none => s

/-- DUMP_UNIT_TIMEOUT (R502, R503): a hole; unit 0 stands for a die that does not answer at all. -/
def dumpUnitTimeout (src : Nat) (s : State) : State :=
  match s.ladder.dump with
  | none => s
  | some r =>
    let d := src / 2048
    let us := if src % 2048 = 0 then (dieUnits d).map (srcNo d) else if (dieUnits d).contains (src % 2048) then [src] else []
    let new := us.filter fun u => s.inScope r.scope u && !r.holes.contains u
    let dead := decide (src % 2048 = 0) && decide (5 ≤ d) && decide (d < 10)
    { s with ladder := { s.ladder with dump := some { r with holes := r.holes ++ new, toSram := r.toSram || dead } } }

/-- The header of a dump (R505). -/
def DumpRun.header (r : DumpRun) (now records bytes : Nat) : List Byte :=
  let pt := match r.trigger, r.scope with
    | 1, .part n => n.toNat
    | _, _ => 0xFF
  natBytes 4 0x5044_5844 ++ natBytes 2 1 ++ natBytes 1 r.trigger ++ natBytes 1 pt ++ natBytes 8 r.began ++ natBytes 8 now ++
    natBytes 4 records ++ natBytes 4 r.holes.length ++ natBytes 8 bytes ++ List.replicate 24 0

/-- The bytes that a destination holds (R348, R503). -/
def DumpRun.room (r : DumpRun) : Nat := if r.toSram then 16 * mib else 512 * mib

/-- A byte of the dump SRAM. -/
def Ladder.sramByte (l : Ladder) (a : Nat) : Byte :=
  (smapFind l.sramBytes a).getD (match l.sramSeed with
    | some q => Config.freeByte q a
    | none => 0)

/-- The bytes of a record with its padding (R505). -/
def dumpSize (x : DumpRec) : Nat := 16 + 16 * ceilDiv x.len.toNat 16

/-- The header of a record (R505). -/
def dumpHead (x : DumpRec) : List Byte :=
  natBytes 2 x.src.toNat ++ natBytes 1 (b2n x.pass1) ++ natBytes 1 x.status.toNat ++ natBytes 4 x.len.toNat ++ natBytes 8 x.off.toNat

/-- The bytes of a dump that the spec gives, by their places: the headers and the padding (R505). The data between are open (log 39). -/
def dumpPieces : Nat → List DumpRec → List (Nat × List Byte)
  | _, [] => []
  | o, x :: xs => (o, dumpHead x) :: (o + 16 + x.len.toNat, List.replicate (dumpSize x - 16 - x.len.toNat) 0) :: dumpPieces (o + dumpSize x) xs

/-- The units of a scope, in ascending source number. -/
def State.scopeUnits (s : State) (u : DumpScope) : List Nat :=
  (List.range 20).flatMap fun d => ((dieUnits d).map (srcNo d)).filter (s.inScope u)

/-- The records are those of the dump (R501, R502, R505): each pass in ascending source number, no unit outside the scope, none of the
scope left out, a hole where a unit has not answered and nowhere else. -/
def State.recordsOk (s : State) (r : DumpRun) (xs : List DumpRec) : Bool :=
  let key := fun (x : DumpRec) => (b2n x.pass1 * 2 ^ 16 + x.src.toNat) * 2 ^ 64 + x.off.toNat
  decide (xs.Pairwise fun x y => key x ≤ key y) &&
    xs.all (fun x => unitOk x.src.toNat && s.inScope r.scope x.src.toNat && (r.sram || !x.pass1) &&
      (x.status == 1) == r.holes.contains x.src.toNat && (x.status != 1 || x.len == 0)) &&
    (s.scopeUnits r.scope).all fun u => xs.any fun x => !x.pass1 && x.src.toNat == u

/-- A dump stands in its destination. -/
def State.storeDump (s : State) (r : DumpRun) (xs : List DumpRec) (bytes : Nat) : State :=
  let s1 := { s with free := s.free + 1 }
  let pieces := (0, r.header s.now xs.length bytes) :: dumpPieces 64 xs
  if r.toSram then
    { s1 with ladder := { s1.ladder with
        sramSeed := some s.free
        sramBytes := pieces.foldl (fun m e => e.2.zipIdx.foldl (fun m b => smapInsert m (e.1 + b.2) b.1) m) [] } }
  else
    pieces.foldl (fun s e => s.memPut (s.mem.dumpBase + e.1) e.2) { s1 with mem := s1.mem.openArea s1.mem.dumpBase bytes s.free }

/-- The copy of the dump SRAM to the host (R503, R540). -/
def State.copyDump (s : State) (bytes : Nat) : State :=
  if s.ladder.dumpHost = 0 ∨ !s.canSend 0 then s
  else (byteRuns s.maxPayload 0 ((List.range bytes).map fun i => some (s.ladder.sramByte i))).foldl (fun s r =>
    s.emit (.hostWrite 0 (s.ladder.dumpHost.toNat + r.1) r.2 false false)) s

/-- DUMP_END (R503, R505): the dump is complete, or its destination is full or its limit has passed and what is left is TRUNCATED. -/
def dumpEnd (xs : List DumpRec) (s : State) : State :=
  match s.ladder.dump with
  | none => s
  | some r =>
    let bytes := 64 + (xs.map dumpSize).sum
    let cut := xs.any fun x => x.status == 2
    if !s.recordsOk r xs ∨ r.room < bytes ∨ (cut ∧ s.now < r.began + s.ladder.limit.toNat * 1000000 ∧ bytes + 16 ≤ r.room) then s
    else
      let s1 := s.storeDump r xs bytes
      let s2 := { s1 with ladder := { s1.ladder with dump := none, full := true, inSram := r.toSram, truncated := cut } }
      (if r.toSram then s2.copyDump bytes else s2).hwSet 0x003_0104 2

/-- DUMP_PORT_DATA_READ (R507). -/
def dumpPortDataRead (s : State) : State :=
  let a := s.ladder.portAddr.toNat
  { s with reply := some (.word (BitVec.ofNat 32 (bytesNat ((List.range 4).map fun i => s.ladder.sramByte (a + i)))))
           ladder := { s.ladder with portAddr := s.ladder.portAddr + 4 } }

/-! ### The rows -/

/-- DUMP_START (R501). -/
def execDumpStart (pt : Option Pt) (cycle : Bool) (s : State) : Out := .next (dumpStart pt cycle s)
/-- DUMP_GO (R501). -/
def execDumpGo (s : State) : Out := .next (s.hostReg 0x003_0100 fun s => dumpGo s)
/-- DUMP_UNIT_TIMEOUT (R502). -/
def execDumpUnitTimeout (src : SrcNo) (s : State) : Out := .next (dumpUnitTimeout src.toNat s)
/-- DUMP_END (R503). -/
def execDumpEnd (recs : List DumpRec) (s : State) : Out := .next (dumpEnd recs s)
/-- DUMP_PORT_DATA_READ (R507), by the host or over I3C. -/
def execDumpPortDataRead (s : State) : Out := .next (if s.power.alwaysOn then dumpPortDataRead s else s)

end Sys2Proof.Machine
end

