-- ==== Sys2Proof/Machine/TimeSync.lean ====
section
/-! DEFINITION. Time synchronisation (12_thatre_fabric.md R410 to R413; 01_module.md R39 to R44): link delays, SYNC, the one step
of the GTB and what is carried across it (R40), slewing, holdover. -/

namespace Sys2Proof.Machine

/-- The GTB in 1/8 ns, as stamps are taken (R411). -/
def State.eighths (s : State) : Nat := (s.time.gtb >>> 29).toNat

/-! ### Link delays (R411) -/

/-- DELAY_REQ_SEND (R411): on every UP port; a node with no ID sends none (R393). The 16 bytes hold the stamp (log 28). -/
def delayReqSend (s : State) : State :=
  if !s.power.routes ∨ s.fab.node = 0 then s
  else (List.range 40).foldl (fun s n =>
    if (s.port n).st = .up then
      (s.updPort n fun p => { p with t1 := some s.eighths }).portSend n
        (s.linkPacket (s.port n).peerNode 0x23 (natBytes 16 s.eighths))
    else s) s

/-- DELAY_REQ (R411): stamped at its arrival and answered (log 28: the two stamps, 8 bytes each, modulo 2^64). -/
def delayReq (n : Nat) (s : State) : State :=
  s.atPort n fun s =>
    if (s.port n).st ≠ .up ∨ s.fab.node = 0 then s
    else s.portSend n (s.linkPacket (s.port n).peerNode 0x24 (natBytes 8 s.eighths ++ natBytes 8 s.eighths))

/-- DELAY_RSP (R411): 2d = (t4 − t1) − (t3 − t2) in 1/8 ns, which is d in 1/16 ns. -/
def delayRsp (n : Nat) (t2 t3 : Nat) (s : State) : State :=
  s.atPort n fun s =>
    let p := s.port n
    match p.t1 with
    | none => s
    | some t1 =>
      if p.st ≠ .up ∨ s.fab.node = 0 then s
      else s.setPort n { p with t1 := none, delay := ((s.eighths : Int) - t1) - ((t3 : Int) - t2) }

/-! ### The step (R39, R40) -/

/-- A time moved by the step. -/
def moved (d : Int) (t : Nat) : Nat := ((t : Int) + d).toNat

/-- A deadline moved by the step: none stays none, and one that the step takes below the start of time stays a deadline, at its first
nanosecond. -/
def movedDeadline (d : Int) (t : Nat) : Nat := if t = 0 then 0 else max 1 (moved d t)

/-- The first boundary of a period after a time (R40, R49). -/
def nextBoundary (p t : Nat) : Nat := (t / p + 1) * p

/-- The windows, beats and timers of partitions, cores and engines (R40), and the stamp of a kernel's start (DESIGN CHOICE, log 48). -/
def State.moveUnits (s : State) (d : Int) : State :=
  let part := fun (p : Part) => { p with
    winStart := moved d p.winStart, winEnd := p.winEnd.map (moved d), frzStart := moved d p.frzStart
    run := p.run.map fun r => { r with startGtb := moved d r.startGtb } }
  let core := fun (k : Core) => if k.watched then { k with lastBeat := moved d k.lastBeat } else k
  let eng := fun (e : Engine) => if e.queue.isEmpty then e else { e with lastBeat := moved d e.lastBeat }
  let die := fun (x : Die) => { x with engines := (x.engines.map fun e => (e.1, eng e.2)) }
  { s with
      parts := (s.parts.map fun e => (e.1, if e.2.run.isSome then part e.2 else e.2))
      cores := (s.cores.map fun e => (e.1, core e.2)).filter fun e => e.2 != .reset
      dies := (s.dies.map fun e => (e.1, die e.2)).filter fun e => e.2 != .reset }

/-- The entries that are not complete, those whose records wait among them, and the timers of contexts and generations (R40). The
stamps that they keep, no timers, are moved with them (DESIGN CHOICE, log 48). -/
def State.moveEntries (s : State) (d : Int) : State :=
  let entry := fun (a : Admitted) => { a with
    deadline := movedDeadline d a.deadline, projected := a.projected + d
    startGtb := if a.started then moved d a.startGtb else a.startGtb
    saved := a.saved.map fun r => { r with startGtb := moved d r.startGtb } }
  let ctx := fun (c : Ctx) => if c.ckpt.isSome then { c with ckptGtb := moved d c.ckptGtb } else c
  let model := fun (m : ModelSlot) => if m.st = .loading ∨ m.st = .waitMemory then { m with loadStart := moved d m.loadStart } else m
  { s with
      bs := { s.bs with run := s.bs.run.map entry
                        due := s.bs.due.map fun (c : Completion) => { c with
                          deadline := movedDeadline d c.deadline, startGtb := if c.startGtb = 0 then 0 else moved d c.startGtb } }
      ctxs := s.ctxs.map fun e => (e.1, ctx e.2)
      models := s.models.map fun e => (e.1, model e.2) }

/-- The other timers given in GTB (R40): requests, ports, ladder steps, the Oven Timer, a nonce, idle time, PWR_EN; and
the stamp of a dump's start (DESIGN CHOICE, log 48). -/
def State.moveTimers (s : State) (d : Int) : State :=
  let port := fun (p : Port) => { p with
    trainStart := if p.st = .train then moved d p.trainStart else p.trainStart, backoff := p.backoff.map (moved d)
    lastHello := if p.linked then moved d p.lastHello else p.lastHello
    lastFlit := if p.linked then moved d p.lastFlit else p.lastFlit
    t1 := p.t1.map (moved (8 * d)) }
  let l := s.ladder
  { s with
      fab := { s.fab with
        reqs := s.fab.reqs.map fun (q : FabReq) => { q with first := moved d q.first, last := moved d q.last }
        ports := (s.fab.ports.map fun e => (e.1, port e.2)).filter fun e => e.2 != .reset
        collLastBeat := moved d s.fab.collLastBeat }
      host := { s.host with reads := s.host.reads.map fun (r : HostRead) => { r with sent := moved d r.sent } }
      ladder := { l with
        steps := l.steps.map fun (t : LadderStep) => { t with start := moved d t.start }
        ovtLast := l.ovtLast.map (moved d), ovtFrom := moved d l.ovtFrom, ovtFirst := l.ovtFirst.map (moved d)
        dump := l.dump.map fun r => { r with began := moved d r.began } }
      sec := { s.sec with nonce := s.sec.nonce.map fun n => (n.1, moved d n.2) }
      power := { s.power with idleFrom := s.power.idleFrom.map (moved d), pwrEnAt := moved d s.power.pwrEnAt } }

/-- The periodic series begin anew on their grids (R40, R49). The telemetry bin and the power bin that the step ends have their page
and their judgement still to come. -/
def State.newGrids (s : State) (old : Nat) : State :=
  let t := s.now
  let counts := (s.parts.map fun e => (e.1, (e.2.telProg, e.2.telFrz))).filter fun e => e.2 != (0, 0)
  { s with
      parts := s.parts.map fun e => (e.1, { e.2 with telProg := 0, telFrz := 0 })
      bs := { s.bs with lastTick := t - t % 10000 }
      power := { s.power with binCut := true, binNext := s.power.nextBin t + 1000000, fcNext := s.power.nextForecast t }
      tele := { s.tele with cut := if s.tele.binStart ≤ old then some (s.tele.binStart, counts) else s.tele.cut
                            binStart := nextBoundary (s.tele.binUs.toNat * 1000) t }
      ledger := { s.ledger with lastHour := t / 3600000000000 } }

/-- Abmito enables the scanner once the GTB has been set or holds over (R39); not while a module reset runs or before it has
started. -/
def State.enableScanner (s : State) : State :=
  if (s.time.lockedOnce || s.time.holdover) && s.sec.boot == 1 && !(s.ladder.steps.any fun t => t.target == .module) then
    { s with bs := { s.bs with scanner := true } }
  else s

/-- The single step at the first lock (R39, R40, R586), by the offset in 1/16 ns. The timers move with every such step, whether the
scanner is enabled or not (DESIGN CHOICE, log 48). -/
def State.stepTime (s : State) (theta : Int) : State :=
  let old := s.now
  let s1 := s.flushEvents
  let gtb := BitVec.ofInt 96 ((s1.time.gtb.toNat : Int) - theta * 2 ^ 28)
  let s2 := { s1 with time := { s1.time with gtb := gtb } }
  let d := (s2.now : Int) - old
  let s3 := (((s2.moveUnits d).moveEntries d).moveTimers d).newGrids old
  let s4 := { s3 with time := { s3.time with
    stepped := true, stepOld := BitVec.ofNat 64 old, stepNew := BitVec.ofNat 64 s3.now, locked := true, lockedOnce := true } }
  let e : Event := ⟨s4.now, srcHub 0x300, 0x0101, detailD old, false, false⟩
  ((s4.hwSet 0x002_0008 8).commitEvent e).enableScanner

/-! ### SYNC (R41 to R44, R411) -/

/-- The slew that removes an offset in 1/16 ns over 125 µs, in parts per 10^9, within R41. -/
def slewFor (theta : Int) : Int := max (-500000) (min 500000 (-500 * theta))

/-- The rate word under a slew: one nanosecond to a TCLK cycle, and the slew (R38, R41). -/
def rateWord (ppb : Int) : BitVec 96 := BitVec.ofInt 96 (2 ^ 32 + (2 ^ 32 * ppb) / 10 ^ 9)

/-- An offset in whole ns as GTB_OFFSET holds it (R53, R413). -/
def offsetWord (theta : Int) : Word := BitVec.ofInt 32 (max (-(2 ^ 31 - 1)) (min (2 ^ 31 - 1) (theta.tdiv 16)))

/-- OUT_OF_SYNC (R44): an offset above 1 µs after the first lock. -/
def State.syncCheck (s : State) (theta : Int) : State :=
  if theta.natAbs ≤ 16000 ∨ s.time.outOfSync then s
  else
    let s1 := (({ s with time := { s.time with outOfSync := true } }).hwSet 0x002_0008 0x10).event (srcHub 0x300) 0x0102
      (detail3 (offsetWord theta).toNat 0 0)
    if s1.time.alertEn then s1.alert else s1

/-- SYNC (R39, R43, R44, R411): from the parent; LOCKED holds within the bound of R42 (R53). -/
def syncReceive (n : Nat) (ts : Nat) (s : State) : State :=
  s.atPort n fun s =>
    if s.timeParent ≠ some n ∨ s.fab.node = 0 then s
    else
      let theta : Int := 2 * ((s.eighths : Int) - ts) - (s.port n).delay
      let s1 := { s with time := { s.time with lastSync := s.now, offset := offsetWord theta } }
      if !s1.time.lockedOnce then
        let s2 := (s1.stepTime theta).setHoldover false
        { s2 with time := { s2.time with lastSync := s2.now } }
      else
        let ppb := slewFor theta
        let s2 := { s1 with time := { s1.time with
          rate := rateWord ppb, ratePpb := BitVec.ofInt 32 ppb
          locked := decide (theta.natAbs ≤ 64) } }
        (s2.setHoldover false).syncCheck theta

/-- A peer on a port may be a child (R411): the port is not the parent's, and what this node adverts is to the peer, a hop further, no
worse a pair than the one it adverts itself (DEDUCED, log 28). -/
def State.childPort (s : State) (n : Nat) : Bool :=
  let p := s.port n
  p.st == .up && s.timeParent != some n &&
    match p.advert, s.advertNow with
    | some a, some b => !betterPair (a.master.toNat, a.hops, 0) (b.master.toNat, b.hops + 1, 0)
    | _, _ => true

/-- SYNC_SEND (R411): by a LOCKED or MASTER node. -/
def syncSend (s : State) : State :=
  if !s.power.routes ∨ s.fab.node = 0 ∨ !(s.time.locked || s.time.master) then s
  else (List.range 40).foldl (fun s n =>
    if s.childPort n then s.portSend n (s.linkPacket (s.port n).peerNode 0x22 (natBytes 16 s.eighths)) else s) s

/-- SYNC_TIMEOUT (R43, R413): no SYNC from the parent for 375 µs. The parent's advert is forgotten, and the next hello starts
the new election. -/
def syncTimeout (s : State) : State :=
  match s.timeParent with
  | none => s
  | some n =>
    if s.now < s.time.lastSync + 375000 then s
    else
      let s1 := s.updPort n fun p => { p with advert := none }
      ({ s1 with time := { s1.time with locked := false } }).setHoldover true

/-- The end of the time-sync timeout (R413): 500 ms after the first port reached UP, or 2 s after the module left reset when none has. -/
def State.syncLimit (s : State) : Nat := (s.time.upFirst.map (· + 500000000)).getD (s.time.resetLeft + 2000000000)

/-- TIME_SYNC_TIMEOUT (R39, R410, R413): without a master the module holds over and the scanner is enabled; without any advert
the node may advert itself. -/
def timeSyncTimeout (s : State) : State :=
  if s.time.lockedOnce ∨ s.now < s.syncLimit then s
  else
    let s1 := { s with time := { s.time with timedOut := s.time.timedOut || s.offers.isEmpty } }
    ((s1.setHoldover true).elect).enableScanner

/-! ### The rows -/

/-- DELAY_REQ_SEND (R411). -/
def execDelayReqSend (s : State) : Out := .next (delayReqSend s)
/-- DELAY_REQ (R411): the peer's own stamp t1 stays with the peer. -/
def execDelayReq (port : BitVec 6) (_t1 : BitVec 67) (s : State) : Out := .next (delayReq port.toNat s)
/-- DELAY_RSP (R411). -/
def execDelayRsp (port : BitVec 6) (t2 t3 : BitVec 67) (s : State) : Out := .next (delayRsp port.toNat t2.toNat t3.toNat s)
/-- SYNC_SEND (R411). -/
def execSyncSend (s : State) : Out := .next (syncSend s)
/-- SYNC (R411). -/
def execSync (port : BitVec 6) (ts : BitVec 67) (s : State) : Out := .next (syncReceive port.toNat ts.toNat s)
/-- SYNC_TIMEOUT (R413). -/
def execSyncTimeout (s : State) : Out := .next (syncTimeout s)
/-- TIME_SYNC_TIMEOUT (R413). -/
def execTimeSyncTimeout (s : State) : Out := .next (timeSyncTimeout s)

end Sys2Proof.Machine
end

