-- ==== Sys2Proof/Machine/Power.lean ====
section
/-! DEFINITION. Power shaping, the heat forecast, the wake states (16_power_wake.md R508 to R529), the input and its sequencing
(21_electrical_mechanical.md R606 to R617), the lasers (R374, R609) and the die-to-die links (R27, R28, R477). -/

namespace Sys2Proof.Machine

/-! ### Pins and the loss of the main rails (R523, R611, R614, R616) -/

/-- PWR_GOOD as a pin (R604). -/
def State.setPwrGood (s : State) (b : Bool) : State :=
  if s.power.pwrGood = b then s else (s.updPower fun p => { p with pwrGood := b }).emit (.pin "PWR_GOOD" b)

/-- The LTR message of a W-state change (R546), while the link is up. -/
def State.sendLtr (s : State) : State :=
  if s.host.gen = 0 then s
  else s.emit (.ltr (if s.power.st.code ≤ 1 then some (s.host.ltrValue.toNat, s.host.ltrScale.toNat) else none))

/-- The module's W-state changes (R521, R546). -/
def State.setW (s : State) (w : WState) : State :=
  if s.power.st = w then s.updPower fun p => { p with target := w, exiting := false }
  else (s.updPower fun p => { p with st := w, target := w, exiting := false }).sendLtr

/-- The main rails are off: memory contents and every state but what W5 holds are lost (R521, R523, R527). The registers that R527
serves keep their values until the exit. -/
def State.railsLost (s : State) : State :=
  let s1 := s.flushMaps.cutReform.moduleCleared
  { s1 with
      dies := (s1.dies.map fun e => (e.1, e.2.unpowered)).filter fun e => e.2 != .reset
      mem := s1.mem.initialise, host := { s.host with reads := [] }, sec := s.sec, scratch := s.scratch
      ledger := { s1.ledger with alertEn := s.ledger.alertEn, sweep := s.ledger.sweep, marginWarn := s.ledger.marginWarn }
      log := s.log, ladder := { s1.ladder with steps := [] }
      power := { s.power with rails := false, exiting := false, target := .w5, idleFrom := none, w3Ctx := [] } }

/-- The module falls into W5 (R521, R523). -/
def State.enterW5 (s : State) : State := ((s.railsLost.settleAlert).setPwrGood false).setW .w5

/-- The exit latency of a W-state in µs (R521). -/
def WState.latency : WState → Nat
  | .w0 => 0
  | .w1 => 2
  | .w2 => 60
  | .w3 => 1800
  | .w4 => 9000
  | .w5 => 400000

/-! ### Input and PWR_EN (R611 to R617) -/

/-- The module with its input gone: as after a power cycle, but with transit lost as well (R611). -/
def State.darkened (s : State) : State :=
  let s1 := s.flushMaps.cutReform.powerCycled
  { s1 with fab := .reset, host := { s1.host with perst := s.host.perst }, power := { s1.power with alwaysOn := false } }

/-- INPUT_UNDERVOLTAGE (R605, R611): every rail is off, and with the tray's pulls every pin shows its idle level. -/
def inputUndervoltage (s : State) : State :=
  if !s.power.alwaysOn then s
  else
    let s1 := s.setPwrGood false
    let s2 := if s1.alertN then s1.emit (.pin "ALERT_N" false) else s1
    let s3 := if s2.power.wakeN then s2.emit (.pin "WAKE_N" false) else s2
    let s4 := if s3.power.tripPin then s3.emit (.pin "THERM_TRIP_N" false) else s3
    let s5 := if s4.ladder.pwrReq then s4.emit (.pin "PWR_CYCLE_REQ_N" false) else s4
    s5.darkened

/-- POWER_ON (R606, R612): the always-on domain comes up at its reset values, and SLOT_ID is sampled. -/
def powerOn (slotId : BitVec 4) (s : State) : State :=
  if s.power.alwaysOn then s else s.updPower fun p => { p with alwaysOn := true, slotId := slotId }

/-- OVERVOLTAGE_CUTOFF (R611). -/
def overvoltageCutoff (s : State) : State :=
  if s.power.ovp ∨ !s.power.alwaysOn then s
  else
    let s1 := s.updPower fun p => { p with ovp := true, ovpSeen := true }
    (if s1.power.tripped then s1 else s1.enterW5).hwSet 0x001_0080 2

/-- OVERVOLTAGE_RECOVER (R611). -/
def overvoltageRecover (s : State) : State :=
  if !s.power.ovp then s else (s.updPower fun p => { p with ovp := false }).wake

/-- PWR_EN has risen after a trip whose pin is released, and every sensor reads below 90 °C (R617). -/
def Power.tripOver (p : Power) (cool : Bool) : Bool := p.tripped && !p.tripPin && cool

/-- PWR_EN_RISE (R523, R612, R617); `cool` says that every sensor reads below 90 °C. A module that stays tripped is told by the same
row when its sensors have cooled (log 31). -/
def pwrEnRise (cool : Bool) (s : State) : State :=
  if !s.power.alwaysOn ∨ (s.power.pwrEn ∧ !s.power.tripOver cool) then s
  else (s.updPower fun p => { p with
    pwrEn := true, pwrEnAt := if p.pwrEn then p.pwrEnAt else s.now, tripped := p.tripped && !p.tripOver cool }).wake

/-- PWR_EN_FALL (R523, R614): completion records, every partition stopped, the main rails off. -/
def pwrEnFall (s : State) : State :=
  if !s.power.pwrEn ∨ !s.power.alwaysOn then s
  else
    let s1 := s.updPower fun p => { p with pwrEn := false, pwrEnAt := s.now }
    if s1.power.tripped then s1 else s1.endAllEntries.enterW5

/-- MAIN_RAILS_IN_REGULATION (R604, R612): during the exit from W5, or again after a rail had left regulation. -/
def mainRailsInRegulation (s : State) : State :=
  if s.power.rails then s.setPwrGood true
  else if s.power.st = .w5 ∧ s.power.exiting then (s.updPower fun p => { p with rails := true }).setPwrGood true
  else s

/-- MAIN_RAIL_OUT_OF_REGULATION (R614): PWR_GOOD falls. -/
def mainRailOut (s : State) : State := s.setPwrGood false

/-- THERMAL_TRIP (R616, R621): every rail but the management island goes off, the router with them; no record is written. -/
def thermalTrip (die : BitVec 5) (s : State) : State :=
  if s.power.tripPin ∨ !s.power.alwaysOn ∨ 20 ≤ die.toNat then s
  else
    let s1 := (s.updPower fun p => { p with tripSeen := true, tripDie := die, tripped := true, tripPin := true }).enterW5
    (({ s1 with fab := .reset, host := { HostPort.reset with perst := s.host.perst } }.elect).emit (.pin "THERM_TRIP_N" true)).emit
      (.ibi 3) |>.hwSet 0x001_0080 8

/-- THERM_TRIP_N_RELEASE (R617): the module stays tripped until PWR_EN rises with every sensor cool. -/
def thermTripRelease (s : State) : State :=
  if !s.power.tripPin ∨ s.power.pwrEn ∨ s.now < s.power.pwrEnAt + 500000000 then s
  else (s.updPower fun p => { p with tripPin := false }).emit (.pin "THERM_TRIP_N" false)

/-! ### Alerts and ACLK (R33, R509, R518, R529) -/

/-- ALERT_N under PWR_CTRL.ALERT_EN (R529). -/
def State.powerAlert (s : State) (b : Bool) : State := if b && s.power.alertEn then s.alert else s

/-- f_floor as a limit, with an old one that is kept (R517). -/
def State.floorHeld (s : State) : Bool := !s.power.forced && s.bs.run.any fun a => s.power.heldBy.contains a.serial

/-- A forced band whose entries have not drained (R517). -/
def State.floorForced (s : State) : Bool := s.power.forced && s.bs.run.any fun a => s.power.heldBy.contains a.serial

/-- The frequency below which no action of R511 takes ACLK (R511, R517). -/
def State.floorLimit (s : State) : Nat :=
  if s.floorHeld then max s.power.oldFloor s.power.floorMhz else s.power.floorMhz

/-- The steps as frequencies in MHz (R33). -/
def aclkList (x : AclkSteps) : List Nat := [x.d0, x.d1, x.d2, x.d3].map fun b => 550 + 55 * min 10 b.toNat

/-- The ACLK of every die lowered, at its next cycle boundary (R33), to the frequency chosen for it. -/
def State.lowerAclk (s : State) (steps : AclkSteps) : State :=
  (aclkList steps).zipIdx.foldl (fun s (e : Nat × Nat) =>
    let x := s.die e.2
    s.setDie e.2 { x with nextMhz := min x.nextMhz e.1 }) s

/-- The clock steps of a bin (R511, R513, R518): ACLK is not lowered below a limit, and after a thermal step it rises by one step a
bin until it has the frequency chosen for it. -/
def State.binAclk (s : State) (steps : AclkSteps) (limit : Nat) : State :=
  (aclkList steps).zipIdx.foldl (fun s (e : Nat × Nat) =>
    let x := s.die e.2
    let f := max e.1 (min x.nextMhz limit)
    if x.thermal ∧ x.nextMhz + 55 < f then s.setDie e.2 { x with nextMhz := x.nextMhz + 55 }
    else s.setDie e.2 { x with nextMhz := f, thermal := false }) s

/-- SUPPLY_DROOP (R33): the cycle in progress is the first that is stretched; a droop that goes on has no other first one. With ACLK
stopped the first stretched cycle is the first that begins. -/
def supplyDroop (d : Nat) (s : State) : State :=
  if (s.die d).droop ∨ !s.power.rails then s
  else if !s.aclkRuns then s.setDie d { s.die d with droop := true }
  else (s.setDie d { s.die d with droop := true, stretching := true, stretchSeen := true }).hwSet (0x001_0100 + 4 * d) 0x2_0000

/-- DROOP_CLEAR (R33): the stretched cycle in progress runs to its end. -/
def droopClear (d : Nat) (s : State) : State := s.setDie d { s.die d with droop := false }

/-- THERMAL_STEP_DOWN (R518). -/
def thermalStepDown (d : Nat) (s : State) : State :=
  let x := s.die d
  if !s.aclkRuns ∨ x.nextMhz < 605 then s
  else
    let s1 := s.setDie d { x with nextMhz := x.nextMhz - 55, thermal := true }
    let below := decide (x.nextMhz - 55 < s.power.floorMhz)
    ((s1.updPower fun p => { p with thermBelow := p.thermBelow || below }).hwSetIf below 0x001_0040 0x20).powerAlert below

/-- VIN_BELOW_MIN (R509): the steps may pass below f_floor. -/
def vinBelowMin (mv current : BitVec 16) (steps : AclkSteps) (s : State) : State :=
  if !s.power.alwaysOn ∨ s.power.band.vinMin ≤ mv then s
  else
    let s1 := s.updPower fun p => { p with vinMv := mv, current := current, vinLow := true }
    ((if s1.aclkRuns then s1.lowerAclk steps else s1).hwSet 0x001_0040 0x10).powerAlert true

/-! ### The band (R509 to R517) -/

/-- C_eff of a band (R509). -/
def Band.cEff (b : Band) : Nat := min b.ceil.toNat (72 * b.vinMin.toNat / 1000)

/-- The steps at which the worst case fits a ceiling (R514). -/
def Fuse.fits (f : Fuse) (c : Nat) : List Nat :=
  (List.range 11).filter fun i => decide (f.prest + f.pwc.getD i 0 ≤ c)

/-- f_floor under a ceiling (R514). -/
def Fuse.floorFor (f : Fuse) (c : Nat) : Nat := 550 + 55 * ((f.fits c).foldl max 0)

/-- The limits of R516. -/
def Band.bad (b : Band) : Bool :=
  decide (b.ceil.toNat < b.floor.toNat) || decide (b.ceil.toNat < 1000) || decide (2600 < b.ceil.toNat) ||
    decide (b.ramp.toNat < 5) || decide (2600 < b.ramp.toNat) || decide (1000000 ≤ b.phase.toNat) ||
    decide (b.vinMin.toNat < 36000) || decide (44000 < b.vinMin.toNat)

/-- PWR_BAND_CTRL.APPLY, with FORCE or without (R516, R517): refused, or to take effect at the next boundary. -/
def State.applyBand (s : State) (force : Bool) : State :=
  if !s.power.alwaysOn then s
  else if s.power.staged.bad then (s.updPower fun p => { p with bad := true }).hwSet 0x001_0034 1
  else s.updPower fun p => { p with apply := some (p.staged, force) }

/-- The deadline entries that are not complete, which were computed at the floor in force (R517). -/
def State.deadlineSerials (s : State) : List Nat := (s.bs.run.filter fun a => a.deadline != 0).map fun a => a.serial

/-- A band takes effect (R514, R516, R517). -/
def State.takeBand (s : State) (b : Band) (force : Bool) : State :=
  let c := b.cEff
  let f := s.fuse.floorFor c
  let held := if f < s.floorLimit then s.deadlineSerials else []
  let low := (s.fuse.fits c).isEmpty
  (s.hwSetIf low 0x001_0040 8).updPower fun p => { p with
    band := b, apply := none, cEff := c, floorMhz := f, bandLow := p.bandLow || low
    forced := if held.isEmpty then p.forced else force
    oldFloor := if held.isEmpty then p.oldFloor else s.floorLimit
    heldBy := if held.isEmpty then p.heldBy else held
    fcNext := if b.phase = p.band.phase then p.fcNext else { p with band := b }.nextForecast p.binNext }

/-- The misses of a bin (R510 to R512, R529): above C_eff, beyond the ramp, below FLOOR in W0. -/
def Power.misses (p : Power) (draw : Nat) : Bool × Bool × Bool :=
  (decide (p.cEff < draw), p.binSeen && decide (p.band.ramp.toNat < max (draw - p.draw) (p.draw - draw)),
    p.st == .w0 && decide (draw < p.band.floor.toNat))

/-- The next power bin begins (R511, R516): a new band takes effect, and the clock steps chosen for the bin are taken. ACLK is not
lowered below f_floor. -/
def State.beginBin (s : State) (steps : AclkSteps) : State :=
  let s1 := match s.power.apply with
    | some (b, force) => s.takeBand b force
    | none => s
  let limit := s1.floorLimit
  let s2 := if s1.aclkRuns then s1.binAclk steps limit else s1
  s2.updPower fun p => { p with binNext := gridAfter 1000000 p.band.phase.toNat (p.binNext + 999999) }

/-- POWER_BIN_END (R510 to R517): the bin is judged, and the next one begins; the bin that the first GTB step has ended is judged
alone (R40). -/
def powerBinEnd (draw ballast : BitVec 14) (steps : AclkSteps) (s : State) : State :=
  let cut := s.power.binCut
  if !s.power.alwaysOn ∨ (s.now < s.power.binNext ∧ !cut) then s
  else
    let (ceil, ramp, short) := s.power.misses draw.toNat
    let s1 := s.updPower fun p => { p with
      draw := draw.toNat, ballast := ballast.toNat, binSeen := true, ceilExceed := p.ceilExceed || ceil
      rampExceed := p.rampExceed || ramp, floorShort := p.floorShort || short
      binMiss := if ceil || ramp || short then satAdd32 p.binMiss 1 else p.binMiss }
    let s2 := (s1.hwSet 0x001_0040 (b2n ceil + 2 * b2n ramp + 4 * b2n short)).powerAlert ceil
    if cut then s2.updPower fun p => { p with binCut := false } else s2.beginBin steps

/-! ### The forecast (R519, R520) -/

/-- The end of the admitted work of a partition (R427, R520). -/
def State.workEnd (s : State) (n : Nat) : Rat :=
  ((s.bs.run.filter fun a => (s.ctx a.ctx).pts.contains n).map fun a => a.projected).foldl max 0

/-- KNOWN for a bin that ends at a time (R520): every released partition has admitted work beyond it. -/
def State.binKnown (s : State) (stop : Nat) : Bool :=
  let ns := (List.range 16).filter fun n => !(s.part n).inReset
  !ns.isEmpty && ns.all fun n => decide ((stop : Rat) ≤ s.workEnd n)

/-- One bin of the page with its KNOWN bit. -/
def forecastBin (w : Word) (known : Bool) : Word := (w &&& ~~~(0x1000_0000#32)) ||| (if known then 0x1000_0000#32 else 0#32)

/-- The forecast page (R519). -/
def State.forecastPage (s : State) (bins : List Word) (t0 : Nat) : BitVec 6528 :=
  let head := natBytes 4 (s.power.fcSeq + 1) ++
    natBytes 4 (s.power.st.code + 8 * b2n s.floorHeld + 16 * b2n s.floorForced) ++ natBytes 8 t0
  let body := (List.range 200).flatMap fun i =>
    natBytes 4 (forecastBin (bins.getD i 0) (s.binKnown (t0 + 10000000 * (i + 1)))).toNat
  BitVec.ofNat 6528 (bytesNat (head ++ body))

/-- FORECAST_PUBLISH (R519): into the inactive half, and the halves flip. -/
def forecastPublish (bins : List Word) (s : State) : State :=
  if !s.power.alwaysOn ∨ s.now < s.power.fcNext then s
  else
    let phase := s.power.band.phase.toNat
    let t0 := phase + (s.now - phase) / 10000000 * 10000000
    let page := s.forecastPage bins t0
    let s1 := s.updPower fun p => { p with
      page0 := if p.fcCur then page else p.page0, page1 := if p.fcCur then p.page1 else page
      fcCur := !p.fcCur, fcSeq := (p.fcSeq + 1) % 2 ^ 32, fcNext := p.nextForecast t0 }
    if s1.power.fcastIbi then s1.emit (.ibi 1) else s1

/-! ### Entering and leaving W-states (R521 to R528) -/

/-- The dwell before a W-state in ns (R521). -/
def WState.dwell : WState → Nat
  | .w0 => 0
  | .w1 => 10000
  | .w2 => 500000
  | .w3 => 20000000
  | .w4 => 100000000
  | .w5 => 2000000000

/-- A state may be entered after an idle time (R522). -/
def Power.allows (p : Power) (idle : Nat) (w : WState) : Bool :=
  decide (w.dwell ≤ idle) && decide (w.latency ≤ p.wakeTol.toNat) &&
    match w with
    | .w3 | .w4 => p.w3Save != 0
    | .w5 => p.allowW5
    | _ => true

/-- The deepest state that may be entered (R522). -/
def Power.deepest (p : Power) (idle : Nat) : Option WState :=
  [WState.w5, .w4, .w3, .w2, .w1].find? (p.allows idle)

/-- A core whose power is gated keeps its Bench, its Proof Buffer and its commit state (R521). -/
def Core.gated (k : Core) : Core :=
  if k.prog.isEmpty then { k with arrays := [], v := [] }
  else { (k.restore k.commit k.nextAt) with arrays := [], v := [], seq := k.seq }

/-- The bytes of a DSS image (R528). -/
def dssBytes : Nat := 64 * mib

/-- The four DSS images are written in die order (R528). -/
def State.saveDss (s : State) : State :=
  let base := s.power.w3Save.toNat
  let s1 := { s with mem := s.mem.zeroArea base (4 * dssBytes) }
  (List.range 4).foldl (fun s d =>
    let lines := ((s.die d).dss.map fun e => e.1 / 2).foldl natSetInsert []
    lines.foldl (fun s i =>
      let a := s.dssLine d (2 * i)
      let b := s.dssLine d (2 * i + 1)
      s.memWrite (base + dssBytes * d + 256 * i)
        ((List.range 256).map fun j => some ((b.data ++ a.data).extractLsb' (8 * j) 8)) (a.poison || b.poison)) s) s1

/-- The lines of a range of memory that may differ from zero lines. -/
def Mem.usedLines (m : Mem) (base len : Nat) : List Nat :=
  let first := base / 256
  let n := len / 256
  if (m.areas.any fun a => decide (a.base < base + len) && decide (base < a.base + a.len)) ||
      m.active.any fun g => (m.group g).state == 3 then
    (List.range n).map (first + ·)
  else
    let hit := fun l => decide (first ≤ l) && decide (l < first + n)
    (((m.cells.map fun (c : Host.Cell) => c.1 / 256) ++ m.poison).filter hit).foldl natSetInsert []

/-- The DSS of every die is read back (R528). -/
def State.loadDss (s : State) : State :=
  let base := s.power.w3Save.toNat
  (List.range 4).foldl (fun s d =>
    let from' := base + dssBytes * d
    let m := (s.mem.usedLines from' dssBytes).foldl (fun m l =>
      let (bs, p) := s.mem.readRun (256 * l) 256
      let i := 2 * (l - from' / 256)
      smapSet DssLine.zero (smapSet DssLine.zero m i ⟨BitVec.ofNat 1024 (bytesNat (bs.take 128)), p⟩) (i + 1)
        ⟨BitVec.ofNat 1024 (bytesNat (bs.drop 128)), p⟩) []
    s.setDie d { s.die d with dss := m }) s

/-- Entry into W3 (R521, R528): resident contexts are saved, then the DSS, and the hearth dies lose their power. -/
def State.enterW3 (s : State) : State :=
  let res := (List.range 16).filterMap fun n => (s.part n).ctx.map fun c => (n, c)
  let s1 := (res.foldl (fun s e => s.switchOut e.1) s).saveDss
  { s1 with
      cores := (s1.cores.map fun e => (e.1, e.2.afterReset false)).filter fun e => e.2 != .reset
      dies := (s1.dies.map fun e => (e.1, { e.2.unpowered with outOfService := e.2.outOfService })).filter fun e => e.2 != .reset
      power := { s1.power with w3Ctx := res } }

/-- W_STATE_ENTER (R522): through every shallower state. -/
def wStateEnter (s : State) : State :=
  match s.power.idleFrom with
  | none => s
  | some t =>
    match s.power.deepest (s.now - t) with
    | none => s
    | some w =>
      let p := s.power
      if p.exiting ∨ !s.idle ∨ w.code ≤ p.st.code then s
      else if w = .w5 then s.enterW5
      else
        let s1 := if p.st.code ≤ 1 ∧ w = .w2 then s.updAllCores Core.gated else s
        let s2 := if p.st.code ≤ 2 ∧ 3 ≤ w.code then s1.enterW3 else s1
        s2.setW w

/-- Exit from W3 or W4 (R528). -/
def State.leaveW3 (s : State) : State :=
  let s1 := s.loadDss
  let s2 := { s1 with power := { s1.power with st := .w0, exiting := false, w3Ctx := [] } }
  { (s.power.w3Ctx.foldl (fun s e => if (s.part e.1).inReset then s else s.switchTo e.1 e.2) s2) with power := { s2.power with st := s.power.st } }

/-- Exit from W5 (R523, R527): every block but the always-on domain and the router at its Reset value; the link to the host stays
as it is. -/
def State.leaveW5 (s : State) : State :=
  let h := s.host
  State.settleAlert { s with
      ledger := s.ledger.afterReset, scratch := 0, dbg := .reset
      host := { h with evtVec := 0, cplTo := 10000, replayCnt := 0, bar2Off := 0, ltrValue := 1, ltrScale := 2, vfBase := [], vfLimit := [] }
      log := { s.log with port := { s.log.port with page := 0 }, portI3c := { s.log.portI3c with page := 0 } } }

/-- W_STATE_EXIT_DONE (R521, R525, R528). -/
def wStateExitDone (s : State) : State :=
  if !s.power.exiting then s
  else
    match s.power.st with
    | .w5 => if s.power.rails && s.mayLeaveW5 then (s.leaveW5.setW .w0).enableScanner else s
    | .w4 | .w3 => s.leaveW3.setW .w0
    | _ => s.setW .w0

/-- PWR_WAKE_TOL_WRITE (R524). -/
def pwrWakeTolWrite (v : Word) (s : State) : State :=
  if !s.power.alwaysOn then s
  else
    let s1 := s.updPower fun p => { p with wakeTol := v }
    if v.toNat < s.power.st.latency then s1.wake else s1

/-! ### Lasers (R374, R475, R478, R609) -/

/-- A laser bay. -/
def State.bay (s : State) (e : Nat) : Bay := smapGet .reset s.bays e
/-- The state with a bay replaced. -/
def State.setBay (s : State) (e : Nat) (b : Bay) : State := { s with bays := smapSet .reset s.bays e b }

/-- The Crust register that assigns a bay's lasers (R600). -/
def laserOffset (e : Nat) : Nat := 0x060_3600 + 4 * e

/-- The working position that a laser serves. -/
def State.laserPlace (s : State) (e l : Nat) : Option Nat :=
  (List.range 8).find? fun k => fieldOf (s.crust.read (laserOffset e)) (4 * k) 4 == l

/-- LASER_BAY_OPEN (R609): the lasers go off, and every port of the optical engine loses its link. -/
def laserBayOpen (e : Nat) (s : State) : State :=
  let b := s.bay e
  if !b.latched then s
  else (List.range 8).foldl (fun s p => s.atPort (8 * e + p) fun s => s.linkLoss (8 * e + p) 0)
    (s.setBay e { b with latched := false, on := false })

/-- LASER_SOURCE_INSERT (R609): the inserted source and its spares. -/
def laserSourceInsert (e spares : Nat) (s : State) : State :=
  if (s.bay e).latched then s
  else s.setBay e { latched := true, on := true, spares := min 2 spares, lost := 0, failed := 0 }

/-- The eight lanes that a working position lights: two on each of four ports (R373, R374). -/
def laserLanes (e k : Nat) : List (Nat × Nat) :=
  (List.range 4).flatMap fun i => [(8 * e + 4 * (k / 4) + i, k % 4), (8 * e + 4 * (k / 4) + i, k % 4 + 4)]

/-- A nibble of a word replaced. -/
def setNibble (w : Word) (k v : Nat) : Word := packWord ((List.range 8).map fun i => (if i = k then v else fieldOf w (4 * i) 4, 4 * i))

/-- LASER_FAIL (R374, R475, R478, R480): the lanes are spared; a spare laser takes the place, or the wavelength is lost. -/
def laserFail (e l : Nat) (s : State) : State :=
  let b := s.bay e
  match s.laserPlace e l with
  | none => s
  | some k =>
    if !b.on ∨ b.failed.getLsbD l then s
    else
      let b1 := { b with failed := b.failed ||| BitVec.ofNat 10 (2 ^ l) }
      let s1 := (laserLanes e k).foldl (fun s x => laneRetire x.1 x.2 s) s
      let src := srcNo (14 + e) (0x200 + l)
      let spare := if b.spares = 0 then none
        else [8, 9].find? fun x => !b1.failed.getLsbD x && (s.laserPlace e x).isNone
      match spare with
      | some x =>
        let s2 := s1.setBay e { b1 with spares := b.spares - 1 }
        ((s2.spare (14 + e) .lasers src (b.spares - 1)).otp fun o =>
          { o with lasers := smapUpd 0 o.lasers e fun n => min 2 (n + 1) }).commitWords
            [(laserOffset e, setNibble (s.crust.read (laserOffset e)) k x)]
      | none =>
        let w := BitVec.ofNat 4 (2 ^ (k % 4))
        let s2 := s1.setBay e { b1 with lost := b.lost ||| w }
        (s2.spare (14 + e) .lasers src 0 (16 + k % 4)).otp fun o => { o with waves := smapUpd 0 o.waves e (· ||| w) }

/-! ### Die-to-die links (R24 to R28, R475, R477) -/

/-- The neighbours of a hearth die in the ring, the lower-numbered first (R25). -/
def ringNeighbours : Nat → Nat × Nat
  | 0 => (1, 2)
  | 1 => (0, 3)
  | 2 => (0, 3)
  | _ => (1, 2)

/-- The port at the other end of a die-to-die link, by source numbers (R25, R30); none where the number names no such port. -/
def linkPeer (src : Nat) : Option Nat :=
  let d := src / 2048
  let u := src % 2048
  if d < 4 then
    if 0x230 ≤ u ∧ u < 0x235 then some (srcNo (5 + (u - 0x230)) (0x3C0 + d))
    else if u = 0x235 then some (srcHub (0x3C0 + d))
    else if u = 0x236 ∨ u = 0x237 then
      let n := if u = 0x236 then (ringNeighbours d).1 else (ringNeighbours d).2
      some (srcNo n (if (ringNeighbours n).1 = d then 0x236 else 0x237))
    else none
  else if d = dieHub then
    if u < 0x3C0 ∨ 0x3CE < u then none
    else
      let i := u - 0x3C0
      if i < 4 then some (srcNo i 0x235)
      else if i < 9 then some (srcNo (5 + (i - 4)) 0x3C4)
      else if i < 13 then some (srcNo (10 + (i - 9)) 0x3C0)
      else some (srcNo (18 + (i - 13)) 0x3C0)
  else if d < 10 then
    if 0x3C0 ≤ u ∧ u < 0x3C4 then some (srcNo (u - 0x3C0) (0x230 + (d - 5)))
    else if u = 0x3C4 then some (srcHub (0x3C4 + (d - 5)))
    else none
  else if d < 14 ∧ u = 0x3C0 then some (srcHub (0x3C9 + (d - 10)))
  else if 18 ≤ d ∧ d < 20 ∧ u = 0x3C0 then some (srcHub (0x3CD + (d - 18)))
  else none

/-- A link changed, at the port that a source number names. -/
def State.updLink (s : State) (src : Nat) (f : DieLink → DieLink) : State :=
  { s with links := smapUpd .reset s.links src f }

/-- DIE_LINK_RETRY (R27, R582, R589). -/
def dieLinkRetry (src : Nat) (s : State) : State :=
  if (linkPeer src).isNone then s
  else ((s.updLink src fun l => { l with retries := satAdd64 l.retries 1 }).countLinks src 1 0).eventAgg src 0x0501

/-- DIE_LINK_LANE_REPAIR (R475, R478, R480). -/
def dieLinkLaneRepair (src : Nat) (s : State) : State :=
  if (linkPeer src).isNone then s
  else
    let s1 := (s.updLink src fun l => { l with lanes := satAdd64 l.lanes 1 }).countLinks src 0 1
    s1.spare (src / 2048) .dieLanes src (smapGet .reset s1.links src).lanes

/-- A hearth die leaves service until a module reset (R477). -/
def State.dieOut (s : State) (d : Nat) : State :=
  (List.range 16).foldl (fun s n =>
    if (s.part n).die.toNat ≠ d ∨ !(s.part n).en then s
    else (((s.endBound n).startPartReset n).updPart n fun p => { p with outOfService := true, inReset := true }))
    (s.setDie d { s.die d with outOfService := true })

/-- The ports of a fabric die go to OFF (R477). -/
def State.portsOff (s : State) (first n : Nat) : State :=
  (List.range n).foldl (fun s i => s.atPort (first + i) fun s => (s.linkLoss (first + i) 0).updPort (first + i) Port.down) s

/-- What the loss of a link leads to (R477). For a ring link the die whose port reported it leaves service (log 32). -/
def State.linkGone (s : State) (src peer : Nat) : State :=
  let a := src / 2048
  let b := peer / 2048
  if a < 4 then s.dieOut a
  else if b < 4 then s.dieOut b
  else
    let far := if a = dieHub then b else a
    if far < 10 then s.startModuleReset
    else if far < 14 then s.portsOff (8 * (far - 10)) 8
    else s.portsOff (32 + 4 * (far - 18)) 4

/-- DIE_LINK_RETRAIN_TIMEOUT (R28, R477, R480): the fault is reported against both dies. -/
def dieLinkLost (src : Nat) (s : State) : State :=
  match linkPeer src with
  | none => s
  | some peer =>
    let mark := fun (s : State) (x : Nat) => (s.updLink x fun l => { l with lost := true }).spare (x / 2048) .dieLanes x 0
    (mark (mark s src) peer).linkGone src peer

/-! ### The rows -/

/-- POWER_ON (R612). -/
def execPowerOn (slotId : BitVec 4) (s : State) : Out := .next (powerOn slotId s)
/-- INPUT_UNDERVOLTAGE (R611). -/
def execInputUndervoltage (s : State) : Out := .next (inputUndervoltage s)
/-- OVERVOLTAGE_CUTOFF (R611). -/
def execOvervoltageCutoff (s : State) : Out := .next (overvoltageCutoff s)
/-- OVERVOLTAGE_RECOVER (R611). -/
def execOvervoltageRecover (s : State) : Out := .next (overvoltageRecover s)
/-- PWR_EN_RISE (R612). -/
def execPwrEnRise (cool : Bool) (s : State) : Out := .next (pwrEnRise cool s)
/-- PWR_EN_FALL (R614). -/
def execPwrEnFall (s : State) : Out := .next (pwrEnFall s)
/-- MAIN_RAILS_IN_REGULATION (R612). -/
def execMainRailsInRegulation (s : State) : Out := .next (mainRailsInRegulation s)
/-- MAIN_RAIL_OUT_OF_REGULATION (R614). -/
def execMainRailOutOfRegulation (s : State) : Out := .next (mainRailOut s)
/-- THERMAL_TRIP (R616). -/
def execThermalTrip (die : BitVec 5) (s : State) : Out := .next (thermalTrip die s)
/-- THERM_TRIP_N_RELEASE (R617). -/
def execThermTripNRelease (s : State) : Out := .next (thermTripRelease s)
/-- LASER_BAY_OPEN (R609). -/
def execLaserBayOpen (bay : BitVec 2) (s : State) : Out := .next (laserBayOpen bay.toNat s)
/-- LASER_SOURCE_INSERT (R609). -/
def execLaserSourceInsert (bay spares : BitVec 2) (s : State) : Out := .next (laserSourceInsert bay.toNat spares.toNat s)
/-- LASER_FAIL (R374). -/
def execLaserFail (bay : BitVec 2) (laser : BitVec 4) (s : State) : Out := .next (laserFail bay.toNat laser.toNat s)
/-- SUPPLY_DROOP (R33). -/
def execSupplyDroop (die : DieNo) (s : State) : Out := .next (supplyDroop die.toNat s)
/-- DROOP_CLEAR (R33). -/
def execDroopClear (die : DieNo) (s : State) : Out := .next (droopClear die.toNat s)
/-- THERMAL_STEP_DOWN (R518). -/
def execThermalStepDown (die : DieNo) (s : State) : Out := .next (thermalStepDown die.toNat s)
/-- VIN_BELOW_MIN (R509). -/
def execVinBelowMin (mv current : BitVec 16) (steps : AclkSteps) (s : State) : Out := .next (vinBelowMin mv current steps s)
/-- DIE_LINK_RETRY (R27). -/
def execDieLinkRetry (src : SrcNo) (s : State) : Out := .next (dieLinkRetry src.toNat s)
/-- DIE_LINK_LANE_REPAIR (R475). -/
def execDieLinkLaneRepair (src : SrcNo) (s : State) : Out := .next (dieLinkLaneRepair src.toNat s)
/-- DIE_LINK_RETRAIN_TIMEOUT (R477). -/
def execDieLinkRetrainTimeout (src : SrcNo) (s : State) : Out := .next (dieLinkLost src.toNat s)
/-- POWER_BIN_END (R510). -/
def execPowerBinEnd (draw ballast : BitVec 14) (steps : AclkSteps) (s : State) : Out := .next (powerBinEnd draw ballast steps s)
/-- PWR_BAND_APPLY (R516). -/
def execPwrBandApply (s : State) : Out := .next (if s.power.alwaysOn then s.applyBand false else s)
/-- PWR_BAND_FORCE (R517). -/
def execPwrBandForce (s : State) : Out := .next (if s.power.alwaysOn then s.applyBand true else s)
/-- FORECAST_PUBLISH (R519). -/
def execForecastPublish (bins : List Word) (s : State) : Out := .next (forecastPublish bins s)
/-- W_STATE_ENTER (R522). -/
def execWStateEnter (s : State) : Out := .next (wStateEnter s)
/-- PWR_CTRL_WAKE (R524). -/
def execPwrCtrlWake (s : State) : Out := .next (s.hostReg 0x001_0008 fun s => s.wake)
/-- PWR_WAKE_TOL_WRITE (R524). -/
def execPwrWakeTolWrite (v : Word) (s : State) : Out := .next (s.hostReg 0x001_0004 fun s => pwrWakeTolWrite v s)
/-- WAKE_EVENT (R524). -/
def execWakeEvent (s : State) : Out := .next s.wake
/-- W_STATE_EXIT_DONE (R521). -/
def execWStateExitDone (s : State) : Out := .next (wStateExitDone s)

end Sys2Proof.Machine
end

