-- ==== Sys2Proof/Machine/HostLink.lean ====
section
/-! DEFINITION. The PCI Express port (17_host_pcie.md R530 to R551): the link, configuration, BAR2, the module's own requests,
interrupts, resets of functions, PERST_N. -/

namespace Sys2Proof.Machine

/-- The port of the host changed. -/
def State.updHost (s : State) (f : HostPort → HostPort) : State := { s with host := f s.host }

/-- A condition of R545 noted by a function. -/
def State.aer (s : State) (fn : Nat) (e : AerErr) : State := s.updHost fun h => { h with aer := h.aer ++ [(fn, e)] }

/-- A function exists: the PF, and the VFs while VF Enable is set (R534). -/
def State.fnHere (s : State) (fn : Nat) : Bool := fn == 0 || (s.host.vfEnable && decide (fn ≤ 16))

/-! ### Requests of the module (R541) -/

/-- What is left of a read request fails: the lines that its data would have filled become poisoned. -/
def State.failRead (s : State) (r : HostRead) (e : AerErr) : State :=
  let s1 := (s.updHost fun h => { h with reads := h.reads.filter fun q => q.tag != r.tag }).aer r.fn e
  match r.issuer with
  | .peelRead d e k x off => s1.bringData d e k x (off + r.got) (lostBytes (r.len - r.got)) true
  | _ => s1

/-- Every read request in flight fails (R545, R548). -/
def State.failReads (s : State) (e : AerErr) : State := s.host.reads.foldl (fun s r => s.failRead r e) s

/-- HOST_COMPLETION_RECEIVE (R541). -/
def hostCompletion (tag : Nat) (c : HostCpl) (s : State) : State :=
  match s.host.reads.find? fun r => r.tag == tag with
  | none => s
  | some r =>
    match c with
    | .unsupported => s.failRead r .cplError
    | .abort => s.failRead r .cplError
    | .data bytes ep =>
      if bytes.isEmpty ∨ r.len - r.got < bytes.length then s
      else
        let got := r.got + bytes.length
        let s1 := s.updHost fun h => { h with
          reads := if got = r.len then h.reads.filter fun q => q.tag != tag
            else h.reads.map fun (q : HostRead) => if q.tag = tag then { q with got := got } else q }
        let s2 := if ep then s1.aer r.fn .poisoned else s1
        match r.issuer with
        | .peelRead d e k x off => s2.bringData d e k x (off + r.got) bytes ep
        | _ => s2

/-- PCIE_CPL_TIMEOUT (R541). -/
def pcieCplTimeout (tag : Nat) (s : State) : State :=
  match s.host.reads.find? fun r => r.tag == tag with
  | none => s
  | some r => if s.now < r.sent + s.host.cplTo.toNat * 1000 then s else s.failRead r .cplTimeout

/-! ### The link (R530 to R532, R545, R546) -/

/-- PCIE_TRAIN_RETRY (R531): fewer than four lanes trained. -/
def pcieTrainRetry (lanes : Nat) (s : State) : State :=
  if !s.portLive ∨ s.host.gen ≠ 0 ∨ 4 ≤ lanes then s else s.event (srcHub 0x040) 0x0505 (detail3 lanes 0 0)

/-- A rate, a width and a mode that the port supports (R530). -/
def linkModeOk (gen : BitVec 3) (width : BitVec 5) (flit : Bool) : Bool :=
  decide (1 ≤ gen.toNat) && decide (gen.toNat ≤ 6) && (width == 4 || width == 8 || width == 16) && (gen != 6 || flit)

/-- PCIE_LINK_UP (R530, R532, R549). -/
def pcieLinkUp (gen : BitVec 3) (width : BitVec 5) (flit : Bool) (s : State) : State :=
  if !s.portLive ∨ !linkModeOk gen width flit then s
  else s.updHost fun h => { h with gen := gen, width := width, flit := flit, l0p := false, trained := true }

/-- The link as it shows when it is down. -/
def HostPort.linkGone (h : HostPort) : HostPort := { h with gen := 0, width := 0, flit := false, l0p := false }

/-- PCIE_LINK_DOWN (R541, R542, R545): transfers in flight fail. Configuration stays (DEDUCED, log 35). -/
def pcieLinkDown (s : State) : State :=
  if s.host.gen = 0 then s else ((s.failReads .surpriseDown).updHost HostPort.linkGone).aer 0 .surpriseDown

/-- PCIE_REPLAY (R545, R551). -/
def pcieReplay (s : State) : State :=
  if s.host.gen = 0 then s
  else (s.updHost fun h => { h with replayCnt := satAdd32 h.replayCnt 1 }).aer 0 .replay

/-- L0P_REQUEST (R546): accepted in any state. -/
def l0pRequest (reduced : Bool) (s : State) : State := if !s.linkUp then s else s.updHost fun h => { h with l0p := reduced }

/-! ### Configuration (R537, R544, R549, R608) -/

/-- WAKE_N is released with the PF in D0 and Bus Master Enable set (R608). -/
def State.releaseWake (s : State) : State :=
  if s.power.wakeN && (s.fn 0).bme && !(s.fn 0).d3hot then (s.updPower fun p => { p with wakeN := false }).emit (.pin "WAKE_N" false)
  else s

/-- The host's port works again once the PF's Bus Master Enable is 1 (R549): held partitions resume, and the scanner goes on. -/
def State.resumeHost (s : State) : State :=
  if !(s.fn 0).bme then s
  else { s with bs := { s.bs with paused := false }, parts := s.parts.map fun e => (e.1, { e.2 with perstHold := false }) }

/-- PCIE_CONFIG_WRITE (R534, R537, R540, R549). Clearing VF Enable takes the VFs' configuration with it. -/
def pcieConfigWrite (fn : Nat) (c : CfgWrite) (s : State) : State :=
  if !s.linkUp ∨ !s.fnHere fn then s
  else
    let f := s.fn fn
    match c with
    | .bme b =>
      let s1 := s.setFn fn { f with bme := b }
      if fn = 0 then s1.resumeHost.releaseWake else s1
    | .mse b => s.setFn fn { f with mse := b }
    | .msixEnable b => s.setFn fn { f with msixEn := b }
    | .d3hot b => (s.setFn fn { f with d3hot := b }).releaseWake
    | .vfEnable b =>
      if fn ≠ 0 then s
      else s.updHost fun h => { h with vfEnable := b, fns := if b then h.fns else h.fns.filter fun e => e.1 == 0 }
    | .barSize n => if fn = 0 ∧ n.toNat ≤ 11 then s.updHost fun h => { h with bar2Log := n } else s
    | .maxPayload n => if fn = 0 ∧ n.toNat ≤ 2 then s.updHost fun h => { h with maxPayload := n } else s
    | .relaxed b => if fn = 0 then s.updHost fun h => { h with relaxed := b } else s
    | .vfBarSize n => if fn = 0 ∧ n.toNat ≤ 8 then s.updHost fun h => { h with vfBar2Log := n } else s

/-- The PF's own settings as a reset leaves them (R537; log 35). -/
def HostPort.defaults (h : HostPort) : HostPort := { h with bar2Log := 11, vfBar2Log := 0, maxPayload := 0, relaxed := true }

/-! ### PERST_N and function level resets (R536, R548, R549) -/

/-- What the controller loses (R548): configuration space, MSI-X tables, AER state; the registers of R551 stay. -/
def HostPort.controllerReset (h : HostPort) : HostPort :=
  { h.linkGone.defaults with vfEnable := false, fns := [], doe := false, aer := [] }

/-- PERST_N_ASSERT (R548): running kernels hold at their next TILE or HALT. -/
def perstAssert (s : State) : State :=
  if s.host.perst then s
  else (s.failReads .cplTimeout).updHost fun h => { h.controllerReset with perst := true }

/-- PERST_N_DEASSERT (R549): everything stays held until the PF's Bus Master Enable is 1. -/
def perstDeassert (s : State) : State :=
  if !s.host.perst then s else { s.updHost (fun h => { h with perst := false }) with bs := { s.bs with paused := true } }

/-- VF_FLR (R536). -/
def vfFlr (vf : Nat) (s : State) : State :=
  if !s.linkUp ∨ !s.host.vfEnable then s else partitionReset vf (s.setFn (vf + 1) .reset)

/-- PF_FLR (R536): VF Enable is cleared, and the partitions are left held as under R548. -/
def pfFlr (s : State) : State :=
  if !s.linkUp then s
  else { s.updHost (fun h => { h.defaults with vfEnable := false, fns := [], doe := false }) with
    bs := { s.bs with paused := true } }

/-! ### BAR2 (R350, R362, R367, R526, R538, R539) -/

/-- The size of a function's BAR2. -/
def State.barSize (s : State) (fn : Nat) : Nat := (if fn = 0 then 2 ^ s.host.bar2Log.toNat else 2 ^ s.host.vfBar2Log.toNat) * gib

/-- The local address of a BAR2 offset (R538, R539). -/
def State.barLocal (s : State) (fn off : Nat) : Nat :=
  if fn = 0 then s.host.bar2Off.toNat + off else (smapGet 0 s.host.vfBase (fn - 1)).toNat + off

/-- A VF may reach an address (R539). -/
def State.vfReach (s : State) (fn a : Nat) : Bool :=
  fn == 0 || (decide (a < (smapGet 0 s.host.vfLimit (fn - 1)).toNat) && decide (a < s.mem.hostTop))

/-- BAR2 is served: memory has power, and no reform runs (R367, R526). -/
def State.barServed (s : State) : Bool := s.power.st != .w5 && s.mem.reforming.isNone

/-- BAR2_READ (R350, R362, R539): as a whole, or Unsupported Request. In W4 it wakes the module (R524, R526). -/
def bar2Read (fn off len : Nat) (s : State) : State :=
  if !s.linkUp ∨ !s.fnHere fn ∨ len = 0 then s
  else
    let a := s.barLocal fn off
    let s1 := if s.power.st = .w4 then s.wake else s
    if s.barServed && decide (off + len ≤ s.barSize fn) && decide (a + len ≤ s.mem.top) &&
        (List.range len).all fun i => s.vfReach fn (a + i) then
      let (bs, ep) := s1.mem.readRun a len
      { s1 with reply := some (.bytes bs ep) }
    else { s1.aer fn .unsupported with reply := some .unsupported }

/-- The bytes of a write that take effect (R350, R539). -/
def State.barBytes (s : State) (fn a : Nat) (bytes : List Byte) : List (Option Byte) :=
  (bytes.zipIdx a).map fun (b, x) => if x < s.mem.hostTop ∧ s.vfReach fn x then some b else none

/-- BAR2_WRITE (R350, R361, R539, R545). -/
def bar2Write (fn off : Nat) (bytes : List Byte) (poisoned : Bool) (s : State) : State :=
  if !s.linkUp ∨ !s.fnHere fn then s
  else
    let s0 := if poisoned then s.aer fn .poisoned else s
    let s1 := if s.power.st = .w4 then s0.wake else s0
    if s.barServed && decide (off + bytes.length ≤ s.barSize fn) then
      s1.memWrite (s.barLocal fn off) (s.barBytes fn (s.barLocal fn off) bytes) poisoned
    else s1.aer fn .unsupported

/-! ### Interrupts and the mailbox (R544, R547) -/

/-- MSIX_DELIVERABLE (R544): the pending message is sent once. -/
def msixDeliverable (fn v : Nat) (s : State) : State :=
  let f := s.fn fn
  if !s.linkUp ∨ !f.pend.contains v ∨ !f.deliverable v then s
  else (s.setFn fn { f with pend := natSetErase f.pend v }).emit (.msix fn v)

/-- DOE_ABORT (R547). -/
def doeAbort (s : State) : State := if !s.linkUp then s else s.updHost fun h => { h with doe := false }

/-! ### The rows -/

/-- PERST_N_ASSERT (R548). -/
def execPerstNAssert (s : State) : Out := .next (perstAssert s)
/-- PERST_N_DEASSERT (R549). -/
def execPerstNDeassert (s : State) : Out := .next (perstDeassert s)
/-- PCIE_TRAIN_RETRY (R531). -/
def execPcieTrainRetry (lanes : BitVec 5) (s : State) : Out := .next (pcieTrainRetry lanes.toNat s)
/-- PCIE_LINK_UP (R549). -/
def execPcieLinkUp (gen : BitVec 3) (width : BitVec 5) (flit : Bool) (s : State) : Out := .next (pcieLinkUp gen width flit s)
/-- PCIE_LINK_DOWN (R545). -/
def execPcieLinkDown (s : State) : Out := .next (pcieLinkDown s)
/-- PCIE_REPLAY (R545). -/
def execPcieReplay (s : State) : Out := .next (pcieReplay s)
/-- PCIE_CONFIG_WRITE (R549). -/
def execPcieConfigWrite (fn : BitVec 5) (c : CfgWrite) (s : State) : Out := .next (pcieConfigWrite fn.toNat c s)
/-- L0P_REQUEST (R546). -/
def execL0pRequest (reduced : Bool) (s : State) : Out := .next (l0pRequest reduced s)
/-- VF_FLR (R536). -/
def execVfFlr (vf : BitVec 4) (s : State) : Out := .next (vfFlr vf.toNat s)
/-- PF_FLR (R536). -/
def execPfFlr (s : State) : Out := .next (pfFlr s)
/-- BAR2_READ (R350). -/
def execBar2Read (fn : BitVec 5) (off : DWord) (len : BitVec 13) (s : State) : Out := .next (bar2Read fn.toNat off.toNat len.toNat s)
/-- BAR2_WRITE (R350). -/
def execBar2Write (fn : BitVec 5) (off : DWord) (bytes : List Byte) (poisoned : Bool) (s : State) : Out :=
  .next (bar2Write fn.toNat off.toNat bytes poisoned s)
/-- HOST_COMPLETION_RECEIVE (R541). -/
def execHostCompletionReceive (tag : Word) (r : HostCpl) (s : State) : Out := .next (hostCompletion tag.toNat r s)
/-- PCIE_CPL_TIMEOUT (R541). -/
def execPcieCplTimeout (tag : Word) (s : State) : Out := .next (pcieCplTimeout tag.toNat s)
/-- MSIX_DELIVERABLE (R544). -/
def execMsixDeliverable (fn : BitVec 5) (v : BitVec 11) (s : State) : Out := .next (msixDeliverable fn.toNat v.toNat s)
/-- DOE_ABORT (R547). -/
def execDoeAbort (s : State) : Out := .next (doeAbort s)

end Sys2Proof.Machine
end

