-- ==== Sys2Proof/Machine/LedgerScan.lean ====
section
/-! DEFINITION. What Abmito makes of the Health Ledger at power-on (14_faults_spares.md R480; 19_health_ledger.md R577, R578, R584): the
active halves, records that fail their CRC, the maps, the comparison with the OTP mirror. -/

namespace Sys2Proof.Machine

/-! ### Halves and records (R577, R578) -/

/-- The generation of a half whose COMMIT is complete; none of any other. -/
def halfGen (rs : List LedgerRec) : Option Nat :=
  (rs.find? fun r => r.type == 0x0E && r.good).bind fun r =>
    let gen := bytesNat (r.payload.take 4)
    if rs.any fun q => q.type == 0x0F && q.good && bytesNat (q.payload.take 4) == gen then some gen else none

/-- The other half is the active one: its COMMIT is complete and its generation higher. -/
def LedgerRegion.otherActive (g : LedgerRegion) : Bool :=
  match halfGen g.recs, halfGen g.old with
  | some x, some y => decide (x < y)
  | none, some _ => true
  | _, none => false

/-- A region as Abmito finds it at power-on: its active half, and the next record after the last one. -/
def LedgerRegion.found (g : LedgerRegion) : LedgerRegion :=
  let g1 := if g.otherActive then
      { g with half := !g.half, recs := g.old, old := g.recs, used := usedOf g.old, gen := (halfGen g.old).getD 0 }
    else g
  { g1 with nextSeq := match (g1.recs.filter LedgerRec.good).getLast? with
    | some r => r.seq + 1
    | none => 0 }

/-- The records of a half that fail their CRC before the last one: they count as corrupt. A last one is a torn write. -/
def LedgerRegion.badRecs (g : LedgerRegion) : Nat := (g.recs.dropLast.filter fun r => !r.good).length

/-! ### The Ledger's counts (R583, R584) -/

/-- A number as a record of a unit of a die, where a record of it passes. -/
def Ledger.names (l : Ledger) (d : Nat) (pool : Pool) (p : LedgerRec → Bool) : Bool := (l.spares d pool).any p

/-- A bitmap of the numbers below a bound that meet a condition. -/
def bitmapOf (w n : Nat) (p : Nat → Bool) : BitVec w :=
  ((List.range n).filter p).foldl (fun b i => b ||| BitVec.ofNat w (2 ^ i)) 0

/-- A table of the numbers that a count gives for each of n units. -/
def countsOf (n : Nat) (f : Nat → Nat) : SMap Nat := (List.range n).foldl (fun m d => smapSet 0 m d (f d)) []

/-- The counts of R583 as the Ledger's records give them. -/
def Ledger.mirror (l : Ledger) : Otp :=
  { cores := countsOf 4 fun d => min 26 (l.spares d .cores).length
    cols := countsOf 4 fun d => min 255 (l.spares d .columns).length
    engines := (List.range 4).foldl (fun m d =>
      smapSet 0 m d (bitmapOf 8 8 fun e => l.names d .engines fun r => r.src == srcNo d (0x200 + e))) []
    positions := bitmapOf 400 400 fun i => l.names (5 + i / 80) .memory fun r => r.src == srcChannel (i / 10) (i % 10)
    groups := bitmapOf 40 40 fun g => l.names (5 + g / 8) .memory fun r => r.src == srcGroup g
    lasers := countsOf 4 fun e => min 2 ((l.spares (14 + e) .lasers).filter fun r => r.sub < 16).length
    waves := (List.range 4).foldl (fun m e =>
      smapSet 0 m e (bitmapOf 4 4 fun i => l.names (14 + e) .lasers fun r => r.sub == 16 + i)) []
    retire := (l.good dieHub).any fun r => r.type == 0x08 && bytesNat r.payload == 2 }

/-- A bitmap lacks a bit of another. -/
def lacksBit {w : Nat} (a b : BitVec w) : Bool := b &&& ~~~a != 0

/-- The counts of R583, by their row and the die they belong to, that are below those of another mirror. -/
def Otp.below (a b : Otp) : List (Nat × Nat) :=
  let each := fun (row n first : Nat) (p : Nat → Bool) => ((List.range n).filter p).map fun d => (row, first + d)
  each 0 4 0 (fun d => smapGet 0 a.cores d < smapGet 0 b.cores d) ++
    each 1 4 0 (fun d => smapGet 0 a.cols d < smapGet 0 b.cols d) ++
    each 2 4 0 (fun d => lacksBit (smapGet 0 a.engines d) (smapGet 0 b.engines d)) ++
    each 3 1 dieHub (fun _ => lacksBit a.positions b.positions) ++
    each 4 1 dieHub (fun _ => lacksBit a.groups b.groups) ++
    each 5 4 14 (fun e => smapGet 0 a.lasers e < smapGet 0 b.lasers e) ++
    each 6 4 14 (fun e => lacksBit (smapGet 0 a.waves e) (smapGet 0 b.waves e)) ++
    each 7 1 dieHub (fun _ => b.retire && !a.retire)

/-! ### The maps (R352, R447, R480, R584) -/

/-- A register that is rebuilt from OTP alone where the Ledger header fails its CRC: core map, repair map, laser assignment. -/
def isOtpMap (off : Nat) : Bool := isMapOffset off || (decide (0x060_3600 ≤ off) && decide (off < 0x060_3610))

/-- A register of the group map, of which OTP holds every bit. -/
def isGroupMap (off : Nat) : Bool := decide (0x060_3000 ≤ off) && decide (off < 0x060_30A0)

/-- The word of a map register at power-on, before OTP's groups are added: what its latest MAP record gives, or the one of an unchanged
part; where the header fails, OTP alone, in a way the spec leaves open (log 23). -/
def Ledger.bootWord (l : Ledger) (off : Nat) : Word :=
  if l.headerOk then (l.mapWord off).getD (crustReset off)
  else if isOtpMap off then Config.otpMap off l.otp.fuses
  else if isGroupMap off then crustReset off
  else (l.mapWord off).getD (crustReset off)

/-- The map registers that a commit has ever changed, or that are to be rebuilt from OTP. -/
def State.bootOffsets (s : State) : List Nat :=
  let mine := fun off => isCrustOffset off && isMapRecord off
  let past := (s.crust.regs.map Prod.fst) ++ (List.range 20).flatMap fun d =>
    ((s.ledger.good d).filter fun r => r.type == 0x07).map fun r => bytesNat (r.payload.take 4)
  let all := if s.ledger.headerOk then past else past ++ ((List.range 0xE80).map fun i => 0x060_2000 + 4 * i).filter isOtpMap ++
    ((List.range 4).map fun i => 0x060_3600 + 4 * i) ++ (List.range 40).map groupMapOffset
  (all.filter mine).dedup

/-- The groups with the failed positions and retirements that OTP records beside those of the map (R352, R368). -/
def State.otpGroups (s : State) : State :=
  (List.range 40).foldl (fun s g =>
    let x := s.mem.group g
    let bits := (s.ledger.otp.positions.toNat >>> (10 * g)) % 1024
    let y := { x with failed := x.failed ||| BitVec.ofNat 10 bits, retired := x.retired || s.ledger.otp.groups.getLsbD g }
    if y = x then s else { s with mem := s.mem.setGroup g y }) s

/-- The group map's registers follow the groups. -/
def State.showGroups (s : State) : State :=
  (List.range 40).foldl (fun s g => { s with crust := s.crust.put (groupMapOffset g) (s.mem.groupWord g) }) s

/-- The maps are rebuilt (R480, R584). -/
def State.rebuildMaps (s : State) : State :=
  let s1 := s.bootOffsets.foldl (fun s off => s.crustPut off (s.ledger.bootWord off)) s
  let s2 := s1.otpGroups
  if s2.mem.groups = s.mem.groups then s2 else s2.showGroups

/-! ### Power-on (R577, R584) -/

/-- An inconsistency is recorded and logged (R584): a FLAG in the region of the die, and the count concerned, 8 for the header. -/
def State.noteInconsistent (s : State) (e : Nat × Nat) : State :=
  let s1 := { s with ledger := { s.ledger with inconsistent := true } }
  (s1.ledgerFlag e.2 (srcNo e.2 0) 3).event (srcHub 0x330) 0x0803 (detail3 e.1 e.2 0)

/-- The column spares of a die by the larger count (R480). -/
def State.largerCounts (s : State) (m : Otp) : State :=
  (List.range 4).foldl (fun s d =>
    let n := max (smapGet 0 m.cols d) (smapGet 0 s.ledger.otp.cols d)
    if n = (s.die d).fieldCols then s else s.setDie d { s.die d with fieldCols := n }) s

/-- The Ledger is read at power-on (R480, R577, R578, R584). -/
def State.readLedger (s : State) : State :=
  let l := s.ledger
  let regions := (l.regions.map fun e => (e.1, e.2.found)).filter fun e => e.2 != .reset
  let bad := (regions.map fun e => e.2.badRecs).sum
  let l1 := { l with regions := regions, corrupt := min 255 (l.corrupt + bad), scanned := true }
  let m := l1.mirror
  let s1 := ({ s with ledger := { l1 with retireFlag := m.retire || l1.otp.retire } }.rebuildMaps).largerCounts m
  let lacks := m.below l1.otp ++ (if l1.headerOk then [] else [(8, dieHub)])
  lacks.foldl State.noteInconsistent s1

/-- Abmito reads the Ledger once after power-on. -/
def State.ledgerBoot (s : State) : State := if s.ledger.scanned then s else s.readLedger

end Sys2Proof.Machine
end

