-- ==== Sys2Proof/Machine/Security.lean ====
section
/-! DEFINITION. The Starter ROM, firmware images, recovery, publisher keys and debug unlock (18_security.md R552 to R574). -/

namespace Sys2Proof.Machine

/-- Security changed by a function. -/
def State.updSec (s : State) (f : Security → Security) : State := { s with sec := f s.sec }

/-- A mailbox command has ended with an error code of R574, 0 for none. -/
def State.mbxEnd (s : State) (cmd : Byte) (e : Nat) : State :=
  (s.updSec fun x => { x with cmd := cmd, busy := false, done := true, error := BitVec.ofNat 4 e }).hwSet 0x004_0014 2

/-- The bytes of an object that is read byte by byte. -/
def bytesFrom (rd : Nat → Byte) (first n : Nat) : List Byte := (List.range n).map fun i => rd (first + i)

/-- A digest as its 64 bytes. -/
def digestBytes (d : BitVec 512) : List Byte := natBytes 64 d.toNat

/-! ### Images (R552 to R558) -/

/-- A byte of the image region of the flash: one that was written, or one of the image the module ships with (log 4). -/
def State.flashByte (s : State) (a : Nat) : Byte := (smapFind s.sec.flash a).getD (Config.freeByte 2 a)

/-- The longest body, 16 MiB less the header's 8 KiB (R556, R557). -/
def maxBody : Nat := 16769024

/-- The length of an image's body. -/
def bodyLen (rd : Nat → Byte) : Nat := bytesNat (bytesFrom rd 8 8)

/-- Steps 1 to 5 of R557 on an image, as the error code of R574 for the first that fails. -/
def imageError (f : Fuse) (rd : Nat → Byte) : Nat :=
  let slot := (rd 7).toNat
  let keys := bytesFrom rd 128 1984
  if bytesNat (bytesFrom rd 0 4) ≠ 0x46575844 ∨ bytesNat (bytesFrom rd 4 2) ≠ 1 ∨ maxBody < bodyLen rd ∨ 4 ≤ slot then 6
  else if Config.sha512 keys ≠ smapGet 0 f.roots slot then 3
  else if f.revoked.getLsbD slot then 5
  else if (rd 6).toNat < f.svn then 4
  else
    let e := verifyBoth keys "DXFWIM01" (bytesFrom rd 0 2176) (bytesFrom rd 2180 64) (bytesFrom rd 2244 3309)
    if e ≠ 0 then e
    else if digestBytes (Config.sha512 (bytesFrom rd 8192 (bodyLen rd))) ≠ bytesFrom rd 16 64 then 3
    else 0

/-- The alias seed (R563). -/
def aliasSeed (f : Fuse) (header : BitVec 512) (svn : Byte) (debugSeen : Bool) : BitVec 512 :=
  Config.hkdfSeed f.uds (asciiBytes "DXAL" ++ digestBytes header ++ [svn, BitVec.ofNat 8 (b2n debugSeen)])

/-- The identity seed (R563). -/
def identitySeed (f : Fuse) : BitVec 512 := Config.hkdfSeed f.uds (asciiBytes "DXID")

/-- The alias certificates of a seed, one for each algorithm (R564). -/
def aliasCerts (f : Fuse) (seed : BitVec 512) : List (List Byte) :=
  (List.range 2).map fun a => Config.aliasCert a (identitySeed f) seed

/-- The security engine takes an alias seed and issues its certificates (R563, R564). -/
def Security.takeSeed (x : Security) (f : Fuse) (seed : BitVec 512) : Security := { x with seed := seed, certs := aliasCerts f seed }

/-- Step 6 of R557: the image runs. At the first start after power-on Abmito reads the Ledger (R577). The root slots that its
commit revokes leave out its own (R559). What ID_FW_VER shows is open but is not 0 (R612). -/
def State.startImage (s : State) (rd : Nat → Byte) : State :=
  let (v, s1) := s.ledgerBoot.draw 24
  let header := Config.sha512 (bytesFrom rd 0 2176)
  let own := BitVec.ofNat 4 (2 ^ (rd 7).toNat)
  let s2 := s1.updSec fun x => { x.takeSeed s.fuse (aliasSeed s.fuse header (rd 6) x.debugSeen) with
    boot := 1, svnImage := rd 6, header := header
    meas1 := Config.sha512 (bytesFrom rd 0 2176 ++ bytesFrom rd 8192 (bodyLen rd))
    svnTarget := (rd 6).toNat
    revokeTarget := (rd 80).extractLsb' 0 4 &&& ~~~own, fwVer := if v = 0 then 1 else v }
  let s3 := { s2 with ladder := { s2.ladder with ovtLast := none, ovtFrom := s.now } }
  (if s3.power.st = .w5 then s3.wake else s3).enableScanner

/-- The Starter ROM on the image in flash (R557, R560). -/
def State.runRom (s : State) : State × Nat :=
  let e := imageError s.fuse s.flashByte
  if e = 0 then (s.startImage s.flashByte, 0)
  else (s.updSec fun x => { x with boot := 2, error := BitVec.ofNat 4 e }, e)

/-- STARTER_ROM_BOOT (R557): after power-on or a management reset. -/
def starterRomBoot (s : State) : State := if !s.power.alwaysOn ∨ s.sec.boot ≠ 0 then s else s.runRom.1

/-! ### Mailbox commands (R560, R562, R569, R574) -/

/-- A command that Abmito serves; in the recovery window, or before the boot, it is refused (R560). -/
def State.mailbox (s : State) (cmd : Byte) (f : State → State) : State :=
  if !s.power.alwaysOn ∨ s.sec.busy then s else if s.sec.boot = 1 then f s else s.mbxEnd cmd 9

/-- A command of the recovery window. -/
def State.recovery (s : State) (cmd : Byte) (f : State → State) : State :=
  if !s.power.alwaysOn ∨ s.sec.busy then s else if s.sec.boot = 2 then f s else s.mbxEnd cmd 9

/-- Bytes written into the image region. -/
def State.flashWrite (s : State) (a : Nat) (bs : List Byte) : State :=
  s.updSec fun x => { x with flash := bs.zipIdx.foldl (fun m b => smapInsert m (a + b.2) b.1) x.flash }

/-- An object at the mailbox address lies in the host region. -/
def State.mbxInside (s : State) (n : Nat) : Bool := decide (s.sec.addr.toNat + n ≤ s.mem.hostTop)

/-- A byte of the object at the mailbox address. -/
def State.mbxByte (s : State) (i : Nat) : Byte := s.mem.read (s.sec.addr.toNat + i)

/-- FW_UPDATE (R562). -/
def fwUpdate (s : State) : State :=
  s.mailbox 0x01 fun s =>
    let rd := fun i => if i < s.sec.len.toNat then s.mbxByte i else 0
    if !s.mbxInside s.sec.len.toNat ∨ s.sec.len.toNat < 8192 + bodyLen rd then s.mbxEnd 0x01 6
    else
      let e := imageError s.fuse rd
      if e ≠ 0 then s.mbxEnd 0x01 e else (s.flashWrite 0 (bytesFrom rd 0 (8192 + bodyLen rd))).mbxEnd 0x01 0

/-- RECOVERY_CHUNK (R560). -/
def recoveryChunk (s : State) : State :=
  s.recovery 0x02 fun s =>
    let n := s.sec.len.toNat
    let a := s.sec.addr.toNat
    if 32768 < n ∨ a % 32768 ≠ 0 ∨ 16 * mib < a + n then s.mbxEnd 0x02 6
    else (s.flashWrite a ((List.range n).map fun i => smapGet 0 s.sec.buf i)).mbxEnd 0x02 0

/-- RECOVERY_DONE (R560). -/
def recoveryDone (s : State) : State :=
  s.recovery 0x03 fun s =>
    let (s1, e) := s.runRom
    s1.mbxEnd 0x03 e

/-- PUB_SET and PUB_CLEAR (R569). -/
def State.pubWrite (s : State) (cmd : Byte) (slot : BitVec 3) (set : Bool) : State :=
  s.mailbox cmd fun s =>
    let s := s.updSec fun x => { x with slot := slot }
    if s.sec.pubLocked then s.mbxEnd cmd 9
    else if set && !s.mbxInside 1984 then s.mbxEnd cmd 6
    else
      let v := if set then some (bytesFrom s.mbxByte 0 1984) else none
      (s.updSec fun x => { x with pubs := smapSet none x.pubs slot.toNat v }).mbxEnd cmd 0

/-! ### Debug unlock (R570 to R573) -/

/-- DBG_NONCE (R570). -/
def dbgNonce (s : State) : State :=
  s.mailbox 0x20 fun s =>
    let (v, s1) := s.draw 256
    let bs := natBytes 32 v.toNat
    (s1.updSec fun x => { x with nonce := some (bs, s.now), buf := smapSetRun 0 x.buf 0 bs }).mbxEnd 0x20 0

/-- The nonce that is valid now (R570). -/
def State.validNonce (s : State) : Option (List Byte) :=
  s.sec.nonce.bind fun n => if s.now < n.2 + 60000000000 then some n.1 else none

/-- Why a token is refused (R572), 0 when it is not. -/
def State.tokenError (s : State) : Nat :=
  let rd := s.mbxByte
  let keys := bytesFrom rd 128 1984
  if !s.mbxInside 5553 then 6
  else if Config.sha512 keys ≠ s.fuse.debugKey then 3
  else
    let e := verifyBoth keys "DXDBGT01" (bytesFrom rd 0 2176) (bytesFrom rd 2180 64) (bytesFrom rd 2244 3309)
    if e ≠ 0 then e
    else if bytesFrom rd 0 8 ≠ natBytes 8 s.fuse.uid.toNat then 7
    else if s.validNonce ≠ some (bytesFrom rd 8 32) then 8
    else 0

/-- DBG_UNLOCK (R563, R570, R572): a nonce serves one DBG_UNLOCK. -/
def dbgUnlock (s : State) : State :=
  s.mailbox 0x21 fun s =>
    let e := s.tokenError
    let s1 := s.updSec fun x => { x with nonce := none }
    if e ≠ 0 then s1.mbxEnd 0x21 e
    else
      (s1.updSec fun x => { x.takeSeed s.fuse (aliasSeed s.fuse x.header x.svnImage true) with
        debug := true, debugSeen := true, scopes := (s.mbxByte 40).extractLsb' 0 2
        token := Config.sha512 (bytesFrom s.mbxByte 0 5553)
        session := false }).mbxEnd 0x21 0

/-! ### SEC_CTRL (R558, R559, R562, R569, R573) -/

/-- SVN_COMMIT (R558, R559). -/
def svnCommit (s : State) : State :=
  if !s.power.alwaysOn ∨ s.sec.boot ≠ 1 ∨ s.sec.svnTarget ≤ s.fuse.svn then s
  else { s with fuse := { s.fuse with svn := min 64 s.sec.svnTarget, revoked := s.fuse.revoked ||| s.sec.revokeTarget } }

/-- PUB_LOCK (R569). -/
def pubLock (s : State) : State := if !s.power.alwaysOn then s else s.updSec fun x => { x with pubLocked := true }

/-- FW_ACTIVATE (R499, R562). -/
def fwActivate (s : State) : State := if !s.power.alwaysOn then s else s.managementReset

/-- DBG_RELOCK (R573). -/
def dbgRelock (s : State) : State := if !s.power.alwaysOn then s else s.endDebug

/-! ### The rows -/

/-- STARTER_ROM_BOOT (R557). -/
def execStarterRomBoot (s : State) : Out := .next (starterRomBoot s)
/-- FW_UPDATE (R562). -/
def execFwUpdate (s : State) : Out := .next (s.hostReg 0x004_0010 fun s => fwUpdate s)
/-- RECOVERY_CHUNK (R560). -/
def execRecoveryChunk (s : State) : Out := .next (s.hostReg 0x004_0010 fun s => recoveryChunk s)
/-- RECOVERY_DONE (R560). -/
def execRecoveryDone (s : State) : Out := .next (s.hostReg 0x004_0010 fun s => recoveryDone s)
/-- PUB_SET (R569). -/
def execPubSet (slot : BitVec 3) (s : State) : Out := .next (s.hostReg 0x004_0010 fun s => s.pubWrite 0x10 slot true)
/-- PUB_CLEAR (R569). -/
def execPubClear (slot : BitVec 3) (s : State) : Out := .next (s.hostReg 0x004_0010 fun s => s.pubWrite 0x11 slot false)
/-- DBG_NONCE (R570). -/
def execDbgNonce (s : State) : Out := .next (s.hostReg 0x004_0010 fun s => dbgNonce s)
/-- DBG_UNLOCK (R572). -/
def execDbgUnlock (s : State) : Out := .next (s.hostReg 0x004_0010 fun s => dbgUnlock s)
/-- SVN_COMMIT (R558). -/
def execSvnCommit (s : State) : Out := .next (s.hostReg 0x004_0004 fun s => svnCommit s)
/-- PUB_LOCK (R569). -/
def execPubLock (s : State) : Out := .next (s.hostReg 0x004_0004 fun s => pubLock s)
/-- FW_ACTIVATE (R562). -/
def execFwActivate (s : State) : Out := .next (s.hostReg 0x004_0004 fun s => fwActivate s)
/-- DBG_RELOCK (R573). -/
def execDbgRelock (s : State) : Out := .next (s.hostReg 0x004_0004 fun s => dbgRelock s)

end Sys2Proof.Machine
end

