-- ==== Sys2Proof/Machine/RegRead.lean ====
section
/-! DEFINITION. What a read of each register returns, block by block of R592. An offset that no block assigns reads zero
(R19). Reserved and write-only fields read zero (R16). -/

namespace Sys2Proof.Machine

/-- A window on a wide value: the 32 bits at a byte offset. -/
def wordAt {w : Nat} (x : BitVec w) (o : Nat) : Word := x.extractLsb' (8 * o) 32

/-- The low or the high word of a pair (R15). -/
def halfWord (hi : Bool) (n : Nat) : Word := if hi then hi32 n else lo32 n

/-- A flag at a bit. -/
def bitField (b : Bool) (i : Nat) : Nat × Nat := (b2n b, i)

/-- The offset `o` is the LO or the HI word of the pair at `lo`. -/
def inPair (o lo : Nat) : Bool := o == lo || o == lo + 4

/-- The index of a register in a run of `n` registers `step` bytes apart. -/
def runIndex (o base step n : Nat) : Option Nat :=
  if base ≤ o ∧ o < base + step * n ∧ (o - base) % step = 0 then some ((o - base) / step) else none

/-! ### Identity and Recipe (R326, R551, R594, R628) -/

/-- PCIE_LINK_STAT (R551). -/
def State.linkStat (s : State) : Word :=
  packWord [(s.host.gen.toNat, 0), (s.host.width.toNat, 3), bitField s.host.flit 8, bitField s.degraded 9, bitField s.host.l0p 10]

/-- A PCIE_VF register (R551). -/
def State.readVfWindow (s : State) (o : Nat) : Word :=
  let n := (o - 0x200) / 0x10
  let base := (smapGet 0 s.host.vfBase n).toNat
  let limit := (smapGet 0 s.host.vfLimit n).toNat
  match o % 0x10 with
  | 0 => lo32 base
  | 4 => hi32 base
  | 8 => lo32 limit
  | _ => hi32 limit

/-- The identity and Recipe block. -/
def State.readIdentity (s : State) (o : Nat) : Word :=
  if 0x200 ≤ o ∧ o < 0x300 then s.readVfWindow o
  else match o with
    | 0x000 => packWord [(b2n s.fuse.gradeS, 0), (0xA1, 8), (if s.fuse.gradeS then 88 else 96, 16)]
    | 0x004 => if s.sec.boot = 1 then s.sec.fwVer.setWidth 32 else 0
    | 0x008 => s.scratch
    | 0x00C => s.power.slotId.setWidth 32
    | 0x010 => lo32 recipeId.toNat
    | 0x014 => hi32 recipeId.toNat
    | 0x100 => s.linkStat
    | 0x104 => s.host.evtVec.setWidth 32
    | 0x108 => s.host.cplTo.setWidth 32
    | 0x10C => lo32 s.host.replayCnt
    | 0x110 => lo32 s.host.bar2Off.toNat
    | 0x114 => hi32 s.host.bar2Off.toNat
    | 0x118 => packWord [(s.host.ltrValue.toNat, 0), (s.host.ltrScale.toNat, 10)]
    | _ => 0

/-- The identifiers that a function presents (R533). -/
structure PcieIds where
  vendor : Nat
  device : Nat
  classCode : Nat
  revision : Nat
  subVendor : Nat
  subsystem : Nat
deriving DecidableEq, Repr

/-- The identifiers of a function of the part (R533). -/
def Fuse.pcieIds (f : Fuse) (fn : Nat) : PcieIds :=
  { vendor := 0x1F9B, device := if fn = 0 then 0x2040 else 0x2041, classCode := 0x12_0000, revision := 0xA1
    subVendor := 0x1F9B, subsystem := if f.gradeS then 0x0002 else 0x0001 }

/-- A word of a function's configuration space that holds identifiers, in the layout of a PCI Express function (PRESUMED, log 35). -/
def State.configWord (s : State) (fn o : Nat) : Option Word :=
  let i := s.fuse.pcieIds fn
  match o - o % 4 with
  | 0x00 => some (packWord [(i.vendor, 0), (i.device, 16)])
  | 0x08 => some (packWord [(i.revision, 0), (i.classCode, 8)])
  | 0x2C => some (packWord [(i.subVendor, 0), (i.subsystem, 16)])
  | _ => none

/-! ### Power and wake (R54, R519, R529, R628) -/

/-- PWR_ACLK_STAT (R54). -/
def State.aclkStat (s : State) (d : Nat) : Word :=
  let x := s.die d
  packWord [(if s.aclkRuns then x.freqMhz else 0, 0), bitField x.stretching 16, bitField x.stretchSeen 17]

/-- The half of PWR_FCAST that an access reads: the current one, or that of its burst (R519, R620). -/
def State.fcastHalf (s : State) (i3c : Bool) : Bool := if i3c then s.burst.getD s.power.fcCur else s.power.fcCur

/-- The power and wake block. -/
def State.readPower (s : State) (i3c : Bool) (o : Nat) : Word :=
  let p := s.power
  if 0x1000 ≤ o ∧ o < 0x1330 then wordAt (if s.fcastHalf i3c then p.page1 else p.page0) (o - 0x1000)
  else match runIndex o 0x100 4 4, runIndex o 0x050 4 11 with
    | some d, _ => s.aclkStat d
    | _, some i => packWord [(s.fuse.pwc.getD i 0, 0)]
    | _, _ =>
      match o with
      | 0x000 => packWord [(p.st.code, 0), (p.target.code, 3), bitField p.pwrEn 6]
      | 0x004 => p.wakeTol
      | 0x008 => packWord [bitField p.allowW5 1, bitField p.fcastIbi 2, bitField p.alertEn 3]
      | 0x00C => lo32 p.w3Save.toNat
      | 0x010 => hi32 p.w3Save.toNat
      | 0x020 => packWord [(p.staged.ceil.toNat, 0), (p.staged.floor.toNat, 16)]
      | 0x024 => p.staged.ramp.setWidth 32
      | 0x028 => p.staged.phase.setWidth 32
      | 0x02C => p.staged.vinMin.setWidth 32
      | 0x034 => packWord [bitField p.bad 0, bitField s.floorHeld 1, bitField s.floorForced 2]
      | 0x038 => packWord [(p.floorMhz, 0), (p.cEff, 16)]
      | 0x03C => packWord [(s.fuse.prest, 0)]
      | 0x040 => packWord [bitField p.ceilExceed 0, bitField p.rampExceed 1, bitField p.floorShort 2, bitField p.bandLow 3,
          bitField p.vinLow 4, bitField p.thermBelow 5]
      | 0x044 => packWord [(p.draw, 0), (p.ballast, 14)]
      | 0x048 => lo32 p.binMiss
      | 0x04C => packWord [(p.vinMv.toNat, 0), (p.current.toNat, 16)]
      | 0x080 => packWord [bitField p.ovp 0, bitField p.ovpSeen 1, bitField p.pwrGood 2, bitField p.tripSeen 3, (p.tripDie.toNat, 4)]
      | _ => 0

/-! ### GTB and event log (R53, R591) -/

/-- The read port of an access (R590). -/
def EventLog.portOf (l : EventLog) (i3c : Bool) : ReadPort := if i3c then l.portI3c else l.port

/-- The GTB and event log block; EVT_PORT_DATA as its next read returns it. -/
def State.readGtb (s : State) (i3c : Bool) (o : Nat) : Word :=
  let t := s.time
  let p := s.log.portOf i3c
  match o with
  | 0x000 => lo32 s.now
  | 0x004 => hi32 s.now
  | 0x008 => packWord [bitField t.locked 0, bitField t.holdover 1, bitField t.master 2, bitField t.stepped 3, bitField t.outOfSync 4]
  | 0x00C => packWord [bitField t.timeCapable 0, bitField t.alertEn 1]
  | 0x010 => t.offset
  | 0x014 => t.masterId.setWidth 32
  | 0x018 => t.ratePpb
  | 0x020 => lo32 t.stepOld.toNat
  | 0x024 => hi32 t.stepOld.toNat
  | 0x028 => lo32 t.stepNew.toNat
  | 0x02C => hi32 t.stepNew.toNat
  | 0x100 => lo32 s.log.next
  | 0x104 => p.seq
  | 0x108 => if p.pos < 8 then wordAt p.capture (4 * p.pos) else Config.freeBits 32 s.free
  | 0x10C => packWord [bitField p.gone 0, bitField p.notYet 1]
  | 0x110 => lo32 s.log.extBase.toNat
  | 0x114 => hi32 s.log.extBase.toNat
  | 0x118 => s.log.extSize
  | 0x11C => lo32 s.log.extSkip
  | _ => 0

/-! ### Reset ladder (R507) -/

/-- The reset ladder block. -/
def State.readLadder (s : State) (o : Nat) : Word :=
  let l := s.ladder
  match o with
  | 0x004 => packWord [bitField (!l.steps.isEmpty) 0, ((l.steps.map fun t => t.target.stepNo).foldl max 0, 1), bitField l.escalated 4,
      bitField l.ignored 5]
  | 0x010 => packWord [(l.hangPeriod.toNat, 0), bitField l.hangAlert 31]
  | 0x014 => l.engPeriod.setWidth 32
  | 0x020 => packWord [(l.hangSrc.toNat, 0), (l.verdict.toNat, 16), bitField l.byBudget 19, bitField l.hangValid 20]
  | 0x028 => lo32 l.suspectMask.toNat
  | 0x02C => hi32 l.suspectMask.toNat
  | 0x030 => packWord [(l.guilty.toNat, 0), bitField l.guiltyValid 6]
  | 0x040 => packWord [(l.expiries, 0), bitField l.pwrReq 8]
  | 0x100 => packWord [bitField l.auto 1, bitField l.sram 2, bitField l.overwrite 3, (l.scope.toNat, 4), (l.scopePt.toNat, 8),
      (l.limit.toNat, 16)]
  | 0x104 => packWord [bitField l.dump.isSome 0, bitField l.full 1, bitField l.inSram 2, bitField l.truncated 3, (l.skipped, 8)]
  | 0x108 => lo32 l.dumpHost.toNat
  | 0x10C => hi32 l.dumpHost.toNat
  | 0x110 => l.portAddr.setWidth 32
  | 0x114 => BitVec.ofNat 32 (bytesNat ((List.range 4).map fun i => l.sramByte (l.portAddr.toNat + i)))
  | _ => 0

/-! ### Security mailbox (R574) -/

/-- The security mailbox block. -/
def State.readSec (s : State) (o : Nat) : Word :=
  let x := s.sec
  if 0x8000 ≤ o ∧ o < 0x10000 then
    BitVec.ofNat 32 (bytesNat ((List.range 4).map fun i => smapGet 0 x.buf (o - 0x8000 + i)))
  else match o with
    | 0x000 => packWord [(x.boot.toNat, 0), bitField x.debug 2, bitField x.debugSeen 3, bitField x.pubLocked 4, (s.fuse.svn, 8),
        (x.svnImage.toNat, 16), (s.fuse.revoked.toNat, 24)]
    | 0x004 => packWord [bitField x.pubLocked 1]
    | 0x010 => packWord [(x.cmd.toNat, 0), (x.slot.toNat, 8)]
    | 0x014 => packWord [bitField x.busy 0, bitField x.done 1, (x.error.toNat, 8)]
    | 0x018 => x.len.setWidth 32
    | 0x020 => lo32 x.addr.toNat
    | 0x024 => hi32 x.addr.toNat
    | _ => 0

/-! ### Partition blocks (R157, R218, R299, R301, R486, R595 to R597) -/

/-- The cause of R597: active longest in the present freeze, lowest number on a tie; 0xF when not frozen. -/
def Part.longestCause (p : Part) : Nat :=
  ((p.needs.filter fun w => !w.ended).foldl (fun (b : Option (Nat × Nat)) (w : FreezeNeed) =>
    match b with
    | none => some (w.since, w.need.cause)
    | some (t, c) => if w.since < t ∨ (w.since = t ∧ w.need.cause < c) then some (w.since, w.need.cause) else b) none).elim 0xF Prod.snd

/-- PT_STAT (R597). -/
def Part.stat (p : Part) : Word :=
  packWord [(p.ctx.getD 0, 0), bitField p.ctx.isSome 6, bitField p.frozen 7, (if p.frozen then p.longestCause else 0xF, 8),
    bitField p.halted 12]

/-- PT_FAULT_STAT (R299). -/
def FaultRec.stat (f : FaultRec) : Word :=
  packWord [(f.code, 0), (f.detail % 256, 8), (f.core, 16), (f.slot, 21), bitField f.valid 24, bitField f.multi 25]

/-- The STATE of PT_SEQ_STAT (R218). -/
def State.seqCode (s : State) (n k : Nat) : Nat :=
  let p := s.part n
  match (s.core k).seq with
  | .noKernel => 0
  | .issuing => if p.frozen then 2 else if p.atYield || p.perstHold || p.halted then 3 else 1
  | .settling .. => 3
  | .met .. => 3
  | .halted => 4
  | .stopped => 5

/-- PT_SEQ_STAT (R218). -/
def State.seqStat (s : State) (n k : Nat) : Word :=
  let c := s.core k
  packWord [(c.pc % 8192, 0), (c.loops.length, 13), (s.seqCode n k, 16), bitField c.inBrp 19]

/-- The windows of R483 that have ended without a heartbeat (R486). -/
def State.missed (s : State) (k : Nat) : Nat :=
  let c := s.core k
  if c.watched then min 3 ((s.now - c.lastBeat) / (1000 * s.ladder.hangPeriod.toNat)) else 0

/-- PT_HBEAT (R486). -/
def State.hbeat (s : State) (k : Nat) : Word :=
  packWord [((s.core k).progress.toNat, 0), (s.missed k, 16), bitField (s.core k).watched 18]

/-- The counter at an offset of the partition block (R301), by its LO register. -/
def Part.counter (p : Part) (lo : Nat) : Option Nat :=
  match lo with
  | 0x200 => some p.cycProg
  | 0x208 => some p.cycFrz
  | 0x210 => some p.cycHold
  | 0x218 => some p.cycReexec
  | 0x220 => some p.slip
  | 0x228 => some p.xqDrop
  | _ => (runIndex lo 0x240 8 12).map fun k => smapGet 0 p.frzCause k

/-- The block of partition n. -/
def State.readPart (s : State) (n o : Nat) : Word :=
  let p := s.part n
  match p.counter o, (if 4 ≤ o then p.counter (o - 4) else none) with
  | some v, _ => lo32 v
  | _, some v => hi32 v
  | _, _ =>
    match runIndex o 0x400 4 24, runIndex o 0x500 4 24 with
    | some c, _ => match s.phys n c with
      | some k => s.seqStat n k
      | none => 0
    | _, some c => match s.phys n c with
      | some k => s.hbeat k
      | none => 0
    | _, _ =>
      match o with
      | 0x000 => packWord [bitField p.hold 0, bitField p.inReset 1, bitField p.refused 2, bitField p.quarantined 3]
      | 0x004 => p.stat
      | 0x010 => packWord [(p.die.toNat, 0), (p.first.toNat, 2), (p.count.toNat, 7), bitField p.en 12, bitField p.bad 13,
          bitField p.writeIgnored 14]
      | 0x100 => p.fault.stat
      | 0x104 => packWord [(p.fault.pc % 8192, 0)]
      | 0x108 => lo32 p.fault.gtb
      | 0x10C => hi32 p.fault.gtb
      | 0x110 => packWord [(p.fault.src, 0)]
      | _ => 0

/-! ### Memory groups (R370) -/

/-- MEM_STAT (R370). -/
def Mem.stat (m : Mem) : Word :=
  let any := fun (k : Nat) => (List.range 40).any fun g => (m.group g).state == k
  packWord [bitField (any 2) 0, bitField (any 3) 1, bitField m.hotRefresh 2, bitField m.stateChanged 3]

/-- The memory groups block. -/
def State.readMem (s : State) (o : Nat) : Word :=
  let m := s.mem
  match runIndex o 0x100 4 40, runIndex o 0x200 4 16 with
  | some g, _ => m.groupWord g
  | _, some n => (smapGet 16 m.qosPt n).setWidth 32
  | _, _ =>
    match o with
    | 0x000 => packWord [(s.fuse.memCode.toNat, 0), bitField (s.fuse.memCode == 3) 2, (m.activeCount, 3)]
    | 0x008 => lo32 m.hostTop
    | 0x00C => hi32 m.hostTop
    | 0x014 => packWord [bitField m.reforming.isSome 0, bitField m.reformDone 1, (m.reformError.toNat, 2)]
    | 0x018 => lo32 m.reformMask.toNat
    | 0x01C => hi32 m.reformMask.toNat
    | 0x024 => m.stat
    | 0x028 => packWord [bitField m.alertEn 0, bitField m.scrubEn 1]
    | 0x030 => lo32 m.poisonCnt
    | 0x240 => m.qosHub.setWidth 32
    | _ => 0

/-! ### Fabric and collective engine (R415, R416) -/

/-- A register of a fabric window. -/
def FabWin.word (w : FabWin) (r : Nat) : Word :=
  match r with
  | 0x00 => lo32 w.base.toNat
  | 0x04 => hi32 w.base.toNat
  | 0x08 => lo32 w.limit.toNat
  | 0x0C => hi32 w.limit.toNat
  | 0x10 => packWord [(w.lo.toNat, 0), (w.hi.toNat, 16)]
  | 0x14 => packWord [bitField w.r 0, bitField w.w 1, bitField w.a 2, bitField w.en 3]
  | _ => 0

/-- FAB_PORT_STAT (R415). -/
def State.portStat (s : State) (n : Nat) : Word :=
  let p := s.port n
  packWord [(p.st.code, 0), (p.width, 2), bitField p.rate 6, bitField p.loopback 7, bitField (s.timeParent == some n) 8,
    bitField p.downSeen 9, bitField p.widthChanged 10]

/-- A register of a port. -/
def State.readPort (s : State) (kind n : Nat) : Word :=
  let p := s.port n
  match kind with
  | 0 => packWord [bitField p.en 0, bitField p.rateCap 1, bitField p.timeEn 2]
  | 1 => s.portStat n
  | 2 => packWord [(p.peerNode.toNat, 0), (p.peerPort.toNat, 16)]
  | _ => packWord [(p.retries, 0), (p.trainFails, 16)]

/-- The fabric router and ports block. -/
def State.readFab (s : State) (o : Nat) : Word :=
  let f := s.fab
  if 0x1000 ≤ o ∧ o < 0x1400 then
    if o % 0x100 < 0xA0 then s.readPort ((o - 0x1000) / 0x100) (o % 0x100 / 4) else 0
  else if 0x400 ≤ o ∧ o < 0x600 then (smapGet .reset f.wins ((o - 0x400) / 0x20)).word (o % 0x20)
  else match runIndex o 0x300 4 16 with
    | some n => smapGet 0x0000_FFFF f.msgFilter n
    | none =>
      match o with
      | 0x000 => packWord [(f.node.toNat, 0), bitField f.writeIgnored 16]
      | 0x004 => lo32 s.fuse.uid.toNat
      | 0x008 => hi32 s.fuse.uid.toNat
      | 0x00C => packWord [bitField f.mgmtLock 0, bitField f.alertEn 1]
      | 0x010 => packWord [bitField f.dupId 0, bitField f.ttlDrop 1, bitField f.refused 2]
      | 0x100 => f.rtAddr.setWidth 32
      | 0x104 => (s.routeEntry f.rtAddr).setWidth 32
      | 0x200 => lo32 f.op.addr.toNat
      | 0x204 => hi32 f.op.addr.toNat
      | 0x208 => lo32 f.op.localAddr.toNat
      | 0x20C => hi32 f.op.localAddr.toNat
      | 0x210 => packWord [(f.op.kind.toNat, 0), (f.op.len.toNat, 2)]
      | 0x214 => packWord [bitField f.op.busy 0, bitField f.op.done 1, (f.op.error.toNat, 2)]
      | _ => 0

/-- The collective engine block. -/
def State.readColl (s : State) (o : Nat) : Word :=
  let f := s.fab
  let g := smapGet CollGroup.reset f.groups f.grpSel.toNat
  match o with
  | 0x000 => f.grpSel.setWidth 32
  | 0x010 => g.id
  | 0x014 => packWord [(g.pTotal.toNat, 0), (g.nNodes.toNat, 16), bitField g.valid 28]
  | 0x018 => packWord [(g.localPt.toNat, 0), (g.nlBase.toNat, 16)]
  | 0x100 => f.nlSel.setWidth 32
  | 0x104 => (smapGet 0 f.nodeList f.nlSel.toNat).setWidth 32
  | _ => 0

/-! ### Health Ledger and telemetry (R321, R481, R591, R598, R599) -/

/-- SPARE_CORE (R481). -/
def State.spareCore (s : State) (d : Nat) : Word :=
  let x := s.die d
  packWord [(s.exposed d, 0), (x.sparesLeft, 5), (((List.range 26).filter fun p => (s.core (26 * d + p)).retired).length, 7),
    (min 255 x.fieldCols, 16)]

/-- LEDGER_FILL (R591). -/
def Ledger.fill (l : Ledger) (d : Nat) : Word :=
  let g := l.region d
  packWord [(g.used, 0), bitField g.half 23, (g.gen % 256, 24)]

/-- A word of the Ledger window (R590, R591): the flash page that the port selects. -/
def State.ledgerWindow (s : State) (page o : Nat) : Word :=
  if 56575 < page then 0
  else BitVec.ofNat 32 (bytesNat ((List.range 4).map fun i => s.ledgerByte (17 * mib + 4096 * page + o + i)))

/-- The Health Ledger and telemetry block. -/
def State.readHealth (s : State) (i3c : Bool) (o : Nat) : Word :=
  let l := s.ledger
  let t := s.tele
  let page := (s.log.portOf i3c).page
  if 0x1000 ≤ o ∧ o < 0x2000 then s.ledgerWindow page.toNat (o - 0x1000)
  else if 0x4000 ≤ o ∧ o < 0x4400 then wordAt t.pageA (o - 0x4000)
  else if 0x4400 ≤ o ∧ o < 0x4800 then wordAt t.pageB (o - 0x4400)
  else match runIndex o 0x3000 4 104, runIndex o 0x0200 4 128, runIndex o 0x0100 4 20 with
    | some k, _, _ => lo32 (smapGet 0 t.ploss k)
    | _, some k, _ => l.otp.word k
    | _, _, some d => l.fill d
    | _, _, _ =>
      match runIndex o 0x0600 4 4, runIndex o 0x0610 4 4 with
      | some d, _ => s.spareCore d
      | _, some e => packWord [((s.bay e).spares, 0), ((s.bay e).lost.toNat, 2)]
      | _, _ =>
        match o with
        | 0x0000 => packWord [bitField l.marginWarn 0, bitField l.inconsistent 1, bitField l.retireFlag 2, bitField l.compacting 3,
            (l.corrupt, 8)]
        | 0x0004 => packWord [bitField l.alertEn 0]
        | 0x0008 => l.sweep.setWidth 32
        | 0x0010 => page.setWidth 32
        | 0x0700 => packWord [bitField t.tasteEn 0, (t.tastePeriod.toNat, 8)]
        | 0x0704 => packWord [bitField t.tasteUnresolved 0, (t.tasteStarved, 8)]
        | 0x0708 => lo32 t.tastePass
        | 0x070C => lo32 t.tasteFail
        | 0x0800 => packWord [bitField s.crumbLog.en 0, bitField s.crumbLog.mode 1]
        | 0x0804 => lo32 s.crumbLog.head
        | 0x0808 => lo32 s.crumbLog.tail
        | 0x080C => lo32 s.crumbLog.lost
        | 0x2000 => t.nextUs.setWidth 32
        | 0x2004 => packWord [bitField t.cur 0]
        | _ => 0

/-! ### Crust staging and commit (R600, R601) -/

/-- The Crust block. -/
def State.readCrust (s : State) (o : Nat) : Word :=
  let c := s.crust
  if 0x1000 ≤ o then (if isCrustOffset (0x060_0000 + o) then c.read (0x060_0000 + o) else 0)
  else if 0x100 ≤ o ∧ o < 0x300 then
    match c.staged[(o - 0x100) / 8]? with
    | some e => if o % 8 = 0 then e.1 else e.2
    | none => 0
  else match o with
    | 0x000 => packWord [(c.staged.length, 0)]
    | 0x004 => c.crc
    | 0x008 => lo32 c.commits
    | 0x00C => packWord [bitField (!c.waiting.isEmpty) 0, bitField c.crcFail 1, bitField c.badAddr 2, (c.repairs, 16)]
    | _ => 0

/-! ### Batch Sheet control (R444, R473) -/

/-- The code of a context's state (R444). -/
def CtxState.code : CtxState → Nat
  | .free => 0
  | .idle => 1
  | .resident => 2
  | .running => 3
  | .dead => 4

/-- The code of a Loaf slot's state (R444). -/
def LoafState.code : LoafState → Nat
  | .empty => 0
  | .verifying => 1
  | .ready => 2
  | .refused => 3

/-- The code of a generation load's state (R444). -/
def GenState.code : GenState → Nat
  | .none => 0
  | .loading => 1
  | .waitMemory => 2
  | .verified => 3
  | .failed => 4

/-- The registers of the selected context (R444, R473). -/
def Ctx.word (c : Ctx) (o : Nat) : Word :=
  match o with
  | 0x104 => packWord [(c.pt.toNat, 0), (c.pt2.toNat, 4), bitField c.express 8, (c.loaf.toNat, 9), (c.model.toNat, 13),
      (c.ctxlen.toNat, 17), bitField c.en 31]
  | 0x108 => lo32 c.save.toNat
  | 0x10C => hi32 c.save.toNat
  | 0x110 => lo32 c.save2.toNat
  | 0x114 => hi32 c.save2.toNat
  | 0x118 => packWord [(c.st.code, 0), bitField c.bad 3, bitField c.unpaired 4, (c.code.toNat, 8)]
  | 0x120 => lo32 c.rwd.toNat
  | 0x124 => hi32 c.rwd.toNat
  | 0x128 => c.jsize.setWidth 32
  | 0x12C => c.ckptPeriod.setWidth 32
  | 0x130 => packWord [bitField (c.ckpt.isSome && !c.jrnlFull) 0, bitField c.lastCopy 1, bitField c.jrnlFull 2, (c.rewinds.toNat, 8)]
  | 0x138 => lo32 c.ckptGtb
  | 0x13C => hi32 c.ckptGtb
  | _ => 0

/-- The registers of the selected Loaf slot (R444). -/
def LoafSlot.word (l : LoafSlot) (o : Nat) : Word :=
  match o with
  | 0x204 => lo32 l.addr.toNat
  | 0x208 => hi32 l.addr.toNat
  | 0x210 => packWord [(l.st.code, 0), ((match l.image with
      | some i => i.kernels.length
      | none => 0) % 256, 8)]
  | _ => 0

/-- The registers of the selected model slot (R444). -/
def State.modelWord (s : State) (o : Nat) : Word :=
  let i := s.bs.genSel.toNat
  let m := s.model i
  match o with
  | 0x304 => lo32 m.manifest.toNat
  | 0x308 => hi32 m.manifest.toNat
  | 0x30C => lo32 m.region.toNat
  | 0x310 => hi32 m.region.toNat
  | 0x314 => m.timeout.setWidth 32
  | 0x31C => packWord [(m.st.code, 0), bitField m.closed 3, (m.shard.toNat, 16)]
  | 0x320 => match m.cur with
    | some g => g.id
    | none => 0
  | 0x324 => match m.old with
    | some g => packWord [(min 0xFFFF (s.boundCount i g.id), 0)]
    | none => 0
  | _ => 0

/-- The Batch Sheet control block. -/
def State.readBatch (s : State) (o : Nat) : Word :=
  let b := s.bs
  match runIndex o 0x040 4 16, runIndex o 0x400 4 64 with
  | some n, _ => packWord [bitField (smapGet false b.ptExpress n) 0]
  | _, some i => packWord ((List.range 32).map fun j => bitField (b.seqBusy.contains (32 * i + j)) j)
  | _, _ =>
    if 0x104 ≤ o ∧ o < 0x200 then (s.ctx b.ctxSel.toNat).word o
    else if 0x204 ≤ o ∧ o < 0x300 then (s.loaf b.loafSel.toNat).word o
    else if 0x304 ≤ o ∧ o < 0x400 then s.modelWord o
    else match o with
      | 0x000 => lo32 b.base.toNat
      | 0x004 => hi32 b.base.toNat
      | 0x008 => packWord [(b.size.toNat, 0), bitField b.en 16]
      | 0x00C => packWord [(b.scan % 4096, 0), (b.held.length % 4096, 16), bitField b.cfgBad 31]
      | 0x010 => lo32 b.ctBase.toNat
      | 0x014 => hi32 b.ctBase.toNat
      | 0x018 => b.ctSize.setWidth 32
      | 0x01C => lo32 (b.ctHead % 4096)
      | 0x020 => b.ctTail.setWidth 32
      | 0x028 => lo32 b.admitted
      | 0x02C => lo32 b.rejected
      | 0x030 => lo32 b.seqBase.toNat
      | 0x034 => hi32 b.seqBase.toNat
      | 0x100 => b.ctxSel.setWidth 32
      | 0x200 => b.loafSel.setWidth 32
      | 0x300 => b.genSel.setWidth 32
      | _ => 0

/-! ### MSI-X tables and pending bits (R537) -/

/-- A word of an MSI-X table entry. -/
def MsixEntry.word (e : MsixEntry) (o : Nat) : Word :=
  match o with
  | 0 => lo32 e.addr.toNat
  | 4 => hi32 e.addr.toNat
  | 8 => e.data
  | _ => packWord [bitField e.masked 0]

/-- A word of a function's table. -/
def PcieFn.tableWord (f : PcieFn) (o : Nat) : Word := (smapGet .reset f.msix (o / 16)).word (o % 16)

/-- A word of a function's pending-bit array. -/
def PcieFn.pendWord (f : PcieFn) (o : Nat) : Word :=
  packWord ((List.range 32).map fun j => bitField (f.pend.contains (8 * o + j)) j)

/-- The MSI-X block of the PF. -/
def State.readMsix (s : State) (o : Nat) : Word :=
  if o < 0x8000 then (s.fn 0).tableWord o else if o < 0x8100 then (s.fn 0).pendWord (o - 0x8000) else 0

/-! ### Debug (R158, R159, R602) -/

/-- The token grants accumulator reads, or the halt (R571). -/
def Security.grants (x : Security) (i : Nat) : Bool := x.debug && x.scopes.getLsbD i

/-- DBG_ACC_SEL (R158). -/
def State.accSel (s : State) : Word :=
  let d := s.dbg
  packWord [(d.pt.toNat, 0), (d.core.toNat, 4), (d.array.toNat, 9), bitField d.slot 11, (d.index.toNat, 12),
    bitField (s.part d.pt.toNat).halted 15]

/-- An accumulator entry as it is stored (R89), with its check bits. -/
def accWord (a : Ax80) : BitVec 96 :=
  (0 : BitVec 3) ++ Config.secDed (a.fl.bits ++ a.i) ++ (a.fl.bits ++ a.i)

/-- An entry of the rows of a bank or slot. -/
def rowEntry (rows : SMap AxRow) (r c : Nat) : Ax80 := (smapGet [] rows r).getD c .zero

/-- The entry that an offset of the window names: none past a slot, and for a selection that names no core or bank. -/
def State.accEntry (s : State) (off : Nat) : Option Ax80 :=
  let d := s.dbg
  let r := off / 16 / 128
  let c := off / 16 % 128
  match s.phys d.pt.toNat d.core.toNat with
  | none => none
  | some k =>
    if d.slot then (if r < 128 then some (rowEntry ((s.core k).slot d.index.toNat).rows r c) else none)
    else if d.index.toNat < 2 then some (rowEntry (((s.core k).array d.array.toNat).bank d.index.toNat).rows r c) else none

/-- The number of the selected entry among those of its core. -/
def State.accIndex (s : State) (off : Nat) : Nat :=
  let d := s.dbg
  (if d.slot then 8 + d.index.toNat else 2 * d.array.toNat + d.index.toNat) * 32768 + off / 16

/-- The 96-bit word of an entry as it is stored (R89); where its check fails, the 93 bits that stand in storage (R159). -/
def State.storedAcc (s : State) (off : Nat) (bad : Bool) (a : Ax80) : BitVec 96 :=
  let d := s.dbg
  if bad then (Config.storedWord ((s.phys d.pt.toNat d.core.toNat).getD 0) (s.accIndex off) (accWord a)).setWidth 96 else accWord a

/-- A word of the accumulator window (R158, R159); `bad` says that the entry's check fails. -/
def State.readAcc (s : State) (off : Nat) (bad : Bool := false) : Word :=
  if !s.sec.grants 0 || !(s.part s.dbg.pt.toNat).halted then 0
  else match s.accEntry off with
    | some a => if off % 16 < 12 then wordAt (s.storedAcc off bad a) (off % 16) else 0
    | none => 0

/-- The debug block. -/
def State.readDebug (s : State) (o : Nat) : Word :=
  if 0x10_0000 ≤ o ∧ o < 0x18_0000 then s.readAcc (o - 0x10_0000)
  else match o with
    | 0x000 => if s.sec.grants 0 then s.accSel else 0
    | 0x004 => if s.sec.debug then packWord ([bitField (s.sec.scopes.getLsbD 0) 0, bitField (s.sec.scopes.getLsbD 1) 1] ++
        (List.range 16).map fun n => bitField (s.part n).halted (16 + n)) else 0
    | 0x008 => if s.sec.grants 1 then s.dbg.haltPt.setWidth 32 else 0
    | _ => 0

/-! ### The whole map (R592, R593, R527, R560) -/

/-- A register as it stands, by its offset in the PF's BAR0. -/
def State.liveReg (s : State) (i3c : Bool) (off : Nat) : Word :=
  if off < 0x001_0000 then s.readIdentity off
  else if off < 0x002_0000 then s.readPower i3c (off - 0x001_0000)
  else if off < 0x003_0000 then s.readGtb i3c (off - 0x002_0000)
  else if off < 0x004_0000 then s.readLadder (off - 0x003_0000)
  else if off < 0x005_0000 then s.readSec (off - 0x004_0000)
  else if off < 0x010_0000 then 0
  else if off < 0x020_0000 then s.readPart ((off - 0x010_0000) / 0x1_0000) (off % 0x1_0000)
  else if off < 0x030_0000 then s.readMem (off - 0x020_0000)
  else if off < 0x040_0000 then s.readFab (off - 0x030_0000)
  else if off < 0x050_0000 then s.readColl (off - 0x040_0000)
  else if off < 0x060_0000 then s.readHealth i3c (off - 0x050_0000)
  else if off < 0x070_0000 then s.readCrust (off - 0x060_0000)
  else if off < 0x080_0000 then 0
  else if off < 0x090_0000 then s.readBatch (off - 0x080_0000)
  else if off < 0x0C0_0000 then 0
  else if off < 0x0C0_8100 then s.readMsix (off - 0x0C0_0000)
  else if off < 0x100_0000 then 0
  else s.readDebug (off - 0x100_0000)

/-- A register as an access returns it. -/
def State.readReg (s : State) (i3c : Bool) (off : Nat) : Word := s.liveReg i3c off &&& s.served i3c off

end Sys2Proof.Machine
end

