-- ==== Sys2Proof/Machine/Attest.lean ====
section
/-! DEFINITION. Attestation: the SPDM responder, its measurements and the dual-signed report (17_host_pcie.md R547, 18_security.md
R565 to R568). What SPDM itself defines comes from SPDM 1.3 (log 36). -/

namespace Sys2Proof.Machine

/-- The Crust registers in address order (R447, R566, R600). -/
def crustOffsets : List Nat := ((List.range 0x3C00).map fun i => 0x060_1000 + 4 * i).filter isCrustOffset

/-- Words as bytes. -/
def wordBytes (ws : List Word) : List Byte := ws.flatMap fun w => natBytes 4 w.toNat

/-- The partition map of measurement 5 (R566). -/
def State.partitionMap (s : State) : List Byte :=
  wordBytes (((List.range 16).map fun n => s.readPart n 0x010) ++ (List.range 16).map fun n => s.readBatch (0x040 + 4 * n))

/-- The publisher slots of measurement 6 (R566, R569): an empty slot counts as zeros (log 36). -/
def Security.pubBytes (x : Security) : List Byte :=
  (List.range 8).flatMap fun k => (smapGet none x.pubs k).getD (List.replicate 1984 0)

/-- A measurement of R566: whether it is raw, and its value. -/
def State.measurement (s : State) (i : Nat) : Bool × List Byte :=
  let x := s.sec
  match i with
  | 1 => (false, digestBytes x.meas1)
  | 2 => (true, [x.svnImage, BitVec.ofNat 8 s.fuse.svn, s.fuse.revoked.setWidth 8])
  | 3 => (true, natBytes 8 recipeId.toNat)
  | 4 => (false, digestBytes (Config.sha512 (wordBytes (crustOffsets.map s.crust.read))))
  | 5 => (false, digestBytes (Config.sha512 s.partitionMap))
  | 6 => (false, digestBytes (Config.sha512 x.pubBytes))
  | _ => (true, [BitVec.ofNat 8 (b2n x.debug), BitVec.ofNat 8 (b2n x.debugSeen)] ++ digestBytes x.token)

/-- The DMTF value type of a measurement (log 36): firmware for 1, hardware configuration for 3, firmware configuration for the
others; bit 7 marks a raw value. -/
def measureType (i : Nat) (raw : Bool) : Byte :=
  BitVec.ofNat 8 ((if i = 1 then 1 else if i = 3 then 2 else 3) + 128 * b2n raw)

/-- A measurement in the block format of GET_MEASUREMENTS (R567, log 36). -/
def State.measureBlock (s : State) (i : Nat) : List Byte :=
  let m := s.measurement i
  [BitVec.ofNat 8 i, 1] ++ natBytes 2 (m.2.length + 3) ++ [measureType i m.1] ++ natBytes 2 m.2.length ++ m.2

/-- The blocks of the seven measurements. -/
def State.measureBlocks (s : State) : List Byte := ((List.range 7).map (· + 1)).flatMap s.measureBlock

/-- Abmito answers requests through the mailbox (R547): the link is up and the firmware runs. -/
def State.answers (s : State) : Bool := s.linkUp && s.sec.boot == 1

/-- An answer stands in the DOE mailbox. -/
def State.doeAnswer (s : State) (code : Byte) (body : Option (List Byte)) : State :=
  (s.updHost fun h => { h with doe := true }).emit (.spdm code body)

/-- The code of SPDM's ERROR (log 36). -/
def spdmError : Byte := 0x7F

/-- The requests of R565 with the codes of their answers (log 36); VENDOR_DEFINED_REQUEST has a row of its own. -/
def spdmAnswer (code : Nat) : Option Byte :=
  match code with
  | 0x84 => some 0x04
  | 0xE1 => some 0x61
  | 0xE3 => some 0x63
  | 0x81 => some 0x01
  | 0x82 => some 0x02
  | 0x83 => some 0x03
  | 0xE0 => some 0x60
  | 0xE4 => some 0x64
  | 0xE5 => some 0x65
  | 0xEC => some 0x6C
  | _ => none

/-- What GET_MEASUREMENTS asks for by its second parameter (log 36): the number of measurements, one of them, or all. -/
def State.askedMeasures (s : State) (op : Nat) : Option (List Byte) :=
  if op = 0 then some [7] else if op ≤ 7 then some (s.measureBlock op) else if op = 0xFF then some s.measureBlocks else none

/-- Certificate slot 0: the Ed25519 chain to the alias key (R564, R565). -/
def State.slotChain (s : State) : List Byte := s.fuse.chains.getD 0 [] ++ s.sec.certs.getD 0 []

/-- The body of CERTIFICATE (log 36): the asked part of the chain of slot 0, its length and that of the rest. -/
def State.certAnswer (s : State) (body : List Byte) : Option (List Byte) :=
  let off := bytesNat ((body.drop 2).take 2)
  let part := (s.slotChain.drop off).take (bytesNat ((body.drop 4).take 2))
  if (body.getD 0 0).toNat % 16 ≠ 0 ∨ s.slotChain.length < off then none
  else some (natBytes 2 part.length ++ natBytes 2 (s.slotChain.length - off - part.length) ++ part)

/-- What an answer holds that the spec determines: measurements, the digest of slot 0, its certificates. -/
def State.spdmBody (s : State) (code : Byte) (body : List Byte) : Option (Option (List Byte)) :=
  if code = 0xE0 then (s.askedMeasures (body.getD 1 0).toNat).map some
  else if code = 0x81 then some (some (digestBytes (Config.sha512 s.slotChain)))
  else if code = 0x82 then (s.certAnswer body).map some
  else some none

/-- SPDM_REQUEST (R565, R566, R568). A session is open from KEY_EXCHANGE to END_SESSION. -/
def spdmRequest (code : Byte) (body : List Byte) (s : State) : State :=
  if !s.answers then s
  else match spdmAnswer code.toNat with
    | none => s.doeAnswer spdmError none
    | some a =>
      match s.spdmBody code body with
      | none => s.doeAnswer spdmError none
      | some bs =>
        let s1 := if code = 0xE4 then s.updSec fun x => { x with session := true }
          else if code = 0xEC then s.updSec fun x => { x with session := false } else s
        s1.doeAnswer a bs

/-- The report of R567 before its signature block. -/
def State.reportBody (s : State) (nonce : List Byte) : List Byte :=
  natBytes 8 s.fuse.uid.toNat ++ natBytes 8 s.now ++ nonce ++ s.measureBlocks

/-- The dual-signed report (R553, R554, R567): signed by the two alias keys with key slot 0. -/
def State.report (s : State) (nonce : List Byte) : List Byte :=
  s.reportBody nonce ++ [0, 0, 0, 0] ++ Config.aliasSign s.sec.seed (signedMessage "DXRPRT01" (s.reportBody nonce))

/-- SPDM_VENDOR_REPORT (R567): the nonce has 32 bytes. -/
def spdmVendorReport (nonce : List Byte) (s : State) : State :=
  if !s.answers then s
  else if nonce.length = 32 then s.doeAnswer 0x7E (some (s.report nonce)) else s.doeAnswer spdmError none

/-! ### The rows -/

/-- SPDM_REQUEST (R565). -/
def execSpdmRequest (code : Byte) (body : List Byte) (s : State) : Out := .next (spdmRequest code body s)
/-- SPDM_VENDOR_REPORT (R567). -/
def execSpdmVendorReport (nonce : List Byte) (s : State) : Out := .next (spdmVendorReport nonce s)

end Sys2Proof.Machine
end

