-- ==== Sys2Proof/Machine/RegWrite.lean ====
section
/-! DEFINITION. What a write of each register does, block by block of R592, under the access types of R16. A write that has a row of
its own does what that row does. A write to an offset that no block assigns, or to a field that only hardware updates, does nothing. -/

namespace Sys2Proof.Machine

/-- A pair with one of its words replaced (R15). -/
def putHalf (hi : Bool) (x : DWord) (v : Word) : DWord :=
  if hi then v ++ x.extractLsb' 0 32 else x.extractLsb' 32 32 ++ v

/-- A pair whose HI register uses bits [15:0]. -/
def putHalf48 (hi : Bool) (x : BitVec 48) (v : Word) : BitVec 48 := (putHalf hi (x.setWidth 64) v).setWidth 48

/-- An RW1C bit after a write (R16). -/
def w1c (old : Bool) (v : Word) (i : Nat) : Bool := old && !v.getLsbD i

/-- A value in the stated range is taken, any other is ignored. -/
def inRange {w : Nat} (lo hi : Nat) (old new : BitVec w) : BitVec w := if lo ≤ new.toNat ∧ new.toNat ≤ hi then new else old

/-! ### Identity and Recipe (R538, R539, R551, R594) -/

/-- PCIE_BAR2_OFF (R538): a value that is no multiple of the BAR2 size is ignored. -/
def writeBar2Off (hi : Bool) (v : Word) (s : State) : State :=
  let n := putHalf48 hi s.host.bar2Off v
  if n.toNat % s.barSize 0 = 0 then s.updHost fun h => { h with bar2Off := n } else s

/-- PCIE_VF_BASE and PCIE_VF_LIMIT (R539): only while VFn's Memory Space Enable is 0. -/
def writeVfWindow (o : Nat) (v : Word) (s : State) : State :=
  let n := (o - 0x200) / 0x10
  let hi := o % 8 == 4
  if (s.fn (n + 1)).mse then s
  else if o % 0x10 < 8 then s.updHost fun h => { h with vfBase := smapUpd 0 h.vfBase n fun x => putHalf48 hi x v }
  else s.updHost fun h => { h with vfLimit := smapUpd 0 h.vfLimit n fun x => putHalf48 hi x v }

/-- The identity and Recipe block. -/
def writeIdentity (o : Nat) (v : Word) (s : State) : State :=
  if 0x200 ≤ o ∧ o < 0x300 then writeVfWindow o v s
  else match o with
    | 0x008 => { s with scratch := v }
    | 0x104 => s.updHost fun h => { h with evtVec := v.setWidth 11 }
    | 0x108 => s.updHost fun h => { h with cplTo := inRange 1000 50000 h.cplTo (v.setWidth 16) }
    | 0x10C => s.updHost fun h => { h with replayCnt := 0 }
    | 0x110 => writeBar2Off false v s
    | 0x114 => writeBar2Off true v s
    | 0x118 => s.updHost fun h => { h with ltrValue := v.setWidth 10, ltrScale := v.extractLsb' 10 3 }
    | _ => s

/-! ### Power and wake (R54, R529, R628) -/

/-- PWR_CTRL (R529). -/
def writePwrCtrl (v : Word) (s : State) : State :=
  let s1 := s.updPower fun p => { p with allowW5 := v.getLsbD 1, fcastIbi := v.getLsbD 2, alertEn := v.getLsbD 3 }
  if v.getLsbD 0 then s1.wake else s1

/-- The fields that only the tray controller writes (R516, R529). -/
def writeBand (o : Nat) (v : Word) (s : State) : State :=
  match o with
  | 0x020 => s.updPower fun p => { p with staged := { p.staged with ceil := v.setWidth 14, floor := v.extractLsb' 16 14 } }
  | 0x024 => s.updPower fun p => { p with staged := { p.staged with ramp := v.setWidth 12 } }
  | 0x028 => s.updPower fun p => { p with staged := { p.staged with phase := v.setWidth 20 } }
  | 0x02C => s.updPower fun p => { p with staged := { p.staged with vinMin := v.setWidth 16 } }
  | 0x030 => if v.getLsbD 0 then s.applyBand (v.getLsbD 1) else s
  | _ => s

/-- PWR_STAT (R529). -/
def writePwrStat (v : Word) (s : State) : State :=
  s.updPower fun p => { p with
    ceilExceed := w1c p.ceilExceed v 0, rampExceed := w1c p.rampExceed v 1, floorShort := w1c p.floorShort v 2
    bandLow := w1c p.bandLow v 3, vinLow := w1c p.vinLow v 4, thermBelow := w1c p.thermBelow v 5 }

/-- The power and wake block, over BAR0. -/
def writePower (o : Nat) (v : Word) (s : State) : State :=
  match runIndex o 0x100 4 4 with
  | some d => s.setDie d { s.die d with stretchSeen := w1c (s.die d).stretchSeen v 17 }
  | none =>
    match o with
    | 0x004 => pwrWakeTolWrite v s
    | 0x008 => writePwrCtrl v s
    | 0x00C => s.updPower fun p => { p with w3Save := putHalf false p.w3Save v }
    | 0x010 => s.updPower fun p => { p with w3Save := putHalf true p.w3Save v }
    | 0x034 => s.updPower fun p => { p with bad := w1c p.bad v 0 }
    | 0x040 => writePwrStat v s
    | 0x048 => s.updPower fun p => { p with binMiss := 0 }
    | 0x080 => s.updPower fun p => { p with ovpSeen := w1c p.ovpSeen v 1, tripSeen := w1c p.tripSeen v 3 }
    | _ => s

/-! ### GTB and event log (R53, R588, R591) -/

/-- The time base changed by a function. -/
def State.updTime (s : State) (f : TimeBase → TimeBase) : State := { s with time := f s.time }

/-- The event log changed by a function. -/
def State.updLog (s : State) (f : EventLog → EventLog) : State := { s with log := f s.log }

/-- The GTB and event log block. A change of TIME_CAPABLE changes the election (R410). -/
def writeGtb (i3c : Bool) (o : Nat) (v : Word) (s : State) : State :=
  match o with
  | 0x008 => s.updTime fun t => { t with stepped := w1c t.stepped v 3, outOfSync := w1c t.outOfSync v 4 }
  | 0x00C =>
    let s1 := s.updTime fun t => { t with timeCapable := v.getLsbD 0, alertEn := v.getLsbD 1 }
    if v.getLsbD 0 == s.time.timeCapable then s1 else s1.elect
  | 0x104 => evtPortSeqWrite i3c v s
  | 0x110 => s.updLog fun l => { l with extBase := putHalf false l.extBase v }
  | 0x114 => s.updLog fun l => { l with extBase := putHalf true l.extBase (v &&& 0xFFFF) }
  | 0x118 => s.updLog fun l => { l with extSize := v }
  | 0x11C => s.updLog fun l => { l with extSkip := 0 }
  | _ => s

/-! ### Reset ladder (R493, R507) -/

/-- The ladder changed by a function. -/
def State.updLadder (s : State) (f : Ladder → Ladder) : State := { s with ladder := f s.ladder }

/-- RST_REQ (R493); an operation that R507 does not name is a request the module ignores. -/
def writeRstReq (v : Word) (s : State) : State :=
  if !v.getLsbD 31 then s
  else match fieldOf v 0 2 with
    | 0 => rstReqPartition (fieldOf v 4 4) s
    | 1 => s.startModuleReset
    | 2 => s.requestPowerCycle
    | _ => (s.updLadder fun l => { l with ignored := true }).hwSet 0x003_0004 0x20

/-- DUMP_CTRL (R507). -/
def writeDumpCtrl (v : Word) (s : State) : State :=
  let s1 := s.updLadder fun l => { l with
    auto := v.getLsbD 1, sram := v.getLsbD 2, overwrite := v.getLsbD 3, scope := v.extractLsb' 4 3
    scopePt := v.extractLsb' 8 4, limit := inRange 1 255 l.limit (v.extractLsb' 16 8) }
  if v.getLsbD 0 then dumpGo s1 else s1

/-- The reset ladder block. -/
def writeLadder (o : Nat) (v : Word) (s : State) : State :=
  match o with
  | 0x000 => writeRstReq v s
  | 0x004 => s.updLadder fun l => { l with escalated := w1c l.escalated v 4, ignored := w1c l.ignored v 5 }
  | 0x010 => s.updLadder fun l => { l with hangPeriod := inRange 200 100000 l.hangPeriod (v.setWidth 20), hangAlert := v.getLsbD 31 }
  | 0x014 => s.updLadder fun l => { l with engPeriod := inRange 20 10000 l.engPeriod (v.setWidth 16) }
  | 0x020 => s.updLadder fun l => { l with hangValid := w1c l.hangValid v 20 }
  | 0x030 => s.updLadder fun l => { l with guiltyValid := w1c l.guiltyValid v 6 }
  | 0x100 => writeDumpCtrl v s
  | 0x104 => s.updLadder fun l => { l with full := w1c l.full v 1, skipped := 0 }
  | 0x108 => s.updLadder fun l => { l with dumpHost := putHalf false l.dumpHost v }
  | 0x10C => s.updLadder fun l => { l with dumpHost := putHalf true l.dumpHost v }
  | 0x110 => s.updLadder fun l => { l with portAddr := v.setWidth 24 &&& 0xFF_FFFC }
  | _ => s

/-! ### Security mailbox (R574) -/

/-- SEC_CTRL (R574): its actions in the order of their bits. -/
def writeSecCtrl (v : Word) (s : State) : State :=
  let s1 := if v.getLsbD 0 then svnCommit s else s
  let s2 := if v.getLsbD 1 then pubLock s1 else s1
  let s3 := if v.getLsbD 2 then fwActivate s2 else s2
  if v.getLsbD 3 then dbgRelock s3 else s3

/-- The mailbox command that is written with GO; a code that R574 does not name ends with an error that is open (log 6). -/
def mailboxGo (s : State) : State :=
  match s.sec.cmd.toNat with
  | 0x01 => fwUpdate s
  | 0x02 => recoveryChunk s
  | 0x03 => recoveryDone s
  | 0x10 => s.pubWrite 0x10 s.sec.slot true
  | 0x11 => s.pubWrite 0x11 s.sec.slot false
  | 0x20 => dbgNonce s
  | 0x21 => dbgUnlock s
  | _ =>
    let (e, s1) := s.draw 4
    s1.mbxEnd s.sec.cmd e.toNat

/-- SEC_MBX_CMD (R574). -/
def writeMbxCmd (v : Word) (s : State) : State :=
  if s.sec.busy then s
  else
    let s1 := s.updSec fun x => { x with cmd := v.setWidth 8, slot := v.extractLsb' 8 3 }
    if v.getLsbD 31 then mailboxGo s1 else s1

/-- The security mailbox block. -/
def writeSec (o : Nat) (v : Word) (s : State) : State :=
  if 0x8000 ≤ o ∧ o < 0x10000 then s.updSec fun x => { x with buf := smapSetRun 0 x.buf (o - 0x8000) (natBytes 4 v.toNat) }
  else match o with
    | 0x004 => writeSecCtrl v s
    | 0x010 => writeMbxCmd v s
    | 0x014 => s.updSec fun x => { x with done := w1c x.done v 1 }
    | 0x018 => s.updSec fun x => { x with len := v.setWidth 25 }
    | 0x020 => s.updSec fun x => { x with addr := putHalf false x.addr v }
    | 0x024 => s.updSec fun x => { x with addr := putHalf true x.addr v }
    | _ => s

/-! ### Partition blocks (R157, R299, R301, R596) -/

/-- A counter of R301 at zero, by its LO register. What the running kernel and tile have counted (R302) stays, counted from the new
zero. -/
def Part.clearCounter (p : Part) (lo : Nat) : Part :=
  match lo with
  | 0x200 =>
    { p with cycProg := 0, tileProg0 := p.tileProg0 - p.cycProg
             run := p.run.map fun i => { i with prog0 := i.prog0 - p.cycProg } }
  | 0x208 => { p with cycFrz := 0 }
  | 0x210 => { p with cycHold := 0 }
  | 0x218 => { p with cycReexec := 0, run := p.run.map fun i => { i with reexec0 := i.reexec0 - p.cycReexec } }
  | 0x220 => { p with slip := 0 }
  | 0x228 => { p with xqDrop := 0 }
  | _ => match runIndex lo 0x240 8 12 with
    | some k => { p with frzCause := smapErase p.frzCause k }
    | none => p

/-- PT_RST (R596): REFUSED is cleared before HOLD acts. A virtual function's write is ignored (R535). -/
def writePtRst (n : Nat) (vf : Bool) (v : Word) (s : State) : State :=
  if vf then s else ptRstHoldWrite n false (v.getLsbD 0) (s.updPart n fun p => { p with refused := w1c p.refused v 2 })

/-- The block of partition n. -/
def writePart (n : Nat) (vf : Bool) (o : Nat) (v : Word) (s : State) : State :=
  match o with
  | 0x000 => writePtRst n vf v s
  | 0x010 => ptCfgWrite n vf v s
  | 0x100 => s.updPart n fun p => { p with fault := { p.fault with valid := w1c p.fault.valid v 24, multi := w1c p.fault.multi v 25 } }
  | _ => s.updPart n fun p => p.clearCounter o

/-! ### Memory groups (R365, R370) -/

/-- Every partition is held in reset. -/
def State.allHeld (s : State) : Bool := (List.range 16).all fun n => (s.part n).inReset

/-- Memory changed by a function. -/
def State.updMem (s : State) (f : Mem → Mem) : State := { s with mem := f s.mem }

/-- The memory groups block. -/
def writeMem (o : Nat) (v : Word) (s : State) : State :=
  match runIndex o 0x200 4 16 with
  | some n => if (s.part n).inReset then s.updMem fun m => { m with qosPt := smapSet 16 m.qosPt n (v.setWidth 8) } else s
  | none =>
    match o with
    | 0x010 => if v.getLsbD 0 then memReformStart s else s
    | 0x014 => s.updMem fun m => { m with reformDone := w1c m.reformDone v 1 }
    | 0x018 => s.updMem fun m => { m with reformMask := m.reformMask.extractLsb' 32 8 ++ v }
    | 0x01C => s.updMem fun m => { m with reformMask := v.setWidth 8 ++ m.reformMask.extractLsb' 0 32 }
    | 0x020 => memChanFail (fieldOf v 0 6) (fieldOf v 6 4) s
    | 0x024 => s.updMem fun m => { m with stateChanged := w1c m.stateChanged v 3 }
    | 0x028 => s.updMem fun m => { m with alertEn := v.getLsbD 0, scrubEn := v.getLsbD 1 }
    | 0x240 => if s.allHeld then s.updMem fun m => { m with qosHub := v.setWidth 8 } else s
    | _ => s

/-! ### Fabric and collective engine (R376, R384, R389, R398, R404, R415, R416) -/

/-- The fabric changed by a function. -/
def State.updFab (s : State) (f : Fabric → Fabric) : State := { s with fab := f s.fab }

/-- A window after a write of one of its registers. -/
def FabWin.put (w : FabWin) (r : Nat) (v : Word) : FabWin :=
  match r with
  | 0x00 => { w with base := putHalf48 false w.base v }
  | 0x04 => { w with base := putHalf48 true w.base v }
  | 0x08 => { w with limit := putHalf48 false w.limit v }
  | 0x0C => { w with limit := putHalf48 true w.limit v }
  | 0x10 => { w with lo := v.setWidth 16, hi := v.extractLsb' 16 16 }
  | 0x14 => { w with r := v.getLsbD 0, w := v.getLsbD 1, a := v.getLsbD 2, en := v.getLsbD 3 }
  | _ => w

/-- FAB_PORT_CTRL (R376, R384, R390, R410): EN cleared is link loss, which a hello announces (DEDUCED, log 29), EN set lets the
port train, and TIME_EN changes the election. -/
def writePortCtrl (n : Nat) (v : Word) (s : State) : State :=
  let p := s.port n
  let s1 := s.setPort n { p with en := v.getLsbD 0, rateCap := v.getLsbD 1, timeEn := v.getLsbD 2 }
  let s2 :=
    if !v.getLsbD 0 then (if p.linked then (s1.hello n true).linkLoss n 4 else s1.updPort n fun q => { q with st := .off })
    else if s.power.routes then s1.updPort n fun q => q.train s.now else s1
  if v.getLsbD 2 == p.timeEn then s2 else s2.elect

/-- A register of a port. -/
def writePort (kind n : Nat) (v : Word) (s : State) : State :=
  match kind with
  | 0 => writePortCtrl n v s
  | 1 => s.updPort n fun p => { p with downSeen := w1c p.downSeen v 9, widthChanged := w1c p.widthChanged v 10 }
  | 3 => s.updPort n fun p => { p with retries := 0, trainFails := 0 }
  | _ => s

/-- The fabric router and ports block. -/
def writeFab (o : Nat) (v : Word) (s : State) : State :=
  if 0x1000 ≤ o ∧ o < 0x1400 then
    if o % 0x100 < 0xA0 then writePort ((o - 0x1000) / 0x100) (o % 0x100 / 4) v s else s
  else if 0x400 ≤ o ∧ o < 0x600 then
    s.updFab fun f => { f with wins := smapUpd .reset f.wins ((o - 0x400) / 0x20) fun w => w.put (o % 0x20) v }
  else match runIndex o 0x300 4 16 with
    | some n => s.updFab fun f => { f with msgFilter := smapSet 0x0000_FFFF f.msgFilter n v }
    | none =>
      match o with
      | 0x000 => fabNodeIdWrite v s
      | 0x00C => s.updFab fun f => { f with mgmtLock := f.mgmtLock || v.getLsbD 0, alertEn := v.getLsbD 1 }
      | 0x010 => s.updFab fun f => { f with dupId := w1c f.dupId v 0, ttlDrop := w1c f.ttlDrop v 1, refused := w1c f.refused v 2 }
      | 0x100 => s.updFab fun f => { f with rtAddr := v.setWidth 16 }
      | 0x104 => fabRtDataWrite v s
      | 0x200 => s.updFab fun f => { f with op := { f.op with addr := putHalf false f.op.addr v } }
      | 0x204 => s.updFab fun f => { f with op := { f.op with addr := putHalf true f.op.addr v } }
      | 0x208 => s.updFab fun f => { f with op := { f.op with localAddr := putHalf false f.op.localAddr v } }
      | 0x20C => s.updFab fun f => { f with op := { f.op with localAddr := putHalf true f.op.localAddr v } }
      | 0x210 => fabOpGo v s
      | 0x214 => s.updFab fun f => { f with op := { f.op with done := w1c f.op.done v 1 } }
      | _ => s

/-- The collective engine block. -/
def writeColl (o : Nat) (v : Word) (s : State) : State :=
  match o with
  | 0x000 => s.updFab fun f => { f with grpSel := v.setWidth 10 }
  | 0x010 => collGroupEntryWrite .grpId v s
  | 0x014 => collGroupEntryWrite .size v s
  | 0x018 => collGroupEntryWrite .place v s
  | 0x100 => s.updFab fun f => { f with nlSel := v.setWidth 16 }
  | 0x104 => s.updFab fun f => { f with nodeList := smapSet 0 f.nodeList f.nlSel.toNat (v.setWidth 16) }
  | _ => s

/-! ### Health Ledger and telemetry (R321, R481, R591, R598) -/

/-- The Ledger changed by a function. -/
def State.updLedger (s : State) (f : Ledger → Ledger) : State := { s with ledger := f s.ledger }

/-- Telemetry changed by a function. -/
def State.updTele (s : State) (f : Telemetry → Telemetry) : State := { s with tele := f s.tele }

/-- CRUMB_LOG_EMPTY (R321): HEAD, TAIL and LOST are zero. -/
def State.emptyCrumbLog (s : State) : State := { s with crumbLog := { s.crumbLog with head := 0, tail := 0, lost := 0 } }

/-- CRUMB_LOG_CTRL (R321). -/
def writeCrumbCtrl (v : Word) (s : State) : State :=
  let s1 := { s with crumbLog := { s.crumbLog with en := v.getLsbD 0, mode := v.getLsbD 1 } }
  if v.getLsbD 2 then s1.emptyCrumbLog else s1

/-- LEDGER_WIN_SEL of a read port (R590). -/
def writeWinSel (i3c : Bool) (v : Word) (s : State) : State :=
  if i3c then s.updLog fun l => { l with portI3c := { l.portI3c with page := v.setWidth 16 } }
  else s.updLog fun l => { l with port := { l.port with page := v.setWidth 16 } }

/-- The Health Ledger and telemetry block. -/
def writeHealth (i3c : Bool) (o : Nat) (v : Word) (s : State) : State :=
  match runIndex o 0x3000 4 104 with
  | some k => s.updTele fun t => { t with ploss := smapErase t.ploss k }
  | none =>
    match o with
    | 0x0000 => s.updLedger fun l => { l with marginWarn := w1c l.marginWarn v 0 }
    | 0x0004 => s.updLedger fun l => { l with alertEn := v.getLsbD 0 }
    | 0x0008 => s.updLedger fun l => { l with sweep := inRange 3600 604800 l.sweep (v.setWidth 20) }
    | 0x0010 => writeWinSel i3c v s
    | 0x0700 => s.updTele fun t => { t with tasteEn := v.getLsbD 0, tastePeriod := v.extractLsb' 8 24 }
    | 0x0704 => s.updTele fun t => { t with tasteUnresolved := w1c t.tasteUnresolved v 0 }
    | 0x0708 => s.updTele fun t => { t with tastePass := 0 }
    | 0x070C => s.updTele fun t => { t with tasteFail := 0 }
    | 0x0800 => writeCrumbCtrl v s
    | 0x0808 => { s with crumbLog := { s.crumbLog with tail := fieldOf v 0 21 } }
    | 0x2000 => s.updTele fun t => { t with nextUs := inRange 100 1000000 t.nextUs (v.setWidth 20) }
    | _ => s

/-! ### Crust (R448, R601) -/

/-- The Crust block: only CRUST_STAT.CRC_FAIL takes a write. -/
def writeCrust (o : Nat) (v : Word) (s : State) : State :=
  if o = 0x00C then { s with crust := { s.crust with crcFail := w1c s.crust.crcFail v 1 } } else s

/-! ### Batch Sheet control (R419, R430, R438 to R442, R444, R473) -/

/-- The Batch Sheet block changed by a function. -/
def State.updBs (s : State) (f : BatchSheet → BatchSheet) : State := { s with bs := f s.bs }

/-- The Batch Sheet block changed only while BS_CFG.EN is 0 (R444). -/
def State.updBsOff (s : State) (f : BatchSheet → BatchSheet) : State := if s.bs.en then s else s.updBs f

/-- The registers of the selected context (R444, R473). -/
def writeCtx (o : Nat) (v : Word) (s : State) : State :=
  let i := s.bs.ctxSel.toNat
  let c := s.ctx i
  match o with
  | 0x104 => ctxCfgWrite v s
  | 0x108 => s.setCtx i { c with save := putHalf false c.save v }
  | 0x10C => s.setCtx i { c with save := putHalf true c.save v }
  | 0x110 => s.setCtx i { c with save2 := putHalf false c.save2 v }
  | 0x114 => s.setCtx i { c with save2 := putHalf true c.save2 v }
  | 0x120 => s.setCtx i { c with rwd := putHalf false c.rwd v }
  | 0x124 => s.setCtx i { c with rwd := putHalf true c.rwd (v &&& 0xFFFF) }
  | 0x128 => s.setCtx i { c with jsize := v.setWidth 16 }
  | 0x12C => s.setCtx i { c with ckptPeriod := v.setWidth 20 }
  | 0x130 => s.setCtx i { c with jrnlFull := w1c c.jrnlFull v 2 }
  | _ => s

/-- The registers of the selected Loaf slot (R419). -/
def writeLoaf (o : Nat) (v : Word) (s : State) : State :=
  let i := s.bs.loafSel.toNat
  let l := s.loaf i
  match o with
  | 0x204 => s.setLoaf i { l with addr := putHalf false l.addr v }
  | 0x208 => s.setLoaf i { l with addr := putHalf true l.addr v }
  | 0x20C =>
    let s1 := if v.getLsbD 0 then loafLoad s else s
    if v.getLsbD 1 then loafUnload s1 else s1
  | _ => s

/-- GEN_CTRL (R438 to R442): its actions in the order of their bits. -/
def writeGenCtrl (v : Word) (s : State) : State :=
  let s1 := if v.getLsbD 0 then genLoad s else s
  let s2 := if v.getLsbD 1 then genActivate s1 else s1
  let s3 := if v.getLsbD 2 then genClose s2 else s2
  if v.getLsbD 3 then genCancel s3 else s3

/-- The registers of the selected model slot (R438). -/
def writeGen (o : Nat) (v : Word) (s : State) : State :=
  let i := s.bs.genSel.toNat
  let m := s.model i
  match o with
  | 0x304 => s.setModel i { m with manifest := putHalf false m.manifest v }
  | 0x308 => s.setModel i { m with manifest := putHalf true m.manifest v }
  | 0x30C => s.setModel i { m with region := putHalf false m.region v }
  | 0x310 => s.setModel i { m with region := putHalf true m.region v }
  | 0x314 => s.setModel i { m with timeout := v.setWidth 16 }
  | 0x318 => writeGenCtrl v s
  | _ => s

/-- The Batch Sheet control block. -/
def writeBatch (o : Nat) (v : Word) (s : State) : State :=
  match runIndex o 0x040 4 16 with
  | some n =>
    if (s.part n).inReset then s.updBs fun b => { b with ptExpress := smapSet false b.ptExpress n (v.getLsbD 0) } else s
  | none =>
    if 0x104 ≤ o ∧ o < 0x200 then writeCtx o v s
    else if 0x204 ≤ o ∧ o < 0x300 then writeLoaf o v s
    else if 0x304 ≤ o ∧ o < 0x400 then writeGen o v s
    else match o with
      | 0x000 => s.updBsOff fun b => { b with base := putHalf false b.base v }
      | 0x004 => s.updBsOff fun b => { b with base := putHalf true b.base (v &&& 0xFFFF) }
      | 0x008 => bsCfgWrite v s
      | 0x00C => s.updBs fun b => { b with cfgBad := w1c b.cfgBad v 31 }
      | 0x010 => s.updBsOff fun b => { b with ctBase := putHalf false b.ctBase v }
      | 0x014 => s.updBsOff fun b => { b with ctBase := putHalf true b.ctBase v }
      | 0x018 => s.updBsOff fun b => { b with ctSize := v.setWidth 13 }
      | 0x020 => s.updBs fun b => { b with ctTail := v.setWidth 12 }
      | 0x024 => if v.getLsbD 31 then bsAbort (fieldOf v 0 12) s else s
      | 0x028 => s.updBs fun b => { b with admitted := 0 }
      | 0x02C => s.updBs fun b => { b with rejected := 0 }
      | 0x030 => s.updBsOff fun b => { b with seqBase := putHalf false b.seqBase v }
      | 0x034 => s.updBsOff fun b => { b with seqBase := putHalf true b.seqBase v }
      | 0x100 => s.updBs fun b => { b with ctxSel := v.setWidth 6 }
      | 0x200 => s.updBs fun b => { b with loafSel := v.setWidth 4 }
      | 0x300 => s.updBs fun b => { b with genSel := v.setWidth 4 }
      | _ => s

/-! ### MSI-X tables (R537) -/

/-- An entry after a write of one of its words. -/
def MsixEntry.put (e : MsixEntry) (o : Nat) (v : Word) : MsixEntry :=
  match o with
  | 0 => { e with addr := putHalf false e.addr v }
  | 4 => { e with addr := putHalf true e.addr v }
  | 8 => { e with data := v }
  | _ => { e with masked := v.getLsbD 0 }

/-- A write of a function's table. -/
def writeTable (fn o : Nat) (v : Word) (s : State) : State :=
  let f := s.fn fn
  s.setFn fn { f with msix := smapUpd .reset f.msix (o / 16) fun e => e.put (o % 16) v }

/-! ### Debug (R158, R602) -/

/-- DBG_HALT_GO (R602): the partition halts at its next yield point. -/
def dbgHaltGo (n : Nat) (s : State) : State :=
  if s.sec.grants 1 && !(s.part n).halted then s.updPart n fun p => { p with dbgReq := true } else s

/-- DBG_RESUME_GO (R602). -/
def dbgResumeGo (n : Nat) (s : State) : State := if s.sec.grants 1 then s.resumeDebug n else s

/-- DBG_HALT (R602): HALT_GO and RESUME_GO together make the module ignore the write. -/
def writeDbgHalt (v : Word) (s : State) : State :=
  if v.getLsbD 8 && v.getLsbD 9 then s
  else
    let n := fieldOf v 0 4
    let s1 := { s with dbg := { s.dbg with haltPt := v.setWidth 4 } }
    if v.getLsbD 8 then dbgHaltGo n s1 else if v.getLsbD 9 then dbgResumeGo n s1 else s1

/-- The debug block. -/
def writeDebug (o : Nat) (v : Word) (s : State) : State :=
  match o with
  | 0x000 =>
    if s.sec.grants 0 then
      { s with dbg := { s.dbg with pt := v.setWidth 4, core := v.extractLsb' 4 5, array := v.extractLsb' 9 2, slot := v.getLsbD 11
                                   index := v.extractLsb' 12 3 } }
    else s
  | 0x008 => if s.sec.grants 1 then writeDbgHalt v s else s
  | _ => s

/-! ### The whole map (R592) -/

/-- A write at an offset of the PF's BAR0 that is served; `vf` says that a virtual function writes (R535). -/
def writeBlock (i3c vf : Bool) (off : Nat) (v : Word) (s : State) : State :=
  if off < 0x001_0000 then writeIdentity off v s
  else if off < 0x002_0000 then (if i3c then writeBand else writePower) (off - 0x001_0000) v s
  else if off < 0x003_0000 then writeGtb i3c (off - 0x002_0000) v s
  else if off < 0x004_0000 then writeLadder (off - 0x003_0000) v s
  else if off < 0x005_0000 then writeSec (off - 0x004_0000) v s
  else if off < 0x010_0000 then s
  else if off < 0x020_0000 then writePart ((off - 0x010_0000) / 0x1_0000) vf (off % 0x1_0000) v s
  else if off < 0x030_0000 then writeMem (off - 0x020_0000) v s
  else if off < 0x040_0000 then writeFab (off - 0x030_0000) v s
  else if off < 0x050_0000 then writeColl (off - 0x040_0000) v s
  else if off < 0x060_0000 then writeHealth i3c (off - 0x050_0000) v s
  else if off < 0x070_0000 then writeCrust (off - 0x060_0000) v s
  else if off < 0x080_0000 then s
  else if off < 0x090_0000 then writeBatch (off - 0x080_0000) v s
  else if off < 0x0C0_0000 then s
  else if off < 0x0C0_8000 then writeTable 0 (off - 0x0C0_0000) v s
  else if off < 0x100_0000 then s
  else writeDebug (off - 0x100_0000) v s

/-- A write of a register: nothing where the register is not wholly served (R527, R560). -/
def State.writeReg (s : State) (i3c vf : Bool) (off : Nat) (v : Word) : State :=
  let key := if off = 0x080_0130 then rwdStatKey s.bs.ctxSel.toNat else off
  if s.served i3c off = 0xFFFF_FFFF then writeBlock i3c vf off (s.clears key v) s else s

end Sys2Proof.Machine
end

