-- ==== Sys2Proof/Machine/Manage.lean ====
section
/-! DEFINITION. MANAGE packets (12_thatre_fabric.md R392). -/

namespace Sys2Proof.Machine

/-- The directed path of a packet: bytes 16 to 27 of its header (R385, R392). -/
def packetPath (p : Packet) : BitVec 96 := p.reason ++ p.addr

/-- Hop i of a path. -/
def pathHop (path : BitVec 96) (i : Nat) : Nat := (path.extractLsb' (6 * i) 6).toNat

/-- A path with hop i replaced. -/
def setHop (path : BitVec 96) (i v : Nat) : BitVec 96 :=
  (path &&& ~~~(BitVec.ofNat 96 (63 <<< (6 * i)))) ||| BitVec.ofNat 96 ((v % 64) <<< (6 * i))

/-- A packet with a path. -/
def withPath (p : Packet) (path : BitVec 96) : Packet :=
  { p with addr := path.extractLsb' 0 64, reason := path.extractLsb' 64 32 }

/-- The path of the reply: the port that the request came on, then the arrival ports that the routers have left in the places of their
hops, the last first (log 34). -/
def replyPath (p : Packet) (port : Nat) : BitVec 96 :=
  (List.range (p.tag.toNat - 1)).foldl (fun path i => setHop path (i + 1) (pathHop (packetPath p) (p.tag.toNat - 1 - i))) (setHop 0 0 port)

/-- A packet sent on a directed port: it goes where flits flow, and is lost elsewhere (R376, log 34). -/
def State.sendDirected (s : State) (n : Nat) (p : Packet) : State :=
  if n < 40 ∧ (s.port n).linked then s.portSend n p else s

/-- A field of the payload. -/
def payloadWord (p : Packet) (at' : Nat) : Nat := bytesNat ((p.payload.drop at').take 4)

/-- The reason of the reply (R392): a lock refuses every write; only the fabric and collective blocks can be named. -/
def State.manageReason (s : State) (isWrite : Bool) (off : Nat) : Nat :=
  if isWrite && s.fab.mgmtLock then 2
  else if off % 4 ≠ 0 ∨ off < 0x030_0000 ∨ 0x050_0000 ≤ off then 3
  else 0

/-- The reply of the node at the end of a path (R392). -/
def State.manageReply (s : State) (port : Nat) (p : Packet) (reason value : Nat) : State :=
  let payload := [p.payload.getD 0 0, BitVec.ofNat 8 reason, 1, 0] ++ (p.payload.drop 4).take 4 ++ natBytes 4 value ++ natBytes 4 0
  let r := { p with dst := p.src, src := s.fab.node, len := 16, poison := false, hops := 1, payload := payload }
  s.sendDirected port (withPath r (replyPath p port))

/-- The node at the end of the path reads or writes one register and replies. An operation that R392 does not name gets no reply
(log 34). -/
def State.manageHere (s : State) (port : Nat) (p : Packet) : State :=
  let op := (p.payload.getD 0 0).toNat
  let off := payloadWord p 4
  let w := payloadWord p 8
  let reason := s.manageReason (op == 1) off
  let mask := if s.power.st = .w5 then w5Mask off else 0xFFFF_FFFF
  if (p.payload.getD 2 0).getLsbD 0 ∨ 1 < op ∨ p.payload.length ≠ 16 then s
  else if reason ≠ 0 then s.manageReply port p reason w
  else if op = 0 then s.manageReply port p 0 (s.liveReg false off &&& mask).toNat
  else
    ((if mask = 0 then s else writeBlock false false off (BitVec.ofNat 32 w) s).settleAlert).manageReply port p 0 w

/-- MANAGE (R392): forwarded on the next listed port, or taken here at the end of its path. A path of more than 15 hops names none
(log 34). -/
def manage (port : Nat) (p : Packet) (s : State) : State :=
  if !s.power.routes ∨ 40 ≤ port ∨ !(s.port port).linked ∨ p.kind ≠ 0x21 ∨ 15 < p.tag.toNat then s
  else if p.tag.toNat ≤ p.hops then s.manageHere port p
  else
    s.sendDirected (pathHop (packetPath p) p.hops)
      { withPath p (setHop (packetPath p) p.hops port) with hops := p.hops + 1 }

/-! ### The rows -/

/-- MANAGE (R392). -/
def execManage (port : BitVec 6) (p : Packet) (s : State) : Out := .next (manage port.toNat p s)

end Sys2Proof.Machine
end

