-- ==== Sys2Proof/Machine/Registers.lean ====
section
/-! DEFINITION. The rows for register accesses: reads with their captures (R15), writes (R16), the counters (R301), the Crumb log
(R321), telemetry bins (R599), the debug block (R602) and the I3C address (R618). -/

namespace Sys2Proof.Machine

/-! ### Where an access goes (R14, R535, R537, R593, R619) -/

/-- What an access reaches: a register by its offset in the PF's BAR0, a word of a VF's MSI-X table or pending bits, nothing
(R19), or nothing that the function has (R535). -/
inductive RegTarget where
  | reg (off : Nat)
  | table (fn o : Nat)
  | pend (fn : Nat)
  | nothing
  | config (fn o : Nat)
  | unsupported
deriving DecidableEq, Repr

/-- The access can be made: the link is up and the function exists, or the always-on domain serves the I3C port. -/
def State.reaches (s : State) : AccessSrc → Bool
  | .pf => s.linkUp
  | .vf _ => s.linkUp && s.host.vfEnable
  | .i3c _ => s.power.alwaysOn
  | .config fn => s.linkUp && (fn == 0 || (s.host.vfEnable && decide (fn.toNat ≤ 16)))

/-- The access is made over I3C. -/
def overI3c : AccessSrc → Bool
  | .i3c _ => true
  | _ => false

/-- The access is made by a virtual function. -/
def isVf : AccessSrc → Bool
  | .vf _ => true
  | _ => false

/-- The function that makes the access. -/
def accessFn : AccessSrc → Nat
  | .vf n => n.toNat + 1
  | .config fn => fn.toNat
  | _ => 0

/-- The blocks that I3C reads (R592, R593). -/
def i3cBlock (off : Nat) : Bool :=
  decide (off < 0x004_0000) || (decide (0x050_0000 ≤ off) && decide (off < 0x070_0000))

/-- The offsets that I3C writes (R593). -/
def i3cWritable (off : Nat) : Bool :=
  (decide (0x001_0020 ≤ off) && decide (off ≤ 0x001_0030)) || off == 0x002_0104 || off == 0x050_0010

/-- An access is naturally aligned and 32 bits wide (R14). -/
def wordAccess (width : AccessWidth) (off : Nat) : Bool := width == .w32 && off % 4 == 0

/-- The target of an access. A VF access of another shape, or outside the VF's BARs, is unsupported (R14, R535, R537). -/
def regTarget (src : AccessSrc) (width : AccessWidth) (off : Nat) : RegTarget :=
  match src with
  | .i3c _ => if off % 4 = 0 ∧ i3cBlock off then .reg off else .nothing
  | .pf => if wordAccess width off then .reg off else .unsupported
  | .config fn => .config fn.toNat off
  | .vf n =>
    if !wordAccess width off ∨ 0x2_0000 ≤ off then .unsupported
    else if off < 0x1_0000 then .reg (0x010_0000 + 0x1_0000 * n.toNat + off)
    else if off < 0x1_0040 then .table (n.toNat + 1) (off - 0x1_0000)
    else if off = 0x1_0800 then .pend (n.toNat + 1)
    else .nothing

/-! ### Reads (R15, R16, R590, R507) -/

/-- The word that a read answers. -/
def State.answer (s : State) (w : Word) : State := { s with reply := some (.word w) }

/-- An access that the function answers with Unsupported Request (R14, R535, R545). -/
def State.refuseAccess (s : State) (fn : Nat) : State := { s.aer fn .unsupported with reply := some .unsupported }

/-- A read of EVT_PORT_DATA goes on to the next word of the capture (R590); past the eighth the value is open (log 6). -/
def State.nextPortWord (s : State) (i3c : Bool) : State :=
  let p := s.log.portOf i3c
  if 8 ≤ p.pos then { s with free := s.free + 1 }
  else if i3c then s.updLog fun l => { l with portI3c := { p with pos := p.pos + 1 } }
  else s.updLog fun l => { l with port := { p with pos := p.pos + 1 } }

/-- A plain read of a register, with what the read itself changes. -/
def State.readPlain (s : State) (i3c : Bool) (off : Nat) : State :=
  let s1 := s.answer (s.readReg i3c off)
  if s.served i3c off = 0 then s1
  else if off = 0x002_0108 then s1.nextPortWord i3c
  else if off = 0x003_0114 then dumpPortDataRead s
  else s1

/-- The LO registers of the pairs of R15, by their offset in the PF's BAR0. -/
def pairLo (off : Nat) : Bool :=
  let o := off % 0x1_0000
  if off < 0x001_0000 then o == 0x010 || o == 0x110 || (runIndex o 0x200 8 32).isSome
  else if off < 0x002_0000 then o == 0x00C
  else if off < 0x003_0000 then o == 0x000 || o == 0x020 || o == 0x028 || o == 0x110
  else if off < 0x004_0000 then o == 0x028 || o == 0x108
  else if off < 0x005_0000 then o == 0x020
  else if off < 0x010_0000 then false
  else if off < 0x020_0000 then o == 0x108 || (runIndex o 0x200 8 6).isSome || (runIndex o 0x240 8 12).isSome
  else if off < 0x021_0000 then o == 0x008 || o == 0x018
  else if off < 0x030_0000 then false
  else if off < 0x031_0000 then
    o == 0x004 || o == 0x200 || o == 0x208 || (runIndex o 0x400 0x20 16).isSome || (runIndex o 0x408 0x20 16).isSome
  else if off < 0x080_0000 then false
  else if off < 0x081_0000 then
    [0x000, 0x010, 0x030, 0x108, 0x110, 0x120, 0x138, 0x204, 0x304, 0x30C].contains o
  else false

/-- The captures of an access (R15, R619). -/
def Captures.of (c : Captures) (i3c : Bool) : SMap (Option Word) := if i3c then c.i3c else c.bar0

/-- The captures of an access changed. -/
def Captures.upd (c : Captures) (i3c : Bool) (f : SMap (Option Word) → SMap (Option Word)) : Captures :=
  if i3c then { c with i3c := f c.i3c } else { c with bar0 := f c.bar0 }

/-- A read of a LO register captures the HI register of its pair at the same moment (R15). -/
def State.readLo (s : State) (i3c : Bool) (off : Nat) : State :=
  { s.answer (s.readReg i3c off) with
      captures := s.captures.upd i3c fun m => smapSet none m (off + 4) (some (s.readReg i3c (off + 4))) }

/-- A read of a HI register returns the captured value and ends the capture; with no capture it returns the live value (R15). -/
def State.readHi (s : State) (i3c : Bool) (off : Nat) : State :=
  match smapGet none (s.captures.of i3c) off with
  | some w => { s.answer (w &&& s.served i3c off) with captures := s.captures.upd i3c fun m => smapErase m off }
  | none => s.answer (s.readReg i3c off)

/-- A read of a register: a LO or a HI register as R15 says, any other plainly. -/
def State.readAny (s : State) (i3c : Bool) (off : Nat) : State :=
  if pairLo off then s.readLo i3c off
  else if 4 ≤ off ∧ pairLo (off - 4) then s.readHi i3c off
  else s.readPlain i3c off

/-- The offsets of PWR_FCAST (R529). -/
def inForecast (off : Nat) : Bool := decide (0x001_1000 ≤ off) && decide (off < 0x001_1330)

/-- An I3C read that starts a burst within PWR_FCAST keeps to the half of the double buffer that is current then; one that starts
elsewhere keeps none (R620). -/
def State.startBurst (s : State) (src : AccessSrc) (off : Nat) : State :=
  match src with
  | .i3c false => { s with burst := if inForecast off then some s.power.fcCur else none }
  | _ => s

/-- A read of a function's configuration space: the identifiers of R533 at their places in it (PRESUMED, log 35); what else it
holds is open (log 6). -/
def State.readConfig (s : State) (fn o : Nat) : State :=
  match s.configWord fn o with
  | some w => s.answer w
  | none =>
    let (w, s1) := s.draw 32
    s1.answer w

/-- A read access (R14 to R19, R535, R593). In the recovery window a VF's own table reads zero as well (R560). -/
def readAccess (src : AccessSrc) (width : AccessWidth) (off : Nat) (s : State) : State :=
  if !s.reaches src then s
  else match regTarget src width off with
    | .reg a => (s.startBurst src a).readAny (overI3c src) a
    | .config fn o => s.readConfig fn o
    | .table fn o => s.answer (if s.sec.boot = 2 then 0 else (s.fn fn).tableWord o)
    | .pend fn => s.answer (if s.sec.boot = 2 then 0 else (s.fn fn).pendWord 0)
    | .nothing => s.answer 0
    | .unsupported => s.refuseAccess (accessFn src)

/-! ### Writes (R16, R535, R593) -/

/-- A write access. A write that no function takes gives no answer; Advanced Error Reporting notes it, and a
poisoned write, which is discarded (R535, R545). -/
def registerWrite (src : AccessSrc) (width : AccessWidth) (off : Nat) (v : Word) (poisoned : Bool) (s : State) : State :=
  if !s.reaches src ∨ ((overI3c src) ∧ !i3cWritable off) then s
  else if poisoned && !overI3c src then s.aer (accessFn src) .poisoned
  else match regTarget src width off with
    | .reg a => (s.writeReg (overI3c src) (isVf src) a v).settleAlert
    | .table fn o => if s.sec.boot = 2 then s else writeTable fn o v s
    | .pend _ => s
    | .config _ _ => s
    | .nothing => s
    | .unsupported => s.aer (accessFn src) .unsupported

/-- COUNTER_LO_WRITE_CLEAR (R301): a write of any value to the LO register of a partition's counter. -/
def counterClear (n o : Nat) (s : State) : State :=
  s.hostReg (0x010_0000 + 0x1_0000 * n + o) fun s => s.updPart n fun p => p.clearCounter o

/-! ### Telemetry bins (R599) -/

/-- The page of a bin. -/
def State.telemetryPage (s : State) (t : TelSample) (start : Nat) (counts : Nat → Nat × Nat) : BitVec 8192 :=
  let die := fun (d : Nat) =>
    natBytes 2 (t.hottest.getD d 0).toNat ++ natBytes 2 (t.meanStep.getD d 0).toNat ++ natBytes 4 (t.stretched.getD d 0).toNat ++
      natBytes 4 (t.rounds.getD d 0).toNat ++ natBytes 4 0
  let part := fun (n : Nat) => natBytes 4 (min (counts n).1 (2 ^ 32 - 1)) ++ natBytes 4 (min (counts n).2 (2 ^ 32 - 1))
  let bytes := natBytes 4 (s.tele.seq + 1) ++ natBytes 4 0 ++ natBytes 8 start ++ (List.range 4).flatMap die ++
    (List.range 16).flatMap part ++ ((List.range 40).flatMap fun g => natBytes 4 (t.lines.getD g 0).toNat) ++
    ((List.range 40).flatMap fun k => natBytes 4 (t.flits.getD k 0).toNat) ++ natBytes 2 t.draw.toNat
  BitVec.ofNat 8192 (bytesNat bytes)

/-- A page goes where CUR does not point, and CUR flips (R599). -/
def Telemetry.put (x : Telemetry) (page : BitVec 8192) : Telemetry :=
  { x with pageA := if x.cur then page else x.pageA, pageB := if x.cur then x.pageB else page, cur := !x.cur, seq := x.seq + 1 }

/-- TELEMETRY_BIN_END (R599): the bin that the first GTB step has ended (R40), or the one that ended last, once its boundary has
come. -/
def telemetryBinEnd (t : TelSample) (s : State) : State :=
  let period := 1000 * s.tele.binUs.toNat
  let e := s.now - s.now % period
  if s.power.st = .w5 then s
  else match s.tele.cut with
  | some (start, counts) =>
    let page := s.telemetryPage t start fun n => smapGet (0, 0) counts n
    s.updTele fun x => { x.put page with cut := none }
  | none =>
    if e ≤ s.tele.binStart then s
    else
      let page := s.telemetryPage t (max s.tele.binStart (e - period)) fun n => ((s.part n).telProg, (s.part n).telFrz)
      let s1 := s.updTele fun x => { x.put page with binStart := e, binUs := x.nextUs }
      (List.range 16).foldl (fun s n => s.updPart n fun p => { p with telProg := 0, telFrz := 0 }) s1

/-! ### The accumulator window (R158, R159) -/

/-- The source number and the place of the selected entry, as its ECC event names them (R445, R589). -/
def State.accPlace (s : State) (off : Nat) : EccAt :=
  let d := s.dbg
  let i := off / 16
  if d.slot then .proofBuffer d.pt d.core d.index (BitVec.ofNat 7 (i / 128)) (BitVec.ofNat 7 i)
  else .bank d.pt d.core d.array (BitVec.ofNat 1 d.index.toNat)

/-- DBG_ACC_WINDOW_READ (R159): the word as stored. Where the entry's check fails an ECC event is logged, always as 0x0302 (DESIGN CHOICE,
log 6: the rule does not say which); nothing else changes. -/
def accWindowRead (off : Nat) (bad : Bool) (s : State) : State :=
  let o := off - off % 4
  let at' := s.accPlace o
  let s1 := s.answer (s.readAcc o bad)
  if bad && s.sec.grants 0 && (s.part s.dbg.pt.toNat).halted && (s.accEntry o).isSome then
    s1.event (s.eccUnit at').2 0x0302 (eccDetail at')
  else s1

/-! ### The rows -/

/-- DBG_HALT_GO (R602). -/
def execDbgHaltGo (pt : Pt) (s : State) : Out := .next (s.hostReg 0x100_0008 fun s => dbgHaltGo pt.toNat s)
/-- DBG_RESUME_GO (R602). -/
def execDbgResumeGo (pt : Pt) (s : State) : Out := .next (s.hostReg 0x100_0008 fun s => dbgResumeGo pt.toNat s)
/-- DBG_ACC_WINDOW_READ (R159). -/
def execDbgAccWindowRead (off : BitVec 19) (bad : Bool) (s : State) : Out :=
  .next (s.hostReg 0x110_0000 fun s => accWindowRead off.toNat bad s)
/-- CRUMB_LOG_EMPTY (R321). -/
def execCrumbLogEmpty (s : State) : Out := .next (s.hostReg 0x050_0800 State.emptyCrumbLog)
/-- TELEMETRY_BIN_END (R599). -/
def execTelemetryBinEnd (t : TelSample) (s : State) : Out := .next (telemetryBinEnd t s)
/-- REG_PAIR_LO_READ (R15). -/
def execRegPairLoRead (src : AccessSrc) (width : AccessWidth) (off : BitVec 25) (s : State) : Out :=
  .next (readAccess src width off.toNat s)
/-- REG_PAIR_HI_READ (R15). -/
def execRegPairHiRead (src : AccessSrc) (width : AccessWidth) (off : BitVec 25) (s : State) : Out :=
  .next (readAccess src width off.toNat s)
/-- COUNTER_LO_WRITE_CLEAR (R301). -/
def execCounterLoWriteClear (pt : Pt) (off : BitVec 16) (s : State) : Out := .next (counterClear pt.toNat off.toNat s)
/-- I3C_DYNAMIC_ADDRESS (R618). -/
def execI3cDynamicAddress (a : BitVec 7) (s : State) : Out :=
  .next (if s.power.alwaysOn then { s with i3cAddr := some a } else s)
/-- REGISTER_WRITE (R16). -/
def execRegisterWrite (src : AccessSrc) (width : AccessWidth) (off : BitVec 25) (v : Word) (poisoned : Bool)
    (s : State) : Out := .next (registerWrite src width off.toNat v poisoned s)

end Sys2Proof.Machine
end

