-- ==== Sys2Proof/Machine/Dispatch.lean ====
section
/-! DEFINITION. The command's effect: one arm per constructor, each one direct call of its meaning. -/

namespace Sys2Proof.Machine

/-- The effect of a command on everything but the queue. -/
def exec (i : Instr) (s : State) : Host.Outcome State Fault Refusal :=
  match i with
  | .bundleIssue pt c => Sys2Proof.Machine.execBundleIssue pt c s
  | .nop pt c => Sys2Proof.Machine.execNop pt c s
  | .li pt c rd h imm => Sys2Proof.Machine.execLi pt c rd h imm s
  | .add pt c rd ra b => Sys2Proof.Machine.execAdd pt c rd ra b s
  | .sub pt c rd ra b => Sys2Proof.Machine.execSub pt c rd ra b s
  | .and pt c rd ra b => Sys2Proof.Machine.execAnd pt c rd ra b s
  | .or pt c rd ra b => Sys2Proof.Machine.execOr pt c rd ra b s
  | .xor pt c rd ra b => Sys2Proof.Machine.execXor pt c rd ra b s
  | .shl pt c rd ra b => Sys2Proof.Machine.execShl pt c rd ra b s
  | .shr pt c rd ra b => Sys2Proof.Machine.execShr pt c rd ra b s
  | .shrA pt c rd ra b => Sys2Proof.Machine.execShrA pt c rd ra b s
  | .mul pt c rd ra b => Sys2Proof.Machine.execMul pt c rd ra b s
  | .cmp pt c pd cond ra b => Sys2Proof.Machine.execCmp pt c pd cond ra b s
  | .brp pt c p inv off => Sys2Proof.Machine.execBrp pt c p inv off s
  | .loop pt c len count => Sys2Proof.Machine.execLoop pt c len count s
  | .tile pt c budget => Sys2Proof.Machine.execTile pt c budget s
  | .halt pt c => Sys2Proof.Machine.execHalt pt c s
  | .trap pt c code => Sys2Proof.Machine.execTrap pt c code s
  | .anc pt c a mx my delta => Sys2Proof.Machine.execAnc pt c a mx my delta s
  | .steprR pt c r => Sys2Proof.Machine.execSteprR pt c r s
  | .steprW pt c r => Sys2Proof.Machine.execSteprW pt c r s
  | .steprInc pt c => Sys2Proof.Machine.execSteprInc pt c s
  | .seedrR pt c r => Sys2Proof.Machine.execSeedrR pt c r s
  | .seedrW pt c r => Sys2Proof.Machine.execSeedrW pt c r s
  | .gtbr pt c rd => Sys2Proof.Machine.execGtbr pt c rd s
  | .hbeat pt c progress => Sys2Proof.Machine.execHbeat pt c progress s
  | .wld pt c a fmt tgt mode rw rx => Sys2Proof.Machine.execWld pt c a fmt tgt mode rw rx s
  | .wldLoaded pt c a => Sys2Proof.Machine.execWldLoaded pt c a s
  | .wswap pt c mask => Sys2Proof.Machine.execWswap pt c mask s
  | .mma pt c mod mask banks m1 => Sys2Proof.Machine.execMma pt c mod mask banks m1 s
  | .aqRowPop pt c => Sys2Proof.Machine.execAqRowPop pt c s
  | .arrayRowLand pt c a mismatch => Sys2Proof.Machine.execArrayRowLand pt c a mismatch s
  | .drain pt c a bank f => Sys2Proof.Machine.execDrain pt c a bank f s
  | .drainRowRead pt c a => Sys2Proof.Machine.execDrainRowRead pt c a s
  | .drainRowWrite pt c a => Sys2Proof.Machine.execDrainRowWrite pt c a s
  | .pbdrain pt c a slot f => Sys2Proof.Machine.execPbdrain pt c a slot f s
  | .fold pt c a bank sa sb rt => Sys2Proof.Machine.execFold pt c a bank sa sb rt s
  | .foldRowAdd pt c a => Sys2Proof.Machine.execFoldRowAdd pt c a s
  | .zoa pt c mask => Sys2Proof.Machine.execZoa pt c mask s
  | .pbzero pt c slot rt => Sys2Proof.Machine.execPbzero pt c slot rt s
  | .pbspillW pt c slot eng ri => Sys2Proof.Machine.execPbspillW pt c slot eng ri s
  | .pbspillA pt c slot eng ri => Sys2Proof.Machine.execPbspillA pt c slot eng ri s
  | .pbload pt c slot eng ri rt => Sys2Proof.Machine.execPbload pt c slot eng ri rt s
  | .pbImageHeaderArrive die eng idx => Sys2Proof.Machine.execPbImageHeaderArrive die eng idx s
  | .pbSlotRowTransfer die eng idx => Sys2Proof.Machine.execPbSlotRowTransfer die eng idx s
  | .idle pt c mask n => Sys2Proof.Machine.execIdle pt c mask n s
  | .tastingRowInject x round seed err => Sys2Proof.Machine.execTastingRowInject x round seed err s
  | .vld pt c vd rs part => Sys2Proof.Machine.execVld pt c vd rs part s
  | .vst pt c va rs part => Sys2Proof.Machine.execVst pt c va rs part s
  | .vadd pt c vd va vb ty => Sys2Proof.Machine.execVadd pt c vd va vb ty s
  | .vsub pt c vd va vb ty => Sys2Proof.Machine.execVsub pt c vd va vb ty s
  | .vmul pt c vd va vb ty => Sys2Proof.Machine.execVmul pt c vd va vb ty s
  | .vfma pt c vd va vb vc ty => Sys2Proof.Machine.execVfma pt c vd va vb vc ty s
  | .vmax pt c vd va vb ty => Sys2Proof.Machine.execVmax pt c vd va vb ty s
  | .vmin pt c vd va vb ty => Sys2Proof.Machine.execVmin pt c vd va vb ty s
  | .vcmp pt c vd va vb ty cond => Sys2Proof.Machine.execVcmp pt c vd va vb ty cond s
  | .vsel pt c vd va vb vc => Sys2Proof.Machine.execVsel pt c vd va vb vc s
  | .vand pt c vd va vb ty => Sys2Proof.Machine.execVand pt c vd va vb ty s
  | .vor pt c vd va vb ty => Sys2Proof.Machine.execVor pt c vd va vb ty s
  | .vxor pt c vd va vb ty => Sys2Proof.Machine.execVxor pt c vd va vb ty s
  | .vshl pt c vd va vb ty => Sys2Proof.Machine.execVshl pt c vd va vb ty s
  | .vshr pt c vd va vb ty => Sys2Proof.Machine.execVshr pt c vd va vb ty s
  | .vshrA pt c vd va vb ty => Sys2Proof.Machine.execVshrA pt c vd va vb ty s
  | .vperm pt c vd va vb => Sys2Proof.Machine.execVperm pt c vd va vb s
  | .vcvt pt c vd va src tgt sr mr clr ri rsm => Sys2Proof.Machine.execVcvt pt c vd va src tgt sr mr clr ri rsm s
  | .vfn pt c vd va fn d => Sys2Proof.Machine.execVfn pt c vd va fn d s
  | .vaxsumF32 pt c vd va vb clr ra n1 => Sys2Proof.Machine.execVaxsumF32 pt c vd va vb clr ra n1 s
  | .vaxsumF64 pt c vd va vb clr ra n1 => Sys2Proof.Machine.execVaxsumF64 pt c vd va vb clr ra n1 s
  | .vaxsumW80 pt c vd va vb clr ra n1 => Sys2Proof.Machine.execVaxsumW80 pt c vd va vb clr ra n1 s
  | .vaxsumW128 pt c vd va vb clr ra n1 => Sys2Proof.Machine.execVaxsumW128 pt c vd va vb clr ra n1 s
  | .vaxsumTap pt c vd va vb clr ra n1 => Sys2Proof.Machine.execVaxsumTap pt c vd va vb clr ra n1 s
  | .vaxsumOut32 pt c vd va vb clr ra n1 => Sys2Proof.Machine.execVaxsumOut32 pt c vd va vb clr ra n1 s
  | .vaxsumOut64 pt c vd va vb clr ra n1 => Sys2Proof.Machine.execVaxsumOut64 pt c vd va vb clr ra n1 s
  | .vleav pt c vd ri rsm u => Sys2Proof.Machine.execVleav pt c vd ri rsm u s
  | .vcrumb pt c va ca width count ri rk => Sys2Proof.Machine.execVcrumb pt c va ca width count ri rk s
  | .vopt pt c vd va vb vc sel => Sys2Proof.Machine.execVopt pt c vd va vb vc sel s
  | .act pt c rs rows1 fmt rp rx => Sys2Proof.Machine.execAct pt c rs rows1 fmt rp rx s
  | .actRowDeliver pt c => Sys2Proof.Machine.execActRowDeliver pt c s
  | .peel pt c eng rq => Sys2Proof.Machine.execPeel pt c eng rq s
  | .peelDescriptorStart die eng => Sys2Proof.Machine.execPeelDescriptorStart die eng s
  | .peelLineArrive pt c line => Sys2Proof.Machine.execPeelLineArrive pt c line s
  | .engineSourceLineRead pt c line => Sys2Proof.Machine.execEngineSourceLineRead pt c line s
  | .peelTransferComplete die eng idx => Sys2Proof.Machine.execPeelTransferComplete die eng idx s
  | .bcopy pt c rs rt n1 => Sys2Proof.Machine.execBcopy pt c rs rt n1 s
  | .dssld pt c rs rt n1 => Sys2Proof.Machine.execDssld pt c rs rt n1 s
  | .dssst pt c rs rt n1 => Sys2Proof.Machine.execDssst pt c rs rt n1 s
  | .xsend pt c rs rt => Sys2Proof.Machine.execXsend pt c rs rt s
  | .messageAccept pt c idx => Sys2Proof.Machine.execMessageAccept pt c idx s
  | .xrecv pt c rs rt => Sys2Proof.Machine.execXrecv pt c rs rt s
  | .xredSumExact pt c rq => Sys2Proof.Machine.execXredSumExact pt c rq s
  | .xredSumTree pt c rq => Sys2Proof.Machine.execXredSumTree pt c rq s
  | .xredMax pt c rq mx => Sys2Proof.Machine.execXredMax pt c rq mx s
  | .xredGather pt c rq => Sys2Proof.Machine.execXredGather pt c rq s
  | .xredScatter pt c rq => Sys2Proof.Machine.execXredScatter pt c rq s
  | .collectiveResultWrite group => Sys2Proof.Machine.execCollectiveResultWrite group s
  | .xbar pt c rg => Sys2Proof.Machine.execXbar pt c rg s
  | .xbarRelease pt group => Sys2Proof.Machine.execXbarRelease pt group s
  | .xtime pt c rt => Sys2Proof.Machine.execXtime pt c rt s
  | .xtimeRelease pt c => Sys2Proof.Machine.execXtimeRelease pt c s
  | .xfence pt c p x => Sys2Proof.Machine.execXfence pt c p x s
  | .producerNotice pt c cause => Sys2Proof.Machine.execProducerNotice pt c cause s
  | .freezeBegin pt c => Sys2Proof.Machine.execFreezeBegin pt c s
  | .freezeEnd pt => Sys2Proof.Machine.execFreezeEnd pt s
  | .actRowFreezeDeliver pt c => Sys2Proof.Machine.execActRowFreezeDeliver pt c s
  | .tileSettleMeet pt c => Sys2Proof.Machine.execTileSettleMeet pt c s
  | .tileCommit pt => Sys2Proof.Machine.execTileCommit pt s
  | .tileYield pt a => Sys2Proof.Machine.execTileYield pt a s
  | .tileBudgetExpire pt => Sys2Proof.Machine.execTileBudgetExpire pt s
  | .admissionTick => Sys2Proof.Machine.execAdmissionTick s
  | .kernelStart pt => Sys2Proof.Machine.execKernelStart pt s
  | .kernelComplete pt => Sys2Proof.Machine.execKernelComplete pt s
  | .completionWrite => Sys2Proof.Machine.execCompletionWrite s
  | .expressCompare idx => Sys2Proof.Machine.execExpressCompare idx s
  | .expressRepair ctx pt => Sys2Proof.Machine.execExpressRepair ctx pt s
  | .contextSwitch pt ctx => Sys2Proof.Machine.execContextSwitch pt ctx s
  | .backgroundYield pt => Sys2Proof.Machine.execBackgroundYield pt s
  | .tileAbandon pt src => Sys2Proof.Machine.execTileAbandon pt src s
  | .sramEccError at' uncorrectable => Sys2Proof.Machine.execSramEccError at' uncorrectable s
  | .sramScrub => Sys2Proof.Machine.execSramScrub s
  | .crustCommit entries crc => Sys2Proof.Machine.execCrustCommit entries crc s
  | .crustScrub => Sys2Proof.Machine.execCrustScrub s
  | .tastingRoundComplete r => Sys2Proof.Machine.execTastingRoundComplete r s
  | .tastingPeriodEnd => Sys2Proof.Machine.execTastingPeriodEnd s
  | .partitionQuarantine pt => Sys2Proof.Machine.execPartitionQuarantine pt s
  | .quarantineTestsDone pt convicted => Sys2Proof.Machine.execQuarantineTestsDone pt convicted s
  | .coreFail die p => Sys2Proof.Machine.execCoreFail die p s
  | .rewind pt tests => Sys2Proof.Machine.execRewind pt tests s
  | .replayEnd pt c => Sys2Proof.Machine.execReplayEnd pt c s
  | .checkpoint pt => Sys2Proof.Machine.execCheckpoint pt s
  | .journalAppend pt r full => Sys2Proof.Machine.execJournalAppend pt r full s
  | .coreHangDetect pt c => Sys2Proof.Machine.execCoreHangDetect pt c s
  | .engineHangDetect e => Sys2Proof.Machine.execEngineHangDetect e s
  | .contextAbort ctx => Sys2Proof.Machine.execContextAbort ctx s
  | .engineReset e => Sys2Proof.Machine.execEngineReset e s
  | .partitionReset pt => Sys2Proof.Machine.execPartitionReset pt s
  | .moduleReset => Sys2Proof.Machine.execModuleReset s
  | .powerCycle => Sys2Proof.Machine.execPowerCycle s
  | .ladderStepComplete idx => Sys2Proof.Machine.execLadderStepComplete idx s
  | .ladderStepTimeout idx => Sys2Proof.Machine.execLadderStepTimeout idx s
  | .hangVerdict v => Sys2Proof.Machine.execHangVerdict v s
  | .rstReqPartition pt => Sys2Proof.Machine.execRstReqPartition pt s
  | .rstReqModule => Sys2Proof.Machine.execRstReqModule s
  | .rstReqPowerCycle => Sys2Proof.Machine.execRstReqPowerCycle s
  | .ovenTimerRestart => Sys2Proof.Machine.execOvenTimerRestart s
  | .ovenTimerExpire => Sys2Proof.Machine.execOvenTimerExpire s
  | .dumpStart pt cycle => Sys2Proof.Machine.execDumpStart pt cycle s
  | .dumpGo => Sys2Proof.Machine.execDumpGo s
  | .dumpUnitTimeout src => Sys2Proof.Machine.execDumpUnitTimeout src s
  | .dumpEnd recs => Sys2Proof.Machine.execDumpEnd recs s
  | .dumpPortDataRead => Sys2Proof.Machine.execDumpPortDataRead s
  | .ctxCfgWrite v => Sys2Proof.Machine.execCtxCfgWrite v s
  | .loafLoad => Sys2Proof.Machine.execLoafLoad s
  | .loafVerifyDone slot head => Sys2Proof.Machine.execLoafVerifyDone slot head s
  | .loafUnload => Sys2Proof.Machine.execLoafUnload s
  | .bsAbort entry => Sys2Proof.Machine.execBsAbort entry s
  | .bsCfgWrite v => Sys2Proof.Machine.execBsCfgWrite v s
  | .genLoad => Sys2Proof.Machine.execGenLoad s
  | .genShardArrive slot shard f => Sys2Proof.Machine.execGenShardArrive slot shard f s
  | .genTimeoutExpire slot => Sys2Proof.Machine.execGenTimeoutExpire slot s
  | .genActivate => Sys2Proof.Machine.execGenActivate s
  | .genClose => Sys2Proof.Machine.execGenClose s
  | .genCancel => Sys2Proof.Machine.execGenCancel s
  | .ptCfgWrite pt vf v => Sys2Proof.Machine.execPtCfgWrite pt vf v s
  | .ptRstHoldWrite pt vf hold => Sys2Proof.Machine.execPtRstHoldWrite pt vf hold s
  | .powerOn slotId => Sys2Proof.Machine.execPowerOn slotId s
  | .inputUndervoltage => Sys2Proof.Machine.execInputUndervoltage s
  | .overvoltageCutoff => Sys2Proof.Machine.execOvervoltageCutoff s
  | .overvoltageRecover => Sys2Proof.Machine.execOvervoltageRecover s
  | .starterRomBoot => Sys2Proof.Machine.execStarterRomBoot s
  | .pwrEnRise cool => Sys2Proof.Machine.execPwrEnRise cool s
  | .pwrEnFall => Sys2Proof.Machine.execPwrEnFall s
  | .mainRailsInRegulation => Sys2Proof.Machine.execMainRailsInRegulation s
  | .mainRailOutOfRegulation => Sys2Proof.Machine.execMainRailOutOfRegulation s
  | .thermalTrip die => Sys2Proof.Machine.execThermalTrip die s
  | .thermTripNRelease => Sys2Proof.Machine.execThermTripNRelease s
  | .laserBayOpen bay => Sys2Proof.Machine.execLaserBayOpen bay s
  | .laserSourceInsert bay spares => Sys2Proof.Machine.execLaserSourceInsert bay spares s
  | .laserFail bay laser => Sys2Proof.Machine.execLaserFail bay laser s
  | .supplyDroop die => Sys2Proof.Machine.execSupplyDroop die s
  | .droopClear die => Sys2Proof.Machine.execDroopClear die s
  | .thermalStepDown die => Sys2Proof.Machine.execThermalStepDown die s
  | .vinBelowMin mv current steps => Sys2Proof.Machine.execVinBelowMin mv current steps s
  | .dieLinkRetry src => Sys2Proof.Machine.execDieLinkRetry src s
  | .dieLinkLaneRepair src => Sys2Proof.Machine.execDieLinkLaneRepair src s
  | .dieLinkRetrainTimeout src => Sys2Proof.Machine.execDieLinkRetrainTimeout src s
  | .timeSyncTimeout => Sys2Proof.Machine.execTimeSyncTimeout s
  | .powerBinEnd draw ballast steps => Sys2Proof.Machine.execPowerBinEnd draw ballast steps s
  | .pwrBandApply => Sys2Proof.Machine.execPwrBandApply s
  | .pwrBandForce => Sys2Proof.Machine.execPwrBandForce s
  | .forecastPublish bins => Sys2Proof.Machine.execForecastPublish bins s
  | .wStateEnter => Sys2Proof.Machine.execWStateEnter s
  | .pwrCtrlWake => Sys2Proof.Machine.execPwrCtrlWake s
  | .pwrWakeTolWrite v => Sys2Proof.Machine.execPwrWakeTolWrite v s
  | .wakeEvent => Sys2Proof.Machine.execWakeEvent s
  | .wStateExitDone => Sys2Proof.Machine.execWStateExitDone s
  | .perstNAssert => Sys2Proof.Machine.execPerstNAssert s
  | .perstNDeassert => Sys2Proof.Machine.execPerstNDeassert s
  | .pcieTrainRetry lanes => Sys2Proof.Machine.execPcieTrainRetry lanes s
  | .pcieLinkUp gen width flit => Sys2Proof.Machine.execPcieLinkUp gen width flit s
  | .pcieLinkDown => Sys2Proof.Machine.execPcieLinkDown s
  | .pcieReplay => Sys2Proof.Machine.execPcieReplay s
  | .pcieConfigWrite fn c => Sys2Proof.Machine.execPcieConfigWrite fn c s
  | .l0pRequest reduced => Sys2Proof.Machine.execL0pRequest reduced s
  | .vfFlr vf => Sys2Proof.Machine.execVfFlr vf s
  | .pfFlr => Sys2Proof.Machine.execPfFlr s
  | .bar2Read fn off len => Sys2Proof.Machine.execBar2Read fn off len s
  | .bar2Write fn off bytes poisoned => Sys2Proof.Machine.execBar2Write fn off bytes poisoned s
  | .hostCompletionReceive tag r => Sys2Proof.Machine.execHostCompletionReceive tag r s
  | .pcieCplTimeout tag => Sys2Proof.Machine.execPcieCplTimeout tag s
  | .msixDeliverable fn v => Sys2Proof.Machine.execMsixDeliverable fn v s
  | .spdmRequest code body => Sys2Proof.Machine.execSpdmRequest code body s
  | .spdmVendorReport nonce => Sys2Proof.Machine.execSpdmVendorReport nonce s
  | .doeAbort => Sys2Proof.Machine.execDoeAbort s
  | .fwUpdate => Sys2Proof.Machine.execFwUpdate s
  | .recoveryChunk => Sys2Proof.Machine.execRecoveryChunk s
  | .recoveryDone => Sys2Proof.Machine.execRecoveryDone s
  | .pubSet slot => Sys2Proof.Machine.execPubSet slot s
  | .pubClear slot => Sys2Proof.Machine.execPubClear slot s
  | .dbgNonce => Sys2Proof.Machine.execDbgNonce s
  | .dbgUnlock => Sys2Proof.Machine.execDbgUnlock s
  | .svnCommit => Sys2Proof.Machine.execSvnCommit s
  | .pubLock => Sys2Proof.Machine.execPubLock s
  | .fwActivate => Sys2Proof.Machine.execFwActivate s
  | .dbgRelock => Sys2Proof.Machine.execDbgRelock s
  | .helloSend => Sys2Proof.Machine.execHelloSend s
  | .hello port h => Sys2Proof.Machine.execHello port h s
  | .helloTimeout port => Sys2Proof.Machine.execHelloTimeout port s
  | .portSignalDetect port => Sys2Proof.Machine.execPortSignalDetect port s
  | .portTrainComplete port lanes fast => Sys2Proof.Machine.execPortTrainComplete port lanes fast s
  | .portTrainTimeout port => Sys2Proof.Machine.execPortTrainTimeout port s
  | .trainBackoffEnd port => Sys2Proof.Machine.execTrainBackoffEnd port s
  | .flitReceive port flit => Sys2Proof.Machine.execFlitReceive port flit s
  | .laneRetire port lane => Sys2Proof.Machine.execLaneRetire port lane s
  | .linkLoss port => Sys2Proof.Machine.execLinkLoss port s
  | .packetForward port p => Sys2Proof.Machine.execPacketForward port p s
  | .read p => Sys2Proof.Machine.execRead p s
  | .write p => Sys2Proof.Machine.execWrite p s
  | .atomicAdd p => Sys2Proof.Machine.execAtomicAdd p s
  | .readData p => Sys2Proof.Machine.execReadData p s
  | .ack p => Sys2Proof.Machine.execAck p s
  | .message p => Sys2Proof.Machine.execMessage p s
  | .notReady p => Sys2Proof.Machine.execNotReady p s
  | .xqFree p => Sys2Proof.Machine.execXqFree p s
  | .refuse p => Sys2Proof.Machine.execRefuse p s
  | .requestResend dst seq => Sys2Proof.Machine.execRequestResend dst seq s
  | .requestTimeout dst seq => Sys2Proof.Machine.execRequestTimeout dst seq s
  | .collective group k node m => Sys2Proof.Machine.execCollective group k node m s
  | .manage port p => Sys2Proof.Machine.execManage port p s
  | .syncSend => Sys2Proof.Machine.execSyncSend s
  | .sync port ts => Sys2Proof.Machine.execSync port ts s
  | .syncTimeout => Sys2Proof.Machine.execSyncTimeout s
  | .delayReqSend => Sys2Proof.Machine.execDelayReqSend s
  | .delayReq port t1 => Sys2Proof.Machine.execDelayReq port t1 s
  | .delayRsp port t2 t3 => Sys2Proof.Machine.execDelayRsp port t2 t3 s
  | .fabOpGo v => Sys2Proof.Machine.execFabOpGo v s
  | .fabRtDataWrite v => Sys2Proof.Machine.execFabRtDataWrite v s
  | .fabNodeIdWrite v => Sys2Proof.Machine.execFabNodeIdWrite v s
  | .collGroupEntryWrite f v => Sys2Proof.Machine.execCollGroupEntryWrite f v s
  | .memLineRead line flagged unflagged => Sys2Proof.Machine.execMemLineRead line flagged unflagged s
  | .memLineWrite line data mask poisoned => Sys2Proof.Machine.execMemLineWrite line data mask poisoned s
  | .memPositionFail group pos package => Sys2Proof.Machine.execMemPositionFail group pos package s
  | .memChanFail group pos => Sys2Proof.Machine.execMemChanFail group pos s
  | .patrolScrubLine line flagged unflagged => Sys2Proof.Machine.execPatrolScrubLine line flagged unflagged s
  | .refresh channel => Sys2Proof.Machine.execRefresh channel s
  | .hotRefresh device => Sys2Proof.Machine.execHotRefresh device s
  | .hotRefreshEnd => Sys2Proof.Machine.execHotRefreshEnd s
  | .memReformStart => Sys2Proof.Machine.execMemReformStart s
  | .memReformDone => Sys2Proof.Machine.execMemReformDone s
  | .dbgHaltGo pt => Sys2Proof.Machine.execDbgHaltGo pt s
  | .dbgResumeGo pt => Sys2Proof.Machine.execDbgResumeGo pt s
  | .dbgAccWindowRead off bad => Sys2Proof.Machine.execDbgAccWindowRead off bad s
  | .crumbLogEmpty => Sys2Proof.Machine.execCrumbLogEmpty s
  | .eventDeliver idx => Sys2Proof.Machine.execEventDeliver idx s
  | .eventCommit => Sys2Proof.Machine.execEventCommit s
  | .eventAggWindowEnd => Sys2Proof.Machine.execEventAggWindowEnd s
  | .evtPortSeqWrite i3c v => Sys2Proof.Machine.execEvtPortSeqWrite i3c v s
  | .ledgerRecordWrite die type src payload => Sys2Proof.Machine.execLedgerRecordWrite die type src payload s
  | .ledgerHourly => Sys2Proof.Machine.execLedgerHourly s
  | .marginSweep ms => Sys2Proof.Machine.execMarginSweep ms s
  | .telemetryBinEnd t => Sys2Proof.Machine.execTelemetryBinEnd t s
  | .regPairLoRead src width off => Sys2Proof.Machine.execRegPairLoRead src width off s
  | .regPairHiRead src width off => Sys2Proof.Machine.execRegPairHiRead src width off s
  | .counterLoWriteClear pt off => Sys2Proof.Machine.execCounterLoWriteClear pt off s
  | .i3cDynamicAddress a => Sys2Proof.Machine.execI3cDynamicAddress a s
  | .registerWrite src width off v poisoned => Sys2Proof.Machine.execRegisterWrite src width off v poisoned s

end Sys2Proof.Machine
end

