-- ==== Sys2Proof/Safety.lean ====
section
/-! DEFINITION. What counts as a safe run of the module, and the conditions that the claims speak of: when an event of a core
takes place, when an access reaches its register, what an instruction of a core leaves owing, and the invariants of a step. -/

namespace Sys2Proof.Machine

/-- A command completes: it answers a next state. -/
def Completes (i : Instr) (s : State) : Prop := ∃ t, exec i s = .next t

/-- Logical core `c` of partition `pt` is the physical core `k` (R157, R600). -/
def IsCore (s : State) (pt : Pt) (c : LCore) (k : Nat) : Prop := s.phys pt.toNat c.toNat = some k

/-- Logical core `c` of partition `pt` is the physical core `k`, and it may issue in this cycle: its partition runs a kernel, and is
neither frozen, held nor halted (R181, R281, R285). -/
def IssuesAt (s : State) (pt : Pt) (c : LCore) (k : Nat) : Prop :=
  IsCore s pt c k ∧ (s.part pt.toNat).live = true ∧ (s.core k).seq = .issuing ∧ s.pipeHold pt.toNat = false

/-- The host's access to a register of BAR0 arrives, and the register is served (R527, R549, R560). -/
def HostReaches (s : State) (off : Nat) : Prop := s.linkUp = true ∧ s.served false off = 0xFFFF_FFFF

/-- An access to a register of the fabric reaches it. -/
def FabReaches (s : State) (off : Nat) : Prop := s.power.routes = true ∧ s.served false off = 0xFFFF_FFFF

/-- The state in which core `k` owes one more effect, at the end of the cycle `due` of its partition; nothing else differs
(R185, R186). -/
def State.owing (s : State) (k due rank : Nat) (a : Act) : State :=
  s.setCore k { s.core k with writes := (s.core k).writes ++ [⟨due, rank, a⟩] }

/-- The state in which core `k` owes a write of `v` through specifier `rd`, at the end of the last cycle of a latency `lat`
that began in this cycle (R184, R185). -/
def State.owingReg (s : State) (pt : Pt) (k lat : Nat) (rd : BitVec 6) (v : DWord) : State :=
  s.owing k ((s.part pt.toNat).cyc + lat - 1) 1 (specWrite rd v)

/-- The context fault of an illegal instruction in a slot of core `c` at its PC, raised by the unit `u` of the core
(R182, R299). -/
def State.illegalAt (s : State) (pt : Pt) (c : LCore) (k slot u : Nat) : State :=
  s.raise pt.toNat c.toNat k ⟨0x01, 0, slot, (s.core k).pc, u⟩

/-- The state in which core `k`'s vector unit is taken for `occ` cycles from this one, and the core owes a write of a vector
register at the end of the last cycle of a latency `lat` (R185, R279). -/
def State.owingV (s : State) (pt : Pt) (k occ lat : Nat) (vd : BitVec 6) (v : VReg) : State :=
  s.setCore k
    { s.core k with
        vBusy := (s.part pt.toNat).cyc + occ
        writes := (s.core k).writes ++ [⟨(s.part pt.toNat).cyc + lat - 1, 1, .vreg vd.toNat v⟩] }

/-- Core `k`, which is in issue, has its vector unit free (R279), and the list of cores is in order. -/
def VectorFree (s : State) (pt : Pt) (k : Nat) : Prop :=
  (s.core k).vBusy ≤ (s.part pt.toNat).cyc ∧ smapSorted s.cores = true

/-- Memory is in its canonical form. -/
def MemOk (s : State) : Prop := s.mem.wf = true

/-- The lists of numbered units are in order, without repeats (R20, R157, R417): each unit is held once. -/
def UnitsOk (s : State) : Prop :=
  smapSorted s.cores = true ∧ smapSorted s.dies = true ∧ smapSorted s.parts = true ∧ smapSorted s.ctxs = true ∧
    smapSorted s.loafs = true ∧ smapSorted s.models = true ∧ smapSorted s.links = true ∧ smapSorted s.bays = true ∧
    smapSorted s.host.fns = true ∧ smapSorted s.fab.ports = true

end Sys2Proof.Machine
end

