-- ==== Sys2Proof/WellFormed.lean ====
section
/-! DEFINITION. Which commands name things that the module has: numbers within their ranges, lists of their lengths. The machine
takes any command; one that is not well formed names no event of the module (log 8, log 14). -/

namespace Sys2Proof

/-- A logical core of a partition (R22, R157): 0 to 23. -/
def coreOk (c : LCore) : Bool := decide (c.toNat < 24)

/-- A router port (R371): 0 to 39. -/
def portOk (n : BitVec 6) : Bool := decide (n.toNat < 40)

/-- A source number names one of the twenty dies (R29). -/
def srcOk (s : SrcNo) : Bool := decide (s.toNat / 2048 < 20)

/-- A physical core of a die (R22). -/
def physOk (p : BitVec 5) : Bool := decide (p.toNat < 26)

/-- An engine that can hang or be reset (R484). -/
def engOk : EngUnit → Bool
  | .core _ p => physOk p
  | .peel .. => true
  | .collective => true
  | .link n => portOk n

/-- A place of an SRAM error (R445). -/
def eccOk : EccAt → Bool
  | .bench _ c _ => coreOk c
  | .dss .. => true
  | .proofBuffer _ c _ _ _ => coreOk c
  | .bank _ c _ _ => coreOk c
  | .pipeline _ c => coreOk c
  | .regs _ c => coreOk c
  | .store _ c _ => coreOk c
  | .router port _ => portOk port
  | .coll .. => true
  | .eventLog _ => true

/-- The arrays of a Tasting round (R454). -/
def tasteOk : TasteCheck → Bool
  | .pair x y => physOk x.p && physOk y.p
  | .referee x y z _ => physOk x.p && physOk y.p && physOk z.p
  | .fourth x y z w _ => physOk x.p && physOk y.p && physOk z.p && physOk w.p

/-- The core of a journal record (R467). -/
def jrnlOk : JrnlEvent → Bool
  | .undo .. => true
  | .inp c _ _ _ _ => coreOk c
  | .out c _ _ => coreOk c

/-- ACLK steps from 550 to 1,100 MHz (R33). -/
def aclkOk (x : AclkSteps) : Bool := [x.d0, x.d1, x.d2, x.d3].all fun b => decide (b.toNat ≤ 10)

/-- A packet (R385): its length, and its payload but for a READ; the routers it may have crossed (R396). -/
def packetOk (p : Packet) : Bool :=
  decide (p.len ≤ 2048) && p.payload.length == (if p.kind = 0x01 then 0 else p.len) && decide (p.hops < 32)

/-- The lists of a telemetry sample (R599). -/
def telOk (t : TelSample) : Bool :=
  t.hottest.length == 4 && t.meanStep.length == 4 && t.stretched.length == 4 && t.rounds.length == 4 &&
    t.lines.length == 40 && t.flits.length == 40

/-- A hello names a port of its sender (R390). -/
def helloOk (h : HelloInfo) : Bool := portOk h.port

/-- A section starts at a 256-byte boundary and lies before the signatures (R189). -/
def LoafHead.sectOk (h : LoafHead) (x : LoafSect) : Bool :=
  x.off.toNat % 256 == 0 && decide (x.off.toNat + x.len.toNat ≤ h.signatures.off.toNat)

/-- A Loaf's sections stand in their places, its kernel table is complete, and every kernel has one program for each of its cores,
which fits the store and lies in its section (R189, R191, R305). -/
def loafOk (h : LoafHead) : Bool :=
  h.sectOk h.descs && h.sectOk h.programs && h.sectOk h.wcets && h.sectOk h.constants && h.signatures.off.toNat % 256 == 0 &&
    h.table.length == h.kernels && h.wcets.len.toNat == 64 * h.kernels &&
    h.table.all fun k => decide (k.argc.toNat ≤ 16) && k.progs.length == k.cores.toNat && k.progs.all fun p =>
      decide (p.len.toNat ≤ 8192) && decide (h.programs.off.toNat ≤ p.off.toNat) &&
        decide (p.off.toNat + 32 * p.len.toNat ≤ h.programs.off.toNat + h.programs.len.toNat)

/-- A command is well formed. -/
def WellFormed (i : Instr) : Bool :=
  match i with
  | .bundleIssue _ c => coreOk c
  | .nop _ c => coreOk c
  | .li _ c _ _ _ => coreOk c
  | .add _ c _ _ _ => coreOk c
  | .sub _ c _ _ _ => coreOk c
  | .and _ c _ _ _ => coreOk c
  | .or _ c _ _ _ => coreOk c
  | .xor _ c _ _ _ => coreOk c
  | .shl _ c _ _ _ => coreOk c
  | .shr _ c _ _ _ => coreOk c
  | .shrA _ c _ _ _ => coreOk c
  | .mul _ c _ _ _ => coreOk c
  | .cmp _ c _ _ _ _ => coreOk c
  | .brp _ c _ _ _ => coreOk c
  | .loop _ c _ _ => coreOk c
  | .tile _ c _ => coreOk c
  | .halt _ c => coreOk c
  | .trap _ c _ => coreOk c
  | .anc _ c _ _ _ _ => coreOk c
  | .steprR _ c _ => coreOk c
  | .steprW _ c _ => coreOk c
  | .steprInc _ c => coreOk c
  | .seedrR _ c _ => coreOk c
  | .seedrW _ c _ => coreOk c
  | .gtbr _ c _ => coreOk c
  | .hbeat _ c _ => coreOk c
  | .wld _ c _ _ _ _ _ _ => coreOk c
  | .wldLoaded _ c _ => coreOk c
  | .wswap _ c _ => coreOk c
  | .mma _ c _ _ _ _ => coreOk c
  | .aqRowPop _ c => coreOk c
  | .arrayRowLand _ c _ _ => coreOk c
  | .drain _ c _ _ _ => coreOk c
  | .drainRowRead _ c _ => coreOk c
  | .drainRowWrite _ c _ => coreOk c
  | .pbdrain _ c _ _ _ => coreOk c
  | .fold _ c _ _ _ _ _ => coreOk c
  | .foldRowAdd _ c _ => coreOk c
  | .zoa _ c _ => coreOk c
  | .pbzero _ c _ _ => coreOk c
  | .pbspillW _ c _ _ _ => coreOk c
  | .pbspillA _ c _ _ _ => coreOk c
  | .pbload _ c _ _ _ _ => coreOk c
  | .pbImageHeaderArrive _ _ _ => true
  | .pbSlotRowTransfer _ _ _ => true
  | .idle _ c _ _ => coreOk c
  | .tastingRowInject x _ _ _ => physOk x.p
  | .vld _ c _ _ _ => coreOk c
  | .vst _ c _ _ _ => coreOk c
  | .vadd _ c _ _ _ _ => coreOk c
  | .vsub _ c _ _ _ _ => coreOk c
  | .vmul _ c _ _ _ _ => coreOk c
  | .vfma _ c _ _ _ _ _ => coreOk c
  | .vmax _ c _ _ _ _ => coreOk c
  | .vmin _ c _ _ _ _ => coreOk c
  | .vcmp _ c _ _ _ _ _ => coreOk c
  | .vsel _ c _ _ _ _ => coreOk c
  | .vand _ c _ _ _ _ => coreOk c
  | .vor _ c _ _ _ _ => coreOk c
  | .vxor _ c _ _ _ _ => coreOk c
  | .vshl _ c _ _ _ _ => coreOk c
  | .vshr _ c _ _ _ _ => coreOk c
  | .vshrA _ c _ _ _ _ => coreOk c
  | .vperm _ c _ _ _ => coreOk c
  | .vcvt _ c _ _ _ _ _ _ _ _ _ => coreOk c
  | .vfn _ c _ _ _ _ => coreOk c
  | .vaxsumF32 _ c _ _ _ _ _ _ => coreOk c
  | .vaxsumF64 _ c _ _ _ _ _ _ => coreOk c
  | .vaxsumW80 _ c _ _ _ _ _ _ => coreOk c
  | .vaxsumW128 _ c _ _ _ _ _ _ => coreOk c
  | .vaxsumTap _ c _ _ _ _ _ _ => coreOk c
  | .vaxsumOut32 _ c _ _ _ _ _ _ => coreOk c
  | .vaxsumOut64 _ c _ _ _ _ _ _ => coreOk c
  | .vleav _ c _ _ _ _ => coreOk c
  | .vcrumb _ c _ _ _ _ _ _ => coreOk c
  | .vopt _ c _ _ _ _ _ => coreOk c
  | .act _ c _ _ _ _ _ => coreOk c
  | .actRowDeliver _ c => coreOk c
  | .peel _ c _ _ => coreOk c
  | .peelDescriptorStart _ _ => true
  | .peelLineArrive _ c _ => coreOk c
  | .engineSourceLineRead _ c _ => coreOk c
  | .peelTransferComplete _ _ _ => true
  | .bcopy _ c _ _ _ => coreOk c
  | .dssld _ c _ _ _ => coreOk c
  | .dssst _ c _ _ _ => coreOk c
  | .xsend _ c _ _ => coreOk c
  | .messageAccept _ c _ => coreOk c
  | .xrecv _ c _ _ => coreOk c
  | .xredSumExact _ c _ => coreOk c
  | .xredSumTree _ c _ => coreOk c
  | .xredMax _ c _ _ => coreOk c
  | .xredGather _ c _ => coreOk c
  | .xredScatter _ c _ => coreOk c
  | .collectiveResultWrite _ => true
  | .xbar _ c _ => coreOk c
  | .xbarRelease _ _ => true
  | .xtime _ c _ => coreOk c
  | .xtimeRelease _ c => coreOk c
  | .xfence _ c _ _ => coreOk c
  | .producerNotice _ c _ => coreOk c
  | .freezeBegin _ c => coreOk c
  | .freezeEnd _ => true
  | .actRowFreezeDeliver _ c => coreOk c
  | .tileSettleMeet _ c => coreOk c
  | .tileCommit _ => true
  | .tileYield _ _ => true
  | .tileBudgetExpire _ => true
  | .admissionTick => true
  | .kernelStart _ => true
  | .kernelComplete _ => true
  | .completionWrite => true
  | .expressCompare _ => true
  | .expressRepair _ _ => true
  | .contextSwitch _ _ => true
  | .backgroundYield _ => true
  | .tileAbandon _ src => srcOk src
  | .sramEccError at' _ => eccOk at'
  | .sramScrub => true
  | .crustCommit entries _ => decide (entries.length ≤ 64)
  | .crustScrub => true
  | .tastingRoundComplete r => tasteOk r
  | .tastingPeriodEnd => true
  | .partitionQuarantine _ => true
  | .quarantineTestsDone _ convicted => convicted.all coreOk
  | .coreFail _ p => decide (p.toNat < 26)
  | .rewind _ _ => true
  | .replayEnd _ c => coreOk c
  | .checkpoint _ => true
  | .journalAppend _ r _ => jrnlOk r
  | .coreHangDetect _ c => coreOk c
  | .engineHangDetect e => engOk e
  | .contextAbort _ => true
  | .engineReset e => engOk e
  | .partitionReset _ => true
  | .moduleReset => true
  | .powerCycle => true
  | .ladderStepComplete _ => true
  | .ladderStepTimeout _ => true
  | .hangVerdict _ => true
  | .rstReqPartition _ => true
  | .rstReqModule => true
  | .rstReqPowerCycle => true
  | .ovenTimerRestart => true
  | .ovenTimerExpire => true
  | .dumpStart _ _ => true
  | .dumpGo => true
  | .dumpUnitTimeout src => srcOk src
  | .dumpEnd _ => true
  | .dumpPortDataRead => true
  | .ctxCfgWrite _ => true
  | .loafLoad => true
  | .loafVerifyDone _ head => loafOk head
  | .loafUnload => true
  | .bsAbort _ => true
  | .bsCfgWrite _ => true
  | .genLoad => true
  | .genShardArrive _ _ _ => true
  | .genTimeoutExpire _ => true
  | .genActivate => true
  | .genClose => true
  | .genCancel => true
  | .ptCfgWrite _ _ _ => true
  | .ptRstHoldWrite _ _ _ => true
  | .powerOn _ => true
  | .inputUndervoltage => true
  | .overvoltageCutoff => true
  | .overvoltageRecover => true
  | .starterRomBoot => true
  | .pwrEnRise _ => true
  | .pwrEnFall => true
  | .mainRailsInRegulation => true
  | .mainRailOutOfRegulation => true
  | .thermalTrip die => decide (die.toNat < 20)
  | .thermTripNRelease => true
  | .laserBayOpen _ => true
  | .laserSourceInsert _ spares => decide (spares.toNat ≤ 2)
  | .laserFail _ laser => decide (laser.toNat < 10)
  | .supplyDroop _ => true
  | .droopClear _ => true
  | .thermalStepDown _ => true
  | .vinBelowMin _ _ steps => aclkOk steps
  | .dieLinkRetry src => srcOk src
  | .dieLinkLaneRepair src => srcOk src
  | .dieLinkRetrainTimeout src => srcOk src
  | .timeSyncTimeout => true
  | .powerBinEnd _ _ steps => aclkOk steps
  | .pwrBandApply => true
  | .pwrBandForce => true
  | .forecastPublish bins => bins.length == 200
  | .wStateEnter => true
  | .pwrCtrlWake => true
  | .pwrWakeTolWrite _ => true
  | .wakeEvent => true
  | .wStateExitDone => true
  | .perstNAssert => true
  | .perstNDeassert => true
  | .pcieTrainRetry _ => true
  | .pcieLinkUp _ _ _ => true
  | .pcieLinkDown => true
  | .pcieReplay => true
  | .pcieConfigWrite fn _ => decide (fn.toNat ≤ 16)
  | .l0pRequest _ => true
  | .vfFlr _ => true
  | .pfFlr => true
  | .bar2Read fn _ _ => decide (fn.toNat ≤ 16)
  | .bar2Write fn _ _ _ => decide (fn.toNat ≤ 16)
  | .hostCompletionReceive _ _ => true
  | .pcieCplTimeout _ => true
  | .msixDeliverable fn _ => decide (fn.toNat ≤ 16)
  | .spdmRequest _ _ => true
  | .spdmVendorReport nonce => nonce.length == 32
  | .doeAbort => true
  | .fwUpdate => true
  | .recoveryChunk => true
  | .recoveryDone => true
  | .pubSet _ => true
  | .pubClear _ => true
  | .dbgNonce => true
  | .dbgUnlock => true
  | .svnCommit => true
  | .pubLock => true
  | .fwActivate => true
  | .dbgRelock => true
  | .helloSend => true
  | .hello port h => portOk port && helloOk h
  | .helloTimeout port => portOk port
  | .portSignalDetect port => portOk port
  | .portTrainComplete port _ _ => portOk port
  | .portTrainTimeout port => portOk port
  | .trainBackoffEnd port => portOk port
  | .flitReceive port _ => portOk port
  | .laneRetire port _ => portOk port
  | .linkLoss port => portOk port
  | .packetForward port p => portOk port && packetOk p
  | .read p => packetOk p
  | .write p => packetOk p
  | .atomicAdd p => packetOk p
  | .readData p => packetOk p
  | .ack p => packetOk p
  | .message p => packetOk p
  | .notReady p => packetOk p
  | .xqFree p => packetOk p
  | .refuse p => packetOk p
  | .requestResend _ _ => true
  | .requestTimeout _ _ => true
  | .collective _ _ _ _ => true
  | .manage port p => portOk port && packetOk p
  | .syncSend => true
  | .sync port _ => portOk port
  | .syncTimeout => true
  | .delayReqSend => true
  | .delayReq port _ => portOk port
  | .delayRsp port _ _ => portOk port
  | .fabOpGo _ => true
  | .fabRtDataWrite _ => true
  | .fabNodeIdWrite _ => true
  | .collGroupEntryWrite _ _ => true
  | .memLineRead _ _ _ => true
  | .memLineWrite _ _ _ _ => true
  | .memPositionFail group pos _ => decide (group.toNat < 40) && decide (pos.toNat < 10)
  | .memChanFail group pos => decide (group.toNat < 40) && decide (pos.toNat < 10)
  | .patrolScrubLine _ _ _ => true
  | .refresh channel => decide (channel.toNat < 400)
  | .hotRefresh device => decide (device.toNat < 400)
  | .hotRefreshEnd => true
  | .memReformStart => true
  | .memReformDone => true
  | .dbgHaltGo _ => true
  | .dbgResumeGo _ => true
  | .dbgAccWindowRead _ _ => true
  | .crumbLogEmpty => true
  | .eventDeliver _ => true
  | .eventCommit => true
  | .eventAggWindowEnd => true
  | .evtPortSeqWrite _ _ => true
  | .ledgerRecordWrite die _ src _ => decide (die.toNat < 20) && srcOk src
  | .ledgerHourly => true
  | .marginSweep ms => ms.all fun m => srcOk m.src
  | .telemetryBinEnd t => telOk t
  | .regPairLoRead _ _ _ => true
  | .regPairHiRead _ _ _ => true
  | .counterLoWriteClear _ off => off.toNat % 4 == 0
  | .i3cDynamicAddress _ => true
  | .registerWrite _ _ _ _ _ => true

end Sys2Proof
end

