-- ==== Sys2Proof/Certificates/Slice0/Obligations.lean ====
section
/-! DEFINITION. The statements about the module, one definition each. They quantify over every state, also over states that no
run reaches; a statement that equates the next state with an update of the present one says that all else is unchanged. -/

open Sys2Proof Sys2Proof.Machine

/-- A step runs the command at the front of the queue on the state with the rest of the queue (06_fiard_bundles.md,
98_reader.md). -/
def Obligations.StepRunsFrontCommand : Prop :=
  ∀ (s : State) (c : Instr) (rest : List Instr),
    step { s with pending := c :: rest } = exec c { s with pending := rest }

/-- With no command waiting a step is one TCLK cycle: the GTB accumulator gains the rate word, modulo 2^96
(01_module.mdR38). -/
def Obligations.EmptyQueueRunsOneClock : Prop :=
  ∀ s : State, s.pending = [] →
    ∃ t, step s = .next t ∧
      (s.power.alwaysOn = true → t.time.gtb = s.time.gtb + s.time.rate) ∧ (s.power.alwaysOn = false → t = s)

/-- What each operand specifier of a C-slot instruction reads and what a write through it does; codes 0x30 to 0x3F are
reserved (R184). -/
def Obligations.SpecifiersReadAndWriteRegisters : Prop :=
  (∀ (q : Core) (r : BitVec 6) (v : DWord),
    (r.toNat < 0x20 → q.readSpec r = q.sreg r.toNat ∧
      q.applyAct (specWrite r v) = { q with s := smapSet 0 q.s r.toNat v }) ∧
    (r.toNat = 0x20 → q.readSpec r = 1 ∧ q.applyAct (specWrite r v) = q) ∧
    (0x20 < r.toNat → r.toNat < 0x28 → q.readSpec r = (if smapGet false q.p (r.toNat - 0x20) then 1 else 0) ∧
      q.applyAct (specWrite r v) = { q with p := smapSet false q.p (r.toNat - 0x20) (v.getLsbD 0) }) ∧
    (0x28 ≤ r.toNat → r.toNat < 0x2C → q.readSpec r = (q.mreg (r.toNat - 0x28)).bits ∧
      ∃ m : MaxReg, m.mag.toNat = min (v.toNat % 2 ^ 31) 0x7F7F_FFFF ∧ m.nf = v.getLsbD 32 ∧
        q.applyAct (specWrite r v) = { q with m := smapSet .zero q.m (r.toNat - 0x28) m }) ∧
    (0x2C ≤ r.toNat → r.toNat < 0x30 → q.readSpec r = BitVec.ofInt 64 (q.anchor (r.toNat - 0x2C)) ∧
      q.applyAct (specWrite r v) =
        { q with an := smapSet 0 q.an (r.toNat - 0x2C) (max (-512) (min 511 v.toInt)) })) ∧
  (∀ (s : State) (pt : Pt) (c : LCore) (k : Nat) (rd : BitVec 6) (h : Bool) (imm : BitVec 41),
    IssuesAt s pt c k → 0x30 ≤ rd.toNat → exec (.li pt c rd h imm) s = .next (s.illegalAt pt c k 0 0))

/-- ADD, SUB, AND, OR, XOR, SHL, SHR, SHR.A and MUL write their 64-bit result to rd at the end of latency 1 (MUL: 3);
nothing else changes (R207). -/
def Obligations.AluWritesDestination : Prop :=
  ∀ (s : State) (pt : Pt) (c : LCore) (k : Nat) (rd ra : BitVec 6) (src : Src2),
    IssuesAt s pt c k → rd.toNat < 0x30 → ra.toNat < 0x30 → src2Ok src = true →
    let a := (s.core k).readSpec ra
    let b := match src with
      | .reg r => (s.core k).readSpec r
      | .imm v => v.signExtend 64
    let sh := b.toNat % 64
    exec (.add pt c rd ra src) s = .next (s.owingReg pt k 1 rd (a + b)) ∧
    exec (.sub pt c rd ra src) s = .next (s.owingReg pt k 1 rd (a - b)) ∧
    exec (.and pt c rd ra src) s = .next (s.owingReg pt k 1 rd (a &&& b)) ∧
    exec (.or pt c rd ra src) s = .next (s.owingReg pt k 1 rd (a ||| b)) ∧
    exec (.xor pt c rd ra src) s = .next (s.owingReg pt k 1 rd (a ^^^ b)) ∧
    exec (.shl pt c rd ra src) s = .next (s.owingReg pt k 1 rd (a <<< sh)) ∧
    exec (.shr pt c rd ra src) s = .next (s.owingReg pt k 1 rd (a >>> sh)) ∧
    exec (.shrA pt c rd ra src) s = .next (s.owingReg pt k 1 rd (a.sshiftRight sh)) ∧
    exec (.mul pt c rd ra src) s = .next (s.owingReg pt k 3 rd (a * b))

/-- LI, CMP, STEPR, SEEDR, HBEAT and NOP: what each writes, and that nothing else changes (R208, R209). -/
def Obligations.ConstantsPredicatesAndStepRegisters : Prop :=
  ∀ (s : State) (pt : Pt) (c : LCore) (k : Nat) (rd ra : BitVec 6) (src : Src2) (pd : BitVec 3)
    (imm : BitVec 41) (progress : BitVec 16),
    IssuesAt s pt c k → rd.toNat < 0x30 → ra.toNat < 0x30 → src2Ok src = true →
    let q := s.core k
    let cyc := (s.part pt.toNat).cyc
    let a := q.readSpec ra
    let b := match src with
      | .reg r => q.readSpec r
      | .imm v => v.signExtend 64
    let cmp := fun (cond : BitVec 3) (v : Bool) =>
      exec (.cmp pt c pd cond ra src) s = .next (s.owing k cyc 1 (.pred pd.toNat v))
    exec (.nop pt c) s = .next s ∧
    exec (.li pt c rd false imm) s = .next (s.owingReg pt k 1 rd (imm.signExtend 64)) ∧
    exec (.li pt c rd true imm) s =
      .next (s.owingReg pt k 1 rd (imm.extractLsb' 0 32 ++ (q.readSpec rd).extractLsb' 0 32)) ∧
    cmp 0 (a == b) ∧ cmp 1 (a != b) ∧ cmp 2 (decide (a.toInt < b.toInt)) ∧ cmp 3 (decide (a.toInt ≤ b.toInt)) ∧
    cmp 4 (decide (a.toInt > b.toInt)) ∧ cmp 5 (decide (a.toInt ≥ b.toInt)) ∧ cmp 6 (decide (a.toNat < b.toNat)) ∧
    cmp 7 (decide (a.toNat ≥ b.toNat)) ∧
    exec (.steprR pt c rd) s = .next (s.owingReg pt k 1 rd (q.step.zeroExtend 64)) ∧
    exec (.steprW pt c ra) s = .next (s.owing k cyc 1 (.step (a.extractLsb' 0 32))) ∧
    exec (.steprInc pt c) s = .next (s.owing k cyc 1 (.step (q.step + 1))) ∧
    exec (.seedrR pt c rd) s = .next (s.owingReg pt k 1 rd q.seed) ∧
    exec (.seedrW pt c ra) s = .next (s.owing k cyc 1 (.seed a)) ∧
    exec (.hbeat pt c progress) s = .next (s.setCore k { q with lastBeat := s.now, progress := progress })

/-- ANC owes the anchor formed from two running maxima at latency 2; GTBR owes rd a view of the GTB that lags by 0 to 16
ns (06_fiard_bundles.mdR214, 03_anchored_sums.mdR110, 01_module.mdR45). -/
def Obligations.AnchorAndTimeReads : Prop :=
  ∀ (s : State) (pt : Pt) (c : LCore) (k : Nat) (rd : BitVec 6) (a mx my : BitVec 2) (delta : BitVec 4),
    IssuesAt s pt c k →
    exec (.anc pt c a mx my delta) s = .next (s.owing k ((s.part pt.toNat).cyc + 1) 1 (.anchor a.toNat
      (max (-512) (min 511 (magExponent ((s.core k).mreg mx.toNat).mag + magExponent ((s.core k).mreg my.toNat).mag + 1 +
        delta.toInt))))) ∧
    (rd.toNat < 0x30 → ∃ lag : Nat, lag ≤ 16 ∧
      exec (.gtbr pt c rd) s =
        .next ({ s with free := s.free + 1 }.owingReg pt k 1 rd (BitVec.ofNat 64 (s.now - lag))))

/-- BRP, LOOP, TILE, HALT and TRAP: where the sequencer goes, when the next bundle issues, and which operands are illegal
(06_fiard_bundles.mdR194, 06_fiard_bundles.mdR199, 06_fiard_bundles.mdR210, 06_fiard_bundles.mdR211). -/
def Obligations.ControlFlowMovesTheSequencer : Prop :=
  ∀ (s : State) (pt : Pt) (c : LCore) (k : Nat), IssuesAt s pt c k →
    let q := s.core k
    let cyc := (s.part pt.toNat).cyc
    (∀ (p : BitVec 3) (inv : Bool) (off : BitVec 20),
      let t := (q.pc : Int) + off.toInt
      let inside := (q.loops = [] → 0 ≤ t ∧ t < q.progLen) ∧ (∀ f ∈ q.loops.head?, (f.start : Int) ≤ t ∧ t ≤ f.last)
      let pv := p = 0 ∨ smapGet false q.p p.toNat = true
      (inside → (pv ↔ inv = false) →
        exec (.brp pt c p inv off) s = .next (s.setCore k { q with pc := t.toNat, nextAt := cyc + 3, inBrp := true })) ∧
      (inside → ¬(pv ↔ inv = false) →
        exec (.brp pt c p inv off) s = .next (s.setCore k { q with pc := q.pc + 1, nextAt := cyc + 3, inBrp := true })) ∧
      (¬inside → exec (.brp pt c p inv off) s = .next (s.illegalAt pt c k 0 0))) ∧
    (∀ (len : BitVec 16) (n : BitVec 31), 1 ≤ len.toNat → len.toNat ≤ 8191 → q.loops.length < 4 →
      (n = 0 → exec (.loop pt c len (.imm n)) s =
        .next (s.setCore k { q with pc := q.pc + 1 + len.toNat, nextAt := cyc + 1, inBrp := false })) ∧
      (n ≠ 0 → exec (.loop pt c len (.imm n)) s =
        .next (s.setCore k { q with pc := q.pc + 1, nextAt := cyc + 1, inBrp := false,
                                    loops := ⟨q.pc + 1, q.pc + len.toNat, n.toNat⟩ :: q.loops }))) ∧
    (∀ (len : BitVec 16) (r : BitVec 6), r.toNat < 0x30 → 1 ≤ len.toNat → len.toNat ≤ 8191 → q.loops.length < 4 →
      let n := (q.readSpec r).toNat
      (n = 0 → exec (.loop pt c len (.reg r)) s =
        .next (s.setCore k { q with pc := q.pc + 1 + len.toNat, nextAt := cyc + 1, inBrp := false })) ∧
      (0 < n → n < 2 ^ 32 → exec (.loop pt c len (.reg r)) s =
        .next (s.setCore k { q with pc := q.pc + 1, nextAt := cyc + 1, inBrp := false,
                                    loops := ⟨q.pc + 1, q.pc + len.toNat, n⟩ :: q.loops })) ∧
      (2 ^ 32 ≤ n → exec (.loop pt c len (.reg r)) s = .next (s.illegalAt pt c k 0 0))) ∧
    (∀ count : LoopCount, exec (.loop pt c 0 count) s = .next (s.illegalAt pt c k 0 0)) ∧
    (∀ budget : BitVec 17,
      (budget.toNat ≤ 100000 → exec (.tile pt c budget) s =
        .next (s.setCore k { q with pc := q.pc + 1, nextAt := cyc + 1,
                                    seq := .settling false (if budget = 0 then 20000 else budget.toNat) q.pc })) ∧
      (100000 < budget.toNat → exec (.tile pt c budget) s = .next (s.illegalAt pt c k 0 0))) ∧
    exec (.halt pt c) s = .next (s.setCore k { q with pc := q.pc + 1, nextAt := cyc + 1, seq := .settling true 0 q.pc }) ∧
    (∀ code : Byte, exec (.trap pt c code) s =
      .next (s.raise pt.toNat c.toNat k ⟨0x02, code.toNat, 0, q.pc, 0⟩))

/-- At a cycle's end the later-issued of two writes to a register holds, and a running maximum is cleared, then written,
then updated (R186, R81). -/
def Obligations.EffectsTakePlaceAtCycleEnd : Prop :=
  ∀ (q : Core) (cyc d e f i j : Nat) (u v : DWord) (x y : MaxReg), smapSorted q.s = true → smapSorted q.m = true →
    (d ≤ cyc → e ≤ cyc →
      (({ q with writes := [⟨d, 1, .sreg i u⟩, ⟨e, 1, .sreg i v⟩] }).endCycle cyc).1.sreg i = v) ∧
    (d ≤ cyc → e ≤ cyc → i ≠ j →
      (({ q with writes := [⟨d, 1, .sreg i u⟩, ⟨e, 1, .sreg j v⟩] }).endCycle cyc).1.sreg i = u) ∧
    (cyc < d →
      (({ q with writes := [⟨d, 1, .sreg i u⟩] }).endCycle cyc).1.sreg i = q.sreg i ∧
      (({ q with writes := [⟨d, 1, .sreg i u⟩] }).endCycle cyc).1.writes = [⟨d, 1, .sreg i u⟩]) ∧
    (d ≤ cyc → e ≤ cyc → f ≤ cyc → ∀ ws, ws.Perm [⟨d, 0, .mclear i⟩, ⟨e, 1, .mreg i x⟩, ⟨f, 2, .mjoin i y⟩] →
      (({ q with writes := ws }).endCycle cyc).1.mreg i = x.join y) ∧
    (d ≤ cyc → f ≤ cyc → ∀ ws, ws.Perm [⟨d, 0, .mclear i⟩, ⟨f, 2, .mjoin i y⟩] →
      (({ q with writes := ws }).endCycle cyc).1.mreg i = MaxReg.zero.join y)

/-- A due bundle of a partition none of whose due bundles waits or holds issues all its slots, or faults with none of
their effects (06_fiard_bundles.mdR181, 06_fiard_bundles.mdR182, 06_fiard_bundles.mdR193, 06_fiard_bundles.mdR213,
08_freeze_and_schedule.mdR282, 08_freeze_and_schedule.mdR298). -/
def Obligations.BundleIssuesAllSlotsOrNone : Prop :=
  (∀ (s : State) (pt : Pt) (c : LCore) (k : Nat), IssuesAt s pt c k → (s.core k).nextAt ≤ (s.part pt.toNat).cyc →
    (∀ e ∈ s.coresOf pt.toNat, assess s ⟨pt.toNat, e.1, e.2⟩ = ([], false)) →
    let q := s.core k
    let r : CoreRef := ⟨pt.toNat, c.toNat, k⟩
    let b := q.bundle q.pc
    let res := runSlots b (s.issued r) r
    let loops := slotLoops (slotOf b 255 192 56)
    let broken := if lendOk q (b.getLsbD 250) loops = true then [] else [(⟨0x01, 0, 0, q.pc, 0⟩ : FaultInfo)]
    let moved := res.st.updCore k fun x => x.moveOn q.pc (s.part pt.toNat).cyc (b.getLsbD 250) loops
    ((q.progLen ≤ q.pc ∨ b.getLsbD 249 = true ∨ b.getLsbD 248 = true) →
      exec (.bundleIssue pt c) s = .next (raiseOthers s r (s.raise pt.toNat c.toNat k ⟨0x01, 0, 7, q.pc, 0⟩))) ∧
    (q.pc < q.progLen → b.getLsbD 249 = false → b.getLsbD 248 = false → res.waits = [] → res.hold = false →
      (broken ++ res.faults = [] → res.late = [] → exec (.bundleIssue pt c) s = .next moved) ∧
      (broken ++ res.faults = [] → res.late ≠ [] →
        exec (.bundleIssue pt c) s = .next (raiseOthers s r (moved.raiseAll r res.late))) ∧
      (broken ++ res.faults ≠ [] → exec (.bundleIssue pt c) s =
        .next (raiseOthers s r ((s.issued r).raiseAll r (res.late ++ (broken ++ res.faults))))))) ∧
  (∀ (s : State) (pt : Pt) (c : LCore) (k : Nat), IssuesAt s pt c k → s.coresOf pt.toNat = [(c.toNat, k)] →
    let q := s.core k
    q.nextAt ≤ (s.part pt.toNat).cyc → q.pc < q.progLen → (q.bundle q.pc).toNat < 2 ^ 248 → q.loops = [] →
    (∀ a ∈ [0, 1, 2, 3], (q.array a).dq = []) →
    exec (.bundleIssue pt c) s = .next ((s.issued ⟨pt.toNat, c.toNat, k⟩).setCore k
      { q with pc := q.pc + 1, loops := [], nextAt := (s.part pt.toNat).cyc + 1, inBrp := false })) ∧
  (∀ (s : State) (pt : Pt) (c : LCore) (k : Nat), IssuesAt s pt c k → (s.core k).nextAt ≤ (s.part pt.toNat).cyc →
    (∀ e ∈ s.coresOf pt.toNat, ∀ g j, 0 < g → 0 < j → Need.xbar g j ∉ (assess s ⟨pt.toNat, e.1, e.2⟩).1) →
    ((∃ e ∈ s.coresOf pt.toNat, (assess s ⟨pt.toNat, e.1, e.2⟩).1 ≠ []) →
      ∃ p, exec (.bundleIssue pt c) s = .next { s with parts := p }) ∧
    ((∀ e ∈ s.coresOf pt.toNat, (assess s ⟨pt.toNat, e.1, e.2⟩).1 = []) →
      (∃ e ∈ s.coresOf pt.toNat, (assess s ⟨pt.toNat, e.1, e.2⟩).2 = true) →
      exec (.bundleIssue pt c) s = .next (s.setPart pt.toNat { s.part pt.toNat with holdNow := true, rested := true })))

/-- At a core that does not issue, an instruction of any slot has no effect (the model's choice of log 14)
(08_freeze_and_schedule.mdR281, 06_fiard_bundles.mdR181). -/
def Obligations.IdleCoreTakesNoInstruction : Prop :=
  ∀ (s : State) (pt : Pt) (c : LCore) (rd ra vd va vb : BitVec 6) (src : Src2) (r5 r6 r7 : BitVec 5) (budget : BitVec 17)
    (mod ty part : BitVec 2) (mask banks fmt : BitVec 4) (m1 : Byte) (a : ArrayNo) (bank : BitVec 1) (f : DrainF)
    (eng : EngNo) (n12 : BitVec 12) (p x : Bool),
    let idle := fun (i : Instr) =>
      (∀ k, IsCore s pt c k → s.issuing ⟨pt.toNat, c.toNat, k⟩ = false → exec i s = .next s) ∧
      (s.phys pt.toNat c.toNat = none → exec i s = .fault .noSuchUnit)
    idle (.nop pt c) ∧ idle (.add pt c rd ra src) ∧ idle (.mul pt c rd ra src) ∧ idle (.tile pt c budget) ∧
    idle (.halt pt c) ∧ idle (.gtbr pt c rd) ∧ idle (.wld pt c a fmt mod ty r5 r6) ∧ idle (.mma pt c mod mask banks m1) ∧
    idle (.drain pt c a bank f) ∧ idle (.vadd pt c vd va vb ty) ∧ idle (.vld pt c vd r5 part) ∧
    idle (.act pt c r5 m1 fmt r6 r7) ∧ idle (.peel pt c eng r5) ∧ idle (.dssst pt c r5 r6 n12) ∧
    idle (.xsend pt c r5 r6) ∧ idle (.xrecv pt c r5 r6) ∧ idle (.xredSumExact pt c r5) ∧ idle (.xbar pt c r5) ∧
    idle (.xfence pt c p x)

/-- WLD starts to fill an EMPTY shadow, WLD_LOADED completes it, WSWAP makes it active; a WLD of a full shadow raises
QUEUE_OVERFLOW (07_fiard_compute.mdR227, 07_fiard_compute.mdR229, 07_fiard_compute.mdR230, 04_core.mdR125,
04_core.mdR126). -/
def Obligations.WeightTilesMove : Prop :=
  (∀ (s : State) (pt : Pt) (c : LCore) (k : Nat), IssuesAt s pt c k →
    let q := s.core k
    let cyc := (s.part pt.toNat).cyc
    (∀ (a : ArrayNo) (fmt : BitVec 4) (tgt mode : BitVec 2) (rw rx : BitVec 5),
      let ar := q.array a.toNat
      let n := wldLines fmt.toNat
      let sides := wldSides fmt.toNat mode.toNat
      fmt.toNat < 9 → mode ≠ 3 → (7 ≤ fmt.toNat → tgt ≠ 3) → wldPairOk fmt.toNat mode.toNat = true →
      q.lineOf rw + n ≤ 65536 → (sides ≠ 0 → q.lineOf rx + sides ≤ 65536) →
      (q.line (q.lineOf rw)).st = .valid → (sides ≠ 0 → (q.line (q.lineOf rx)).st = .valid) →
      (ar.shadow = .empty → exec (.wld pt c a fmt tgt mode rw rx) s = .next (s.setCore k (q.setArray a.toNat
        { ar with shadow := .writing ⟨cyc, n, sides, q.lineOf rw, q.lineOf rx, q.pc,
                    ⟨fmt.toNat, tgt.toNat, mode.toNat, [], [], false⟩⟩
                  idleTo := min ar.idleTo cyc }))) ∧
      (ar.shadow ≠ .empty → exec (.wld pt c a fmt tgt mode rw rx) s =
        .next (s.raise pt.toNat c.toNat k ⟨0x10, a.toNat, 1, q.pc, 1 + a.toNat⟩))) ∧
    exec (.wswap pt c 0) s = .next s ∧
    (∀ mask : BitVec 4,
      ((∀ a < 4, mask.getLsbD a = true → ∃ t, (q.array a).shadow = .loaded t) →
        ∃ q' : Core, exec (.wswap pt c mask) s = .next (s.setCore k q') ∧ q' = { q with arrays := q'.arrays } ∧
          ∀ a < 4, (mask.getLsbD a = false → q'.array a = q.array a) ∧
            ∀ t, mask.getLsbD a = true → (q.array a).shadow = .loaded t →
              q'.array a = { q.array a with active := some t, shadow := .empty, idleTo := min (q.array a).idleTo cyc }) ∧
      (∀ a < 4, mask.getLsbD a = true → (∀ t, (q.array a).shadow ≠ .loaded t) →
        (∀ b < a, mask.getLsbD b = true → ∃ t, (q.array b).shadow = .loaded t) →
        exec (.wswap pt c mask) s = .next (s.raise pt.toNat c.toNat k ⟨0x18, a, 1, q.pc, 1 + a⟩)))) ∧
  (∀ (s : State) (pt : Pt) (c : LCore) (k : Nat) (a : ArrayNo) (j : WldJob), IsCore s pt c k →
    ((s.core k).array a.toNat).shadow = .writing j → j.tile.lines.length = j.total →
    j.start + j.total ≤ (s.part pt.toNat).cyc →
    exec (.wldLoaded pt c a) s =
      .next (s.setCore k ((s.core k).setArray a.toNat { (s.core k).array a.toNat with shadow := .loaded j.tile })))

/-- MMA binds and opens its banks and queues its rows, AQ_ROW_POP takes the head row of the AQ, ARRAY_ROW_LAND adds its
sums to the bank (07_fiard_compute.mdR231, 07_fiard_compute.mdR232, 07_fiard_compute.mdR233, 03_anchored_sums.mdR98,
04_core.mdR120, 04_core.mdR123, 04_core.mdR134). -/
def Obligations.MatrixRowsReachBanks : Prop :=
  (∀ (b : Bank) (anchor : Int) (n rows : Nat),
    let bound := { b with st := .open, anchor := some anchor, count := addCount b.count n, top := max b.top rows }
    (addCount b.count n ≤ 2 ^ 30 → b.bind anchor n rows = bound) ∧
    (2 ^ 30 < addCount b.count n → b.bind anchor n rows = bound.setOvf)) ∧
  ∀ (s : State) (pt : Pt) (c : LCore) (k : Nat),
    let q := s.core k
    let cyc := (s.part pt.toNat).cyc
    (IssuesAt s pt c k → ∀ (mod : BitVec 2) (mask banks : BitVec 4) (m1 : Byte), mod ≠ 3 →
      (q.streamFree ≤ cyc → q.aq = [] → q.acts = []) →
      let named := (List.range 4).filter fun a => mask.getLsbD a
      let bk := fun (a : Nat) => if banks.getLsbD a then 1 else 0
      let adds := if mod = 1 then 256 else 128
      let job : MmaJob :=
        { id := q.nextId, b16 := mod == 2, start := max cyc q.streamFree, rows := m1.toNat + 1, popped := 0
          arrays := named.filterMap fun a => (q.array a).active.map fun t => ⟨a, bk a, t, q.anchor a⟩, pc := q.pc }
      let t := s.setCore k
        { named.foldl (fun (x : Core) a => x.setArray a ((x.array a).bind (bk a) (q.anchor a) adds (m1.toNat + 1) cyc))
            { q with nextId := q.nextId + 1 } with
          mmas := q.mmas ++ [job], streamFree := job.start + job.rows * (if mod = 2 then 2 else 1) }
      (∀ a ∈ named, ∃ tile, (q.array a).active = some tile ∧ (mod = 0 → tile.cls = 0) ∧ (mod = 1 → tile.cls = 1) ∧
        (mod = 2 → tile.cls = 2 ∨ tile.cls = 3)) →
      (∀ a ∈ named, ((q.array a).bank (bk a)).st ≠ .spent ∧
        (((q.array a).bank (bk a)).st = .open → ((q.array a).bank (bk a)).anchor = some (q.anchor a))) →
      ((∀ a ∈ named, addCount ((q.array a).bank (bk a)).count adds ≤ 2 ^ 30) →
        exec (.mma pt c mod mask banks m1) s = .next t) ∧
      (∀ a ∈ named, 2 ^ 30 < addCount ((q.array a).bank (bk a)).count adds →
        (∀ b ∈ named, b < a → addCount ((q.array b).bank (bk b)).count adds ≤ 2 ^ 30) →
        exec (.mma pt c mod mask banks m1) s =
          .next (t.raise pt.toNat c.toNat k ⟨0x15, a + 4 * bk a, 1, q.pc, 1 + a⟩))) ∧
    (IssuesAt s pt c k → ∀ (mod : BitVec 2) (a : ArrayNo) (banks : BitVec 4) (m1 : Byte), mod ≠ 3 →
      let bk := if banks.getLsbD a.toNat then 1 else 0
      let b := (q.array a.toNat).bank bk
      (q.array a.toNat).active = none → (b.st = .open → b.anchor = some (q.anchor a.toNat)) →
      exec (.mma pt c mod (BitVec.twoPow 4 a.toNat) banks m1) s =
        .next (s.raise pt.toNat c.toNat k ⟨0x18, a.toNat + 4 * bk, 1, q.pc, 1 + a.toNat⟩)) ∧
    (IssuesAt s pt c k → ∀ (mod : BitVec 2) (m1 : Byte) (banks : BitVec 4), mod ≠ 3 → q.streamFree ≤ cyc → q.aq = [] →
      q.acts ≠ [] → exec (.mma pt c mod 0 banks m1) s = .next (s.freeze pt.toNat [⟨k, .aqRow, false, s.now⟩])) ∧
    (IsCore s pt c k → (s.part pt.toNat).advancing = true → s.arrayHold pt.toNat = false →
      ∀ (j : MmaJob) (js : List MmaJob), q.mmas = j :: js → j.start + j.popped * (if j.b16 then 2 else 1) ≤ cyc →
      (∀ (row : AqRow) (rest : List AqRow), q.aq = row :: rest → (∀ m ∈ j.arrays, m.tile.cls = fmtClass row.fmt) →
        exec (.aqRowPop pt c) s = .next (s.setCore k
          { q.enterRow j (j.start + j.popped * (if j.b16 then 2 else 1)) row with aq := rest, mmas := popJob q.mmas })) ∧
      (q.aq = [] → q.acts = [] → exec (.aqRowPop pt c) s =
        .next (otherPops s ⟨pt.toNat, c.toNat, k⟩ (s.raise pt.toNat c.toNat k ⟨0x11, 0, 1, j.pc, 0⟩)))) ∧
    (IsCore s pt c k → (s.part pt.toNat).advancing = true → s.arrayHold pt.toNat = false →
      ∀ (a : ArrayNo) (f : RowFlight) (rest : List RowFlight),
      let ar := q.array a.toNat
      let sums := rowSums f.act f.tile f.anchor
      let b := ar.bank f.bank
      let landed := fun (suspect : Bool) => (s.setCore k (q.setArray a.toNat
        { ar.setBank f.bank { b with rows := smapSet [] b.rows f.row (normRow (addRows (b.row f.row) (sums.map Prod.fst)))
                                     suspect := suspect } with flight := rest })).countLoss k f.job (sums.any Prod.snd)
      ar.flight = f :: rest → f.due ≤ cyc →
      ((∀ x ∈ sums, x.1.fl.ovf = false) →
        exec (.arrayRowLand pt c a false) s = .next (landed b.suspect) ∧
        exec (.arrayRowLand pt c a true) s = .next
          (((landed true).event (srcCore k (1 + a.toNat)) 0x0201 (detail3 f.bank f.row 0)).residue k a.toNat f.bank)) ∧
      ((∃ x ∈ sums, x.1.fl.ovf = true) → exec (.arrayRowLand pt c a false) s = .next
        ((landed b.suspect).raise pt.toNat c.toNat k ⟨0x15, a.toNat + 4 * f.bank, 1, f.pc, 1 + a.toNat⟩)))

/-- DRAIN and PBDRAIN take a place on the drain path and mark their source, DRAIN_ROW_READ forms a row, DRAIN_ROW_WRITE
writes it (07_fiard_compute.mdR235, 07_fiard_compute.mdR236, 07_fiard_compute.mdR238, 07_fiard_compute.mdR239,
07_fiard_compute.mdR240, 04_core.mdR135, 04_core.mdR140, 05_proof_buffer.mdR168). -/
def Obligations.DrainsReadAndWriteRows : Prop :=
  ∀ (s : State) (pt : Pt) (c : LCore) (k : Nat) (a : ArrayNo),
    let q := s.core k
    let cyc := (s.part pt.toNat).cyc
    let ar := q.array a.toNat
    let r : CoreRef := ⟨pt.toNat, c.toNat, k⟩
    (IssuesAt s pt c k → ar.pathFull cyc = false → ∀ f : DrainF,
      let desc := parseDrainDesc (q.line (q.lineOf f.rq)).data
      let dest := q.sreg f.rd.toNat
      let bl := if f.bias then lineRun desc.bias 4 else []
      let sl := if f.scale then lineRun desc.scale 4 else []
      let job := fun (kind : DrainKind) =>
        ({ id := q.nextId, kind := kind, issue := cyc, f := f, desc := desc, dest := dest,
           bias := if f.bias then q.words4 desc.bias else [], scale := if f.scale then q.words4 desc.scale else [],
           biasPoison := bl.any fun i => (q.line i).poison, scalePoison := sl.any fun i => (q.line i).poison,
           seed := q.seed, step := q.step, anchor := q.anchor a.toNat, next := 0, snap := none, pc := q.pc,
           beyond := false } : DrainJob)
      let reads := 1 + bl.length + sl.length
      (q.line (q.lineOf f.rq)).st = .valid → (∀ i ∈ bl ++ sl, (q.line i).st = .valid) →
      (∀ bank : BitVec 1,
        let rows := max 1 (ar.bank bank.toNat).top
        let spent := ar.setBank bank.toNat { ar.bank bank.toNat with st := .spent }
        (drainFieldFaults f desc dest rows = [] →
          exec (.drain pt c a bank f) s = .next ((s.setCore k
            ((({ q with nextId := q.nextId + 1 } : Core).setArray a.toNat spent).setArray a.toNat
              { (({ q with nextId := q.nextId + 1 } : Core).setArray a.toNat spent).array a.toNat with
                jobs := ((({ q with nextId := q.nextId + 1 } : Core).setArray a.toNat spent).array a.toNat).jobs ++
                  [job (.drain bank.toNat)] })).countReads r reads)) ∧
        (∀ code, drainFieldFaults f desc dest rows = [code] → exec (.drain pt c a bank f) s =
          .next (s.raise pt.toNat c.toNat k ⟨code, a.toNat + 4 * bank.toNat, 1, q.pc, 1 + a.toNat⟩))) ∧
      (∀ slot : BitVec 3,
        (drainFieldFaults f desc dest 128 = [] →
          exec (.pbdrain pt c a slot f) s = .next ((s.setCore k
            { q with nextId := q.nextId + 1
                     pb := smapSet .zero q.pb slot.toNat { q.slot slot.toNat with readMark := true }
                     pbOps := q.pbOps ++ [⟨q.nextId, .drain, [slot.toNat], false, 0, false⟩]
                     arrays := smapSet .reset q.arrays a.toNat
                       { ar with jobs := ar.jobs ++ [job (.pbdrain slot.toNat)] } }).countReads r reads)) ∧
        (∀ code, drainFieldFaults f desc dest 128 = [code] → exec (.pbdrain pt c a slot f) s =
          .next (s.raise pt.toNat c.toNat k ⟨code, a.toNat + 4 * slot.toNat, 1, q.pc, 1 + a.toNat⟩)))) ∧
    (IssuesAt s pt c k → ar.pathFull cyc = true → ∀ (f : DrainF) (bank : BitVec 1) (slot : BitVec 3),
      exec (.drain pt c a bank f) s = .next (s.holdCycle pt.toNat) ∧
      exec (.pbdrain pt c a slot f) s = .next (s.holdCycle pt.toNat)) ∧
    (IsCore s pt c k → (s.part pt.toNat).advancing = true → ∀ (j : DrainJob) (js : List DrainJob),
      ar.jobs = j :: js → j.isFold = false → drainMayRead q a.toNat j cyc = true →
      let src := drainSource q a.toNat j
      let reads := 2 ≤ j.f.op.toNat
      let ls := if reads then lineRun (j.desc.opLine + j.next * j.desc.opStride) (operandLines j.desc.opFmt) else []
      let operands := if reads then (List.range 128).map fun n => (operandFmt j.desc.opFmt).decode
        (elemAt (linesNat (ls.map fun i => (q.line i).data)) (operandFmt j.desc.opFmt).width n) else []
      let out := drainRow j src.2.1 j.next cyc src.1 operands (ls.any fun i => (q.line i).poison)
      let took := q.setArray a.toNat { ar.readRow j (drainRows q a.toNat j) src.2.1 cyc with dq := ar.dq ++ [out.1] }
      let moved := match j.kind with
        | .pbdrain sl => (took.takePort sl cyc).pbStep j.id 128
        | _ => took
      let done := ((s.setCore k moved).countReads r ls.length).countLoss k j.id out.2.2
      (reads → (s.part pt.toNat).stall = 0) → (∀ i ∈ ls, (q.line i).st = .valid) →
      (src.2.2 = false → out.2.1 = false → exec (.drainRowRead pt c a) s = .next done) ∧
      (src.2.2 = false → out.2.1 = true → j.beyond = false → exec (.drainRowRead pt c a) s =
        .next (done.raise pt.toNat c.toNat k ⟨0x15, a.toNat + 4 * j.kind.place, 1, j.pc, 1 + a.toNat⟩)) ∧
      (src.2.2 = true → exec (.drainRowRead pt c a) s = .next (s.abandonTile pt.toNat (srcCore k (1 + a.toNat))))) ∧
    (IsCore s pt c k → (s.part pt.toNat).advancing = true → ∀ (x : DqRow) (xs : List DqRow),
      ar.dq = x :: xs → x.readAt + 24 ≤ cyc → (x.writes ≠ [] → (s.part pt.toNat).stall = 0) →
      (∀ w ∈ x.writes, (q.line w.line).st ≠ .pending) →
      let bytes := (List.range (drainBytes x.f)).map fun b =>
        if rowByteMask x.f x.desc.mask b then some (BitVec.ofNat 8 (x.out >>> (8 * b))) else none
      (x.f.dest = 0 → exec (.drainRowWrite pt c a) s = .next (s.dqPop r a.toNat x)) ∧
      (x.f.dest = 1 → exec (.drainRowWrite pt c a) s = .next ((s.dqPop r a.toNat x).dssWrite (k / 26)
        (byteWrites (x.dest.toNat + x.row * x.desc.pitch) (drainBytes x.f) x.out (rowByteMask x.f x.desc.mask) x.poison))) ∧
      (x.f.dest = 2 → ∀ s1, s.streamRow r (x.dest.toNat % 8) (drainBytes x.f) (drainWidth x.f) (drainMx x.f) bytes x.poison =
        (s1, none) → exec (.drainRowWrite pt c a) s = .next (s1.dqPop r a.toNat x)))

/-- ZOA clears all banks of its mask or none, IDLE opens spans from the next cycle, a Tasting step changes only its
array's own progress (07_fiard_compute.mdR243, 07_fiard_compute.mdR244, 07_fiard_compute.mdR245, 04_core.mdR137,
14_faults_spares.mdR453, 16_power_wake.mdR512). -/
def Obligations.BanksClearAndArraysIdle : Prop :=
  (∀ (s : State) (pt : Pt) (c : LCore) (k : Nat), IssuesAt s pt c k →
    let q := s.core k
    let cyc := (s.part pt.toNat).cyc
    (∀ mask : Byte,
      let named := (List.range 8).filter fun i => mask.getLsbD i
      let busy := fun (i : Nat) => (∃ f ∈ (q.array (i / 2)).flight, f.bank = i % 2) ∨
        ∃ j ∈ q.mmas, ∃ m ∈ j.arrays, m.array = i / 2 ∧ m.bank = i % 2
      ((∀ i ∈ named, ¬busy i) → exec (.zoa pt c mask) s = .next (s.setCore k (named.foldl (fun (x : Core) i =>
        x.setArray (i / 2) (((x.array (i / 2)).snapReaders (i % 2)).setBank (i % 2) .zero)) q))) ∧
      (∀ i ∈ named, busy i → (∀ j ∈ named, j < i → ¬busy j) → exec (.zoa pt c mask) s =
        .next (s.raise pt.toNat c.toNat k ⟨0x18, i / 2 + 4 * (i % 2), 1, q.pc, 1 + i / 2⟩))) ∧
    (∀ (mask : BitVec 4) (n : BitVec 20),
      exec (.idle pt c mask n) s = .next (s.setCore k ((List.range 4).foldl (fun (x : Core) a =>
        if mask.getLsbD a = true ∧ n ≠ 0 then
          x.setArray a { x.array a with idleFrom := cyc + 1, idleTo := cyc + n.toNat + 1 }
        else x) q)))) ∧
  (∀ (ar : ArrayS) (b : BitVec 1) (j : DrainJob), j ∈ ar.jobs → j.kind = .drain b.toNat →
    { j with snap := some (j.snap.getD (ar.bank b.toNat)) } ∈ (ar.snapReaders b.toNat).jobs) ∧
  (∀ (s : State) (x : TasteAt) (round : Word) (seed : DWord) (err : Option TasteErr),
    let k := 26 * x.die.toNat + x.p.toNat
    let ar := (s.core k).array x.a.toNat
    let d := s.die x.die.toNat
    let free := (∃ n, s.ptOfCore k = some n ∧ ((s.part n).quarantined = true ∨
        ((s.part n).advancing = true ∧ ar.idleFrom ≤ (s.part n).cyc ∧ (s.part n).cyc < ar.idleTo))) ∨
      (s.ptOfCore k = none ∧ s.isSpare x.die.toNat x.p.toNat = true)
    let may := s.tele.tasteEn = true ∧ s.power.rails = true ∧ s.power.st = .w0 ∧ free
    (may → exec (.tastingRowInject x round seed err) s = .next (s.setDie x.die.toNat
      { d with taste := smapSet .reset d.taste (4 * x.p.toNat + x.a.toNat)
                 (((smapGet .reset d.taste (4 * x.p.toNat + x.a.toNat)).assign round seed).step err) })) ∧
    (¬may → exec (.tastingRowInject x round seed err) s = .next s))

/-- FOLD, PBZERO, PBSPILL and PBLOAD join the order of Proof Buffer instructions; one that a re-run suppresses is only
counted (05_proof_buffer.mdR162, 05_proof_buffer.mdR168, 05_proof_buffer.mdR171, 05_proof_buffer.mdR172,
05_proof_buffer.mdR174, 05_proof_buffer.mdR175, 05_proof_buffer.mdR176). -/
def Obligations.ProofBufferInstructionsTakeTheirPlace : Prop :=
  ∀ (s : State) (pt : Pt) (c : LCore) (k : Nat), IssuesAt s pt c k →
    let q := s.core k
    let d := k / 26
    let suppressed := q.pbIssued < q.pbSuppress
    (∀ (a : ArrayNo) (bank : BitVec 1) (sa : BitVec 3) (sb : Option (BitVec 3)) (rt : BitVec 5),
      let ar := q.array a.toNat
      let marked := (q.slot sa.toNat).readMark = true ∨ ∃ x ∈ sb, (q.slot x.toNat).readMark = true
      (ar.pathFull (s.part pt.toNat).cyc = true → exec (.fold pt c a bank sa sb rt) s = .next (s.holdCycle pt.toNat)) ∧
      (ar.pathFull (s.part pt.toNat).cyc = false → ¬suppressed → marked → exec (.fold pt c a bank sa sb rt) s =
        .next (s.raise pt.toNat c.toNat k ⟨0x18, a.toNat + 4 * bank.toNat, 1, q.pc, 1 + a.toNat⟩)) ∧
      (ar.pathFull (s.part pt.toNat).cyc = false → suppressed ∨ ¬marked →
        ∃ job : DrainJob,
          job.kind = .fold bank.toNat sa.toNat (sb.map BitVec.toNat) ((q.sreg rt.toNat).extractLsb' 0 32)
            ((q.sreg rt.toNat).extractLsb' 32 32) (ar.bank bank.toNat).st ∧ job.id = q.nextId ∧ job.next = 0 ∧
          job.issue = (s.part pt.toNat).cyc ∧ job.snap = none ∧ job.pc = q.pc ∧
          exec (.fold pt c a bank sa sb rt) s = .next (s.setCore k
            { q with
                nextId := q.nextId + 1
                arrays := smapSet .reset q.arrays a.toNat
                  { ar.setBank bank.toNat { ar.bank bank.toNat with st := .spent } with jobs := ar.jobs ++ [job] }
                pbOps := q.pbOps ++
                  [⟨q.nextId, .fold, sa.toNat :: (sb.map BitVec.toNat).toList, false, 0, decide suppressed⟩]
                pbIssued := q.pbIssued + 1 }))) ∧
    (∀ (slot : BitVec 3) (rt : BitVec 5),
      (¬suppressed → (q.slot slot.toNat).readMark = false → exec (.pbzero pt c slot rt) s = .next (s.setCore k
        ({ q with
            nextId := q.nextId + 1, pbIssued := q.pbIssued + 1
            pbOps := q.pbOps ++
              [⟨q.nextId, .zero ((q.sreg rt.toNat).extractLsb' 0 32), [slot.toNat], false, 0, false⟩] } : Core).pbSettle)) ∧
      (¬suppressed → (q.slot slot.toNat).readMark = true → exec (.pbzero pt c slot rt) s =
        .next (s.raise pt.toNat c.toNat k ⟨0x18, 4 * slot.toNat, 1, q.pc, 6⟩))) ∧
    (∀ (slot eng : BitVec 3) (ri rt : BitVec 5),
      let addr := (q.sreg ri.toNat).toNat
      let e := s.serving d eng.toNat
      let marked := (q.slot slot.toNat).readMark = true
      let placed := addr % 256 = 0 ∧ addr + 278784 ≤ s.mem.hostTop
      let each := fun (x : State) => exec (.pbspillW pt c slot eng ri) s = .next x ∧
        exec (.pbspillA pt c slot eng ri) s = .next x ∧ exec (.pbload pt c slot eng ri rt) s = .next x
      let joins := fun (i : Instr) (op : PbKind) (kind : DescKind) =>
        ∃ desc : PeelDesc, desc.kind = kind ∧ desc.slot = slot.toNat ∧ desc.op = q.nextId ∧ desc.core = k ∧
          desc.addr = addr ∧ desc.received = 0 ∧ desc.started = false ∧
          exec i s = .next ((s.setCore k
            { (({ q with nextId := q.nextId + 1 } : Core).accept (.pbufImage e) [] [] 0 0 0).2 with
                pbOps := q.pbOps ++ [⟨q.nextId, op, [slot.toNat], false, 0, false⟩]
                pbIssued := q.pbIssued + 1 }).updEngine d e fun g => g.push s.now desc)
      (suppressed → each (s.setCore k { q with pbIssued := q.pbIssued + 1 }) ∧
        exec (.pbzero pt c slot rt) s = .next (s.setCore k { q with pbIssued := q.pbIssued + 1 })) ∧
      (¬suppressed → ¬placed → each (s.raise pt.toNat c.toNat k ⟨0x13, 4 * slot.toNat, 1, q.pc, 6⟩)) ∧
      (¬suppressed → placed → marked → each (s.raise pt.toNat c.toNat k ⟨0x18, 4 * slot.toNat, 1, q.pc, 6⟩)) ∧
      (¬suppressed → placed → ¬marked → 32 ≤ (s.engine d e).queue.length →
        each (s.freeze pt.toNat [⟨k, .peelQueue e, false, s.now⟩])) ∧
      (¬suppressed → placed → ¬marked → (s.engine d e).queue.length < 32 →
        joins (.pbspillW pt c slot eng ri) .spillW .spillW ∧ joins (.pbspillA pt c slot eng ri) .spillA .spillA ∧
        joins (.pbload pt c slot eng ri rt) (.load ((q.sreg rt.toNat).extractLsb' 0 32)) .load))

/-- FOLD_ROW_ADD adds each row of an OPEN bank into its slot; PB_SLOT_ROW_TRANSFER moves each slot row; a header in order
is accepted (05_proof_buffer.mdR162, 05_proof_buffer.mdR164, 05_proof_buffer.mdR166, 05_proof_buffer.mdR168,
05_proof_buffer.mdR169, 05_proof_buffer.mdR170, 05_proof_buffer.mdR171, 03_anchored_sums.mdR98). -/
def Obligations.ProofBufferRowsMove : Prop :=
  (∀ (s : State) (pt : Pt) (c : LCore) (k : Nat) (a : ArrayNo) (j : DrainJob) (js : List DrainJob) (b sa : Nat)
      (sb : Option Nat) (ta tb : Word) (was : BankState),
    let q := s.core k
    let cyc := (s.part pt.toNat).cyc
    let r : CoreRef := ⟨pt.toNat, c.toNat, k⟩
    let ar := q.array a.toNat
    let bank := j.snap.getD (ar.bank b)
    let slot := if j.next < 128 then sa else sb.getD sa
    let rows := if sb.isSome then 256 else 128
    let named := (sa, ta) :: (sb.map fun x => (x, tb)).toList
    let suppressed := ∃ o ∈ q.pbOps, o.id = j.id ∧ o.suppressed = true
    let row := bank.row j.next
    let on := fun (x : Core) => s.setCore k (((x.setArray a.toNat
      ((x.array a.toNat).readRow j rows (bank.anchor.getD 0) cyc)).takePort slot cyc).pbStep j.id rows)
    let bound := (sa :: sb.toList).foldl (fun (x : Core) i => x.setSlot i ((x.slot i).foldInto bank)) q
    IsCore s pt c k → (s.part pt.toNat).advancing = true → ar.jobs = j :: js → j.kind = .fold b sa sb ta tb was →
    drainMayRead q a.toNat j cyc = true →
    (j.next = 0 → bank.suspect = true →
      exec (.foldRowAdd pt c a) s = .next (s.abandonTile pt.toNat (srcCore k (1 + a.toNat)))) ∧
    (j.next = 0 → bank.suspect = false → suppressed ∨ was = .zero → exec (.foldRowAdd pt c a) s = .next (on q)) ∧
    (j.next = 0 → bank.suspect = false → ¬suppressed → was = .open →
      (∀ x ∈ named, (q.slot x.1).tag = x.2 ∧ ((q.slot x.1).anchor = none ∨ (q.slot x.1).anchor = bank.anchor)) →
      sb ≠ some sa → (sb = none → bank.top ≤ 128) →
      ((∀ i ∈ sa :: sb.toList, (bound.slot i).count ≤ 2 ^ 30) →
        exec (.foldRowAdd pt c a) s = .next (on (bound.foldRow slot 0 row))) ∧
      ((∃ i ∈ sa :: sb.toList, 2 ^ 30 < (bound.slot i).count) → exec (.foldRowAdd pt c a) s =
        .next ((s.setCore k bound).raise pt.toNat c.toNat k ⟨0x15, a.toNat + 4 * b, 1, j.pc, 1 + a.toNat⟩))) ∧
    (j.next = 0 → bank.suspect = false → ¬suppressed →
      foldFaults q a.toNat bank b sa sb ta tb was j.pc ≠ [] → exec (.foldRowAdd pt c a) s =
        .next ((s.setCore k (q.unspend a.toNat j b was)).raiseAll r (foldFaults q a.toNat bank b sa sb ta tb was j.pc))) ∧
    (0 < j.next → suppressed ∨ was ≠ .open → exec (.foldRowAdd pt c a) s = .next (on q)) ∧
    (0 < j.next → ¬suppressed → was = .open →
      exec (.foldRowAdd pt c a) s = .next (on (q.foldRow slot (j.next % 128) row)))) ∧
  (∀ (s : State) (die : DieNo) (eng : EngNo) (idx : BitVec 5) (x : PeelDesc),
    (s.engine die.toNat eng.toNat).queue[idx.toNat]? = some x →
    let q := s.core x.core
    let v := q.slot x.slot
    let cyc := (s.part x.pt).cyc
    let r : CoreRef := ⟨x.pt, s.logical x.pt x.core, x.core⟩
    let poisoned := s.mem.linePoison (x.addr / 256)
    let anchor := imageAnchor (s.mem.field x.addr 2)
    let tag : Word := BitVec.ofNat 32 (s.mem.field (x.addr + 4) 4)
    let accepted := fun (psn : Bool) (a : Option Int) (n : Nat) => s.updDesc die.toNat eng.toNat x.core x.xfer fun y =>
      { y with headerOk := true, headerPoison := psn, imgAnchor := a, imgCount := n }
    (s.headerDue x = true → poisoned = true → ¬(x.kind = .load ∧ v.isOpen = true) →
      exec (.pbImageHeaderArrive die eng idx) s = .next (accepted true none 0)) ∧
    (s.headerDue x = true → poisoned = false → tag = (if x.kind = .load then x.tag else v.tag) →
      (x.kind = .load → v.isOpen = false) → ∀ ia, anchor = some ia →
      (x.kind ≠ .load → ia = none ∨ v.anchor = none ∨ ia = v.anchor) →
      exec (.pbImageHeaderArrive die eng idx) s = .next (accepted false ia (s.mem.field (x.addr + 8) 8))) ∧
    (s.headerDue x = true → headerFaults x v poisoned anchor tag ≠ [] →
      exec (.pbImageHeaderArrive die eng idx) s = .next ((s.dropDesc eng.toNat x).raiseAll r ((headerFaults x v poisoned anchor tag).map fun code =>
        ⟨code, 4 * x.slot, 1, x.pc, 6⟩))) ∧
    (let i := x.received
     let done := fun (slot : PbSlot) (f : PeelDesc → PeelDesc) =>
      ((s.setCore x.core (((q.setSlot x.slot slot).takePort x.slot cyc).pbStep x.op 128)).updDesc die.toNat eng.toNat
        x.core x.xfer fun y => { f y with received := y.received + 1 }).beatEngine die.toNat eng.toNat
     let spilled := fun (bytes : List Byte) => (i < 127 →
       exec (.pbSlotRowTransfer die eng idx) s = .next (done (v.spillRow i) fun y => y.keepRow v i bytes)) ∧
      (i = 127 → exec (.pbSlotRowTransfer die eng idx) s = .next ((done (v.spillRow i) fun y => y.keepRow v i bytes).memPut x.addr
        (x.keepRow v i bytes).image))
     let es := loadedRow x (narrowRow (s.imageRow x i))
     let psn := x.imgPsn || es.any fun y => y.fl.psn
     let loaded := done (v.loadRow { x with imgPsn := psn } i es (pbCleared q x.slot x.op)) fun y => { y with imgPsn := psn }
     x.started = true → i < 128 → pbMayBegin q x.op = true → pbEarlier q x.slot i x.op = false →
     q.portBusy x.slot cyc = false ∨ (s.part x.pt).frozen = true →
     (x.kind = .spillW → spilled (imageRowBytes (slotRow128 v i))) ∧
     (x.kind = .spillA → x.headerOk = true → v.isOpen = true ∨ 0 < i →
       spilled (imageRowBytes (addRows128 (s.imageRow x i) (slotRow128 v i)))) ∧
     (x.kind = .spillA → v.isOpen = false → i = 0 → pbEarlier q x.slot 127 x.op = false →
       exec (.pbSlotRowTransfer die eng idx) s = .next ((s.setCore x.core ({ q.setSlot x.slot ((v.clearHead v.tag).clearRows 0 128) with
         pbOps := q.pbOps.filter fun o => o.id != x.op } : Core).pbSettle).updDesc die.toNat eng.toNat x.core x.xfer
           fun y => { y with received := 128 })) ∧
     (x.kind = .load → x.headerOk = true →
       (¬(i = 0 ∧ 2 ^ 30 < x.imgCount) → exec (.pbSlotRowTransfer die eng idx) s = .next loaded) ∧
       (i = 0 → 2 ^ 30 < x.imgCount → exec (.pbSlotRowTransfer die eng idx) s = .next (loaded.raise r.pt r.c r.k ⟨0x15, 4 * x.slot, 1, x.pc, 6⟩)))))

/-- The typed vector instructions act lane by lane in their type, poison their destination from their sources, and fault
on a type they do not take (R249, R250). -/
def Obligations.VectorArithmeticLaneByLane : Prop :=
  ∀ (s : State) (pt : Pt) (c : LCore) (k : Nat) (vd va vb vc : BitVec 6), IssuesAt s pt c k → VectorFree s pt k →
    let q := s.core k
    let a := q.vreg va.toNat
    let b := q.vreg vb.toNat
    let z := q.vreg vc.toNat
    let w32 := fun (i : Instr) (f : Word → Word → Word) => exec i s = .next (s.owingV pt k 1 4 vd
      ⟨ofLanes (List.zipWith f (lanes a.bits) (lanes b.bits)), a.poison || b.poison⟩)
    let w64 := fun (i : Instr) (f : DWord → DWord → DWord) => exec i s = .next (s.owingV pt k 4 7 vd
      ⟨ofDlanes (List.zipWith f (dlanes a.bits) (dlanes b.bits)), a.poison || b.poison⟩)
    let f32 := fun (i : Instr) (f : Machine.Num → Machine.Num → Machine.Num) => w32 i fun x y => toF32 (f (f32 x) (f32 y))
    let f64 := fun (i : Instr) (f : Machine.Num → Machine.Num → Machine.Num) => w64 i fun x y => toF64 (f (f64 x) (f64 y))
    let bad := fun (i : Instr) => exec i s =
      .next (s.illegalAt pt c k 2 5)
    (f32 (.vadd pt c vd va vb 0) Machine.Num.add ∧ f64 (.vadd pt c vd va vb 1) Machine.Num.add ∧ w32 (.vadd pt c vd va vb 2) (· + ·) ∧
      bad (.vadd pt c vd va vb 3)) ∧
    (f32 (.vsub pt c vd va vb 0) Machine.Num.sub ∧ f64 (.vsub pt c vd va vb 1) Machine.Num.sub ∧ w32 (.vsub pt c vd va vb 2) (· - ·) ∧
      bad (.vsub pt c vd va vb 3)) ∧
    (f32 (.vmul pt c vd va vb 0) Machine.Num.mul ∧ f64 (.vmul pt c vd va vb 1) Machine.Num.mul ∧ w32 (.vmul pt c vd va vb 2) (· * ·) ∧
      bad (.vmul pt c vd va vb 3)) ∧
    (f32 (.vmax pt c vd va vb 0) Machine.Num.max ∧ f64 (.vmax pt c vd va vb 1) Machine.Num.max ∧
      w32 (.vmax pt c vd va vb 2) (fun x y => if x.toInt < y.toInt then y else x) ∧ bad (.vmax pt c vd va vb 3)) ∧
    (f32 (.vmin pt c vd va vb 0) Machine.Num.min ∧ f64 (.vmin pt c vd va vb 1) Machine.Num.min ∧
      w32 (.vmin pt c vd va vb 2) (fun x y => if y.toInt < x.toInt then y else x) ∧ bad (.vmin pt c vd va vb 3)) ∧
    (exec (.vfma pt c vd va vb vc 0) s = .next (s.owingV pt k 1 4 vd
        ⟨ofLanes (zipWith3 (fun x y w => toF32 (((Machine.f32 x).mul (Machine.f32 y)).add (Machine.f32 w))) (lanes a.bits)
          (lanes b.bits) (lanes z.bits)), a.poison || b.poison || z.poison⟩) ∧
      exec (.vfma pt c vd va vb vc 1) s = .next (s.owingV pt k 4 7 vd
        ⟨ofDlanes (zipWith3 (fun x y w => toF64 (((Machine.f64 x).mul (Machine.f64 y)).add (Machine.f64 w))) (dlanes a.bits)
          (dlanes b.bits) (dlanes z.bits)), a.poison || b.poison || z.poison⟩) ∧
      bad (.vfma pt c vd va vb vc 2) ∧ bad (.vfma pt c vd va vb vc 3)) ∧
    ((∀ cond : BitVec 3, cond.toNat < 6 →
        w32 (.vcmp pt c vd va vb 0 cond) (fun x y => if condNum cond.toNat (Machine.f32 x) (Machine.f32 y) then BitVec.allOnes 32 else 0) ∧
        w64 (.vcmp pt c vd va vb 1 cond) (fun x y => if condNum cond.toNat (Machine.f64 x) (Machine.f64 y) then BitVec.allOnes 64 else 0)) ∧
      (∀ cond : BitVec 3, w32 (.vcmp pt c vd va vb 2 cond)
        (fun x y => if condInt cond.toNat x y then BitVec.allOnes 32 else 0)) ∧
      (∀ cond : BitVec 3, bad (.vcmp pt c vd va vb 3 cond) ∧
        (6 ≤ cond.toNat → bad (.vcmp pt c vd va vb 0 cond) ∧ bad (.vcmp pt c vd va vb 1 cond)))) ∧
    exec (.vsel pt c vd va vb vc) s = .next (s.owingV pt k 1 4 vd
      ⟨ofLanes (zipWith3 (fun x y w => if w = 0 then y else x) (lanes a.bits) (lanes b.bits) (lanes z.bits)),
        a.poison || b.poison || z.poison⟩) ∧
    exec (.vperm pt c vd va vb) s = .next (s.owingV pt k 1 4 vd
      ⟨ofLanes ((lanes b.bits).map fun i => a.bits.extractLsb' (32 * (i.toNat % 256)) 32), a.poison || b.poison⟩) ∧
    (w32 (.vand pt c vd va vb 2) (· &&& ·) ∧ w32 (.vor pt c vd va vb 2) (· ||| ·) ∧ w32 (.vxor pt c vd va vb 2) (· ^^^ ·) ∧
      w32 (.vshl pt c vd va vb 2) (fun x y => x <<< (y.toNat % 32)) ∧
      w32 (.vshr pt c vd va vb 2) (fun x y => x >>> (y.toNat % 32)) ∧
      w32 (.vshrA pt c vd va vb 2) (fun x y => x.sshiftRight (y.toNat % 32)) ∧
      (∀ ty : BitVec 2, ty ≠ 2 → bad (.vand pt c vd va vb ty) ∧ bad (.vor pt c vd va vb ty) ∧
        bad (.vxor pt c vd va vb ty) ∧ bad (.vshl pt c vd va vb ty) ∧ bad (.vshr pt c vd va vb ty) ∧
        bad (.vshrA pt c vd va vb ty)))

/-- A V-slot instruction issued while the vector unit is occupied holds the whole partition for the cycle and has no other
effect (07_fiard_compute.mdR279, 08_freeze_and_schedule.mdR281). -/
def Obligations.VectorUnitHoldsWhileBusy : Prop :=
  ∀ (s : State) (pt : Pt) (c : LCore) (k : Nat) (vd va vb vc : BitVec 6) (ty part mr width : BitVec 2) (rs ri rsm : BitVec 5)
    (src tgt fn : BitVec 4) (x y : Bool) (n1 : BitVec 9) (ca cond : BitVec 3) (count : BitVec 10),
    IssuesAt s pt c k → (s.part pt.toNat).cyc < (s.core k).vBusy →
    let t := s.setPart pt.toNat { s.part pt.toNat with holdNow := true, rested := true }
    ∀ i ∈ ([.vld pt c vd rs part, .vst pt c va rs part, .vadd pt c vd va vb ty, .vfma pt c vd va vb vc ty,
      .vcmp pt c vd va vb ty cond, .vsel pt c vd va vb vc, .vand pt c vd va vb ty, .vperm pt c vd va vb,
      .vcvt pt c vd va src tgt x mr y ri rsm, .vfn pt c vd va fn x, .vaxsumF32 pt c vd va vb x ri n1,
      .vaxsumOut32 pt c vd va vb x ri n1, .vleav pt c vd ri rsm x, .vcrumb pt c va ca width count ri rsm,
      .vopt pt c vd va vb vc x] : List Instr), exec i s = .next t

/-- VLD owes vd the lines of its part at latency 6 with their poison, VST writes its part to the Bench at the end of its
issue cycle (07_fiard_compute.mdR248, 07_fiard_compute.mdR247, 07_fiard_compute.mdR222, 07_fiard_compute.mdR224,
04_core.mdR149). -/
def Obligations.VectorLoadsAndStores : Prop :=
  (∀ (s : State) (pt : Pt) (c : LCore) (k : Nat) (v : BitVec 6) (rs : BitVec 5) (part : BitVec 2),
    IssuesAt s pt c k → VectorFree s pt k →
    let q := s.core k
    let cyc := (s.part pt.toNat).cyc
    let l := (q.sreg rs.toNat).toNat % 2 ^ 16
    let n := if part = 0 then 8 else 4
    let ls := (List.range n).map (l + ·)
    let data := BitVec.ofNat 8192 (linesNat (ls.map fun i => (q.line i).data))
    let q1 := { q with vBusy := cyc + 1 }
    let fault := fun (code unit : Nat) => s.raise pt.toNat c.toNat k ⟨code, 0, 2, q.pc, unit⟩
    (part ≠ 3 → l + n ≤ 65536 → (∀ i ∈ ls, (q.line i).st = .valid) →
      (q.vldsOut < 8 → exec (.vld pt c v rs part) s = .next (s.setCore k
        { q1 with reads := q.reads + n
                  writes := q.writes ++ [⟨cyc + 5, 1, .vload v.toNat part.toNat data (ls.any fun i => (q.line i).poison)⟩] })) ∧
      (8 ≤ q.vldsOut → exec (.vld pt c v rs part) s = .next (fault 0x10 5))) ∧
    (part ≠ 3 → l + n ≤ 65536 → q.vldsOut < 8 → (∃ i ∈ ls, (q.line i).st = .invalid) →
      exec (.vld pt c v rs part) s = .next (fault 0x12 6)) ∧
    (part ≠ 3 → l + n ≤ 65536 → (∀ i ∈ ls, (q.line i).st ≠ .pending) →
      exec (.vst pt c v rs part) s = .next (s.setCore k
        { q1 with writes := q.writes ++ (List.range n).map fun i =>
            ⟨cyc, 14, .bench ⟨l + i, (q.vreg v.toNat).bits.extractLsb' (1024 * ((if part = 2 then 4 else 0) + i)) 1024,
              BitVec.allOnes 128, (q.vreg v.toNat).poison⟩⟩ })) ∧
    (part = 3 → exec (.vld pt c v rs part) s = .next (s.illegalAt pt c k 2 5) ∧
      exec (.vst pt c v rs part) s = .next (s.illegalAt pt c k 2 5)) ∧
    (part ≠ 3 → 65536 < l + n → exec (.vst pt c v rs part) s = .next (fault 0x13 5) ∧
      ((∀ i ∈ ls, i < 65536 → (q.line i).st = .valid) → q.vldsOut < 8 →
        exec (.vld pt c v rs part) s = .next (fault 0x13 5)))) ∧
  (∀ (q : Core) (i : Nat) (bits : VWord) (psn : Bool), smapSorted q.v = true →
    (q.applyAct (.vload i 0 bits psn)).vreg i = ⟨bits, psn⟩ ∧
    ((q.applyAct (.vload i 1 bits psn)).vreg i).bits.extractLsb' 4096 4096 = (q.vreg i).bits.extractLsb' 4096 4096 ∧
    ((q.applyAct (.vload i 1 bits psn)).vreg i).bits.extractLsb' 0 4096 = bits.extractLsb' 0 4096 ∧
    ((q.applyAct (.vload i 2 bits psn)).vreg i).bits.extractLsb' 0 4096 = (q.vreg i).bits.extractLsb' 0 4096 ∧
    ((q.applyAct (.vload i 2 bits psn)).vreg i).bits.extractLsb' 4096 4096 = bits.extractLsb' 0 4096 ∧
    ((q.applyAct (.vload i 1 bits psn)).vreg i).poison = ((q.vreg i).poison || psn))

/-- VCVT, VFN, VLEAV, VCRUMB and VOPT: what each owes its destination, its running maximum or its Crumb accumulator
(07_fiard_compute.mdR251, 07_fiard_compute.mdR252, 07_fiard_compute.mdR259, 07_fiard_compute.mdR260,
07_fiard_compute.mdR262). -/
def Obligations.ConversionsFunctionsAndSoftUpdates : Prop :=
  ∀ (s : State) (pt : Pt) (c : LCore) (k : Nat) (vd va vb vc : BitVec 6), IssuesAt s pt c k → VectorFree s pt k →
    let q := s.core k
    let cyc := (s.part pt.toNat).cyc
    let a := q.vreg va.toNat
    let b := q.vreg vb.toNat
    let z := q.vreg vc.toNat
    let q1 := { q with vBusy := cyc + 1 }
    (∀ (src tgt : BitVec 4) (sr clr : Bool) (mr : BitVec 2) (ri rsm : BitVec 5),
      let n := if src = 1 ∨ tgt = 1 then 128 else 256
      let xs := cvtValues src.toNat n a.bits
      let rnd := fun (i : Nat) => if sr = true ∧ 2 ≤ tgt.toNat ∧ tgt ≠ 9 then
        Rnd.sr (srBits q.seed q.step ((q.sreg rsm.toNat).extractLsb' 0 32) (q.sreg ri.toNat + BitVec.ofNat 64 i)) else Rnd.rne
      (src.toNat < 10 → tgt.toNat < 10 → cvtPair src.toNat tgt.toNat = true → exec (.vcvt pt c vd va src tgt sr mr clr ri rsm) s = .next (s.setCore k
        { q1 with writes := q.writes ++ (if clr then [⟨cyc + 5, 0, .mclear mr.toNat⟩] else []) ++
            [⟨cyc + 5, 2, .mjoin mr.toNat (.ofValues xs)⟩,
             ⟨cyc + 5, 1, .vreg vd.toNat ⟨cvtBits tgt.toNat (xs.zipIdx.map fun e => (rnd e.2, e.1)), a.poison⟩⟩] })) ∧
      (src.toNat < 10 → tgt.toNat < 10 → cvtPair src.toNat tgt.toNat = false →
        exec (.vcvt pt c vd va src tgt sr mr clr ri rsm) s = .next (s.raise pt.toNat c.toNat k ⟨0x19, 0, 2, q.pc, 5⟩)) ∧
      (10 ≤ src.toNat ∨ 10 ≤ tgt.toNat → exec (.vcvt pt c vd va src tgt sr mr clr ri rsm) s = .next (s.illegalAt pt c k 2 5))) ∧
    (∀ (fn : BitVec 4) (d : Bool),
      (fn.toNat < 9 → exec (.vfn pt c vd va fn d) s = .next (s.owingV pt k 1 12 vd
        ⟨ofLanes ((lanes a.bits).map fun x => toF32 (if d then fnDeriv fn.toNat (f32 x) else fnApply fn.toNat (f32 x))),
          a.poison⟩)) ∧
      (9 ≤ fn.toNat → exec (.vfn pt c vd va fn d) s = .next (s.illegalAt pt c k 2 5))) ∧
    (∀ (ri rsm : BitVec 5),
      let w := fun (i : Nat) => leavenWord q.seed q.step ((q.sreg rsm.toNat).extractLsb' 0 32)
        (q.sreg ri.toNat + BitVec.ofNat 64 i)
      exec (.vleav pt c vd ri rsm false) s = .next (s.owingV pt k 1 10 vd ⟨ofLanes ((List.range 256).map w), false⟩) ∧
      exec (.vleav pt c vd ri rsm true) s = .next (s.owingV pt k 1 10 vd
        ⟨ofLanes ((List.range 256).map fun i => toF32 (.fin false ((w i).toNat / 2 ^ 8) (-24))), false⟩)) ∧
    (∀ (ca : BitVec 3) (width : BitVec 2) (count : BitVec 10) (ri rk : BitVec 5),
      let w := 8 * 2 ^ width.toNat
      let n := count.toNat + 1
      (width ≠ 3 → n * w ≤ 8192 → exec (.vcrumb pt c va ca width count ri rk) s = .next (s.setCore k
        { q1 with writes := q.writes ++ [⟨cyc + 5, 2, .crumb ca.toNat (crumbAddOf ((q.sreg rk.toNat).extractLsb' 0 32) q.step
            a.poison ((List.range n).map fun i =>
              (q.sreg ri.toNat + BitVec.ofNat 64 i, BitVec.ofNat 32 (elemAt a.bits.toNat w i))))⟩] })) ∧
      (width ≠ 3 → 8192 < n * w → exec (.vcrumb pt c va ca width count ri rk) s =
        .next (s.raise pt.toNat c.toNat k ⟨0x13, 0, 2, q.pc, 5⟩)) ∧
      (width = 3 → exec (.vcrumb pt c va ca width count ri rk) s = .next (s.illegalAt pt c k 2 5))) ∧
    exec (.vopt pt c vd va vb vc false) s =
      .next (s.owingV pt k 1 4 vd ⟨optBits a.bits b.bits, a.poison || b.poison⟩) ∧
    (z.poison = false → z.bits.extractLsb' 0 4 ≠ 0 →
      exec (.vopt pt c vd va vb vc true) s = .next (s.owingV pt k 1 4 vd a)) ∧
    (z.poison = false → z.bits.extractLsb' 0 4 = 0 → exec (.vopt pt c vd va vb vc true) s =
      .next (s.owingV pt k 1 4 vd ⟨optBits a.bits b.bits, a.poison || b.poison⟩)) ∧
    (z.poison = true → exec (.vopt pt c vd va vb vc true) s =
      .next (s.raise pt.toNat c.toNat k ⟨0x20, 0, 2, q.pc, 5⟩))

/-- VAXSUM adds n values, words, records or an accumulator to an AX128 accumulator and counts them; .OUT rounds it; bad
anchors and sizes fault (07_fiard_compute.mdR257, 07_fiard_compute.mdR258, 03_anchored_sums.mdR98,
03_anchored_sums.mdR107). -/
def Obligations.ExactAccumulatorsAdd : Prop :=
  ∀ (s : State) (pt : Pt) (c : LCore) (k : Nat) (vd va vb : BitVec 6) (clr : Bool) (ra : BitVec 5) (n1 : BitVec 9),
    IssuesAt s pt c k → VectorFree s pt k →
    let q := s.core k
    let cyc := (s.part pt.toNat).cyc
    let acc : VAcc := if clr then
        ⟨.zero, max (-512) (min 511 ((q.sreg ra.toNat).extractLsb' 0 16).toInt), 0⟩
      else VAcc.ofBits (q.vreg va.toNat).bits
    let psn := !clr && (q.vreg va.toNat).poison
    let b := q.vreg vb.toNat
    let n := n1.toNat + 1
    let ok := -512 ≤ acc.anchor ∧ acc.anchor ≤ 511
    let raised := fun (code : Nat) => s.raise pt.toNat c.toNat k ⟨code, 0, 2, q.pc, 5⟩
    let sums := fun (i : Instr) (m : AxMode) =>
      let r := m.addends acc n b
      let count := min (acc.count + r.2.1) (2 ^ 96 - 1)
      let x1 := if b.poison then r.1.setPsn else r.1
      let x2 := if 2 ^ 78 < count then x1.setOvf else x1
      let sets := r.2.2.2 = true ∨ (2 ^ 78 < count ∧ acc.sum.fl.ovf = false)
      let base := (s.setCore k { q with vBusy := cyc + 1, nextId := q.nextId + 1 }).countLoss k q.nextId r.2.2.1
      let out := fun (t : State) => t.delay ⟨pt.toNat, c.toNat, k⟩ 8 1
        (.vreg vd.toNat ⟨VAcc.bits ⟨x2, acc.anchor, count⟩, psn || b.poison⟩)
      (¬sets → exec i s = .next (out base)) ∧
      (sets → exec i s = .next (out (base.delay ⟨pt.toNat, c.toNat, k⟩ 8 3 (.raise ⟨0x15, 0, 2, q.pc, 5⟩))))
    let adds := fun (i : Instr) (m : AxMode) (limit : Nat) =>
      (n ≤ limit → ok → sums i m) ∧ (n ≤ limit → ¬ok → exec i s = .next (raised 0x15)) ∧
      (limit < n → exec i s = .next (raised 0x13))
    adds (.vaxsumF32 pt c vd va vb clr ra n1) .f32 256 ∧ adds (.vaxsumF64 pt c vd va vb clr ra n1) .f64 128 ∧
    adds (.vaxsumW80 pt c vd va vb clr ra n1) .w80 85 ∧ adds (.vaxsumTap pt c vd va vb clr ra n1) .tap 64 ∧
    (ok → (VAcc.ofBits b.bits).anchor = acc.anchor → sums (.vaxsumW128 pt c vd va vb clr ra n1) .w128) ∧
    (¬ok ∨ (VAcc.ofBits b.bits).anchor ≠ acc.anchor →
      exec (.vaxsumW128 pt c vd va vb clr ra n1) s = .next (raised 0x15)) ∧
    (ok → exec (.vaxsumOut32 pt c vd va vb clr ra n1) s = .next (s.owingV pt k 1 8 vd
        ⟨ofLanes [toF32 (leaveGrid acc.anchor acc.sum)], psn || acc.sum.fl.psn⟩) ∧
      exec (.vaxsumOut64 pt c vd va vb clr ra n1) s = .next (s.owingV pt k 1 8 vd
        ⟨ofDlanes [toF64 (leaveGrid acc.anchor acc.sum)], psn || acc.sum.fl.psn⟩)) ∧
    (¬ok → exec (.vaxsumOut32 pt c vd va vb clr ra n1) s = .next (raised 0x15) ∧
      exec (.vaxsumOut64 pt c vd va vb clr ra n1) s = .next (raised 0x15))

/-- ACT queues its rows, ACT_ROW_DELIVER moves a read row into the AQ in the third cycle or later, a full AQ overflows; a
frozen AQ row still arrives (07_fiard_compute.mdR264, 04_core.mdR138, 08_freeze_and_schedule.mdR283,
08_freeze_and_schedule.mdR632). -/
def Obligations.ActivationRowsAreDelivered : Prop :=
  ∀ (s : State) (pt : Pt) (c : LCore) (k : Nat),
    let q := s.core k
    let cyc := (s.part pt.toNat).cyc
    (IssuesAt s pt c k → ∀ (rs : BitVec 5) (rows1 : Byte) (fmt : BitVec 4) (rp rx : BitVec 5),
      let rows := rows1.toNat + 1
      let line := (q.sreg rs.toNat).toNat % 2 ^ 16
      let pitch := (q.sreg rp.toNat).toNat
      let sx := (q.sreg rx.toNat).toNat % 2 ^ 16
      let start := q.acts.foldl (fun t j => max t (j.start + j.rows)) cyc
      let job : ActJob := ⟨fmt.toNat, line, pitch, sx, rows, start, 0, [], q.pc⟩
      let inBench := line + (rows - 1) * pitch + actLines fmt.toNat ≤ 65536 ∧
        (4 ≤ fmt.toNat → sx * 128 + 8 * rows ≤ 65536 * 128)
      (fmt.toNat < 7 → inBench → (start = cyc → ∀ i ∈ job.lines 0, (q.line i).st = .valid) →
        exec (.act pt c rs rows1 fmt rp rx) s = .next (s.setCore k { q with acts := q.acts ++ [job] })) ∧
      (fmt.toNat < 7 → inBench → start = cyc → (∃ i ∈ job.lines 0, (q.line i).st = .invalid) →
        exec (.act pt c rs rows1 fmt rp rx) s = .next (s.raise pt.toNat c.toNat k ⟨0x12, 0, 3, q.pc, 6⟩)) ∧
      (7 ≤ fmt.toNat → exec (.act pt c rs rows1 fmt rp rx) s = .next (s.illegalAt pt c k 3 6)) ∧
      (fmt.toNat < 7 → ¬inBench → exec (.act pt c rs rows1 fmt rp rx) s =
        .next (s.raise pt.toNat c.toNat k ⟨0x13, 0, 3, q.pc, 6⟩))) ∧
    (IsCore s pt c k → ∀ (avail : Nat) (row : AqRow) (acts : List ActJob), nextActRow q.acts = some ((avail, row), acts) →
      let room := 64 + (if q.popDue cyc then 1 else 0)
      ((s.part pt.toNat).advancing = true → s.arrayHold pt.toNat = false → avail ≤ cyc → q.aq.length < room →
        exec (.actRowDeliver pt c) s = .next (s.setCore k { q with aq := q.aq ++ [row], acts := acts })) ∧
      ((s.part pt.toNat).advancing = true → s.arrayHold pt.toNat = false → avail ≤ cyc → room ≤ q.aq.length →
        exec (.actRowDeliver pt c) s = .next ((s.setCore k { q with acts := q.acts.drop 1 }).raise pt.toNat c.toNat k
          ⟨0x10, 0, 3, (q.acts.head?.map fun j => j.pc).getD 0, 6⟩)) ∧
      ((s.part pt.toNat).advancing = false → exec (.actRowDeliver pt c) s = .next s) ∧
      ((∃ w ∈ (s.part pt.toNat).needs, w.core = k ∧ w.need = .aqRow) → q.aq = [] →
        exec (.actRowFreezeDeliver pt c) s = .next (s.setCore k { q with aq := [row], acts := acts }))) ∧
    (IsCore s pt c k → (∃ w ∈ (s.part pt.toNat).needs, w.core = k ∧ w.need = .aqRow) → q.aq = [] →
      nextActRow q.acts = none → (∀ i ∈ q.nextActLines, (q.line i).st = .valid) →
      exec (.actRowFreezeDeliver pt c) s =
        .next (s.setCore k ({ q with acts := readOldest q cyc q.acts } : Core).takeActRow)) ∧
    (IsCore s pt c k → (∀ w ∈ (s.part pt.toNat).needs, ¬(w.core = k ∧ w.need = .aqRow)) →
      exec (.actRowFreezeDeliver pt c) s = .next s)

/-- PEEL accepts a legal descriptor into its engine's queue, the engine starts it, its lines arrive or are read, and it
completes and leaves (07_fiard_compute.mdR263, 07_fiard_compute.mdR265, 07_fiard_compute.mdR266,
14_faults_spares.mdR460, 14_faults_spares.mdR471, 04_core.mdR147, 07_fiard_compute.mdR223, 07_fiard_compute.mdR268,
07_fiard_compute.mdR630). -/
def Obligations.PeelDescriptorsAndTheirRows : Prop :=
  (∀ (s : State) (pt : Pt) (c : LCore) (k : Nat), IssuesAt s pt c k →
    ∀ (eng : EngNo) (rq : BitVec 5),
    let q := s.core k
    let r : CoreRef := ⟨pt.toNat, c.toNat, k⟩
    let dl := (q.sreg rq.toNat).toNat % 2 ^ 16
    let f := parsePeel (q.line dl).data
    let e := s.serving (k / 26) eng.toNat
    let ls := if f.kind ≤ 1 then peelLines f.line f.rowBytes f.rows f.benchPitch else []
    let src := if f.kind = 1 then ls else []
    let dst := if f.kind = 0 then ls else []
    let carried := q.issuedXfers < q.carried ∧ f.kind ≤ 2
    (carried → exec (.peel pt c eng rq) s = .next (s.setCore k { q with issuedXfers := q.issuedXfers + 1 })) ∧
    (¬carried → (q.line dl).st = .valid →
      (peelFault s f = none → s.replayPeel r e f q.pc = none → (s.engine (k / 26) e).queue.length < 32 →
        (∀ i ∈ src, (q.line i).st = .valid) → (∀ i ∈ dst, (q.line i).st ≠ .pending) →
        let a := q.accept (.peel e) src dst 0 0 f.line
        exec (.peel pt c eng rq) s = .next (((s.setCore k
          { a.2 with issuedXfers := a.2.issuedXfers + (if f.kind ≤ 2 then 1 else 0) }).updEngine (k / 26) e fun g =>
            g.push s.now (peelDesc f pt.toNat k a.1 q.pc)).countReads r 1)) ∧
      (∀ s1, peelFault s f = none → s.replayPeel r e f q.pc = some s1 → exec (.peel pt c eng rq) s = .next s1) ∧
      (∀ code, peelFault s f = some code → exec (.peel pt c eng rq) s =
        .next (s.raise pt.toNat c.toNat k ⟨code, 0, 3, q.pc, 6⟩)) ∧
      (peelFault s f = none → s.replayPeel r e f q.pc = none → 32 ≤ (s.engine (k / 26) e).queue.length →
        exec (.peel pt c eng rq) s = .next (s.freeze pt.toNat [⟨k, .peelQueue e, false, s.now⟩])))) ∧
  (∀ (s : State) (die : DieNo) (eng : EngNo) (done : List PeelDesc) (x : PeelDesc) (rest : List PeelDesc),
    (s.engine die.toNat eng.toNat).queue = done ++ x :: rest → (∀ y ∈ done, y.issued = true) → x.started = false →
    let t := (s.updDesc die.toNat eng.toNat x.core x.xfer fun y => { y with started := true }).beatEngine die.toNat eng.toNat
    (x.kind = .into → exec (.peelDescriptorStart die eng) s = .next (t.requestRows x eng.toNat)) ∧ (x.kind = .out →
      exec (.peelDescriptorStart die eng) s = .next (t.sendWrites x eng.toNat)) ∧
    (x.kind = .copy → exec (.peelDescriptorStart die eng) s = .next ((t.requestRows x eng.toNat).sendWrites x eng.toNat)) ∧
    (x.kind ≠ .into → x.kind ≠ .out → x.kind ≠ .copy → exec (.peelDescriptorStart die eng) s = .next t)) ∧
  (∀ (s : State) (pt : Pt) (c : LCore) (k : Nat) (line : BitVec 16) (id cause : Nat) (x : Xfer), IsCore s pt c k →
    let q := s.core k
    let l := q.line line.toNat
    l.hold = some ⟨id, cause, false⟩ → q.xfer id = some x →
    (∀ e g d cells, x.kind = .peel e → s.findDesc k id = some (g, d) → d.started = true →
      s.peelLineData d line.toNat = some cells →
      exec (.peelLineArrive pt c line) s = .next ((s.setCore k
        ((q.setLine line.toNat (l.arrive cells)).lineCame id line.toNat)).beatEngine (k / 26) e)) ∧
    (x.kind = .dssld →
      let v := s.dssLine (k / 26) (x.dss / 128 + (line.toNat - x.first))
      let k1 := (q.setLine line.toNat ⟨.valid, v.data, v.poison, true, true, none⟩).lineCame id line.toNat
      (1 < x.dst.length → exec (.peelLineArrive pt c line) s = .next (s.setCore k k1)) ∧
      (x.dst.length ≤ 1 → exec (.peelLineArrive pt c line) s = .next (s.setCore k (k1.dropXfer id))))) ∧
  (∀ (s : State) (pt : Pt) (c : LCore) (k : Nat) (line : BitVec 16) (id cause : Nat) (x : Xfer), IsCore s pt c k →
    let q := s.core k
    let l := q.line line.toNat
    let after := if line.toNat ∈ x.dst then l.release.await id 1 else l.release
    let buf := x.buf ++ [(l.data, l.poison)]
    let t := s.setCore k ((q.setLine line.toNat after).updXfer id fun y => { y with src := x.src.drop 1, buf := buf })
    let last := x.src.drop 1 = []
    l.hold = some ⟨id, cause, true⟩ → q.xfer id = some x → x.src.head? = some line.toNat →
    (x.kind = .dssst →
      let u := t.setDssLine (k / 26) (x.dss / 128 + (line.toNat - x.first)) ⟨l.data, l.poison⟩
      (¬last → exec (.engineSourceLineRead pt c line) s = .next u) ∧ (last →
        exec (.engineSourceLineRead pt c line) s = .next (u.updCore k fun y => y.dropXfer id))) ∧
    (x.kind = .xsend → (¬last → exec (.engineSourceLineRead pt c line) s = .next t) ∧ (last →
      exec (.engineSourceLineRead pt c line) s = .next (t.messageRead ⟨pt.toNat, c.toNat, k⟩ id buf))) ∧
    (x.kind = .xred → (¬last → exec (.engineSourceLineRead pt c line) s = .next t) ∧ (last →
      exec (.engineSourceLineRead pt c line) s = .next (t.memberReady k id buf))) ∧
    (∀ e g d, x.kind = .peel e → s.findDesc k id = some (g, d) → d.started = true →
      let u := t.beatEngine (k / 26) e
      (¬last → exec (.engineSourceLineRead pt c line) s = .next u) ∧ (∀ h y, last → u.findDesc k id = some (h, y) →
        exec (.engineSourceLineRead pt c line) s = .next (u.sendWrites y e)))) ∧
  (∀ (s : State) (die : DieNo) (eng : EngNo) (idx : BitVec 5) (x : PeelDesc),
    (s.engine die.toNat eng.toNat).queue[idx.toNat]? = some x → x.started = true →
    (x.kind = .into → s.destCame x = true) →
    (x.kind = .out ∨ x.kind = .copy → x.sent = true ∧ s.descWaits x = false ∧ s.sourceRead x = true ∧
      ∃ e, s.findDesc x.core x.xfer = some (e, x)) →
    (x.kind = .stream → x.received = x.rows ∧ s.descWaits x = false) →
    (x.kind = .spillW ∨ x.kind = .spillA ∨ x.kind = .load → x.received = 128) →
    exec (.peelTransferComplete die eng idx) s = .next (s.dropDesc eng.toNat x))

/-- BCOPY, DSSLD and DSSST: what each accepts, which lines it holds, and that nothing else changes
(07_fiard_compute.mdR268, 07_fiard_compute.mdR224, 07_fiard_compute.mdR223, 04_core.mdR147, 14_faults_spares.mdR460). -/
def Obligations.CopiesAndDssTransfers : Prop :=
  ∀ (s : State) (pt : Pt) (c : LCore) (k : Nat) (rs rt : BitVec 5) (n1 : BitVec 12), IssuesAt s pt c k →
    let q := s.core k
    let l := (q.sreg rs.toNat).toNat % 2 ^ 16
    let d := (q.sreg rt.toNat).toNat % 2 ^ 16
    let o := (q.sreg rt.toNat).toNat
    let n := n1.toNat + 1
    let ls := (List.range n).map (l + ·)
    let range := s.raise pt.toNat c.toNat k ⟨0x13, 0, 3, q.pc, 6⟩
    let dssOk := l + n ≤ 65536 ∧ o % 128 = 0 ∧ o + 128 * n ≤ 2 ^ 26
    (l + n ≤ 65536 → d + n ≤ 65536 → exec (.bcopy pt c rs rt n1) s = .next (s.setCore k
      { q with bcopies := q.bcopies ++
          [⟨l, d, n, (s.part pt.toNat).cyc, decide (l < d ∧ d < l + n), 0, q.pc⟩] })) ∧
    ((65536 < l + n ∨ 65536 < d + n) → exec (.bcopy pt c rs rt n1) s = .next range) ∧
    (q.issuedXfers < q.carried →
      let t := s.setCore k { q with issuedXfers := q.issuedXfers + 1 }
      exec (.dssld pt c rs rt n1) s = .next t ∧ exec (.dssst pt c rs rt n1) s = .next t) ∧
    (q.carried ≤ q.issuedXfers →
      (dssOk → (∀ i ∈ ls, (q.line i).st ≠ .pending) → exec (.dssld pt c rs rt n1) s =
        .next (s.setCore k { (q.accept .dssld [] ls 1 o l).2 with issuedXfers := q.issuedXfers + 1 })) ∧
      (dssOk → (∀ i ∈ ls, (q.line i).st = .valid) → exec (.dssst pt c rs rt n1) s =
        .next (s.setCore k { (q.accept .dssst ls [] 0 o l).2 with issuedXfers := q.issuedXfers + 1 })) ∧
      (dssOk → (∃ i ∈ ls, (q.line i).st = .invalid) → exec (.dssst pt c rs rt n1) s =
        .next (s.raise pt.toNat c.toNat k ⟨0x12, 0, 3, q.pc, 6⟩)) ∧
      (¬dssOk → exec (.dssld pt c rs rt n1) s = .next range ∧ exec (.dssst pt c rs rt n1) s = .next range))

/-- XSEND queues a message and holds its lines, MESSAGE_ACCEPT moves the first whole message of a destination with room,
XRECV takes a match or freezes (07_fiard_compute.mdR270, 07_fiard_compute.mdR271, 08_freeze_and_schedule.mdR284,
14_faults_spares.mdR460, 14_faults_spares.mdR471, 12_thatre_fabric.mdR393). -/
def Obligations.MessagesCrossInOrder : Prop :=
  (∀ (s : State) (pt : Pt) (c : LCore) (k : Nat) (rs rt : BitVec 5), IssuesAt s pt c k →
    let q := s.core k
    let r : CoreRef := ⟨pt.toNat, c.toNat, k⟩
    let span := msgSpan (q.sreg rs.toNat)
    let ls := (List.range span.2.1).map (span.1 + ·)
    let adr := s.normNode (msgAddr (q.sreg rt.toNat))
    let me : MsgAddr := ⟨0, BitVec.ofNat 4 pt.toNat, BitVec.ofNat 5 c.toNat⟩
    let range := s.raise pt.toNat c.toNat k ⟨0x13, 0, 4, q.pc, 6⟩
    (q.issuedXfers < q.carried →
      let t := s.setCore k { q with issuedXfers := q.issuedXfers + 1 }
      exec (.xsend pt c rs rt) s = .next t ∧ exec (.xrecv pt c rs rt) s = .next t) ∧
    (q.carried ≤ q.issuedXfers →
      (∀ s1, s.useOut r 0 0 = some s1 → exec (.xsend pt c rs rt) s = .next (s1.updCore k Core.countXfer)) ∧
      (s.useOut r 0 0 = none →
        (65536 < span.1 + span.2.1 → exec (.xsend pt c rs rt) s = .next range) ∧
        (span.1 + span.2.1 ≤ 65536 → 16 ≤ q.sendXq.length →
          exec (.xsend pt c rs rt) s = .next (s.freeze pt.toNat [⟨k, .sendXq, false, s.now⟩])) ∧
        (span.1 + span.2.1 ≤ 65536 → q.sendXq.length < 16 → (∀ i ∈ ls, (q.line i).st = .valid) →
          (adr.node = 0 → s.target adr = none → exec (.xsend pt c rs rt) s = .next (s.refuseAbort pt.toNat 4)) ∧
          (adr.node ≠ 0 → s.fab.node = 0 → exec (.xsend pt c rs rt) s = .next (s.refuseAbort pt.toNat 1)) ∧
          ((adr.node = 0 ∧ s.target adr ≠ none) ∨ (adr.node ≠ 0 ∧ s.fab.node ≠ 0) →
            let a := q.accept .xsend ls [] 0 0 span.1
            exec (.xsend pt c rs rt) s = .next (s.setCore k
              { a.2 with sendXq := q.sendXq ++ [⟨a.1, ⟨me, adr, span.2.2, span.2.1, []⟩⟩]
                         issuedXfers := q.issuedXfers + 1 })))) ∧
      (65536 < span.1 + span.2.1 → exec (.xrecv pt c rs rt) s = .next range) ∧
      (span.1 + span.2.1 ≤ 65536 →
        (s.nextMessage r adr span.2.2 = none → exec (.xrecv pt c rs rt) s = .next (s.freeze pt.toNat [⟨k, .message adr span.2.2, false, s.now⟩])) ∧
        (∀ m s0, s.nextMessage r adr span.2.2 = some (m, s0) →
          (m.count ≠ span.2.1 → exec (.xrecv pt c rs rt) s = .next range) ∧
          (m.count = span.2.1 → (∀ i ∈ ls, (q.line i).st ≠ .pending) →
            let a := (s0.core k).accept .xrecv [] ls 1 0 span.1
            exec (.xrecv pt c rs rt) s = .next (m.lines.zipIdx.foldl
              (fun t x => t.delay r (4 + x.2 / 8) 16 (.land a.1 (span.1 + x.2) x.1.1 x.1.2))
              (s0.setCore k a.2.countXfer)))))) ∧
    ((s.part pt.toNat).replay.contains c.toNat = false →
      ((∀ m ∈ q.recvXq, m.isFrom adr span.2.2 = false) → s.nextMessage r adr span.2.2 = none) ∧
      (∀ l1 m l2, q.recvXq = l1 ++ m :: l2 → (∀ x ∈ l1, x.isFrom adr span.2.2 = false) → m.isFrom adr span.2.2 = true →
        s.nextMessage r adr span.2.2 = some (m, s.setCore k { q with recvXq := l1 ++ l2 })))) ∧
  (∀ (s : State) (pt : Pt) (c : LCore) (k : Nat) (idx : BitVec 4) (m : SendMsg), IsCore s pt c k →
    (s.core k).sendXq[idx.toNat]? = some m → m.msg.dst.node = 0 → m.msg.lines.length = m.msg.count →
    (∀ e ∈ (s.core k).sendXq.take idx.toNat, e.msg.dst ≠ m.msg.dst) →
    let gone := s.updCore k fun q =>
      { q with xfers := q.xfers.filter (fun x => x.id != m.xfer)
               sendXq := q.sendXq.filter (fun x => x.xfer != m.xfer) }
    (s.target m.msg.dst = none → exec (.messageAccept pt c idx) s = .next (gone.refuseAbort pt.toNat 4)) ∧
    (∀ d, s.target m.msg.dst = some d →
      ((s.core d).recvXq.length < 16 → s.holdsMessages m.msg.dst.pt.toNat m.msg.dst.core.toNat = false →
        exec (.messageAccept pt c idx) s = .next (gone.updCore d fun q => { q with recvXq := q.recvXq ++ [m.msg] })) ∧
      (16 ≤ (s.core d).recvXq.length → exec (.messageAccept pt c idx) s = .next s)))

/-- The XRED instructions join their group's next operation with their lines held and PENDING; COLLECTIVE_RESULT_WRITE
gives members the result and ends it (07_fiard_compute.mdR272, 07_fiard_compute.mdR273, 07_fiard_compute.mdR274,
07_fiard_compute.mdR275, 14_faults_spares.mdR460, 03_anchored_sums.mdR100, 12_thatre_fabric.mdR406,
12_thatre_fabric.mdR407, 12_thatre_fabric.mdR408). -/
def Obligations.CollectiveOperationsJoinAndEnd : Prop :=
  (∀ (s : State) (pt : Pt) (c : LCore) (k : Nat) (rq : BitVec 5) (mx : BitVec 2), IssuesAt s pt c k →
    let q := s.core k
    let r : CoreRef := ⟨pt.toNat, c.toNat, k⟩
    let dl := (q.sreg rq.toNat).toNat % 2 ^ 16
    let f := parseXred (q.line dl).data
    let raised := fun (code : Nat) => s.raise pt.toNat c.toNat k ⟨code, 0, 4, q.pc, 6⟩
    let counted := s.setCore k { q with issuedXfers := q.issuedXfers + 1 }
    let joins := fun (i : Instr) (op : CollOp) =>
      let sizes := collSizes op f
      let src := (List.range (ceilDiv sizes.1 128)).map (f.src + ·)
      let dst := (List.range (ceilDiv sizes.2 128)).map (f.dst + ·) ++ [f.status]
      let inBench := (sizes.1 ≠ 0 → f.src + ceilDiv sizes.1 128 ≤ 65536) ∧ f.dst + ceilDiv sizes.2 128 ≤ 65536
      (q.issuedXfers < q.carried → exec i s = .next counted) ∧
      (q.carried ≤ q.issuedXfers → (q.line dl).st = .valid →
        (4 ≤ f.fmt → exec i s = .next (raised 0x01)) ∧ (f.fmt < 4 → ¬inBench → exec i s = .next (raised 0x13)) ∧
        (f.fmt < 4 → inBench → s.useOut r 1 f.group.toNat = none → (∀ j ∈ src, (q.line j).st = .valid) →
          (∀ j ∈ dst, (q.line j).st ≠ .pending) →
          let n := q.nextOp f.group
          let a := n.2.accept .xred src dst 1 0 f.src
          exec i s = .next (((s.setCore k a.2.countXfer).countReads r 1).joinRun f.group n.1
            { pt := pt.toNat, c := c.toNat, k := k, xfer := a.1, mx := 0, src := f.src, dst := f.dst, status := f.status,
              pc := q.pc, inp := collInput op f, ready := src.isEmpty, linked := true })))
    joins (.xredSumExact pt c rq) .sumExact ∧ joins (.xredSumTree pt c rq) .sumTree ∧
    joins (.xredGather pt c rq) .gather ∧ joins (.xredScatter pt c rq) .scatter ∧
    (let group := (q.sreg rq.toNat).extractLsb' 0 32
     let n := q.nextOp group
     let a := n.2.accept .xred [] [] 1 0 0
     (q.issuedXfers < q.carried → exec (.xredMax pt c rq mx) s = .next counted) ∧
     (q.carried ≤ q.issuedXfers → s.useOut r 1 group.toNat = none →
       exec (.xredMax pt c rq mx) s = .next ((s.setCore k { a.2 with
          maxReds := q.maxReds ++ [⟨a.1, group, mx.toNat, none, false⟩], issuedXfers := q.issuedXfers + 1 }).joinRun group n.1
        { pt := pt.toNat, c := c.toNat, k := k, xfer := a.1, mx := mx.toNat, src := 0, dst := 0, status := 0, pc := q.pc
          inp := { op := .max, n := 0, fmt := 0, anchor := 0, lc := 0, first := 0, count := 0,
                   mag := (q.mreg mx.toNat).mag, nf := (q.mreg mx.toNat).nf, data := [], poison := false }
          ready := true, linked := true })))) ∧
  (∀ (s : State) (group : Word),
    (s.readyRun group = none → exec (.collectiveResultWrite group) s = .next s) ∧
    (∀ (u : CollRun) (a : CollAgreed), s.readyRun group = some (u, a) →
      let res := collResult a.head u.results
      let given := u.locals.foldl (fun z m =>
        if m.linked then z.updCore m.k fun q => q.takeResult m res a.total
        else z.journalResult m.pt (.res m.c group.toNat (resultRecord m res a.total) res.poison)) s
      let ended := given.endRunOf group u.idx
      let done := { ended with fab := { ended.fab with collLastBeat := s.now } }
      (∀ v ∈ done.fab.runs, ¬(v.group = group ∧ v.idx = u.idx)) ∧
      (a.head.op = .xbar → exec (.collectiveResultWrite group) s = .next s) ∧
      (a.head.op ≠ .xbar → res.marked = false → exec (.collectiveResultWrite group) s = .next done) ∧
      (a.head.op ≠ .xbar → res.marked = true → exec (.collectiveResultWrite group) s = .next
        (u.heads.foldl (fun z m => z.raiseFrom m.pt m.c (srcHub 0x200) ⟨0x15, 0, 4, m.pc, 0⟩) done))))

/-- XBAR, XTIME and XFENCE pass when their condition holds and freeze otherwise; the releases let the waiting cores pass
(07_fiard_compute.mdR275, 07_fiard_compute.mdR276, 07_fiard_compute.mdR277, 07_fiard_compute.mdR278,
14_faults_spares.mdR460, 01_module.mdR45). -/
def Obligations.BarriersTimesAndFences : Prop :=
  (∀ (s : State) (pt : Pt) (c : LCore) (k : Nat), IssuesAt s pt c k →
    let q := s.core k
    let r : CoreRef := ⟨pt.toNat, c.toNat, k⟩
    let frozen := fun (w : Need) => s.freeze pt.toNat [⟨k, w, false, s.now⟩]
    (∀ rg : BitVec 5,
      let group := (q.sreg rg.toNat).extractLsb' 0 32
      let i := smapGet 0 q.xbars group.toNat
      (q.issuedXfers < q.carried → exec (.xbar pt c rg) s =
        .next (s.setCore k { q with issuedXfers := q.issuedXfers + 1 })) ∧
      (q.carried ≤ q.issuedXfers → s.useRec r (fun x => x == .bar c.toNat group.toNat) = none →
        (i < smapGet 0 (s.part pt.toNat).xbarRel group.toNat → exec (.xbar pt c rg) s = .next (s.setCore k
          { q with xbars := smapSet 0 q.xbars group.toNat (i + 1), issuedXfers := q.issuedXfers + 1 })) ∧
        (smapGet 0 (s.part pt.toNat).xbarRel group.toNat ≤ i →
          (group = 0 → exec (.xbar pt c rg) s = .next (frozen (.xbar 0 (i + 1)))) ∧
          (group ≠ 0 → exec (.xbar pt c rg) s =
            .next ((frozen (.xbar group.toNat (i + 1))).reachXbar r (.xbar group.toNat (i + 1))))))) ∧
    (∀ rt : BitVec 5,
      let t := q.sreg rt.toNat
      let passed := { s with free := s.free + 1 }.setCore k { q with timeAt := none }
      (q.timeAt = some t ∨ t.toNat + 16 ≤ s.now → exec (.xtime pt c rt) s = .next passed) ∧
      (q.timeAt ≠ some t → s.now < t.toNat → exec (.xtime pt c rt) s = .next (frozen (.time t))) ∧
      (exec (.xtime pt c rt) s = .next passed ∨ exec (.xtime pt c rt) s = .next (frozen (.time t)))) ∧
    (∀ p x : Bool,
      let clear := ∀ y ∈ q.xfers, q.nextId ≤ y.id ∨ match y.kind with
        | .peel _ | .pbufImage _ => p = false
        | .xsend | .xred => x = false
        | _ => True
      (clear → exec (.xfence pt c p x) s = .next (if x then s.applyMaxReds r else s)) ∧
      (¬clear → exec (.xfence pt c p x) s = .next (frozen (.fence p x q.nextId))))) ∧
  (∀ (s : State) (pt : Pt) (j : Nat), s.localBar pt.toNat = some j →
    exec (.xbarRelease pt 0) s = .next (s.setPart pt.toNat
      { s.part pt.toNat with xbarRel := smapSet 0 (s.part pt.toNat).xbarRel 0 j })) ∧
  (∀ (s : State) (pt : Pt) (group : Word) (u : CollRun) (a : CollAgreed), group ≠ 0 → s.readyRun group = some (u, a) →
    a.head.op = .xbar → exec (.xbarRelease pt group) s = .next (((u.locals.map fun m => m.pt).dedup.foldl (fun z n =>
      z.updPart n fun p => { p with xbarRel := smapSet 0 p.xbarRel group.toNat (u.idx + 1) }) s).endRunOf group u.idx)) ∧
  (∀ (s : State) (pt : Pt) (c : LCore) (k : Nat) (t : DWord) (e : Bool) (g : Nat), IsCore s pt c k →
    t ≠ 0 → t.toNat ≤ s.now →
    (s.part pt.toNat).needs = [⟨k, .time t, e, g⟩] →
    exec (.xtimeRelease pt c) s = .next ((s.setCore k { s.core k with timeAt := some t }).setPart pt.toNat
      { s.part pt.toNat with needs := [⟨k, .time 0, e, g⟩] }))

/-- A needed item without notice freezes the partition, a frozen cycle changes no core, and the freeze ends when every
cause has ended (08_freeze_and_schedule.mdR285, 08_freeze_and_schedule.mdR286, 08_freeze_and_schedule.mdR287,
08_freeze_and_schedule.mdR288, 08_freeze_and_schedule.mdR301, 08_freeze_and_schedule.mdR302). -/
def Obligations.FreezesBeginHoldAndEnd : Prop :=
  (∀ (s : State) (pt : Pt) (c : LCore) (k : Nat), IsCore s pt c k →
    let p := s.part pt.toNat
    (∀ cause : BitVec 4, exec (.producerNotice pt c cause) s = .next (s.setPart pt.toNat
      (if (k, cause.toNat) ∈ p.notices then p else { p with notices := p.notices ++ [(k, cause.toNat)] }))) ∧
    (let r : CoreRef := ⟨pt.toNat, c.toNat, k⟩
     let ws := ((assess s r).1 ++ popNeeds s r ++ settleNeeds s r ++ dqNeeds (s.core k) (s.cyc r) true).dedup.filter
       fun w => !p.notices.contains (k, w.cause)
     (p.inReset = true ∨ p.run.isSome = false ∨ p.halted = true ∨ p.perstHold = true → exec (.freezeBegin pt c) s = .next s) ∧ (
     p.inReset = false → p.run.isSome = true → p.halted = false → p.perstHold = false →
     (ws = [] → exec (.freezeBegin pt c) s = .next s) ∧
     let fz := s.freeze pt.toNat (ws.map fun w => ⟨k, w, false, s.now⟩)
     (ws ≠ [] → exec (.freezeBegin pt c) s = .next (ws.foldl (fun z w => z.reachXbar r w) fz)) ∧
     (ws ≠ [] → UnitsOk s → (fz.part pt.toNat).frozen = true ∧
       (p.frozen = false → (fz.part pt.toNat).frzCycles = 0 ∧ (fz.part pt.toNat).frzStart = s.now)) ∧
     (ws ≠ [] → (∀ g j, Need.xbar g j ∈ ws → g = 0) → exec (.freezeBegin pt c) s = .next fz)))) ∧
  (∀ (s : State) (pt : Pt),
    let s1 := s.noteEnded pt.toNat
    let p := s1.part pt.toNat
    (p.frozen = true → 1 ≤ p.frzCycles → (∀ w ∈ p.needs, w.ended = true) →
      exec (.freezeEnd pt) s = .next ((s1.setPart pt.toNat { p with
        frzCause := smapUpd 0 p.frzCause (p.lastCause.getD 0) (satAdd64 · p.frzCycles)
        frzCycles := 0, lastCause := none, needs := [], notices := [] }).beginCycle pt.toNat)) ∧
    (p.frozen = false ∨ p.frzCycles = 0 ∨ (∃ w ∈ p.needs, w.ended = false) → exec (.freezeEnd pt) s = .next s1)) ∧
  (∀ (s : State) (n : Nat), UnitsOk s →
    let p := s.part n
    p.inReset = false → p.run.isSome = true → p.halted = false → p.perstHold = false → p.frozen = true →
    ∃ q, s.partCycle n = s.setPart n q ∧ q.cyc = p.cyc ∧ q.cycProg = p.cycProg ∧ q.cycHold = p.cycHold ∧
      q.cycReexec = p.cycReexec ∧ q.cycFrz = satAdd64 p.cycFrz 1 ∧ q.frzCycles = p.frzCycles + 1 ∧ q.frzCause = p.frzCause ∧
      q.run = p.run ∧ q.stall = p.stall ∧ q.telFrz = p.telFrz + b2n s.inTelBin)

/-- A core settles when its work is done, the partition commits when every core has met and the checks pass, and it
yields; a window that is over is an overrun (06_fiard_bundles.mdR201, 06_fiard_bundles.mdR202,
06_fiard_bundles.mdR203, 06_fiard_bundles.mdR205, 08_freeze_and_schedule.mdR293, 08_freeze_and_schedule.mdR294,
08_freeze_and_schedule.mdR295, 15_hangs_reset.mdR485, 14_faults_spares.mdR460). -/
def Obligations.TilesSettleCommitAndYield : Prop :=
  (∀ (s : State) (pt : Pt) (c : LCore) (k : Nat) (h : Bool) (b at' : Nat), IsCore s pt c k →
    let q := s.core k
    q.seq = .settling h b at' →
    ((s.part pt.toNat).advancing = true → q.quiet = true → (∀ x ∈ q.xfers, s.xferOpen k x = true) →
      exec (.tileSettleMeet pt c) s = .next (s.setCore k { q.takeMaxReds with seq := .met h b at' })) ∧
    ((s.part pt.toNat).advancing = true → q.quiet = true → (∃ x ∈ q.xfers, s.xferOpen k x = false) →
      exec (.tileSettleMeet pt c) s = .next s) ∧
    ((s.part pt.toNat).advancing = false ∨ q.quiet = false → exec (.tileSettleMeet pt c) s = .next s)) ∧
  (∀ (s : State) (pt : Pt),
    let n := pt.toNat
    let p := s.part n
    let rs := s.refsOf n
    (p.advancing = false ∨ (∃ r ∈ rs, (s.core r.k).hasMet = false) → exec (.tileCommit pt) s = .next s) ∧
    (p.advancing = true → rs ≠ [] → (∀ r ∈ rs, (s.core r.k).hasMet = true) → (∀ e, p.winEnd = some e → s.now < e) →
      (∀ r f, commitFault s n = some (r, f) → exec (.tileCommit pt) s = .next (s.raise n r.c r.k f)) ∧
      (commitFault s n = none → UnitsOk s → ∃ t, exec (.tileCommit pt) s = .next t ∧
        t = { s with cores := t.cores, parts := smapSet .reset s.parts n (t.part n) } ∧
        (let halt := p.dbgReq && !allHalt s n
         t.cores = (s.updCoresOf n fun q =>
           { q.commitTile p.cyc s.now with watched := (q.commitTile p.cyc s.now).watched && !halt }).cores) ∧
        (t.part n).winStart = s.now ∧ (t.part n).tileProg0 = p.cycProg ∧ (t.part n).cyc = p.cyc ∧
        (t.part n).halted = (p.halted || (p.dbgReq && !allHalt s n)) ∧ (t.part n).atYield = !allHalt s n ∧
          (t.part n).perstHold = (s.host.perst || s.bs.paused) ∧
        (p.dbgReq = false → (t.part n).winEnd = (commitBudget s n).map (s.now + ·)))) ∧
    (p.advancing = true → rs ≠ [] → (∀ r ∈ rs, (s.core r.k).hasMet = true) → (∃ e, p.winEnd = some e ∧ e ≤ s.now) →
      exec (.tileCommit pt) s = exec (.tileBudgetExpire pt) s)) ∧
  (∀ (q : Core) (cyc now : Nat),
    let z := q.commitTile cyc now
    z.commit = q.toCommit ∧ z.v = [] ∧ z.pc = q.pc ∧ z.s = q.s ∧ z.bench = q.bench ∧ z.nextAt = max (cyc + 1) (q.nextAt + 1) ∧
      z.seq = (match q.seq with | .met true _ _ => SeqState.halted | _ => SeqState.issuing) ∧
      ∀ e ∈ z.arrays, e.2.active = none ∧ e.2.shadow = .empty ∧ e.2.bank0 = .zero ∧ e.2.bank1 = .zero) ∧
  (∀ (s : State) (pt : Pt), (s.part pt.toNat).atYield = true →
    (s.mustYield pt.toNat = false →
      exec (.tileYield pt .none) s = .next (s.setPart pt.toNat { s.part pt.toNat with atYield := false })) ∧
    (s.mustYield pt.toNat = true → exec (.tileYield pt .none) s = .next (s.switchOut pt.toNat)) ∧
    (∀ cn, exec (.tileYield pt (.switch cn)) s = exec (.contextSwitch pt cn) s) ∧
    exec (.tileYield pt .checkpoint) s = exec (.checkpoint pt) s ∧
    exec (.tileYield pt .repair) s = .next (s.applyMaps pt.toNat)) ∧
  (∀ (s : State) (pt : Pt) (a : YieldAct), (s.part pt.toNat).atYield = false → exec (.tileYield pt a) s = .next s) ∧
  (∀ (s : State) (pt : Pt) (e : Nat), (s.part pt.toNat).winEnd = some e → (s.part pt.toNat).run.isSome = true →
    (s.part pt.toNat).inReset = false →
    (s.now < e → exec (.tileBudgetExpire pt) s = .next s) ∧
    (e ≤ s.now → s.hangEvidence pt.toNat = none → exec (.tileBudgetExpire pt) s =
      .next (s.raisePart pt.toNat 0x16 (srcCore ((s.phys pt.toNat 0).getD 0) 0))) ∧
    (∀ u, e ≤ s.now → s.hangEvidence pt.toNat = some u → exec (.tileBudgetExpire pt) s =
      .next ((s.setPart pt.toNat { s.part pt.toNat with winEnd := none }).detectHang u true)))

/-- TILE_ABANDON restores every core of the running partition to its commit state, opens a new window and counts the
cycles thrown away (14_faults_spares.mdR458, 14_faults_spares.mdR459, 14_faults_spares.mdR460,
14_faults_spares.mdR463). -/
def Obligations.TilesAreAbandonedAndReexecuted : Prop :=
  (∀ (s : State) (pt : Pt) (src : SrcNo), (s.part pt.toNat).run = none ∨ unitOk src.toNat = false → exec (.tileAbandon pt src) s = .next s) ∧
  (∀ (s : State) (pt : Pt) (src : SrcNo),
    let n := pt.toNat
    let p := s.part n
    p.run.isSome = true → unitOk src.toNat = true → UnitsOk s → ∃ t, exec (.tileAbandon pt src) s = .next t ∧
      t = { s with cores := t.cores, dies := t.dies, parts := smapSet .reset s.parts n (t.part n), log := t.log
                   ledger := t.ledger } ∧
      (t.part n).needs = [] ∧ (t.part n).winStart = s.now ∧ (t.part n).winEnd = some (s.now + p.budget) ∧
      (t.part n).cyc = p.cyc ∧ (t.part n).run = p.run ∧ (t.part n).abandons = p.abandons + 1 ∧
      (t.part n).cycReexec = satAdd64 p.cycReexec ((p.cycProg : Int) - p.tileProg0 +
        (if p.frozen || p.halted || p.perstHold then 0 else 1)).toNat ∧
      (∃ e, t.log.pending = s.log.pending ++ [e] ∧ e.code = 0x0202 ∧ e.src = src.toNat)) ∧
  (∀ (q : Core) (at' : Nat),
    let z := q.abandon at'
    z.pc = q.commit.pc ∧ z.s = q.commit.s ∧ z.p = q.commit.p ∧ z.loops = q.commit.loops ∧ z.ca = q.commit.ca ∧
      z.m = q.commit.m ∧ z.an = q.commit.an ∧ z.step = q.commit.step ∧ z.seed = q.commit.seed ∧ z.v = [] ∧ (q.seq ≠ .halted → z.seq = .issuing) ∧
        (q.seq = .halted → z.seq = .halted) ∧ z.nextAt = at' ∧ z.writes = [] ∧ z.aq = [] ∧ z.bench = q.flushRecv.bench)

/-- A tick decides on READY entries, a kernel starts on its cores, a kernel that has halted completes its entry, and the
record is written (13_contexts_serving.mdR425, 13_contexts_serving.mdR426, 13_contexts_serving.mdR428,
13_contexts_serving.mdR431, 13_contexts_serving.mdR432, 13_contexts_serving.mdR434, 06_fiard_bundles.mdR192,
06_fiard_bundles.mdR212, 01_module.mdR49). -/
def Obligations.EntriesAreAdmittedStartedAndCompleted : Prop :=
  (∀ s : State, tickOf s.now ≤ s.bs.lastTick → exec .admissionTick s = .next s) ∧
  (∀ s : State,
    let g := tickOf s.now
    let s0 := { s with bs := { s.bs with
      lastTick := g, sawReady := s.entryField s.bs.scan 0 1 == 1 || !s.bs.held.isEmpty } }
    let s1 := (List.range 16).foldl State.genTick s0
    s.bs.lastTick < g →
    (s1.bs.en = false ∨ s1.bs.scanner = false ∨ s1.bs.paused = true ∨ s1.host.perst = true ∨ s1.sec.boot ≠ 1 →
      exec .admissionTick s = .next s1) ∧
    (s1.bs.en = true → s1.bs.scanner = true → s1.bs.paused = false → s1.host.perst = false → s1.sec.boot = 1 →
      (s1.power.st = .w0 → s1.power.exiting = false → exec .admissionTick s = .next
        ((s1.bs.held.foldl (fun z i => z.applyDecision i true (z.decideEntry i g)) s1).scan g 256)) ∧
      (s1.power.st = .w1 ∨ s1.power.st = .w2 ∨ s1.power.st = .w3 → exec .admissionTick s = .next
        (if s1.entryField s1.bs.scan 0 1 = 1 ∨ s1.bs.held ≠ [] then
          { s1 with power := { s1.power with exiting := true, target := .w0 }, host := { s1.host with l0p := false } } else s1)))) ∧
  (∀ (s : State) (pt : Pt), s.canStart pt.toNat = false ∨ s.nextEntry pt.toNat = none → exec (.kernelStart pt) s = .next s) ∧
  (∀ (s : State) (pt : Pt) (a : Admitted), s.canStart pt.toNat = true → s.nextEntry pt.toNat = some a →
    (s.ctx a.ctx).live = false → exec (.kernelStart pt) s = .next (s.complete a 1 (s.ctx a.ctx).code.toNat 0)) ∧
  (∀ (s : State) (pt : Pt) (a : Admitted) (kn : Kernel),
    let n := pt.toNat
    let p := s.part n
    s.canStart n = true → s.nextEntry n = some a → (s.ctx a.ctx).live = true → p.ctx = some a.ctx →
    s.kernelOf (s.ctx a.ctx) a.kernel = some kn →
    let budget := if kn.budget = 0 then 20000 else kn.budget.toNat
    UnitsOk s → ∃ t, exec (.kernelStart pt) s = .next t ∧
      t = { s with cores := t.cores, parts := smapSet .reset s.parts n (t.part n), bs := { s.bs with run := t.bs.run }
                   ctxs := smapSet .reset s.ctxs a.ctx (t.ctx a.ctx) } ∧
      (t.ctx a.ctx).st = .running ∧ (t.part n).cyc = p.cyc ∧ (t.part n).winEnd = some (s.now + budget) ∧
      (∃ i, (t.part n).run = some i ∧ i.entry = a.serial ∧ i.ctx = a.ctx ∧ i.kernel = a.kernel ∧ i.startGtb = s.now ∧
        i.prog0 = p.cycProg) ∧
      (∀ b ∈ t.bs.run, b.serial = a.serial → b.started = true) ∧
      t.cores = ((s.coresOf n).foldl (fun z e => z.updCore e.2 fun x =>
        x.startKernel (kn.progs.getD e.1 ⟨0, []⟩) a ((s.ctx a.ctx).secondOn n) p.cyc s.now) s).cores) ∧
  (∀ (s : State) (pt : Pt) (i : RunInfo) (a : Admitted),
    let n := pt.toNat
    (s.part n).run = some i → s.runningEntry n = some a →
    let prim := (s.ctx i.ctx).isPrimary n
    let groups := s.crumbGroups n
    let crumb := groups.any fun g => g.2.2.poison
    let bad := crumb || (if prim then a.poison1 else a.poison2)
    let s1 := (s.logCrumbs n i.kernel i.ctx).updEntry a.idx fun b =>
      let b := b.ended prim (s.part n).slipOf groups
      if crumb then b.poison prim else b
    let s2 := (s1.endRun n).updCoresOf n fun q => { q with seq := .noKernel }
    let s3 := s2.setCtx i.ctx { s2.ctx i.ctx with st := .resident }
    (s.allHalted n = false → exec (.kernelComplete pt) s = .next s) ∧
    (s.allHalted n = true → bad = true → ∃ c src, exec (.kernelComplete pt) s = .next (s1.raisePart n 0x20 src c)) ∧
    (s.allHalted n = true → bad = false → a.express = true →
      exec (.kernelComplete pt) s = .next (s3.updEntry a.idx fun b => b.endCopy prim .halted)) ∧
    (s.allHalted n = true → bad = false → a.express = false →
      exec (.kernelComplete pt) s = .next (s3.complete (a.ended prim (s.part n).slipOf groups) 0 0 0))) ∧
  (∀ s : State, s.bs.due = [] → exec .completionWrite s = .next s) ∧
  (∀ (s : State) (c : Completion) (cs : List Completion), s.bs.due = c :: cs →
    let s0 := (s.memPut (s.bs.ctBase.toNat + 32 * s.bs.ctHead) (c.bytes s.now)).memPut (s.bs.base.toNat + 256 * c.idx)
      [if c.reject then 3 else 4]
    let s1 := { s0 with bs := { s.bs with
      due := cs, ctHead := (s.bs.ctHead + 1) % max s.bs.ctSize.toNat 1
      seqBusy := s.bs.seqBusy.filter fun q => !(c.seqFirst ≤ q && q < c.seqFirst + c.seqCount) } }
    let s2 := c.msix.elim s1 (s1.sendMsix 0)
    exec .completionWrite s = .next ((c.ctx.elim s2 fun cn => s2.sendMsix ((s2.ctx cn).pt.toNat + 1) 2).genRelease c.model))

/-- A switch saves one context and loads another; a background kernel yields to a deadline; copies of an Express entry are
compared; an abort ends an entry (13_contexts_serving.mdR420, 13_contexts_serving.mdR428, 13_contexts_serving.mdR430,
13_contexts_serving.mdR434, 13_contexts_serving.mdR435). -/
def Obligations.ContextsSwitchAndExpressCopiesAreCompared : Prop :=
  (∀ (s : State) (pt : Pt) (ctx : CtxNo),
    let n := pt.toNat
    let p := s.part n
    (p.ctx = some ctx.toNat → s.suspendedEntry ctx.toNat = none → exec (.contextSwitch pt ctx) s = .next s) ∧
    (s.suspendedEntry ctx.toNat = none → UnitsOk s → p.inReset = false → p.frozen = false → p.halted = false →
      s.stoppedOn n = false → p.replay = [] → p.run = none →
      p.ctx ≠ some ctx.toNat → (s.ctx ctx.toNat).live = true → n ∈ (s.ctx ctx.toNat).pts →
      ∃ t, exec (.contextSwitch pt ctx) s = .next t ∧
        t = { s with cores := t.cores, parts := smapSet .reset s.parts n (t.part n), ctxs := t.ctxs, mem := t.mem
                     free := t.free } ∧
        (t.part n).ctx = some ctx.toNat ∧ (t.ctx ctx.toNat).st = .resident ∧
        t.cores = ((s.switchOut n).loadCores n ((s.ctx ctx.toNat).savedOn n)).cores) ∧
    (∀ a i, s.suspendedEntry ctx.toNat = some a → a.saved = some i → s.waitingDeadline n = none → p.inReset = false →
      p.frozen = false → p.halted = false → s.stoppedOn n = false → p.replay = [] → p.run = none →
      (s.ctx ctx.toNat).live = true → n ∈ (s.ctx ctx.toNat).pts → exec (.contextSwitch pt ctx) s =
        .next ((if p.ctx = some ctx.toNat then s else s.takeCores n ctx.toNat).resumeRun n a i)) ∧
    (p.bgRun = true → p.atYield = true → (∃ a ∈ s.waiting n, a.deadline ≠ 0) →
      exec (.backgroundYield pt) s = .next (s.switchOut n)) ∧
    (p.bgRun = false ∨ p.atYield = false ∨ (∀ a ∈ s.waiting n, a.deadline = 0) → exec (.backgroundYield pt) s = .next s)) ∧
  (∀ (s : State) (idx : BitVec 12), s.bs.run.find? (fun a => a.idx == idx.toNat && a.express) = none →
    exec (.expressCompare idx) s = .next s) ∧
  (∀ (s : State) (idx : BitVec 12) (a : Admitted), s.bs.run.find? (fun a => a.idx == idx.toNat && a.express) = some a →
    let c := s.ctx a.ctx
    (a.comparable = false → exec (.expressCompare idx) s = .next s) ∧
    (a.primary = .halted → a.secondary = .halted → a.crumbs1 = a.crumbs2 → c.lost1 = false → c.lost2 = false →
      ∃ x, exec (.expressCompare idx) s = .next ((s.setCtx a.ctx x).complete a 0 0 0) ∧ x = c) ∧
    (a.primary = .halted → a.secondary = .lost ∨ a.secondary = .fault 0x20 → exec (.expressCompare idx) s =
      .next ((s.setCtx a.ctx { c with unpaired := true, lost2 := true }).complete a 0 0 4)) ∧
    (a.secondary = .halted → a.primary = .lost ∨ a.primary = .fault 0x20 → exec (.expressCompare idx) s =
      .next ((s.setCtx a.ctx { c with unpaired := true, lost1 := true }).complete { a with slip := a.slip2 } 0 0 6)) ∧
    (∀ x, a.primary = .fault x → a.secondary = .fault x → exec (.expressCompare idx) s =
      .next ((s.setCtx a.ctx { c with st := .dead }).complete a 1 x 0)) ∧
    (a.primary = .halted → a.secondary = .halted → a.crumbs1 ≠ a.crumbs2 → exec (.expressCompare idx) s =
      .next ((s.setCtx a.ctx { c with st := .dead }).complete a 4 0 0)) ∧
    (∀ x, x ≠ 0x20 → a.primary = .halted ∧ a.secondary = .fault x ∨ a.primary = .fault x ∧ a.secondary = .halted →
      exec (.expressCompare idx) s = .next ((s.setCtx a.ctx { c with st := .dead }).complete a 4 0 0))) ∧
  (∀ (s : State) (ctx : CtxNo) (pt : Pt),
    let c := s.ctx ctx.toNat
    let p := s.part pt.toNat
    let lost := if c.lost1 then c.pt else c.pt2
    let live := if c.lost1 then c.pt2 else c.pt
    (c.unpaired = false ∨ c.express = false ∨ s.ctxBusy ctx.toNat = true → exec (.expressRepair ctx pt) s = .next s) ∧
    (c.express = true → c.unpaired = true → (c.lost1 = false ∨ c.lost2 = false) → s.ctxBusy ctx.toNat = false →
      c.live = true → p.inReset = false → p.quarantined = false → p.die = (s.part lost.toNat).die →
      p.count = (s.part live.toNat).count → smapGet false s.bs.ptExpress pt.toNat = true →
      (s.part live.toNat).ctx = some ctx.toNat → (s.part lost.toNat).ctx ≠ some ctx.toNat →
      exec (.expressRepair ctx pt) s = .next (s.setCtx ctx.toNat (if c.lost1 then
        { c with pt := pt, saved := s.snapshot live.toNat, lost1 := false, unpaired := false } else
        { c with pt2 := pt, saved2 := s.snapshot live.toNat, lost2 := false, unpaired := false })))) ∧
  (∀ (s : State) (idx : BitVec 12), HostReaches s 0x080_0024 →
    (s.bs.run.find? (fun a => a.idx == idx.toNat) = none → exec (.bsAbort idx) s = .next s) ∧
    (∀ a, s.bs.run.find? (fun a => a.idx == idx.toNat) = some a → a.started = false →
      exec (.bsAbort idx) s = .next (s.complete a 3 0 0)) ∧
    (∀ a, s.bs.run.find? (fun a => a.idx == idx.toNat) = some a → a.started = true →
      let s1 := (s.ctx a.ctx).pts.foldl (fun z n =>
        if (z.part n).ctx = some a.ctx ∧ (z.part n).run.isSome = true then z.abortPart n (srcHub 0x350) else z)
        (s.complete a 3 0x30 0)
      ∃ t, exec (.bsAbort idx) s = .next t ∧ t.ctxs = smapSet .reset s1.ctxs a.ctx { s1.ctx a.ctx with st := .dead, code := 0x30 } ∧
        t.bs = s1.bs ∧ t.cores = s1.cores ∧ t.parts = s1.parts ∧
        t.ladder.steps = s1.ladder.steps ++ [⟨.ctx a.ctx, s.now⟩]))

/-- CTX_CFG, BS_CFG and LOAF_CTL: a context is created or refused, the Batch Sheet starts only on a good configuration, a
Loaf is verified and unloaded (13_contexts_serving.mdR418, 13_contexts_serving.mdR419, 13_contexts_serving.mdR444,
18_security.mdR569). -/
def Obligations.ServingBlockIsConfigured : Prop :=
  (∀ (s : State) (v : Word), HostReaches s 0x080_0104 →
    let cn := s.bs.ctxSel.toNat
    let c := s.ctx cn
    let new : Ctx := { c with
      pt := v.extractLsb' 0 4, pt2 := v.extractLsb' 4 4, express := v.getLsbD 8, loaf := v.extractLsb' 9 4
      model := v.extractLsb' 13 4, ctxlen := v.extractLsb' 17 2, en := v.getLsbD 31 }
    (∀ n < 16, (s.part n).ctx ≠ some cn) →
    (c.st = .free ∨ c.st = .dead → v.getLsbD 31 = true → s.ctxBad new = true →
      exec (.ctxCfgWrite v) s = .next (s.setCtx cn { new with st := .free, bad := true })) ∧
    (c.st = .free ∨ c.st = .dead → v.getLsbD 31 = true → s.ctxBad new = false → ∃ x,
      exec (.ctxCfgWrite v) s = .next (s.setCtx cn x) ∧ x.st = .idle ∧ x.bad = false ∧ x.pt = new.pt ∧ x.loaf = new.loaf ∧
        x.model = new.model ∧ x.ctxlen = new.ctxlen ∧ x.express = new.express ∧ x.code = 0 ∧ x.saved = [] ∧ x.ckpt = none) ∧
    (c.st ≠ .free → c.st ≠ .dead → v.getLsbD 31 = true → exec (.ctxCfgWrite v) s = .next s)) ∧
  (∀ (s : State) (v : Word), HostReaches s 0x080_0008 →
    let b := s.bs
    let size : BitVec 13 := v.extractLsb' 0 13
    let good := sizeOk size.toNat && sizeOk b.ctSize.toNat && decide (size.toNat ≤ b.ctSize.toNat) &&
      decide (b.base.toNat + 256 * size.toNat ≤ s.mem.hostTop) && decide (b.ctBase.toNat + 32 * b.ctSize.toNat ≤ s.mem.hostTop)
    (b.en = true → exec (.bsCfgWrite v) s = .next { s with bs := { b with en := v.getLsbD 16 } }) ∧
    (b.en = false → v.getLsbD 16 = true → good = false →
      exec (.bsCfgWrite v) s =
        .next (({ s with bs := { b with size := size, cfgBad := true } }).hwSet 0x080_000C 0x8000_0000)) ∧
    (b.en = false → v.getLsbD 16 = false ∨ good = true →
      exec (.bsCfgWrite v) s = .next { s with bs := { b with size := size, en := v.getLsbD 16 } })) ∧
  (∀ s : State, HostReaches s 0x080_020C →
    let i := s.bs.loafSel.toNat
    let l := s.loaf i
    exec .loafLoad s = .next (if l.st = .empty ∨ l.st = .refused then
      s.setLoaf i { l with st := .verifying, base := l.addr, image := none, keys := s.sec.pubs } else s) ∧
    exec .loafUnload s = .next (if s.loafNamed i then s else s.setLoaf i { l with st := .empty, image := none })) ∧
  (∀ (s : State) (slot : BitVec 4) (h : LoafHead),
    let l := s.loaf slot.toNat
    let base := l.base.toNat
    let at' := base + h.signatures.off.toNat
    let bytes := fun a n => (s.mem.readRun a n).1
    (l.st ≠ .verifying → exec (.loafVerifyDone slot h) s = .next s) ∧
    (l.st = .verifying → ∀ keys, smapGet none l.keys (s.mem.field at' 1) = some keys →
      exec (.loafVerifyDone slot h) s = .next (s.setLoaf slot.toNat
        (if verifyBoth keys "DXLOAF01" (bytes base h.signatures.off.toNat) (bytes (at' + 4) 64) (bytes (at' + 68) 3309) = 0 ∧
            h.recipe = recipeId then
          { l with st := .ready, image := some ⟨h, h.table.filterMap (s.mem.kernel base h)⟩, keys := [] } else
          { l with st := .refused, image := none, keys := [] }))) ∧
    (l.st = .verifying → smapGet none l.keys (s.mem.field at' 1) = none →
      exec (.loafVerifyDone slot h) s = .next (s.setLoaf slot.toNat { l with st := .refused, image := none, keys := [] })))

/-- SRAM errors: a correction is only counted; an uncorrectable error poisons a Bench or DSS line, makes a bank SUSPECT,
or abandons the tile (14_faults_spares.mdR445, 14_faults_spares.mdR446, 14_faults_spares.mdR462,
14_faults_spares.mdR474). -/
def Obligations.SramErrorsAreCountedAndContained : Prop :=
  (∀ s : State, exec .sramScrub s = .next s) ∧
  (∀ (s : State) (e : EccAt) (u : Bool), s.eccHere e = false → exec (.sramEccError e u) s = .next s) ∧
  (∀ (s : State) (e : EccAt), s.eccHere e = true →
    let i := (s.eccUnit e).1
    let src := (s.eccUnit e).2
    let counted := (s.life (src / 2048) fun l =>
      { l with eccUncorrectable := smapUpd 0 l.eccUncorrectable i (satAdd64 · 1)
               poison := if eccPoisons e then satAdd64 l.poison 1 else l.poison }).event src 0x0302 (eccDetail e)
    (i = 4 → exec (.sramEccError e false) s = .next s) ∧
    (i ≠ 4 → exec (.sramEccError e false) s = .next
      ((s.life (src / 2048) fun l => { l with eccCorrected := smapUpd 0 l.eccCorrected i (satAdd64 · 1) }).eventAgg src 0x0301)) ∧
    (∀ pt c l k, e = .bench pt c l → IsCore s pt c k →
      exec (.sramEccError e true) s = .next (if ((s.core k).line l.toNat).st = .invalid then counted else
        counted.setCore k ((s.core k).setLine l.toNat { (s.core k).line l.toNat with poison := true }))) ∧
    (∀ d l, e = .dss d l → exec (.sramEccError e true) s =
      .next (counted.setDssLine d.toNat l.toNat { s.dssLine d.toNat l.toNat with poison := true })) ∧
    (∀ pt c a b k, e = .bank pt c a b → IsCore s pt c k →
      let ar := (s.core k).array a.toNat
      exec (.sramEccError e true) s = .next (counted.setCore k
        ((s.core k).setArray a.toNat (ar.setBank b.toNat { ar.bank b.toNat with suspect := true })))) ∧
    (∀ pt c v row col k, e = .proofBuffer pt c v row col → IsCore s pt c k → exec (.sramEccError e true) s =
      .next (counted.setCore k ((s.core k).setSlot v.toNat (((s.core k).slot v.toNat).markPsn row.toNat col.toNat)))) ∧
    (∀ pt c, e = .pipeline pt c → exec (.sramEccError e true) s = .next (counted.abandonTile pt.toNat src)) ∧
    (∀ n j, e = .router n j → ∃ t, exec (.sramEccError e true) s = .next t ∧
      t = { counted with fab := { s.fab with ports := t.fab.ports } } ∧ (UnitsOk s → ∀ i q,
        (t.port n.toNat).queue[i]? = some q → ∃ q0, (s.port n.toNat).queue[i]? = some q0 ∧
          q = if i = j then { q0 with poison := true } else q0)) ∧
    (∀ g j, e = .coll g j → ∃ t, exec (.sramEccError e true) s = .next t ∧
      t = { counted with fab := { s.fab with runs := t.fab.runs } } ∧ t.fab.runs.length = s.fab.runs.length ∧
      ∀ u ∈ t.fab.runs, u.group = g → u.idx = j.toNat → ∀ m ∈ u.locals, m.inp.poison = true) ∧
    (∀ q n v, e = .eventLog q → smapFind s.log.ring q.toNat = some (n, v) → exec (.sramEccError e true) s = .next
      { counted with log := { counted.log with ring := smapInsert s.log.ring q.toNat (n, { v with corrupt := true }) } }) ∧
    (∀ pt c, e = .regs pt c → exec (.sramEccError e true) s = .next (counted.abandonTile pt.toNat src)) ∧
    (∀ pt c w, e = .store pt c w → exec (.sramEccError e true) s = .next counted))

/-- A Crust commit takes every staged word or none, by CRC and offset; a scrub rewrites a copy that differs from the
majority, or a group whose CRC does not match (14_faults_spares.mdR447, 14_faults_spares.mdR448,
14_faults_spares.mdR449, 20_register_map.mdR601, 04_core.mdR131, 04_core.mdR132, 00_scope.mdR17). -/
def Obligations.CrustRegistersCommitAndAreScrubbed : Prop :=
  (∀ (s : State) (es : List (Word × Word)) (crc : Word), es.length ≤ 64 → (∀ e ∈ es, stagedOk e = true) →
    let staged := { s.crust with staged := es, crc := crc, badAddr := false }
    (crc32 (stagedBytes es) ≠ crc → exec (.crustCommit es crc) s =
      .next (({ s with crust := { staged with crcFail := true } }).hwSet 0x060_000C 2)) ∧
    (crc32 (stagedBytes es) = crc → (∃ e ∈ es, isCrustOffset e.1.toNat = false) →
      exec (.crustCommit es crc) s = .next { s with crust := { staged with badAddr := true } }) ∧
    (∀ off w : Word, es = [(off, w)] → crc32 (stagedBytes es) = crc → isCrustOffset off.toNat = true →
      isMapOffset off.toNat = false → isMapRecord off.toNat = false →
      exec (.crustCommit es crc) s = .next { s with crust := { staged.put off.toNat w with commits := satAdd32 s.crust.commits 1 } }) ∧
    (∀ off w : Word, es = [(off, w)] → crc32 (stagedBytes es) = crc → isCrustOffset off.toNat = true → isMapOffset off.toNat = true →
      (∃ n < 16, (s.part n).run.isSome = true ∧ s.mapConcerns n (off.toNat, w) = true) →
      ∃ t, exec (.crustCommit es crc) s = .next t ∧ t.crust = { staged with
        waiting := s.crust.waiting.filter (fun v => v.1 != off.toNat) ++ [(off.toNat, w)], commits := satAdd32 s.crust.commits 1 })) ∧
  (∀ (s : State) (es : List (Word × Word)) (crc : Word), 64 < es.length ∨ (∃ e ∈ es, stagedOk e = false) →
    exec (.crustCommit es crc) s = .next s) ∧
  (∀ s : State, (∀ g, s.crust.groupCrc g = s.crust.heldCrc g) →
    ((∀ e ∈ s.crust.regs, e.2.badCopies = 0) → exec .crustScrub s = .next s) ∧
    (∀ (off : Nat) (r : CrustReg), smapSorted s.crust.regs = true →
      s.crust.regs.filter (fun e => e.2.badCopies != 0) = [(off, r)] → exec .crustScrub s = .next
      (({ s with crust := { s.crust.setReg off (.all r.read) with repairs := min 65535 (s.crust.repairs + r.badCopies) } }.life
        (crustDie off) fun l => { l with crustRepairs := satAdd64 l.crustRepairs r.badCopies }).event
          (srcHub 0x370) 0x0303 (detail3 off 0 0)))) ∧
  (∀ (s : State) (g : Nat), (∀ e ∈ s.crust.regs, e.2.badCopies = 0) →
    ((s.crust.regs.map fun e => crustGroup e.1) ++ s.crust.crcs.map Prod.fst).dedup = [g] →
    s.crust.groupCrc g ≠ s.crust.heldCrc g → exec .crustScrub s = .next
      (s.commitWords (((crustGroupOffsets g).filter isMapRecord).map fun off => (off, (s.ledger.mapWord off).getD (crustReset off))))) ∧
  (∀ a b : Word, CrustReg.read ⟨a, a, b⟩ = a ∧ CrustReg.read ⟨a, b, a⟩ = a ∧ CrustReg.read ⟨b, a, a⟩ = a)

/-- Rounds that agree pass, others go to a referee and a fourth array, and what they convict is repaired or fails;
quarantine holds and releases (14_faults_spares.mdR452, 14_faults_spares.mdR453, 14_faults_spares.mdR454,
14_faults_spares.mdR455, 14_faults_spares.mdR456, 04_core.mdR130, 04_core.mdR132, 20_register_map.mdR596). -/
def Obligations.TastingRoundsAndQuarantine : Prop :=
  (∀ (s : State) (x y : TasteAt),
    let t := s.tasteAt
    (s.comparable [x, y] = false → exec (.tastingRoundComplete (.pair x y)) s = .next s) ∧
    (s.comparable [x, y] = true → (t x).agrees (t y) = true → exec (.tastingRoundComplete (.pair x y)) s = .next
      (let z := (((s.nextRound x).nextRound y).tasteLife x true).tasteLife y true
      { z with tele := { s.tele with tastePass := satAdd32 s.tele.tastePass 1 } })) ∧
    (s.comparable [x, y] = true → (t x).agrees (t y) = false → exec (.tastingRoundComplete (.pair x y)) s = .next
      (let z := (s.tasteRecord (t x).round 1 [x, y]).event (srcNo x.die.toNat 0x210) 0x0601 (detail3 (t x).round.toNat 0 0)
       { z with tele := { s.tele with tasteFail := satAdd32 s.tele.tasteFail 1 } })) ∧
    (∀ z vs, s.comparable [x, y, z] = true → (t x).agrees (t y) = false → ((t x).agrees (t z) = true ∨ (t y).agrees (t z) = true) →
      s.choiceOk z [x, y] vs = true → exec (.tastingRoundComplete (.referee x y z vs)) s = .next (s.convictAll z [x, y] vs)) ∧
    (∀ z vs, s.comparable [x, y, z] = false ∨ (t x).agrees (t y) = true ∨ (t x).agrees (t z) = false ∧ (t y).agrees (t z) = false →
      exec (.tastingRoundComplete (.referee x y z vs)) s = .next s) ∧
    (∀ z w vs, s.comparable [x, y, z, w] = true → (t x).agrees (t y) = false → (t x).agrees (t z) = false → (t y).agrees (t z) = false →
      ((∀ v ∈ [x, y, z], (t v).agrees (t w) = false) → ∃ t', exec (.tastingRoundComplete (.fourth x y z w vs)) s = .next t' ∧
        t'.tele = { s.tele with tasteUnresolved := true } ∧ (UnitsOk s → ∀ v ∈ [x, y, z, w], (t'.tasteAt v).quarantined = true)) ∧
      ((∃ v ∈ [x, y, z], (t v).agrees (t w) = true) → s.choiceOk w [x, y, z] vs = true →
        exec (.tastingRoundComplete (.fourth x y z w vs)) s = .next (s.convictAll w [x, y, z] vs)))) ∧
  (∀ (s : State) (z x : TasteAt) (xs : List TasteAt) (vs : List (List Byte)),
    s.convictAll z [] vs = s.nextRound z ∧
    ((s.tasteAt x).agrees (s.tasteAt z) = true → s.convictAll z (x :: xs) vs = (s.convictAll z xs vs).nextRound x) ∧
    ((s.tasteAt x).agrees (s.tasteAt z) = false → s.convictAll z (x :: xs) vs = (s.convict x z (vs.headD [])).convictAll z xs vs.tail)) ∧
  (∀ (s : State) (x z : TasteAt) (vs : List Byte),
    let cols := (columnsApart (s.tasteAt x) (s.tasteAt z)).map (s.physColumn x)
    let s1 := ((s.tasteRecord (s.tasteAt x).round 2 [x]).tasteLife x false).nextRound x
    ((cols.length = 1 ∨ cols.length = 2) → cols.length ≤ (s.spareColumns x).length →
      s.convict x z vs = s1.repairColumns x (s.crust.latest (tasteMap x)) ((cols.map fun c => BitVec.ofNat 8 c).zip vs)) ∧
    (¬(cols.length = 1 ∨ cols.length = 2) ∨ (s.spareColumns x).length < cols.length →
      s.convict x z vs = (s1.event (tasteSrc x) 0x0602 (detail3 x.a.toNat 0 0)).coreFail x.die.toNat x.p.toNat)) ∧
  (∀ (fixed : NatSet) (w : Word) (f v : Nat), repairMapOk w = true → moveOk fixed w f v = true →
    let cols := fun (w : Word) => (List.range 4).map fun i => fieldOf w (8 * i) 8
    repairMapOk (moveColumn w f v) = true ∧ v ∉ fixed ∧ 128 ≤ v ∧
      ∀ c, c ∈ cols (moveColumn w f v) ↔ c = f ∨ (c ∈ cols w ∧ c ≠ v)) ∧
  (∀ s : State, ∃ t, exec .tastingPeriodEnd s = .next t ∧ t = { s with dies := t.dies, tele := t.tele } ∧
    t.tele = { s.tele with tasteStarved := t.tele.tasteStarved } ∧ t.tele.tasteStarved ≤ 255 ∧
    (UnitsOk s → ∀ d < 4, ∀ e ∈ (t.die d).taste, e.2.doneThisPeriod = false)) ∧
  (∀ (s : State) (pt : Pt),
    let p := s.part pt.toNat
    (s.entriesOn pt.toNat ≠ [] ∨ p.quarantined = true → exec (.partitionQuarantine pt) s = .next s) ∧
    (s.entriesOn pt.toNat = [] → p.quarantined = false → p.releasedNow = false → exec (.partitionQuarantine pt) s =
      .next (let z := s.setPart pt.toNat { p with quarantined := true }
        if p.inReset then z else z.startPartReset pt.toNat)) ∧
    (s.entriesOn pt.toNat = [] → p.quarantined = false → p.releasedNow = true → exec (.partitionQuarantine pt) s =
      .next ((s.setPart pt.toNat { p with quarantined := true, hold := true, inReset := true, refused := true }).hwSet
        (0x010_0000 + 0x1_0000 * pt.toNat) 4)) ∧
    (p.quarantined = false → ∀ c, exec (.quarantineTestsDone pt c) s = .next s) ∧
    (p.quarantined = true →
      let rec' := fun d => s.ledgerAppend p.die.toNat 0x05 (srcNo p.die.toNat 0x210) [0, 0, 0, 0, 0xFF, d, BitVec.ofNat 8 pt.toNat]
      (∃ t, exec (.quarantineTestsDone pt none) s = .next t ∧ t = (rec' 4).setPart pt.toNat { p with
        quarantined := false, inReset := p.hold || p.bad || p.outOfService || !p.en || s.ladder.steps.any fun t => t.target == .part pt.toNat }) ∧
      (∀ c k, IsCore s pt c k → exec (.quarantineTestsDone pt (some c)) s =
        .next (((rec' 5).event (srcCore k 0) 0x0602 (detail3 k 0 0)).coreFail (k / 26) (k % 26)))))

/-- A failed core stops its context to be rewound, ends it, or takes the last spare; CHECKPOINT, JOURNAL_APPEND, REWIND
and REPLAY_END (14_faults_spares.mdR464, 14_faults_spares.mdR466, 14_faults_spares.mdR467, 14_faults_spares.mdR468,
14_faults_spares.mdR470, 14_faults_spares.mdR471, 14_faults_spares.mdR476, 14_faults_spares.mdR479). -/
def Obligations.FailedCoresAndRewind : Prop :=
  (∀ (s : State) (die : DieNo) (p : BitVec 5),
    let k := 26 * die.toNat + p.toNat
    let s0 := s.setCore k { s.core k with failed := true }
    ((s.core k).failed = true ∨ (s.core k).retired = true ∨ 26 ≤ p.toNat ∨ s.fusedOff die.toNat p.toNat = true → exec (.coreFail die p) s = .next s) ∧
    (p.toNat < 26 → (s.core k).failed = false → (s.core k).retired = false → s.fusedOff die.toNat p.toNat = false →
      s0.ptOfCore k = none → exec (.coreFail die p) s = .next
        (if (s.logicalOf die.toNat p.toNat).isNone = true ∧ (s.die die.toNat).sparesLeft ≠ 0 then
          s0.retireCore die.toNat p.toNat true else s0)) ∧
    (p.toNat < 26 → (s.core k).failed = false → (s.core k).retired = false → s.fusedOff die.toNat p.toNat = false → ∀ n, s0.ptOfCore k = some n →
      (s0.spareCores die.toNat = [] → exec (.coreFail die p) s = .next (s0.noSpare n die.toNat p.toNat)) ∧
      (s0.spareCores die.toNat ≠ [] → (s0.part n).ctx = none → exec (.coreFail die p) s = .next s0) ∧
      (∀ cn, s0.spareCores die.toNat ≠ [] → (s0.part n).ctx = some cn → exec (.coreFail die p) s = .next
        (if (s0.ctx cn).rewindable then s0.stopForRewind n else (s0.killContext n 0x31 true).withdraw n)))) ∧
  (∀ (s : State) (pt : Pt) (e : JrnlEvent) (cn : Nat),
    let c := s.ctx cn
    (s.part pt.toNat).ctx = some cn → c.express = false → c.live = true → c.jrnlFull = false →
    exec (.journalAppend pt e true) s = .next ((s.setCtx cn { c with jrnlFull := true }).hwSet (rwdStatKey cn) 4) ∧
    (∀ x, s.journalRec pt.toNat e = some x → c.journal ≠ [] →
      exec (.journalAppend pt e false) s = .next (s.setCtx cn { c with journal := c.journal ++ [x] })) ∧
    (∀ x, s.journalRec pt.toNat e = some x → c.journal = [] →
      exec (.journalAppend pt e false) s = .next ((s.setCtx cn { c with journal := [x] }).writeOpen
        (c.rwd.toNat + 2 * ((s.part pt.toNat).count.toNat * corePart)) (c.jsize.toNat * mib)))) ∧
  (∀ (s : State) (pt : Pt) (e : JrnlEvent) (full : Bool), (s.part pt.toNat).ctx = none ∨ (∃ cn, (s.part pt.toNat).ctx = some cn ∧
    ((s.ctx cn).express = true ∨ (s.ctx cn).live = false ∨ (s.ctx cn).jrnlFull = true)) →
    exec (.journalAppend pt e full) s = .next s) ∧
  (∀ (s : State) (pt : Pt) (tests : List Bool),
    let n := pt.toNat
    let d := (s.part n).die.toNat
    (∀ l q v vs x, (s.part n).inReset = false → s.failedOf n = (l, q) :: x → s.spareCores d = v :: vs → (s.part n).ctx = none →
      exec (.rewind pt (true :: tests)) s = .next ((s.retireCore d q true).moveCore d l q v)) ∧
    ((s.part n).inReset = true → exec (.rewind pt tests) s = .next s) ∧
    (∀ cn m, (s.part n).inReset = false → s.failedOf n = [] → (s.part n).ctx = some cn → (s.ctx cn).stopped = true →
      (s.ctx cn).ckpt = some m → exec (.rewind pt tests) s = .next
        (({ s with bs := { s.bs with run := s.bs.run.map fun (a : Admitted) =>
          if a.ctx = cn then (s.ctx cn).again a else a } }).restoreCtx n cn m)) ∧
    ((s.part n).inReset = false → s.failedOf n ≠ [] → s.spareCores (s.part n).die.toNat = [] → ∃ l q,
      (s.failedOf n).head? = some (l, q) ∧ exec (.rewind pt tests) s = .next (s.noSpare n (s.part n).die.toNat q))) ∧
  (∀ (s : State) (pt : Pt) (c : LCore) (k : Nat), IsCore s pt c k →
    let p := s.part pt.toNat
    (c.toNat ∉ p.replay → exec (.replayEnd pt c) s = .next s) ∧
    (c.toNat ∈ p.replay → p.ctx = none → exec (.replayEnd pt c) s =
      .next (s.setPart pt.toNat { p with replay := natSetErase p.replay c.toNat })) ∧
    (∀ cn, c.toNat ∈ p.replay → p.ctx = some cn →
      let mine := (s.ctx cn).replay.filter fun x => x.core == some c.toNat
      ((∃ x ∈ mine, ∀ i m, x ≠ .msg i m) → exec (.replayEnd pt c) s = .next s) ∧
      (∀ ms, mine = ms.map (fun m => JrnlRec.msg c.toNat m) → exec (.replayEnd pt c) s = .next
        (((s.setCtx cn { s.ctx cn with replay := (s.ctx cn).replay.filter fun x => x.core != some c.toNat && x.core.isSome }).setCore k
          { s.core k with recvXq := (s.core k).recvXq ++ ms }).setPart pt.toNat { p with replay := natSetErase p.replay c.toNat })))) ∧
  (∀ (s : State) (pt : Pt),
    let n := pt.toNat
    let p := s.part n
    (p.ctx = none → exec (.checkpoint pt) s = .next s) ∧
    (∀ cn, p.ctx = some cn → (s.ctx cn).express = false → (s.ctx cn).live = true → (s.ctx cn).stopped = false → p.replay = [] →
      p.run = none → (s.bs.run.any fun a => a.deadline != 0 && (s.ctx a.ctx).pts.contains n) = false → UnitsOk s →
      ∃ t, exec (.checkpoint pt) s = .next t ∧
        t = { s with cores := t.cores, ctxs := smapSet .reset s.ctxs cn (t.ctx cn), mem := t.mem, free := s.free + 1 } ∧
        (t.ctx cn).ckpt = some (s.snapshot n) ∧ (t.ctx cn).lastCopy = !(s.ctx cn).lastCopy ∧ (t.ctx cn).journal = [] ∧
        (t.ctx cn).ckptGtb = s.now ∧ (t.ctx cn).jrnlFull = false))

/-- A core or engine is hung after three silent windows; the hang is recorded with its suspects, and verdicts fall on the
lowest suspect (15_hangs_reset.mdR482, 15_hangs_reset.mdR483, 15_hangs_reset.mdR484, 15_hangs_reset.mdR485,
15_hangs_reset.mdR494, 15_hangs_reset.mdR495, 15_hangs_reset.mdR496). -/
def Obligations.HangsAreDetected : Prop :=
  (∀ (s : State) (pt : Pt) (c : LCore) (k : Nat), IsCore s pt c k →
    let due := (s.core k).lastBeat + 3 * s.ladder.hangPeriod.toNat * 1000
    ((s.core k).watched = true → due ≤ s.now →
      exec (.coreHangDetect pt c) s = .next (s.detectHang (.core (k / 26) (k % 26)) false)) ∧
    ((s.core k).watched = false ∨ s.now < due → exec (.coreHangDetect pt c) s = .next s)) ∧
  (∀ (s : State) (e : EngUnit),
    exec (.engineHangDetect e) s = .next (if s.engHung (engUnit e) then s.detectHang (engUnit e) false else s)) ∧
  (∀ (s : State) (u : LadderUnit) (b : Bool),
    ((∃ t ∈ s.ladder.steps, s.covers t.target u = true) → s.detectHang u b = s) ∧
    ((∀ t ∈ s.ladder.steps, s.covers t.target u = false) →
      (s.detectHang u b).ladder.hangValid = true ∧ (s.detectHang u b).ladder.byBudget = b ∧
      (s.detectHang u b).ladder.hangSrc = BitVec.ofNat 16 (s.unitSrc u) ∧
      (s.detectHang u b).cores = s.cores ∧ (s.detectHang u b).parts = s.parts ∧ (s.detectHang u b).ctxs = s.ctxs ∧
      (s.detectHang u b).mem = s.mem ∧ (s.detectHang u b).bs = s.bs)) ∧
  (∀ (s : State) (v : Verdict), s.ladder.suspects = [] → exec (.hangVerdict v) s = .next s) ∧
  (∀ (s : State) (x : Suspect), s.firstSuspect = some x →
    (s.ladder.verdict = 0 → (∀ y ∈ s.ladder.suspects, y.ctx = x.ctx) →
      exec (.hangVerdict .committed) s = .next ((s.dropSuspect x.ctx).setVerdict 1)) ∧
    ((s.ctx x.ctx).express = false → x.failed = false → exec (.hangVerdict (.hungAgain true)) s =
      .next (({ s with ladder := { s.ladder with
        verdict := 2, suspects := s.ladder.suspects.map fun (y : Suspect) => if y.ctx = x.ctx then { y with failed := true } else y } }
        ).failUnit x.hung)) ∧
    (s.ladder.verdict ≠ 0 ∨ (∃ y ∈ s.ladder.suspects, y.ctx ≠ x.ctx) → exec (.hangVerdict .committed) s = .next (s.dropSuspect x.ctx)) ∧
    exec (.hangVerdict (.hungAgain false)) s = .next (s.guilty x) ∧
    ((s.ctx x.ctx).express = true ∨ x.failed = true → exec (.hangVerdict (.hungAgain true)) s = .next (s.guilty x)))

/-- Each rung resets its unit and runs as a step that absorbs narrower ones; a step completes, or escalates at its limit;
RST_REQ asks for the upper rungs (15_hangs_reset.mdR487, 15_hangs_reset.mdR488, 15_hangs_reset.mdR489,
15_hangs_reset.mdR491, 15_hangs_reset.mdR492, 15_hangs_reset.mdR493, 15_hangs_reset.mdR500). -/
def Obligations.LadderStepsResetUnits : Prop :=
  (∀ (s : State) (ctx : CtxNo), (∀ x ∈ s.ladder.suspects, x.ctx ≠ ctx.toNat) → exec (.contextAbort ctx) s = .next
    (((s.residentPts ctx.toNat).foldl (fun z n => z.abortPart n (srcNo (z.part n).die.toNat 0)) s).beginStep (.ctx ctx.toNat))) ∧
  (∀ (s : State) (ctx : CtxNo) (x : Suspect), s.ladder.suspects.find? (fun x => x.ctx == ctx.toNat) = some x →
    exec (.contextAbort ctx) s = .next ((s.abortSuspect x).beginStep (.ctx ctx.toNat))) ∧
  (∀ (s : State) (e : EngUnit), exec (.engineReset e) s = .next ((s.resetEngine (engUnit e)).beginStep (engUnit e))) ∧
  (∀ (s : State) (pt : Pt),
    let covered := s.ladder.steps.any fun t => s.covers t.target (.part pt.toNat)
    exec (.partitionReset pt) s = .next (if covered then s else (s.resetPartition pt.toNat).beginStep (.part pt.toNat)) ∧
    (HostReaches s 0x003_0000 → exec (.rstReqPartition pt) s = .next
      (if covered then { s with ladder := { s.ladder with ignored := true } }.hwSet 0x003_0004 0x20
       else (s.resetPartition pt.toNat).beginStep (.part pt.toNat)))) ∧
  (∀ s : State, exec .moduleReset s = .next s.startModuleReset ∧
    (HostReaches s 0x003_0000 → exec .rstReqModule s = .next s.startModuleReset ∧
      exec .rstReqPowerCycle s = .next s.requestPowerCycle) ∧
    (s.power.pwrEn = true ∨ s.ladder.pwrReq = false → exec .powerCycle s = .next s) ∧
    (s.power.pwrEn = false → s.ladder.pwrReq = true → exec .powerCycle s =
      .next (s.flushMaps.cutReform.powerCycled.emit (.pin "PWR_CYCLE_REQ_N" false)))) ∧
  (∀ (s : State) (u : LadderUnit),
    (s.beginStep u).ladder.steps = s.ladder.steps.filter (fun t => !s.covers u t.target) ++ [⟨u, s.now⟩]) ∧
  (∀ (s : State) (idx : BitVec 8),
    (s.ladder.steps.length ≤ idx.toNat → exec (.ladderStepComplete idx) s = .next s ∧ exec (.ladderStepTimeout idx) s = .next s) ∧
    (∀ t, s.ladder.steps[idx.toNat]? = some t →
      exec (.ladderStepComplete idx) s = .next (((s.dropStep idx.toNat).stepDone t.target).ladderEvent t.target 1) ∧
      (s.now < t.start + t.target.limit → exec (.ladderStepTimeout idx) s = .next s) ∧
      (t.start + t.target.limit ≤ s.now →
        let s1 := (s.dropStep idx.toNat).ladderEvent t.target 2
        exec (.ladderStepTimeout idx) s = .next
          (({ s1 with ladder := { s1.ladder with escalated := true } }.hwSet 0x003_0004 0x10).escalate t.target)))) ∧
  LadderUnit.limit (.ctx 0) = 100000 ∧ LadderUnit.limit (.core 0 0) = 500000 ∧ LadderUnit.limit (.part 0) = 5000000 ∧
    LadderUnit.limit .module = 100000000

/-- The Oven Timer counts expiries and asks for a power cycle; a module reset keeps time, routing and flash, a power cycle
links and flash, and clears the rest (15_hangs_reset.mdR487, 15_hangs_reset.mdR491, 15_hangs_reset.mdR499,
15_hangs_reset.mdR500, 17_host_pcie.mdR551). -/
def Obligations.OvenTimerAndWhatResetsKeep : Prop :=
  (∀ s : State,
    let t := s.moduleCleared
    t.time = s.time ∧ t.fuse = s.fuse ∧ t.fab.ports = s.fab.ports ∧ t.fab.route = s.fab.route ∧ t.sec.flash = s.sec.flash ∧
    t.sec.debug = false ∧ t.parts = [] ∧ t.ctxs = [] ∧ t.loafs = [] ∧ t.models = [] ∧ t.host.gen = 0 ∧ t.scratch = 0 ∧
    t.bs = BatchSheet.reset ∧ t.out = s.out ∧ t.ladder.steps = s.ladder.steps ∧
    (s.mem.reforming = none → t.mem.cells = s.mem.cells ∧ t.mem.poison = s.mem.poison)) ∧
  (∀ s : State,
    let t := s.powerCycled
    t.time = TimeBase.reset ∧ t.fuse = s.fuse ∧ t.fab.route = Fabric.reset.route ∧
    t.fab.ports = (s.fab.ports.map fun e => (e.1, e.2.powerCycled 0)).filter (fun e => e.2 != Port.reset) ∧
    t.sec.flash = s.sec.flash ∧ t.parts = [] ∧ t.ctxs = [] ∧ t.bs = BatchSheet.reset ∧ t.host.gen = 0 ∧ t.pending = s.pending) ∧
  (∀ (p : Port) (now : Nat),
    let q := p.powerCycled now
    q.en = true ∧ q.rateCap = true ∧ q.timeEn = true ∧ q.downSeen = false ∧ q.widthChanged = false ∧ q.retries = 0 ∧
      q.trainFails = 0 ∧ (p.st ≠ .off → q.st = p.st ∧ q.queue = p.queue ∧ q.sent = p.sent)) ∧
  (∀ s : State,
    exec .ovenTimerRestart s = .next { s with ladder := { s.ladder with ovtLast := some s.now } } ∧
    (∀ u, s.ladder.ovtLast = some u →
      (s.now < u + 50000000 → exec .ovenTimerExpire s = .next s) ∧
      (u + 50000000 ≤ s.now →
        let n := min 255 (s.ladder.expiries + 1)
        let counted := fun first => ({ s with ladder := { s.ladder with expiries := n, ovtFirst := first } }.event
          (srcHub 0x360) 0x0703 (detail3 n 0 0))
        (∀ f, s.ladder.ovtFirst = some f → s.now < f + 10000000000 →
          exec .ovenTimerExpire s = .next (counted (some f)).requestPowerCycle) ∧
        ((∀ f, s.ladder.ovtFirst = some f → f + 10000000000 ≤ s.now) →
          exec .ovenTimerExpire s = .next (counted (some s.now)).managementReset))) ∧
    (s.ladder.ovtLast = none →
      (s.now < s.ladder.ovtFrom + 1000000000 → exec .ovenTimerExpire s = .next s) ∧
      (s.ladder.ovtFrom + 1000000000 ≤ s.now → exec .ovenTimerExpire s = .next s.requestPowerCycle)))

/-- PT_CFG is taken only by a held partition in reset and never from a VF; RST_HOLD releases a partition whose checks pass
and holds by a reset (04_core.mdR157, 15_hangs_reset.mdR493, 17_host_pcie.mdR535, 20_register_map.mdR596). -/
def Obligations.PartitionsAreConfiguredAndReleased : Prop :=
  (∀ (s : State) (pt : Pt) (v : Word), HostReaches s (0x010_0010 + 0x1_0000 * pt.toNat) →
    let p := s.part pt.toNat
    exec (.ptCfgWrite pt true v) s = .next s ∧
    (p.inReset = false ∨ (p.hold = false ∧ p.quarantined = false) →
      exec (.ptCfgWrite pt false v) s = .next ((s.setPart pt.toNat { p with writeIgnored := true }).hwSet
        (0x010_0010 + 0x1_0000 * pt.toNat) 0x4000)) ∧
    (p.inReset = true → p.hold = true ∨ p.quarantined = true →
      let v0 := v
      let v := s.clears (0x010_0010 + 0x1_0000 * pt.toNat) v0
      let d := (v.extractLsb' 0 2).toNat
      let s1 := s.setPart pt.toNat { p with
        die := v.extractLsb' 0 2, first := v.extractLsb' 2 5, count := v.extractLsb' 7 5, en := v.getLsbD 12
        writeIgnored := p.writeIgnored && !v.getLsbD 14 }
      exec (.ptCfgWrite pt false v0) s = .next
        (if (List.range 16).all (fun m => !((s1.part m).en && (s1.part m).die.toNat == d) || (s1.part m).inReset) then s1.densify d
         else s1))) ∧
  (∀ (s : State) (pt : Pt) (h : Bool), HostReaches s (0x010_0000 + 0x1_0000 * pt.toNat) →
    let n := pt.toNat
    let p := s.part n
    let busy := s.ladder.steps.any fun t => s.covers t.target (.part n)
    exec (.ptRstHoldWrite pt true h) s = .next s ∧
    (p.en = false ∨ s.cfgBad n = true ∨ p.quarantined = true ∨ p.outOfService = true →
      exec (.ptRstHoldWrite pt false false) s = .next ((s.setPart n { p with bad := s.cfgBad n, refused := true }).hwSet
        (0x010_0000 + 0x1_0000 * n) 4)) ∧
    (p.en = true → s.cfgBad n = false → p.quarantined = false → p.outOfService = false →
      exec (.ptRstHoldWrite pt false false) s = .next (s.setPart n
        { p with bad := false, hold := false, inReset := p.inReset && busy, releasedNow := p.inReset && !busy })) ∧
    (p.inReset = true → exec (.ptRstHoldWrite pt false true) s = .next (s.setPart n { p with hold := true })) ∧
    (p.inReset = false → busy = true → exec (.ptRstHoldWrite pt false true) s =
      .next ((({ s with ladder := { s.ladder with ignored := true } }.setPart n { p with refused := true }).hwSet 0x003_0004 0x20).hwSet
        (0x010_0000 + 0x1_0000 * n) 4)) ∧
    (p.inReset = false → busy = false → exec (.ptRstHoldWrite pt false true) s =
      .next ((s.setPart n { p with hold := true }).startPartReset n)))

/-- A dump starts, is skipped while one is held, notes units that do not answer as holes, ends with its header in place,
and is read through the port (15_hangs_reset.mdR501, 15_hangs_reset.mdR502, 15_hangs_reset.mdR503,
15_hangs_reset.mdR504, 15_hangs_reset.mdR505, 15_hangs_reset.mdR507). -/
def Obligations.CrashDumpsAreTakenAndRead : Prop :=
  (∀ (s : State) (scope : DumpScope) (tr : Nat), s.ladder.dump = none →
    (s.ladder.full = true → s.ladder.overwrite = false → s.startDump tr scope =
      { s with ladder := { s.ladder with skipped := min 255 (s.ladder.skipped + 1) } }) ∧
    (s.ladder.full = false ∨ s.ladder.overwrite = true → s.startDump tr scope =
      { s with ladder := { s.ladder with dump := some ⟨tr, scope, s.now, [], s.memDieDead, s.ladder.sram⟩ } }.wake)) ∧
  (∀ (s : State) (pt : Option Pt) (cycle : Bool),
    (s.ladder.auto = false → exec (.dumpStart pt cycle) s = .next s) ∧
    (s.ladder.auto = true → exec (.dumpStart none cycle) s = .next (s.startDump (if cycle then 3 else 2) .module)) ∧
    (∀ n, s.ladder.auto = true → exec (.dumpStart (some n) cycle) s = .next (s.startDump 1 (.part n)))) ∧
  (∀ s : State, HostReaches s 0x003_0100 →
    (∀ u, s.ladder.dumpScope = some u → exec .dumpGo s = .next (s.startDump 0 u)) ∧
    (s.ladder.dumpScope = none → exec .dumpGo s = .next s)) ∧
  (∀ (s : State) (src : SrcNo),
    (s.ladder.dump = none → exec (.dumpUnitTimeout src) s = .next s) ∧
    (∀ r, s.ladder.dump = some r → src.toNat % 2048 ≠ 0 → (dieUnits (src.toNat / 2048)).contains (src.toNat % 2048) = true →
      s.inScope r.scope src.toNat = true → src.toNat ∉ r.holes → exec (.dumpUnitTimeout src) s = .next { s with
        ladder := { s.ladder with dump := some { r with holes := r.holes ++ [src.toNat] } } })) ∧
  (∀ (s : State) (xs : List DumpRec), s.ladder.dump = none → exec (.dumpEnd xs) s = .next s) ∧
  (∀ (s : State) (xs : List DumpRec) (r : DumpRun), s.ladder.dump = some r →
    let bytes := 64 + (xs.map dumpSize).sum
    let cut := xs.any fun x => x.status == 2
    (s.recordsOk r xs = false ∨ r.room < bytes → exec (.dumpEnd xs) s = .next s) ∧
    (s.recordsOk r xs = true → bytes ≤ r.room → cut = false ∨ r.began + s.ladder.limit.toNat * 1000000 ≤ s.now ∨ r.room < bytes + 16 →
      ∃ t, exec (.dumpEnd xs) s = .next t ∧ t.ladder.dump = none ∧ t.ladder.full = true ∧ t.ladder.inSram = r.toSram ∧
        t.ladder.truncated = cut ∧ t.cores = s.cores ∧ t.parts = s.parts ∧
        (r.toSram = true → s.ladder.dumpHost = 0 → t = { s with free := s.free + 1, sets := t.sets, ladder := t.ladder }) ∧
        (r.toSram = true → (∀ i < 64, t.ladder.sramByte i = (r.header s.now xs.length bytes).getD i 0) ∧
          ∀ x ys, xs = x :: ys → ∀ i < 16, t.ladder.sramByte (64 + i) = (dumpHead x).getD i 0))) ∧
  (∀ s : State, s.power.alwaysOn = true → exec .dumpPortDataRead s = .next { s with
    reply := some (.word (BitVec.ofNat 32 (bytesNat ((List.range 4).map fun i => s.ladder.sramByte (s.ladder.portAddr.toNat + i)))))
    ladder := { s.ladder with portAddr := s.ladder.portAddr + 4 } }) ∧
  (∀ (r : DumpRun) (now records bytes : Nat), (r.header now records bytes).length = 64 ∧
    (r.header now records bytes).take 4 = [0x44, 0x58, 0x44, 0x50])

/-- A manifest is verified and its shards hashed; the load times out, activates, closes or is cancelled as the model
slot's state allows (13_contexts_serving.mdR437, 13_contexts_serving.mdR438, 13_contexts_serving.mdR439,
13_contexts_serving.mdR440, 13_contexts_serving.mdR441, 13_contexts_serving.mdR442). -/
def Obligations.GenerationsLoadActivateAndRelease : Prop :=
  (∀ s : State, HostReaches s 0x080_0318 →
    let i := s.bs.genSel.toNat
    let m := s.model i
    let off := { m with st := .none, shard := 0, load := none, shards := [], activate := false, closed := false, closeReq := false }
    (m.st ≠ .none → m.st ≠ .failed → exec .genLoad s = .next s) ∧
    (let base := m.manifest.toNat
     let count := s.mem.field (base + 6) 2
     let g : GenInfo := ⟨BitVec.ofNat 32 (s.mem.field base 4), m.region, BitVec.ofNat 64 (s.mem.field (base + 8) 8)⟩
     m.st = .none ∨ m.st = .failed →
     (s.manifestOk base count = false ∨ s.mem.field base 4 = 0 ∨ s.mem.field (base + 4) 2 ≠ i ∨
       s.mem.hostTop < g.base.toNat + g.len.toNat → exec .genLoad s = .next (s.setModel i (m.fail 0))) ∧
     (s.manifestOk base count = true → s.mem.field base 4 ≠ 0 → s.mem.field (base + 4) 2 = i → 0 < count →
      g.base.toNat + g.len.toNat ≤ s.mem.hostTop → m.cur = none → m.old = none →
      exec .genLoad s = .next (s.setModel i { m with
        st := .loading, shard := 0, loadStart := s.now, load := some g
        shards := (List.range count).map (s.mem.shard base), activate := false })) ∧
     (∀ x, s.manifestOk base count = true → s.mem.field base 4 ≠ 0 → s.mem.field (base + 4) 2 = i → 0 < count →
      g.base.toNat + g.len.toNat ≤ s.mem.hostTop → m.cur = some x ∨ m.old = some x → g.overlaps x = true →
      exec .genLoad s = .next (s.setModel i { m with
        st := .waitMemory, shard := 0, loadStart := s.now, load := some g
        shards := (List.range count).map (s.mem.shard base), activate := false }))) ∧
    exec .genActivate s = .next (if m.st = .verified then s.setModel i { m with activate := true } else s) ∧
    exec .genClose s = .next (if m.st = .waitMemory then s.setModel i { m with closeReq := true } else s) ∧
    (m.st = .verified → exec .genCancel s = .next (s.setModel i off)) ∧
    (m.st = .loading ∨ m.st = .waitMemory →
      exec .genCancel s = .next ((m.openRanges.foldl (fun z r => z.writeOpen r.1 r.2) s).setModel i off)) ∧
    (m.st = .none ∨ m.st = .failed → exec .genCancel s = .next s)) ∧
  (∀ (s : State) (slot : BitVec 4) (shard : BitVec 16) (g : GenInfo) (x : ShardInfo),
    let m := s.model slot.toNat
    m.load = some g → m.shards[shard.toNat]? = some x →
    (m.st ≠ .loading ∨ x.done = true → ∀ f, exec (.genShardArrive slot shard f) s = .next s) ∧
    (m.st = .loading → x.done = false → ∀ bs : List Byte, BitVec.ofNat 512 (Config.sha512 bs).toNat ≠ x.hash →
      let z := s.memPut (g.base.toNat + x.offset) (bs.take x.length)
      (x.primary < 3 → exec (.genShardArrive slot shard (.data bs)) s =
        .next (z.setModel slot.toNat (m.setShard shard.toNat { x with primary := x.primary + 1 }))) ∧
      (3 ≤ x.primary → x.replica < 3 → exec (.genShardArrive slot shard (.data bs)) s =
        .next (z.setModel slot.toNat (m.setShard shard.toNat { x with replica := x.replica + 1 }))) ∧
      (3 ≤ x.primary → 3 ≤ x.replica → exec (.genShardArrive slot shard (.data bs)) s =
        .next (z.setModel slot.toNat (m.fail shard.toNat)))) ∧
    (m.st = .loading → x.done = false →
      exec (.genShardArrive slot shard .refused) s = .next (s.setModel slot.toNat (m.fail shard.toNat)) ∧
      (∀ bs : List Byte, BitVec.ofNat 512 (Config.sha512 bs).toNat = x.hash →
        exec (.genShardArrive slot shard (.data bs)) s = .next
          ((s.memPut (g.base.toNat + x.offset) (bs.take x.length)).setModel slot.toNat
            (m.setShard shard.toNat { x with done := true }))) ∧
      (BitVec.ofNat 512 (Config.sha512 (s.mem.readRun (g.base.toNat + x.offset) x.length).1).toNat = x.hash →
        exec (.genShardArrive slot shard .inPlace) s =
          .next (s.setModel slot.toNat (m.setShard shard.toNat { x with done := true }))))) ∧
  (∀ (s : State) (slot : BitVec 4),
    let m := s.model slot.toNat
    let due := (m.st = .loading ∨ m.st = .waitMemory) ∧ m.loadStart + m.timeout.toNat * 1000000 ≤ s.now
    exec (.genTimeoutExpire slot) s = .next
      (if due then s.setModel slot.toNat (m.fail (m.shards.findIdx fun x => !x.done)) else s))

/-- The input, PWR_EN and the main rails: what each edge changes; the trip and its release; the lasers of a bay
(21_electrical_mechanical.mdR611, 21_electrical_mechanical.mdR612, 21_electrical_mechanical.mdR614,
21_electrical_mechanical.mdR616, 21_electrical_mechanical.mdR617, 16_power_wake.mdR523,
21_electrical_mechanical.mdR609, 12_thatre_fabric.mdR374). -/
def Obligations.PowerComesUpAndGoesDown : Prop :=
  (∀ (s : State) (slot : BitVec 4), exec (.powerOn slot) s = .next (if s.power.alwaysOn then s else
    { s with power := { s.power with alwaysOn := true, slotId := slot } })) ∧
  (∀ s : State,
    (s.power.alwaysOn = false → exec .inputUndervoltage s = .next s) ∧
    (s.power.alwaysOn = true → ∃ t, exec .inputUndervoltage s = .next t ∧ t.power.alwaysOn = false ∧ t.power.rails = false ∧
      t.power.pwrGood = false ∧ t.alertN = false ∧ t.fab = Fabric.reset ∧ t.parts = [] ∧ t.ctxs = [] ∧ t.fuse = s.fuse ∧
      t.power.pwrEn = s.power.pwrEn) ∧
    (s.power.alwaysOn = true → s.power.ovp = false → s.power.tripped = false → exec .overvoltageCutoff s = .next
      ({ s with power := { s.power with ovp := true, ovpSeen := true } }.enterW5.hwSet 0x001_0080 2)) ∧
    (s.power.alwaysOn = true → s.power.ovp = false → s.power.tripped = true → exec .overvoltageCutoff s = .next
      ({ s with power := { s.power with ovp := true, ovpSeen := true } }.hwSet 0x001_0080 2)) ∧
    (s.power.alwaysOn = false ∨ s.power.ovp = true → exec .overvoltageCutoff s = .next s) ∧
    (s.power.ovp = true → exec .overvoltageRecover s = .next { s with power := { s.power with ovp := false } }.wake) ∧
    (s.power.ovp = false → exec .overvoltageRecover s = .next s) ∧
    (∀ cool, s.power.alwaysOn = true → s.power.pwrEn = false → exec (.pwrEnRise cool) s = .next
      { s with power := { s.power with
        pwrEn := true, pwrEnAt := s.now, tripped := s.power.tripped && (s.power.tripPin || !cool) } }.wake) ∧
    (s.power.alwaysOn = true → s.power.pwrEn = true → s.power.tripped = true → s.power.tripPin = false →
      exec (.pwrEnRise true) s = .next { s with power := { s.power with tripped := false } }.wake) ∧
    (∀ cool, s.power.alwaysOn = false ∨ s.power.pwrEn = true ∧ (s.power.tripped = false ∨ s.power.tripPin = true ∨ cool = false) →
      exec (.pwrEnRise cool) s = .next s) ∧
    (s.power.alwaysOn = true → s.power.pwrEn = true → s.power.tripped = true → exec .pwrEnFall s = .next
      { s with power := { s.power with pwrEn := false, pwrEnAt := s.now } }) ∧
    (s.power.alwaysOn = false ∨ s.power.pwrEn = false → exec .pwrEnFall s = .next s) ∧
    (s.power.alwaysOn = true → s.power.pwrEn = true → s.power.tripped = false → exec .pwrEnFall s = .next
      ({ s with power := { s.power with pwrEn := false, pwrEnAt := s.now } }.endAllEntries).enterW5) ∧
    (s.power.rails = false → s.power.st = .w5 → s.power.exiting = true → s.power.pwrGood = false →
      exec .mainRailsInRegulation s = .next
        ({ s with power := { s.power with rails := true, pwrGood := true } }.emit (.pin "PWR_GOOD" true))) ∧
    (s.power.pwrGood = true → exec .mainRailOutOfRegulation s = .next
      ({ s with power := { s.power with pwrGood := false } }.emit (.pin "PWR_GOOD" false))) ∧
    (s.enterW5.power.st = .w5 ∧ s.enterW5.power.rails = false ∧ s.enterW5.power.pwrGood = false ∧ s.enterW5.parts = [] ∧
      s.enterW5.time = s.time ∧ s.enterW5.fuse = s.fuse)) ∧
  (∀ (s : State) (die : BitVec 5),
    (s.power.tripPin = true ∨ s.power.alwaysOn = false → exec (.thermalTrip die) s = .next s) ∧
    (s.power.alwaysOn = true → s.power.tripPin = false → die.toNat < 20 → ∃ t, exec (.thermalTrip die) s = .next t ∧
      t.power.tripped = true ∧ t.power.tripPin = true ∧ t.power.tripSeen = true ∧ t.power.tripDie = die ∧ t.power.st = .w5 ∧ t.power.rails = false ∧
      t.fab = Fabric.reset ∧ .pin "THERM_TRIP_N" true ∈ t.out)) ∧
  (∀ s : State,
    (s.power.tripPin = true → s.power.pwrEn = false → s.power.pwrEnAt + 500000000 ≤ s.now → exec .thermTripNRelease s = .next
      ({ s with power := { s.power with tripPin := false } }.emit (.pin "THERM_TRIP_N" false))) ∧
    (s.power.pwrEn = true → exec .thermTripNRelease s = .next s)) ∧
  (∀ (s : State) (bay spares : BitVec 2) (l : BitVec 4),
    ((s.bay bay.toNat).latched = false → exec (.laserBayOpen bay) s = .next s ∧ exec (.laserSourceInsert bay spares) s = .next
      (s.setBay bay.toNat { latched := true, on := true, spares := min 2 spares.toNat, lost := 0, failed := 0 })) ∧
    ((s.bay bay.toNat).latched = true → exec (.laserSourceInsert bay spares) s = .next s ∧
      exec (.laserBayOpen bay) s = .next ((List.range 8).foldl (fun z p =>
        z.atPort (8 * bay.toNat + p) fun z => z.linkLoss (8 * bay.toNat + p) 0)
        (s.setBay bay.toNat { s.bay bay.toNat with latched := false, on := false }))) ∧
    (s.laserPlace bay.toNat l.toNat = none ∨ (s.bay bay.toNat).on = false ∨ (s.bay bay.toNat).failed.getLsbD l.toNat = true →
      exec (.laserFail bay l) s = .next s) ∧
    (∀ k, s.laserPlace bay.toNat l.toNat = some k → (s.bay bay.toNat).on = true → (s.bay bay.toNat).failed.getLsbD l.toNat = false →
      let e := bay.toNat
      let b := s.bay e
      let bit : BitVec 10 := BitVec.ofNat 10 (2 ^ l.toNat)
      let src := srcNo (14 + e) (0x200 + l.toNat)
      let s1 := (laserLanes e k).foldl (fun z x => laneRetire x.1 x.2 z) s
      let w : BitVec 4 := BitVec.ofNat 4 (2 ^ (k % 4))
      (∀ x, b.spares ≠ 0 → [8, 9].find? (fun x => !(b.failed ||| bit).getLsbD x && (s.laserPlace e x).isNone) = some x →
        exec (.laserFail bay l) s = .next (((((s1.setBay e { b with failed := b.failed ||| bit, spares := b.spares - 1 }).spare
          (14 + e) .lasers src (b.spares - 1)).otp fun o => { o with lasers := smapUpd 0 o.lasers e fun n => min 2 (n + 1) })).commitWords
            [(laserOffset e, setNibble (s.crust.read (laserOffset e)) k x)])) ∧
      (b.spares = 0 → exec (.laserFail bay l) s = .next (((s1.setBay e { b with
        failed := b.failed ||| bit, lost := b.lost ||| w }).spare (14 + e) .lasers src 0 (16 + k % 4)).otp fun o =>
          { o with waves := smapUpd 0 o.waves e (· ||| w) }))))

/-- Droops stretch, heat and a low input step ACLK down, a bin is judged, a band is applied or refused, the forecast page
flips; a link retries or is lost (01_module.mdR33, 16_power_wake.mdR509, 16_power_wake.mdR510, 16_power_wake.mdR511,
16_power_wake.mdR516, 16_power_wake.mdR517, 16_power_wake.mdR518, 16_power_wake.mdR519, 16_power_wake.mdR529,
01_module.mdR27, 14_faults_spares.mdR475, 14_faults_spares.mdR477). -/
def Obligations.ClocksFollowDroopsHeatAndPower : Prop :=
  (∀ (s : State) (die : DieNo),
    let x := s.die die.toNat
    (x.droop = true ∨ s.power.rails = false → exec (.supplyDroop die) s = .next s) ∧
    (x.droop = false → s.power.rails = true → s.aclkRuns = false →
      exec (.supplyDroop die) s = .next (s.setDie die.toNat { x with droop := true })) ∧
    (x.droop = false → s.power.rails = true → s.aclkRuns = true → exec (.supplyDroop die) s = .next
      ((s.setDie die.toNat { x with droop := true, stretching := true, stretchSeen := true }).hwSet (0x001_0100 + 4 * die.toNat) 0x2_0000)) ∧
    exec (.droopClear die) s = .next (s.setDie die.toNat { x with droop := false }) ∧
    (s.aclkRuns = false ∨ x.nextMhz < 605 → exec (.thermalStepDown die) s = .next s) ∧
    (s.aclkRuns = true → 605 ≤ x.nextMhz →
      let low := s.setDie die.toNat { x with nextMhz := x.nextMhz - 55, thermal := true }
      (s.power.floorMhz ≤ x.nextMhz - 55 → exec (.thermalStepDown die) s = .next low) ∧
      (x.nextMhz - 55 < s.power.floorMhz →
        let t := { low with power := { s.power with thermBelow := true } }.hwSet 0x001_0040 0x20
        exec (.thermalStepDown die) s = .next (if s.power.alertEn then t.alert else t)))) ∧
  (∀ (s : State) (mv current : BitVec 16) (steps : AclkSteps),
    (s.power.band.vinMin ≤ mv → exec (.vinBelowMin mv current steps) s = .next s) ∧
    (s.power.alwaysOn = true → mv < s.power.band.vinMin → s.aclkRuns = false → s.power.alertEn = false →
      exec (.vinBelowMin mv current steps) s = .next
        ({ s with power := { s.power with vinMv := mv, current := current, vinLow := true } }.hwSet 0x001_0040 0x10)) ∧
    (s.power.alwaysOn = true → mv < s.power.band.vinMin → s.aclkRuns = true → s.power.alertEn = false →
      exec (.vinBelowMin mv current steps) s = .next
        (({ s with power := { s.power with vinMv := mv, current := current, vinLow := true } }.lowerAclk steps).hwSet 0x001_0040 0x10))) ∧
  (∀ (s : State) (draw ballast : BitVec 14) (steps : AclkSteps),
    (s.now < s.power.binNext → s.power.binCut = false → exec (.powerBinEnd draw ballast steps) s = .next s) ∧
    (s.power.alwaysOn = true → s.power.binNext ≤ s.now ∨ s.power.binCut = true →
      let p := s.power
      let ceil := decide (p.cEff < draw.toNat)
      let ramp := p.binSeen && decide (p.band.ramp.toNat < max (draw.toNat - p.draw) (p.draw - draw.toNat))
      let short := p.st == .w0 && decide (draw.toNat < p.band.floor.toNat)
      ∃ t, exec (.powerBinEnd draw ballast steps) s = .next t ∧ t.power.draw = draw.toNat ∧ t.power.ballast = ballast.toNat ∧
        t.power.ceilExceed = (p.ceilExceed || ceil) ∧ t.power.rampExceed = (p.rampExceed || ramp) ∧
        t.power.floorShort = (p.floorShort || short) ∧ t.power.binSeen = true ∧
        t.power.binMiss = (if ceil || ramp || short then satAdd32 p.binMiss 1 else p.binMiss) ∧
        t = { s with power := t.power, dies := t.dies, alertN := t.alertN, out := t.out, host := t.host, sets := t.sets } ∧
        (p.binCut = true → t.power.binNext = p.binNext ∧ t.power.binCut = false ∧ t.dies = s.dies))) ∧
  (∀ s : State, s.power.alwaysOn = true →
    let band := fun (force : Bool) => if s.power.staged.bad then { s with power := { s.power with bad := true } }.hwSet 0x001_0034 1
      else { s with power := { s.power with apply := some (s.power.staged, force) } }
    exec .pwrBandApply s = .next (band false) ∧ exec .pwrBandForce s = .next (band true)) ∧
  (∀ (s : State) (bins : List Word),
    (s.now < s.power.fcNext → exec (.forecastPublish bins) s = .next s) ∧
    (s.power.alwaysOn = true → s.power.fcNext ≤ s.now → s.power.fcastIbi = false → ∃ t,
      exec (.forecastPublish bins) s = .next t ∧ t = { s with power := t.power } ∧ t.power.fcCur = !s.power.fcCur ∧
      t.power.fcSeq = (s.power.fcSeq + 1) % 2 ^ 32 ∧
      (s.power.fcCur = false → t.power.page0 = s.power.page0) ∧ (s.power.fcCur = true → t.power.page1 = s.power.page1))) ∧
  (∀ (s : State) (src : SrcNo),
    let l := smapGet DieLink.reset s.links src.toNat
    (linkPeer src.toNat = none → exec (.dieLinkRetry src) s = .next s ∧ exec (.dieLinkLaneRepair src) s = .next s ∧
      exec (.dieLinkRetrainTimeout src) s = .next s) ∧
    (linkPeer src.toNat ≠ none → UnitsOk s →
      let put := fun (x : DieLink) => ({ s with links := smapSet DieLink.reset s.links src.toNat x } : State)
      exec (.dieLinkRetry src) s = .next (((put { l with retries := satAdd64 l.retries 1 }).countLinks src.toNat 1 0).eventAgg
        src.toNat 0x0501) ∧
      exec (.dieLinkLaneRepair src) s = .next (((put { l with lanes := satAdd64 l.lanes 1 }).countLinks src.toNat 0 1).spare (src.toNat / 2048) .dieLanes src.toNat
          (satAdd64 l.lanes 1))) ∧
    (∀ peer, linkPeer src.toNat = some peer →
      let mark := fun (z : State) (x : Nat) => (z.updLink x fun l => { l with lost := true }).spare (x / 2048) .dieLanes x 0
      exec (.dieLinkRetrainTimeout src) s = .next ((mark (mark s src.toNat) peer).linkGone src.toNat peer)))

/-- W_STATE_ENTER takes the deepest state that idle time and tolerance allow; a wake event starts the exit to W0, and its
end is W0 (16_power_wake.mdR521, 16_power_wake.mdR522, 16_power_wake.mdR523, 16_power_wake.mdR524,
16_power_wake.mdR525, 16_power_wake.mdR528, 17_host_pcie.mdR546). -/
def Obligations.WakeStatesAreEnteredAndLeft : Prop :=
  (∀ s : State,
    (s.power.idleFrom = none ∨ s.power.exiting = true ∨ s.idle = false → exec .wStateEnter s = .next s) ∧
    (∀ t, s.power.idleFrom = some t → s.power.exiting = false → s.idle = true →
      (s.power.deepest (s.now - t) = some .w5 → s.power.st ≠ .w5 → exec .wStateEnter s = .next s.enterW5) ∧
      (s.power.deepest (s.now - t) = some .w1 → s.power.st = .w0 → exec .wStateEnter s = .next (s.setW .w1)) ∧
      (s.power.deepest (s.now - t) = some .w2 → s.power.st = .w0 ∨ s.power.st = .w1 → exec .wStateEnter s =
        .next ((s.updAllCores Core.gated).setW .w2)) ∧
      (∀ w, w = .w3 ∨ w = .w4 → s.power.deepest (s.now - t) = some w → s.power.st = .w0 ∨ s.power.st = .w1 ∨ s.power.st = .w2 →
        exec .wStateEnter s = .next (s.enterW3.setW w)) ∧
      (s.power.deepest (s.now - t) = some .w4 → s.power.st = .w3 → exec .wStateEnter s = .next (s.setW .w4)) ∧
      (s.power.deepest (s.now - t) = some .w1 → s.power.st ≠ .w0 → exec .wStateEnter s = .next s) ∧
      (s.power.deepest (s.now - t) = none → exec .wStateEnter s = .next s)) ∧
    (s.power.exiting = false → exec .wStateExitDone s = .next s) ∧
    (∀ w : WState, s.host.gen = 0 → s.setW w = { s with power := { s.power with st := w, target := w, exiting := false } }) ∧
    (∀ w : WState, s.host.gen ≠ 0 → s.power.st ≠ w → s.setW w = { s with power := { s.power with st := w, target := w, exiting := false } }.emit
      (Output.ltr (if w = WState.w0 ∨ w = WState.w1 then some (s.host.ltrValue.toNat, s.host.ltrScale.toNat) else none))) ∧
    (s.power.exiting = true →
      (s.power.st = .w1 ∨ s.power.st = .w2 → exec .wStateExitDone s = .next (s.setW .w0)) ∧
      (s.power.st = .w3 ∨ s.power.st = .w4 → exec .wStateExitDone s = .next (s.leaveW3.setW .w0)) ∧
      (s.power.st = .w5 → s.power.rails = true → s.mayLeaveW5 = true →
        exec .wStateExitDone s = .next (s.leaveW5.setW .w0).enableScanner))) ∧
  (∀ s : State,
    let woken := { s with power := { s.power with exiting := true, target := .w0 }, host := { s.host with l0p := false } }
    let wakes := s.power.st ≠ .w0 ∧ s.power.alwaysOn = true ∧ (s.power.st = .w5 → s.mayLeaveW5 = true)
    (wakes → exec .wakeEvent s = .next woken ∧ (HostReaches s 0x001_0008 → exec .pwrCtrlWake s = .next woken)) ∧
    (¬wakes → exec .wakeEvent s = .next s ∧ (HostReaches s 0x001_0008 → exec .pwrCtrlWake s = .next s)) ∧
    (∀ v : Word, HostReaches s 0x001_0004 → s.power.alwaysOn = true →
      (s.power.st.latency ≤ v.toNat → exec (.pwrWakeTolWrite v) s = .next { s with power := { s.power with wakeTol := v } }) ∧
      (v.toNat < s.power.st.latency → exec (.pwrWakeTolWrite v) s =
        .next ({ s with power := { s.power with wakeTol := v } }.wake)))) ∧
  (∀ (p : Power) (idle : Nat) (w : WState), p.allows idle w = true ↔ w.dwell ≤ idle ∧ w.latency ≤ p.wakeTol.toNat ∧
    (w = .w3 ∨ w = .w4 → p.w3Save ≠ 0) ∧ (w = .w5 → p.allowW5 = true)) ∧
  (WState.latency .w1, WState.latency .w2, WState.latency .w3, WState.latency .w4, WState.latency .w5) =
    (2, 60, 1800, 9000, 400000)

/-- PERST_N, link training, link loss, replays, L0p, configuration writes and function level resets (17_host_pcie.mdR530,
17_host_pcie.mdR531, 17_host_pcie.mdR534, 17_host_pcie.mdR536, 17_host_pcie.mdR545, 17_host_pcie.mdR546,
17_host_pcie.mdR548, 17_host_pcie.mdR549). -/
def Obligations.HostLinkComesAndGoes : Prop :=
  (∀ s : State,
    (s.host.perst = true → exec .perstNAssert s = .next s) ∧
    (s.host.perst = false → exec .perstNAssert s = .next
      (let z := s.failReads .cplTimeout
       { z with host := { z.host.controllerReset with perst := true } })) ∧
    (s.host.reads = [] → ∀ e, s.failReads e = s) ∧
    (let h := s.host.controllerReset
     h.gen = 0 ∧ h.width = 0 ∧ h.fns = [] ∧ h.vfEnable = false ∧ h.doe = false ∧ h.aer = [] ∧ h.bar2Log = 11 ∧ h.vfBar2Log = 0 ∧
       h.evtVec = s.host.evtVec ∧ h.cplTo = s.host.cplTo ∧ h.bar2Off = s.host.bar2Off ∧ h.replayCnt = s.host.replayCnt) ∧
    (s.host.perst = false → exec .perstNDeassert s = .next s) ∧
    (s.host.perst = true → exec .perstNDeassert s = .next { s with host := { s.host with perst := false }, bs := { s.bs with paused := true } }) ∧
    (s.host.gen = 0 → exec .pcieLinkDown s = .next s ∧ exec .pcieReplay s = .next s) ∧
    (s.host.gen ≠ 0 → exec .pcieLinkDown s = .next
      (let z := s.failReads .surpriseDown
       { z with host := { z.host with
        gen := 0, width := 0, flit := false, l0p := false, aer := z.host.aer ++ [(0, .surpriseDown)] } })) ∧
    (s.host.gen ≠ 0 → exec .pcieReplay s = .next { s with host :=
      { s.host with replayCnt := satAdd32 s.host.replayCnt 1, aer := s.host.aer ++ [(0, .replay)] } }) ∧
    (s.linkUp = true → exec .pfFlr s = .next { s with
      host := { s.host with vfEnable := false, fns := [], bar2Log := 11, vfBar2Log := 0, maxPayload := 0, relaxed := true, doe := false }
      bs := { s.bs with paused := true } }) ∧
    (s.linkUp = false → exec .pfFlr s = .next s)) ∧
  (∀ (s : State) (lanes : BitVec 5),
    (s.portLive = true → s.host.gen = 0 → lanes.toNat < 4 →
      exec (.pcieTrainRetry lanes) s = .next (s.event (srcHub 0x040) 0x0505 (detail3 lanes.toNat 0 0))) ∧
    (4 ≤ lanes.toNat → exec (.pcieTrainRetry lanes) s = .next s)) ∧
  (∀ (s : State) (gen : BitVec 3) (width : BitVec 5) (flit : Bool),
    (s.portLive = true → linkModeOk gen width flit = true → exec (.pcieLinkUp gen width flit) s =
      .next { s with host := { s.host with gen := gen, width := width, flit := flit, l0p := false, trained := true } }) ∧
    (s.portLive = false ∨ linkModeOk gen width flit = false → exec (.pcieLinkUp gen width flit) s = .next s)) ∧
  (∀ (s : State) (b : Bool), exec (.l0pRequest b) s = .next (if s.linkUp then { s with host := { s.host with l0p := b } } else s)) ∧
  (∀ (s : State) (fn : BitVec 5) (c : CfgWrite),
    let n := fn.toNat
    let f := s.fn n
    (s.linkUp = false ∨ s.fnHere n = false → exec (.pcieConfigWrite fn c) s = .next s) ∧
    (s.linkUp = true → s.fnHere n = true →
      (∀ b, exec (.pcieConfigWrite fn (.mse b)) s = .next (s.setFn n { f with mse := b })) ∧
      (∀ b, exec (.pcieConfigWrite fn (.msixEnable b)) s = .next (s.setFn n { f with msixEn := b })) ∧
      (∀ b, s.power.wakeN = false → exec (.pcieConfigWrite fn (.d3hot b)) s = .next (s.setFn n { f with d3hot := b })) ∧
      (∀ b, n ≠ 0 → exec (.pcieConfigWrite fn (.bme b)) s = .next (s.setFn n { f with bme := b })) ∧
      (n = 0 → UnitsOk s → s.power.wakeN = false → exec (.pcieConfigWrite fn (.bme true)) s = .next
        { s.setFn 0 { f with bme := true } with bs := { s.bs with paused := false }
                                                parts := s.parts.map fun e => (e.1, { e.2 with perstHold := false }) }) ∧
      (n = 0 → UnitsOk s → s.power.wakeN = false → exec (.pcieConfigWrite fn (.bme false)) s = .next (s.setFn 0 { f with bme := false })) ∧
      (n = 0 → s.power.wakeN = true → f.d3hot = false → UnitsOk s → ∃ t, exec (.pcieConfigWrite fn (.bme true)) s = .next t ∧
        t.power.wakeN = false ∧ t.out = s.out ++ [.pin "WAKE_N" false] ∧ (t.fn 0).bme = true ∧ t.bs.paused = false) ∧
      (∀ b, n = 0 → exec (.pcieConfigWrite fn (.vfEnable b)) s = .next { s with host := { s.host with
        vfEnable := b, fns := if b then s.host.fns else s.host.fns.filter fun e => e.1 == 0 } }) ∧
      (∀ b, exec (.pcieConfigWrite fn (.barSize b)) s =
        .next (if n = 0 ∧ b.toNat ≤ 11 then { s with host := { s.host with bar2Log := b } } else s)) ∧
      (∀ b, exec (.pcieConfigWrite fn (.vfBarSize b)) s =
        .next (if n = 0 ∧ b.toNat ≤ 8 then { s with host := { s.host with vfBar2Log := b } } else s)) ∧
      (∀ b, exec (.pcieConfigWrite fn (.maxPayload b)) s =
        .next (if n = 0 ∧ b.toNat ≤ 2 then { s with host := { s.host with maxPayload := b } } else s)) ∧
      (∀ b, exec (.pcieConfigWrite fn (.relaxed b)) s = .next (if n = 0 then { s with host := { s.host with relaxed := b } } else s)))) ∧
  (∀ (s : State) (vf : BitVec 4), s.linkUp = true → s.host.vfEnable = true →
    exec (.vfFlr vf) s = .next (partitionReset vf.toNat (s.setFn (vf.toNat + 1) .reset))) ∧
  (∀ (s : State) (vf : BitVec 4), s.host.vfEnable = false ∨ s.linkUp = false → exec (.vfFlr vf) s = .next s)

/-- BAR2 reads and writes reach memory or are Unsupported Requests; completions, time limits and pending messages of the
module's own requests (11_memory.mdR350, 17_host_pcie.mdR538, 17_host_pcie.mdR539, 17_host_pcie.mdR541,
17_host_pcie.mdR544, 17_host_pcie.mdR545). -/
def Obligations.HostMemoryAccessAndInterrupts : Prop :=
  (∀ (s : State) (fn : BitVec 5) (off : DWord) (len : BitVec 13),
    let n := fn.toNat
    let a := s.barLocal n off.toNat
    (s.linkUp = false ∨ s.fnHere n = false ∨ len = 0 → exec (.bar2Read fn off len) s = .next s) ∧ (
    s.linkUp = true → s.fnHere n = true → len ≠ 0 →
    (s.power.st = .w4 → s.barServed = true → off.toNat + len.toNat ≤ s.barSize n → a + len.toNat ≤ s.mem.top →
      (∀ i < len.toNat, s.vfReach n (a + i) = true) → exec (.bar2Read fn off len) s = .next { s.wake with
        reply := some (.bytes ((List.range len.toNat).map fun i => s.mem.read (a + i)) (s.mem.readRun a len.toNat).2) }) ∧ (s.power.st ≠ .w4 →
    (s.barServed = true → off.toNat + len.toNat ≤ s.barSize n → a + len.toNat ≤ s.mem.top →
      (∀ i < len.toNat, s.vfReach n (a + i) = true) → exec (.bar2Read fn off len) s = .next
        { s with reply := some (.bytes ((List.range len.toNat).map fun i => s.mem.read (a + i)) (s.mem.readRun a len.toNat).2) }) ∧
    (s.barServed = false ∨ s.barSize n < off.toNat + len.toNat ∨ s.mem.top < a + len.toNat ∨
        (∃ i < len.toNat, s.vfReach n (a + i) = false) →
      exec (.bar2Read fn off len) s = .next { s with
        host := { s.host with aer := s.host.aer ++ [(n, .unsupported)] }, reply := some .unsupported })))) ∧
  (∀ (s : State) (fn : BitVec 5) (off : DWord) (bytes : List Byte),
    let n := fn.toNat
    let a := s.barLocal n off.toNat
    s.linkUp = true → s.fnHere n = true → s.power.st ≠ .w4 →
    (s.barServed = true → off.toNat + bytes.length ≤ s.barSize n → ∃ t, exec (.bar2Write fn off bytes false) s = .next t ∧
      t = { s with mem := t.mem, log := t.log, ledger := t.ledger } ∧
      t.mem = s.mem.write a ((bytes.zipIdx a).map fun e => if e.2 < s.mem.hostTop ∧ s.vfReach n e.2 then some e.1 else none) false ∧
      (MemOk s → ∀ x : Nat, x < a ∨ a + bytes.length ≤ x ∨ s.mem.hostTop ≤ x ∨ s.vfReach n x = false →
        t.mem.read x = s.mem.read x)) ∧
    (s.barServed = false ∨ s.barSize n < off.toNat + bytes.length → exec (.bar2Write fn off bytes false) s = .next
      { s with host := { s.host with aer := s.host.aer ++ [(n, .unsupported)] } })) ∧
  (∀ (s : State) (tag : Word),
    (s.host.reads.find? (fun r => r.tag == tag.toNat) = none →
      (∀ r, exec (.hostCompletionReceive tag r) s = .next s) ∧ exec (.pcieCplTimeout tag) s = .next s) ∧
    (∀ r, s.host.reads.find? (fun r => r.tag == tag.toNat) = some r →
      (s.now < r.sent + s.host.cplTo.toNat * 1000 → exec (.pcieCplTimeout tag) s = .next s) ∧
      (r.sent + s.host.cplTo.toNat * 1000 ≤ s.now → exec (.pcieCplTimeout tag) s = .next (s.failRead r .cplTimeout)) ∧
      exec (.hostCompletionReceive tag .abort) s = .next (s.failRead r .cplError) ∧
      exec (.hostCompletionReceive tag .unsupported) s = .next (s.failRead r .cplError) ∧
      (∀ bytes ep, bytes = [] ∨ r.len - r.got < bytes.length → exec (.hostCompletionReceive tag (.data bytes ep)) s = .next s) ∧
      (∀ d e k x off, ∀ bytes : List Byte, r.issuer = .peelRead d e k x off → bytes ≠ [] → r.got + bytes.length < r.len →
        exec (.hostCompletionReceive tag (.data bytes false)) s = .next
          ({ s with host := { s.host with reads := s.host.reads.map fun (q : HostRead) =>
            if q.tag = tag.toNat then { q with got := r.got + bytes.length } else q } }.bringData d e k x (off + r.got) bytes false)) ∧
      (∀ d e k x off, ∀ bytes : List Byte, r.issuer = .peelRead d e k x off → bytes ≠ [] → r.got + bytes.length = r.len →
        exec (.hostCompletionReceive tag (.data bytes true)) s = .next ({ s with host := { s.host with
          reads := s.host.reads.filter fun q => q.tag != tag.toNat, aer := s.host.aer ++ [(r.fn, AerErr.poisoned)] } }.bringData
            d e k x (off + r.got) bytes true)) ∧
      (∀ d e k x off, ∀ bytes : List Byte, r.issuer = .peelRead d e k x off → bytes ≠ [] → r.got + bytes.length = r.len →
        exec (.hostCompletionReceive tag (.data bytes false)) s = .next
          ({ s with host := { s.host with reads := s.host.reads.filter fun q => q.tag != tag.toNat } }.bringData
            d e k x (off + r.got) bytes false)))) ∧
  (∀ (s : State) (fn : BitVec 5) (v : BitVec 11),
    let f := s.fn fn.toNat
    (s.linkUp = true → v.toNat ∈ f.pend → f.deliverable v.toNat = true → exec (.msixDeliverable fn v) s = .next
      ((s.setFn fn.toNat { f with pend := natSetErase f.pend v.toNat }).emit (.msix fn.toNat v.toNat))) ∧
    (s.linkUp = false ∨ v.toNat ∉ f.pend ∨ f.deliverable v.toNat = false → exec (.msixDeliverable fn v) s = .next s))

/-- The Starter ROM runs an image that passes its checks and opens recovery otherwise; mailbox commands, SVN commit, debug
unlock and attestation (18_security.mdR557, 18_security.mdR558, 18_security.mdR559, 18_security.mdR560,
18_security.mdR562, 18_security.mdR569, 18_security.mdR570, 18_security.mdR572, 18_security.mdR573,
18_security.mdR574, 18_security.mdR567, 17_host_pcie.mdR547). -/
def Obligations.FirmwareKeysDebugAndAttestation : Prop :=
  (∀ s : State,
    (s.power.alwaysOn = true → s.sec.boot = 0 →
      (imageError s.fuse s.flashByte = 0 → exec .starterRomBoot s = .next (s.startImage s.flashByte)) ∧
      (∀ e, imageError s.fuse s.flashByte = e → e ≠ 0 → exec .starterRomBoot s = .next
        { s with sec := { s.sec with boot := 2, error := BitVec.ofNat 4 e } })) ∧
    (s.sec.boot ≠ 0 → exec .starterRomBoot s = .next s)) ∧
  (∀ s : State, HostReaches s 0x004_0010 → s.power.alwaysOn = true → s.sec.busy = false →
    (s.sec.boot ≠ 1 → exec .fwUpdate s = .next (s.mbxEnd 0x01 9) ∧ exec .dbgNonce s = .next (s.mbxEnd 0x20 9) ∧
      exec .dbgUnlock s = .next (s.mbxEnd 0x21 9) ∧ ∀ k, exec (.pubSet k) s = .next (s.mbxEnd 0x10 9) ∧
      exec (.pubClear k) s = .next (s.mbxEnd 0x11 9)) ∧
    (s.sec.boot ≠ 2 → exec .recoveryChunk s = .next (s.mbxEnd 0x02 9) ∧ exec .recoveryDone s = .next (s.mbxEnd 0x03 9)) ∧
    (s.sec.boot = 2 →
      (s.sec.len.toNat ≤ 32768 → s.sec.addr.toNat % 32768 = 0 → s.sec.addr.toNat + s.sec.len.toNat ≤ 16 * 2 ^ 20 →
        exec .recoveryChunk s = .next ((s.flashWrite s.sec.addr.toNat
          ((List.range s.sec.len.toNat).map fun i => smapGet 0 s.sec.buf i)).mbxEnd 0x02 0)) ∧
      (∀ e, imageError s.fuse s.flashByte = e → e ≠ 0 → exec .recoveryDone s = .next
        ({ s with sec := { s.sec with boot := 2, error := BitVec.ofNat 4 e } }.mbxEnd 0x03 e)) ∧
      (32768 < s.sec.len.toNat ∨ s.sec.addr.toNat % 32768 ≠ 0 ∨ 16 * 2 ^ 20 < s.sec.addr.toNat + s.sec.len.toNat →
        exec .recoveryChunk s = .next (s.mbxEnd 0x02 6)) ∧
      (imageError s.fuse s.flashByte = 0 → exec .recoveryDone s = .next ((s.startImage s.flashByte).mbxEnd 0x03 0))) ∧
    (s.sec.boot = 1 →
      (let rd := fun i => if i < s.sec.len.toNat then s.mbxByte i else 0
       s.mbxInside s.sec.len.toNat = true → 8192 + bodyLen rd ≤ s.sec.len.toNat → imageError s.fuse rd = 0 →
        exec .fwUpdate s = .next ((s.flashWrite 0 (bytesFrom rd 0 (8192 + bodyLen rd))).mbxEnd 0x01 0)) ∧
      (∀ k, s.sec.pubLocked = false → s.mbxInside 1984 = true → exec (.pubSet k) s = .next
        (({ s with sec := { s.sec with slot := k, pubs := smapSet none s.sec.pubs k.toNat (some (bytesFrom s.mbxByte 0 1984)) } }).mbxEnd 0x10 0)) ∧
      (∀ k, s.sec.pubLocked = false → exec (.pubClear k) s = .next
        (({ s with sec := { s.sec with slot := k, pubs := smapSet none s.sec.pubs k.toNat none } }).mbxEnd 0x11 0)) ∧
      (∀ k, s.sec.pubLocked = true → exec (.pubSet k) s = .next ({ s with sec := { s.sec with slot := k } }.mbxEnd 0x10 9)) ∧
      (∃ nonce : List Byte, nonce.length = 32 ∧ exec .dbgNonce s = .next (({ s with
        free := s.free + 1
        sec := { s.sec with nonce := some (nonce, s.now), buf := smapSetRun 0 s.sec.buf 0 nonce } }).mbxEnd 0x20 0)) ∧
      (s.tokenError ≠ 0 → exec .dbgUnlock s = .next ({ s with sec := { s.sec with nonce := none } }.mbxEnd 0x21 s.tokenError)) ∧
      (s.tokenError = 0 → ∃ t, exec .dbgUnlock s = .next t ∧ t = { s with sec := t.sec, sets := t.sets } ∧ t.sec.debug = true ∧
        t.sec.debugSeen = true ∧ t.sec.nonce = none ∧ t.sec.done = true ∧ t.sec.error = 0))) ∧
  (∀ s : State, HostReaches s 0x004_0004 → s.power.alwaysOn = true →
    (s.sec.boot = 1 → s.fuse.svn < s.sec.svnTarget → exec .svnCommit s = .next { s with fuse :=
      { s.fuse with svn := min 64 s.sec.svnTarget, revoked := s.fuse.revoked ||| s.sec.revokeTarget } }) ∧
    (s.sec.svnTarget ≤ s.fuse.svn → exec .svnCommit s = .next s) ∧
    exec .pubLock s = .next { s with sec := { s.sec with pubLocked := true } } ∧
    exec .fwActivate s = .next s.managementReset ∧ exec .dbgRelock s = .next s.endDebug) ∧
  (∀ s : State, s.endDebug.sec.debug = false ∧ s.endDebug.sec.scopes = 0 ∧ s.endDebug.sec.debugSeen = s.sec.debugSeen) ∧
  (∀ (s : State) (code : Byte) (body nonce : List Byte),
    (s.answers = false → exec (.spdmRequest code body) s = .next s ∧ exec (.spdmVendorReport nonce) s = .next s) ∧
    (s.answers = true →
      (nonce.length = 32 → exec (.spdmVendorReport nonce) s = .next (s.doeAnswer 0x7E (some (s.report nonce)))) ∧
      (spdmAnswer code.toNat = none → exec (.spdmRequest code body) s = .next (s.doeAnswer spdmError none)) ∧
      (nonce.length ≠ 32 → exec (.spdmVendorReport nonce) s = .next (s.doeAnswer spdmError none)) ∧
      (spdmAnswer code.toNat ≠ none → s.spdmBody code body = none → exec (.spdmRequest code body) s = .next (s.doeAnswer spdmError none)) ∧
      (∀ a bs, spdmAnswer code.toNat = some a → s.spdmBody code body = some bs → code ≠ 0xE4 → code ≠ 0xEC →
        exec (.spdmRequest code body) s = .next (s.doeAnswer a bs)) ∧
      exec (.spdmRequest 0xE4 body) s = .next ({ s with sec := { s.sec with session := true } }.doeAnswer 0x64 none) ∧
      exec (.spdmRequest 0xEC body) s = .next ({ s with sec := { s.sec with session := false } }.doeAnswer 0x6C none) ∧
      exec (.spdmRequest 0x81 body) s = .next (s.doeAnswer 0x01 (some (digestBytes (Config.sha512 (s.fuse.chains.getD 0 [] ++ s.sec.certs.getD 0 [])))))) ∧
    (s.linkUp = true → exec .doeAbort s = .next { s with host := { s.host with doe := false } }) ∧
    (s.linkUp = false → exec .doeAbort s = .next s))

/-- A port goes from OFF to TRAIN, LINK and UP by signal, training and hello, falls back at its limits, checks flits,
spares lanes, and loses its link (12_thatre_fabric.mdR376, 12_thatre_fabric.mdR377, 12_thatre_fabric.mdR379,
12_thatre_fabric.mdR381, 12_thatre_fabric.mdR383, 12_thatre_fabric.mdR384, 12_thatre_fabric.mdR390,
12_thatre_fabric.mdR391). -/
def Obligations.PortsTrainAndLinksAreKept : Prop :=
  (∀ (s : State) (port : BitVec 6), s.power.routes = true → port.toNat < 40 →
    let n := port.toNat
    let p := s.port n
    (p.st = .off → p.en = true → p.backoff = none → exec (.portSignalDetect port) s =
      .next (s.setPort n { p with signal := true, st := .train, trainStart := s.now })) ∧
    (p.st ≠ .off ∨ p.en = false ∨ p.backoff ≠ none → exec (.portSignalDetect port) s = .next (s.setPort n { p with signal := true })) ∧
    (∀ (lanes : BitVec 4) (fast : Bool) (w : Nat), p.st = .train → widthFor n (min lanes.toNat (portLanes n)) = some w →
      32 ≤ n ∨ (smapGet Bay.reset s.bays (n / 8)).on = true → s.crust.read (laneOffset n) = 0 →
      exec (.portTrainComplete port lanes fast) s = .next ((s.setPort n { p.down with
        st := .link, signal := true, width := w, rate := fast && p.rateCap, lanes := min lanes.toNat (portLanes n)
        lastHello := s.now, owed := [(0, 256), (1, 256), (2, 512), (3, 32)] }).pumpPort n)) ∧
    (∀ (lanes : BitVec 4) (fast : Bool), p.st ≠ .train ∨ widthFor n (min lanes.toNat (portLanes n)) = none ∨
      (n < 32 ∧ (smapGet Bay.reset s.bays (n / 8)).on = false) → exec (.portTrainComplete port lanes fast) s = .next s) ∧
    (p.st = .train → p.trainStart + trainLimit n ≤ s.now → exec (.portTrainTimeout port) s = .next (s.setPort n { p.down with
      signal := p.signal, backoff := some s.now, trainFails := min 65535 (p.trainFails + 1) })) ∧
    (p.st ≠ .train ∨ s.now < p.trainStart + trainLimit n → exec (.portTrainTimeout port) s = .next s) ∧
    (p.backoff = none → exec (.trainBackoffEnd port) s = .next s) ∧
    (∀ t, p.backoff = some t →
      (s.now < t + 100000000 → exec (.trainBackoffEnd port) s = .next s) ∧
      (t + 100000000 ≤ s.now → p.st = .off → p.en = true → p.signal = true → exec (.trainBackoffEnd port) s =
        .next (s.setPort n { p with backoff := none, st := .train, trainStart := s.now }))) ∧
    (∀ h : HelloInfo, p.linked = true → p.st = .link → h.uid = s.fuse.uid →
      exec (.hello port h) s = .next (s.setPort n { p with loopback := true, lastHello := s.now })) ∧
    (∀ h : HelloInfo, p.st = .link → h.uid ≠ s.fuse.uid → h.goingDown = false →
      exec (.hello port h) s = .next ((((({ s with time := { s.time with upFirst := some (s.time.upFirst.getD s.now) } }).setPort n
        (p.hear h s.now)).dupCheck h).elect).pumpPort n)) ∧
    (∀ h : HelloInfo, p.st = .link → h.uid ≠ s.fuse.uid → h.goingDown = true →
      exec (.hello port h) s = .next (s.linkLoss n 3)) ∧
    (∀ (h : HelloInfo) (u : DWord), p.st = .up → p.peerUid = some u → u ≠ h.uid →
      exec (.hello port h) s = .next ((s.linkLoss n 3).updPort n fun q => ({ q with signal := true }).train s.now)) ∧
    (∀ h : HelloInfo, p.linked = false → exec (.hello port h) s = .next s) ∧
    (s.now < p.lastHello + 300000 → exec (.helloTimeout port) s = .next s) ∧
    (p.lastHello + 300000 ≤ s.now → exec (.helloTimeout port) s = .next (s.linkLoss n 2)) ∧
    (∀ f : MemLine, p.linked = true →
      (flitGood f = false ∨ (flitField f 2 2 = 0 ∧ flitField f 4 12 ≠ p.rxSeq.toNat) → exec (.flitReceive port f) s = .next (s.requestReplay n)) ∧
      (flitGood f = true → flitField f 2 2 = 0 → flitField f 4 12 = p.rxSeq.toNat → flitField f 28 1 = 0 →
        exec (.flitReceive port f) s = .next ((s.setPort n ((p.acked f).taken f)).pumpPort n)) ∧
      (flitGood f = true → flitField f 2 2 ≠ 0 → flitField f 28 1 = 0 →
        exec (.flitReceive port f) s = .next ((s.setPort n (p.acked f)).pumpPort n)) ∧
      (flitGood f = true → flitField f 2 2 ≠ 0 → flitField f 28 1 = 1 →
        ((∀ x ∈ (p.acked f).sent, x.replays < 8) → exec (.flitReceive port f) s =
          .next (((s.setPort n (p.acked f)).replay n).pumpPort n)) ∧
        ((∃ x ∈ (p.acked f).sent, 8 ≤ x.replays) → exec (.flitReceive port f) s = .next ((s.setPort n (p.acked f)).linkLoss n 1)))) ∧
    (∀ f : MemLine, p.linked = false → exec (.flitReceive port f) s = .next s) ∧
    (∀ lane : BitVec 3, p.linked = true → lane.toNat < portLanes n → lane.toNat ∉ p.lanesOut →
      let out := natSetInsert p.lanesOut lane.toNat
      let w := widthFor n (p.lanes - out.length)
      let z := ((((s.setPort n { p with lanesOut := out }).countLinks (srcPort n) 0 1).spare (srcLane n lane.toNat / 2048) .fabricLanes
        (srcLane n lane.toNat) (w.getD 0)).commitWords [(laneOffset n, BitVec.ofNat 32 ((out.map fun i => 2 ^ i).sum))])
      (w = some p.width → exec (.laneRetire port lane) s = .next z) ∧
      (w = none → exec (.laneRetire port lane) s = .next (z.linkLoss n 0)) ∧
      (∀ v, w = some v → v ≠ p.width → exec (.laneRetire port lane) s = .next (((z.updPort n fun q =>
        { q with width := v, widthChanged := true }).hwSet (0x030_1004 + 0x100 * n) 0x400).event (srcPort n) 0x0502 (detail3 v 0 0)))) ∧
    (∀ lane : BitVec 3, p.linked = false ∨ portLanes n ≤ lane.toNat ∨ lane.toNat ∈ p.lanesOut →
      exec (.laneRetire port lane) s = .next s) ∧
    (p.linked = false → exec (.linkLoss port) s = .next s) ∧
    (p.linked = true → p.queue = [] → exec (.linkLoss port) s = .next
      ((((s.setPort n { p.down with downSeen := true }).hwSet (0x030_1004 + 0x100 * n) 0x200).event (srcPort n) 0x0503 (detail3 (Config.causeCode 0x0503 0 0).toNat 0 0)).elect)) ∧
    (∀ h now, (p.hear h now).st = .up ∧ (p.hear h now).lastHello = now ∧ (p.hear h now).peerNode = h.node ∧
      (p.hear h now).peerUid = some h.uid) ∧ p.down.st = .off ∧ p.down.en = p.en) ∧
  (∀ s : State, s.power.routes = true → exec .helloSend s = .next ((List.range 40).foldl (fun z n => if (z.port n).linked then
    z.portSend n (z.linkPacket 0xFFFF 0x20 (z.helloBytes n false)) else z) s)) ∧
  (∀ (s : State) (n : Nat) (d : Bool), (s.helloBytes n d).length = 64 ∧ bytesNat ((s.helloBytes n d).take 8) = s.fuse.uid.toNat) ∧
  widthFor 0 8 = some 8 ∧ widthFor 0 5 = some 4 ∧ widthFor 0 3 = none ∧ widthFor 39 3 = some 2 ∧ widthFor 39 1 = none

/-- Peers' requests are executed in turn and answered or refused; answers end requests; transit packets go on; collective
data is taken, refused or told off (12_thatre_fabric.mdR386, 12_thatre_fabric.mdR393, 12_thatre_fabric.mdR395,
12_thatre_fabric.mdR396, 12_thatre_fabric.mdR397, 12_thatre_fabric.mdR400, 12_thatre_fabric.mdR401,
12_thatre_fabric.mdR402, 12_thatre_fabric.mdR403, 12_thatre_fabric.mdR405, 12_thatre_fabric.mdR408,
12_thatre_fabric.mdR414). -/
def Obligations.PeersReadAndWriteInSequence : Prop :=
  (∀ (s : State) (p : Packet),
    let seq := smapGet 0 s.fab.execSeq p.src.toNat
    let s1 := { s with fab := { s.fab with execSeq := smapSet 0 s.fab.execSeq p.src.toNat (p.seq + 1) } }
    let pl := s1.fabLocal p.addr.toNat p.payload.length
    let n := (p.addr.extractLsb' 0 4).toNat
    let c := (p.addr.extractLsb' 4 5).toNat
    s.forMe p = true → s.power.routes = true →
    (p.seq = seq → (∀ q ∈ s.fab.early, q.src ≠ p.src) →
      (p.kind = 0x01 → s1.judge p = 0 → exec (.read p) s = .next (s1.answerRead p)) ∧
      (p.kind = 0x03 → s1.judge p = 0 → exec (.write p) s = .next ((s1.putLocal pl p.payload p.poison).answerAck p)) ∧
      (p.kind = 0x04 → s1.judge p = 0 → exec (.atomicAdd p) s = .next ((s1.atomicAdd pl p.payload p.poison).answerAck p)) ∧
      (s1.judge p ≠ 0 → (p.kind = 0x01 → exec (.read p) s = .next (s1.tellRefuse p (s1.judge p))) ∧
        (p.kind = 0x03 → exec (.write p) s = .next (s1.tellRefuse p (s1.judge p))) ∧
        (p.kind = 0x04 → exec (.atomicAdd p) s = .next (s1.tellRefuse p (s1.judge p)))) ∧
      (s.servesMem = false → s.servesDss = false → s1.judge p = 4) ∧
      (s.servesMem = true → s.servesDss = true → (∀ k < 16, (smapGet FabWin.reset s.fab.wins k).en = false) → s1.judge p = 2) ∧
      (p.kind = 0x06 →
        (s.servesCores = false → exec (.message p) s = .next (s1.tellRefuse p 4)) ∧
        (s.servesCores = true →
          (s.filterAdmits n p.src.toNat = false → exec (.message p) s = .next (s1.tellRefuse p 5)) ∧
          (s.filterAdmits n p.src.toNat = true →
            (p.payload.length % 128 ≠ 0 ∨ p.payload.length = 0 ∨ 2048 < p.payload.length →
              exec (.message p) s = .next (s1.tellRefuse p 3)) ∧
            (p.payload.length % 128 = 0 → 0 < p.payload.length → p.payload.length ≤ 2048 →
              (s.target (messageOf p).dst = none → exec (.message p) s = .next (s1.tellRefuse p 4)) ∧
              (∀ k, s.target (messageOf p).dst = some k →
                ((s.core k).recvXq.length < 16 → s.holdsMessages n c = false → (∀ o ∈ s.fab.owed, o.1 ≠ p.src ∨ o.2.2 ≠ (n, c)) →
                  exec (.message p) s = .next ((s1.deliver k (messageOf p)).answerAck p)) ∧
                (16 ≤ (s.core k).recvXq.length → (∀ o ∈ s.fab.owed, o.1 ≠ p.src ∨ o.2.2 ≠ (n, c)) → exec (.message p) s = .next
                  ({ s1 with fab := { s1.fab with owed := s.fab.owed ++ [(p.src, p.flow, n, c)]
                                                  told := s.fab.told ++ [(⟨p.src, p.seq, 0x07, 0⟩ : Told)] } }.sendAnswer
                    p.src 0x07 p.flow p.seq p.tag p.addr 0 [] false)))))))) ∧
    (0 < (p.seq - seq).toNat → (p.seq - seq).toNat < 2 ^ 31 → (∀ q ∈ s.fab.early, q.src ≠ p.src) →
      let t := { s with fab := { s.fab with early := s.fab.early ++ [p] } }
      (p.kind = 0x06 → exec (.message p) s = .next t) ∧ (p.kind = 0x01 → exec (.read p) s = .next t) ∧
      (p.kind = 0x03 → exec (.write p) s = .next t) ∧ (p.kind = 0x04 → exec (.atomicAdd p) s = .next t)) ∧
    (2 ^ 31 ≤ (p.seq - seq).toNat → (∀ t ∈ s.fab.told, t.src ≠ p.src ∨ t.seq ≠ p.seq) → p.kind = 0x03 →
      exec (.write p) s = .next (s.answerAck p))) ∧
  (∀ (s : State) (p : Packet), s.forMe p = false →
    exec (.read p) s = .next s ∧ exec (.write p) s = .next s ∧ exec (.atomicAdd p) s = .next s ∧
    exec (.message p) s = .next s ∧ exec (.refuse p) s = .next s ∧ exec (.xqFree p) s = .next s ∧
    exec (.readData p) s = .next s ∧ exec (.ack p) s = .next s ∧ exec (.notReady p) s = .next s) ∧
  (∀ (s : State) (p : Packet) (q : FabReq), s.findReq p.src p.seq = some q → s.forMe p = true →
    (∀ a, p.kind = 0x02 → q.pkt.kind = 0x01 → p.payload.length = q.pkt.len → q.issuer = .fabOp a → exec (.readData p) s = .next
      (((s.dropReq q.dst q.seq).memWrite a (p.payload.map some) p.poison).finishFabOp 0)) ∧
    (∀ d e k x off, p.kind = 0x02 → q.pkt.kind = 0x01 → p.payload.length = q.pkt.len → q.issuer = .peelRead d e k x off →
      exec (.readData p) s = .next ((s.dropReq q.dst q.seq).bringData d e k x off p.payload p.poison)) ∧
    (∀ a, p.kind = 0x05 → q.pkt.kind ≠ 0x01 → q.issuer = .fabOp a →
      exec (.ack p) s = .next ((s.dropReq q.dst q.seq).finishFabOp 0)) ∧
    (∀ k x, p.kind = 0x05 → q.pkt.kind ≠ 0x01 → q.issuer = .message k x →
      exec (.ack p) s = .next (((s.dropReq q.dst q.seq).updCore k fun c => c.sent x).offerMessages k)) ∧
    (p.kind = 0x07 → q.pkt.kind = 0x06 → exec (.notReady p) s = .next { s.dropReq q.dst q.seq with fab :=
      { (s.dropReq q.dst q.seq).fab with held := s.fab.held ++ [⟨q.dst, q.pkt.tag, q.pkt.addr.toNat % 512⟩] } }) ∧
    (p.kind = 0x09 → p.tag = q.pkt.tag → exec (.refuse p) s = .next (s.failReq q p.reason.toNat)) ∧
    (p.kind = 0x09 → p.tag ≠ q.pkt.tag → exec (.refuse p) s = .next (s.failColl p.tag p.seq.toNat p.reason.toNat))) ∧
  (∀ (s : State) (p : Packet), s.findReq p.src p.seq = none →
    exec (.readData p) s = .next s ∧ exec (.ack p) s = .next s ∧ exec (.notReady p) s = .next s ∧
    (s.forMe p = true → p.kind = 0x09 → exec (.refuse p) s = .next (s.failColl p.tag p.seq.toNat p.reason.toNat))) ∧
  (∀ (s : State) (p : Packet), s.forMe p = true → p.kind = 0x08 → exec (.xqFree p) s = .next
    ((List.range 104).foldl State.offerMessages { s with fab := { s.fab with
      held := s.fab.held.filter fun h => !(h.dst == p.src && h.core == p.addr.toNat % 512) } })) ∧
  (∀ (s : State) (dst : NodeId) (seq : Word),
    (s.findReq dst seq = none → exec (.requestResend dst seq) s = .next s ∧ exec (.requestTimeout dst seq) s = .next s) ∧
    (∀ q, s.findReq dst seq = some q →
      (s.now < q.last + 50000 ∨ s.fab.node = 0 → exec (.requestResend dst seq) s = .next s) ∧
      (q.last + 50000 ≤ s.now → s.fab.node ≠ 0 → ∃ t, exec (.requestResend dst seq) s = .next t ∧
        t = { s with fab := { s.fab with reqs := t.fab.reqs, outbox := s.fab.outbox ++ [q.pkt] } } ∧
        t.fab.reqs = s.fab.reqs.map fun x => if x.dst = dst ∧ x.seq = seq then { x with last := s.now } else x) ∧
      (s.now < q.first + 2000000 → exec (.requestTimeout dst seq) s = .next s) ∧
      (q.first + 2000000 ≤ s.now → exec (.requestTimeout dst seq) s = .next (s.failReq q 1)))) ∧
  (∀ (s : State) (port : BitVec 6) (p : Packet),
    (s.power.routes = false → exec (.packetForward port p) s = .next s) ∧
    (p.kind.toNat ∈ [0x20, 0x21, 0x22, 0x23, 0x24] → exec (.packetForward port p) s = .next s) ∧
    (s.power.routes = true → p.kind.toNat ∉ [1, 2, 3, 4, 5, 6, 7, 8, 9, 0x10, 0x20, 0x21, 0x22, 0x23, 0x24] →
      exec (.packetForward port p) s = .next (s.countDiscard port.toNat)) ∧
    (s.power.routes = true → p.kind.toNat ∈ [1, 2, 3, 4, 5, 6, 7, 8, 9, 0x10] →
      (s.forMe p = true → exec (.packetForward port p) s = .next (s.takePacket p)) ∧
      (s.forMe p = false → p.dst = 0xFFFF → exec (.packetForward port p) s = .next (s.countDiscard port.toNat)) ∧
      (s.forMe p = false → p.dst ≠ 0xFFFF → p.hops + 1 < 32 →
        exec (.packetForward port p) s = .next (s.sendVia port.toNat { p with hops := p.hops + 1 })) ∧
      (s.forMe p = false → p.dst ≠ 0xFFFF → 32 ≤ p.hops + 1 → exec (.packetForward port p) s =
        .next (({ s with fab := { s.fab with ttlDrop := true } }.hwSet 0x030_0010 2).countDiscard port.toNat)))) ∧
  (∀ (s : State) (group k : Word) (node : NodeId) (m : CollMsg),
    let lists := ∃ g, s.groupEntry group = some g ∧ s.groupLists g = true ∧ node ∈ s.otherNodes group
    (s.fab.node = 0 ∨ s.power.routes = false → exec (.collective group k node m) s = .next s) ∧
    (s.fab.node ≠ 0 → s.power.routes = true →
      (s.servesCores = false → exec (.collective group k node m) s = .next
        (({ s with fab := { s.fab with refused := true } }.hwSet 0x030_0010 4).sendAnswer node 0x09
          (0xC0#8 + (Config.collectiveFlow group).setWidth 8) k group 0 4 [] false)) ∧
      (s.servesCores = true → ¬lists → s.findRun group k.toNat = none →
        (m = .mismatch → exec (.collective group k node m) s = .next s) ∧
        (m ≠ .mismatch → exec (.collective group k node m) s = .next (s.collTell group k.toNat [node] .mismatch))) ∧
      (s.servesCores = true → ¬lists → ∀ u, s.findRun group k.toNat = some u → m ≠ .mismatch →
        exec (.collective group k node m) s = .next ((s.failRun u).collTell group k.toNat [node] .mismatch)) ∧
      (s.servesCores = true → lists → k.toNat < s.collDoneOf group → exec (.collective group k node m) s = .next s) ∧
      (s.servesCores = true → lists → s.collDoneOf group ≤ k.toNat →
        exec (.collective group k node m) s = .next (s.takeCollective group k.toNat node m)))) ∧
  (∀ (s : State) (p : Packet), s.fab.node ≠ 0 → (s.answerAck p).fab.outbox = s.fab.outbox ++ [{
    dst := p.src, src := s.fab.node, kind := 0x05, flow := p.flow, len := 0, seq := p.seq, tag := p.tag, addr := p.addr, reason := 0
    poison := false, hops := 0, payload := [] }])

/-- The node ID, the routing table, the groups, the host's one-sided operation and MANAGE packets change what their rules
name (12_thatre_fabric.mdR389, 12_thatre_fabric.mdR392, 12_thatre_fabric.mdR398, 12_thatre_fabric.mdR404,
12_thatre_fabric.mdR416). -/
def Obligations.FabricRegistersAndManage : Prop :=
  (∀ (s : State) (v : Word), FabReaches s 0x030_0104 → exec (.fabRtDataWrite v) s = .next { s with fab :=
    { s.fab with route := smapSet 0xFF_FFFF s.fab.route s.fab.rtAddr.toNat (v.extractLsb' 0 24) } }) ∧
  (∀ (s : State) (v : Word), FabReaches s 0x030_0000 →
    let w := s.clears 0x030_0000 v
    let node : BitVec 16 := w.extractLsb' 0 16
    let allowed := (s.fab.node = 0 ∨ ∀ n < 16, (s.part n).inReset = true) ∧ node ≠ 0xFFFF
    (allowed → exec (.fabNodeIdWrite v) s = .next ({ s with fab := { s.fab with
      node := node, writeIgnored := s.fab.writeIgnored && !w.getLsbD 16 } }.elect)) ∧
    (¬allowed → exec (.fabNodeIdWrite v) s = .next
      ({ s with fab := { s.fab with writeIgnored := true } }.hwSet 0x030_0000 0x1_0000))) ∧
  (∀ (s : State) (v : Word), FabReaches s 0x040_0010 →
    let i := s.fab.grpSel.toNat
    let g := smapGet CollGroup.reset s.fab.groups i
    (g.valid = true → exec (.collGroupEntryWrite .grpId v) s = .next s ∧ exec (.collGroupEntryWrite .place v) s = .next s ∧
      (v.getLsbD 28 = true → exec (.collGroupEntryWrite .size v) s = .next s)) ∧
    (g.valid = false → exec (.collGroupEntryWrite .grpId v) s = .next
      { s with fab := { s.fab with groups := smapSet .reset s.fab.groups i { g with id := v } } } ∧
      exec (.collGroupEntryWrite .place v) s = .next { s with
        fab := { s.fab with groups := smapSet .reset s.fab.groups i { g with localPt := v.extractLsb' 0 16, nlBase := v.extractLsb' 16 16 } } }) ∧
    (g.valid = false ∨ v.getLsbD 28 = false → exec (.collGroupEntryWrite .size v) s = .next { s with fab := { s.fab with
      groups := smapSet .reset s.fab.groups i
        { g with pTotal := v.extractLsb' 0 16, nNodes := v.extractLsb' 16 12, valid := v.getLsbD 28 } } })) ∧
  (∀ (s : State) (v : Word), FabReaches s 0x030_0210 →
    let op := { s.fab.op with kind := v.extractLsb' 0 2, len := v.extractLsb' 2 11 }
    let s1 := { s with fab := { s.fab with op := op } }
    let len := op.len.toNat + 1
    let s2 := { s1 with fab := { s1.fab with op := { op with busy := true, error := 0 } } }
    let node := op.addr.extractLsb' 48 16
    let a := op.addr.toNat % 2 ^ 48
    let src := s.mem.readRun op.localAddr.toNat len
    (s.fab.op.busy = true → v.getLsbD 31 = true → exec (.fabOpGo v) s = .next s) ∧
    (v.getLsbD 31 = false → exec (.fabOpGo v) s = .next s1) ∧
    (s.fab.op.busy = false → v.getLsbD 31 = true →
      (s.mem.hostTop < op.localAddr.toNat + len ∨ op.kind = 3 ∨ (op.kind = 2 ∧ (len % 12 ≠ 0 ∨ op.addr.toNat % 4 ≠ 0)) →
        exec (.fabOpGo v) s = .next (s1.finishFabOp 3)) ∧
      (s1.fabOpBad len = false →
        (s.namesSelf node = false → s.fab.node = 0 → exec (.fabOpGo v) s = .next (s2.finishFabOp 1)) ∧
        (s.namesSelf node = true →
          (op.kind = 0 → exec (.fabOpGo v) s = .next (s2.localOp a len [] false)) ∧
          (op.kind ≠ 0 → exec (.fabOpGo v) s = .next (s2.localOp a len src.1 src.2))) ∧
        (s.namesSelf node = false → s.fab.node ≠ 0 →
          (op.kind = 0 → exec (.fabOpGo v) s = .next
            (s2.sendReq node 0x01 0 0 (BitVec.ofNat 64 a) len [] false (.fabOp op.localAddr.toNat))) ∧
          (op.kind = 1 → exec (.fabOpGo v) s = .next
            (s2.sendReq node 0x03 0 0 (BitVec.ofNat 64 a) len src.1 src.2 (.fabOp op.localAddr.toNat))) ∧
          (op.kind = 2 → exec (.fabOpGo v) s = .next
            (s2.sendReq node 0x04 0 0 (BitVec.ofNat 64 a) len src.1 src.2 (.fabOp op.localAddr.toNat))))))) ∧
  (∀ (s : State) (port : BitVec 6) (p : Packet),
    ((s.port port.toNat).linked = false ∨ p.kind ≠ 0x21 → exec (.manage port p) s = .next s) ∧
    (s.power.routes = true → port.toNat < 40 → (s.port port.toNat).linked = true → p.kind = 0x21 → p.tag.toNat ≤ 15 →
      (p.tag.toNat ≤ p.hops → exec (.manage port p) s = .next (s.manageHere port.toNat p)) ∧
      (p.hops < p.tag.toNat → exec (.manage port p) s = .next (s.sendDirected (pathHop (packetPath p) p.hops)
        { withPath p (setHop (packetPath p) p.hops port.toNat) with hops := p.hops + 1 }))))

/-- Delays are measured, a SYNC from the parent slews the clock within its bound or steps it once, and its absence is
holdover (01_module.mdR39, 01_module.mdR41, 01_module.mdR42, 01_module.mdR43, 01_module.mdR44,
12_thatre_fabric.mdR410, 12_thatre_fabric.mdR411, 12_thatre_fabric.mdR413). -/
def Obligations.TimeIsCarriedFromTheParent : Prop :=
  (∀ s : State,
    (s.power.routes = false ∨ s.fab.node = 0 → exec .delayReqSend s = .next s ∧ exec .syncSend s = .next s) ∧
    (s.power.routes = true → s.fab.node ≠ 0 → exec .delayReqSend s = .next ((List.range 40).foldl (fun z n =>
      if (z.port n).st = .up then (z.updPort n fun p => { p with t1 := some z.eighths }).portSend n
        (z.linkPacket (z.port n).peerNode 0x23 (natBytes 16 z.eighths)) else z) s))) ∧
  (∀ (s : State) (port : BitVec 6) (t1 : BitVec 67), s.power.routes = true → port.toNat < 40 →
    ((s.port port.toNat).st = .up → s.fab.node ≠ 0 → exec (.delayReq port t1) s = .next (s.portSend port.toNat
      (s.linkPacket (s.port port.toNat).peerNode 0x24 (natBytes 8 s.eighths ++ natBytes 8 s.eighths)))) ∧
    ((s.port port.toNat).st ≠ .up → exec (.delayReq port t1) s = .next s)) ∧
  (∀ (s : State) (port : BitVec 6) (t2 t3 : BitVec 67), s.power.routes = true → port.toNat < 40 →
    (∀ t1, (s.port port.toNat).t1 = some t1 → (s.port port.toNat).st = .up → s.fab.node ≠ 0 →
      exec (.delayRsp port t2 t3) s = .next (s.setPort port.toNat { s.port port.toNat with
        t1 := none, delay := ((s.eighths : Int) - t1) - ((t3.toNat : Int) - t2.toNat) })) ∧
    ((s.port port.toNat).t1 = none → exec (.delayRsp port t2 t3) s = .next s)) ∧
  (∀ s : State, s.time.locked = false → s.time.master = false → exec .syncSend s = .next s) ∧
  (∀ s : State, s.power.routes = true → s.fab.node ≠ 0 → (s.time.locked || s.time.master) = true →
    exec .syncSend s = .next ((List.range 40).foldl (fun z n => if z.childPort n then
      z.portSend n (z.linkPacket (z.port n).peerNode 0x22 (natBytes 16 z.eighths)) else z) s)) ∧
  (∀ (s : State) (port : BitVec 6) (ts : BitVec 67), s.power.routes = true → port.toNat < 40 →
    (s.timeParent ≠ some port.toNat → exec (.sync port ts) s = .next s) ∧
    (s.timeParent = some port.toNat → s.fab.node ≠ 0 →
      let theta : Int := 2 * ((s.eighths : Int) - ts.toNat) - (s.port port.toNat).delay
      (s.time.lockedOnce = true → s.time.holdover = false → theta.natAbs ≤ 16000 → exec (.sync port ts) s = .next
        { s with time := { s.time with
            lastSync := s.now, offset := offsetWord theta, rate := rateWord (slewFor theta)
            ratePpb := BitVec.ofInt 32 (slewFor theta), locked := decide (theta.natAbs ≤ 64) } }) ∧
      (s.time.lockedOnce = true → exec (.sync port ts) s = .next (({ s with time := { s.time with
          lastSync := s.now, offset := offsetWord theta, rate := rateWord (slewFor theta)
          ratePpb := BitVec.ofInt 32 (slewFor theta), locked := decide (theta.natAbs ≤ 64) } }.setHoldover false).syncCheck theta)) ∧
      (s.time.lockedOnce = false → ∃ t, exec (.sync port ts) s = .next t ∧ t.time.lockedOnce = true ∧ t.time.locked = true ∧
        t.time.stepped = true ∧ t.time.holdover = false ∧
        t.time.gtb = BitVec.ofInt 96 ((s.time.gtb.toNat : Int) - theta * 2 ^ 28)))) ∧
  (∀ (s : State) (theta : Int),
    (theta.natAbs ≤ 16000 ∨ s.time.outOfSync = true → s.syncCheck theta = s) ∧
    (16000 < theta.natAbs → s.time.outOfSync = false → s.time.alertEn = false → s.syncCheck theta =
      (({ s with time := { s.time with outOfSync := true } }.hwSet 0x002_0008 0x10).event (srcHub 0x300) 0x0102
        (detail3 (offsetWord theta).toNat 0 0)))) ∧
  (∀ theta : Int, -500000 ≤ slewFor theta ∧ slewFor theta ≤ 500000) ∧
  (∀ s : State,
    (s.timeParent = none → exec .syncTimeout s = .next s) ∧
    (∀ n, s.timeParent = some n →
      (s.now < s.time.lastSync + 375000 → exec .syncTimeout s = .next s) ∧
      (s.time.lastSync + 375000 ≤ s.now → exec .syncTimeout s = .next
        (({ s.setPort n { s.port n with advert := none } with time := { s.time with locked := false } }).setHoldover true))) ∧
    (s.time.lockedOnce = true ∨ s.now < s.syncLimit → exec .timeSyncTimeout s = .next s) ∧
    (s.time.lockedOnce = false → s.syncLimit ≤ s.now → exec .timeSyncTimeout s = .next
      ((({ s with time := { s.time with timedOut := s.time.timedOut || s.offers.isEmpty } }.setHoldover true).elect).enableScanner)) ∧
    (s.time.upFirst = none → s.syncLimit = s.time.resetLeft + 2000000000) ∧
    (∀ t, s.time.upFirst = some t → s.syncLimit = t + 500000000))

/-- Line reads and writes, the codec's answers, failed positions, scrubs, refresh and reform (11_memory.mdR351,
11_memory.mdR352, 11_memory.mdR353, 11_memory.mdR357, 11_memory.mdR358, 11_memory.mdR359, 11_memory.mdR360,
11_memory.mdR366, 11_memory.mdR367, 14_faults_spares.mdR480). -/
def Obligations.MemoryLinesGroupsAndReform : Prop :=
  (∀ (s : State) (line : DWord) (flagged : BitVec 10) (u : BitVec 2) (data : MemLine) (mask : BitVec 256) (p : Bool),
    let l := line.toNat
    let m1 := { s.mem with errs := smapErase s.mem.errs l }
    (s.mem.top ≤ l * 256 ∨ s.mclkRuns = false → exec (.memLineRead line flagged u) s = .next s ∧
      exec (.memLineWrite line data mask p) s = .next s ∧ exec (.patrolScrubLine line flagged u) s = .next s) ∧
    (l * 256 < s.mem.top → s.mclkRuns = true →
      (∀ v s1, s.codecRead l flagged u.toNat = (v, s1) →
        exec (.memLineRead line flagged u) s = .next { s1 with reply := some (.bytes
          ((List.range 256).map fun i => s1.mem.read (l * 256 + i)) (s1.mem.readRun (l * 256) 256).2) } ∧
        (s.mem.scrubEn = true → s.mem.lineCritical l = false →
          (v = .wrong → exec (.patrolScrubLine line flagged u) s = .next { s1 with mem := s1.mem.rewriteLine l }) ∧
          (v = .lost → l ∉ s1.mem.poison →
            exec (.patrolScrubLine line flagged u) s = .next ({ s1 with mem := s1.mem.poisonLine l }.logPoison l)) ∧
          (v = .lost → l ∈ s1.mem.poison → exec (.patrolScrubLine line flagged u) s = .next s1) ∧
          (v = .clean ∨ v = .corrected → exec (.patrolScrubLine line flagged u) s = .next s1))) ∧
      ((s.mem.group (s.mem.groupOfLine l)).state = 0 → s.mem.poisonForm l 0 = false →
        s.codecRead l 0 0 = (.clean, { s with mem := m1, free := s.free + 1 })) ∧
      ((s.mem.group (s.mem.groupOfLine l)).decode flagged u.toNat = .lost → (s.codecRead l flagged u.toNat).1 = .lost ∧
        (s.codecRead l flagged u.toNat).2.mem.linePoison l = true) ∧
      (∃ t, exec (.memLineWrite line data mask p) s = .next t ∧ t = { s with mem := t.mem, log := t.log, ledger := t.ledger } ∧
        t.mem = s.mem.write (l * 256)
          ((List.range 256).map fun i => if mask.getLsbD i then some (data.extractLsb' (8 * i) 8) else none) p ∧
        (MemOk s → ∀ x : Nat, x < l * 256 ∨ l * 256 + 256 ≤ x → t.mem.read x = s.mem.read x)) ∧
      (s.mem.scrubEn = false ∨ s.mem.lineCritical l = true → exec (.patrolScrubLine line flagged u) s = .next s))) ∧
  (∀ g : MemGroup,
    (g.state = 0 → g.failed = 0 →
      g.decode 0 0 = .clean ∧ g.decode 0 1 = .corrected ∧ g.decode 1 0 = .corrected ∧ g.decode 3 0 = .corrected ∧
        g.decode 7 0 = .lost ∧ g.decode 1 1 = .lost ∧ g.decode 3 1 = .unsure ∧ g.decode 0 2 = .unsure) ∧
    (g.state = 1 → g.decode 0 0 = .corrected ∧ g.decode 0 1 = .lost) ∧
    (g.state = 2 → g.decode 0 0 = .corrected ∧ g.decode 0 1 = .wrong) ∧
    (3 ≤ g.state → ∀ f n, g.decode f n = .lost)) ∧
  (∀ (s : State) (group : BitVec 6) (pos : BitVec 4),
    let g := group.toNat
    let x := s.mem.group g
    (40 ≤ g ∨ 10 ≤ pos.toNat ∨ x.failed.getLsbD pos.toNat = true → exec (.memPositionFail group pos false) s = .next s) ∧
    (HostReaches s 0x020_0020 → ∃ t, exec (.memChanFail group pos) s = .next t ∧ exec (.memPositionFail group pos false) s = .next t) ∧
    (g < 40 → pos.toNat < 10 → x.failed.getLsbD pos.toNat = false → ∃ t, exec (.memPositionFail group pos false) s = .next t ∧
      t.crust.commits = satAdd32 s.crust.commits 1 ∧ (t.mem.group g).failed.getLsbD pos.toNat = true ∧
      t.ledger.otp.positions = s.ledger.otp.positions ||| BitVec.ofNat 400 (2 ^ (10 * g + pos.toNat)) ∧
      t.mem.cells = s.mem.cells ∧ t.mem.poison = s.mem.poison) ∧
    (40 ≤ g → exec (.memPositionFail group pos true) s = .next s) ∧
    (g < 40 → pos.toNat < 10 → ∃ t, exec (.memPositionFail group pos true) s = .next t ∧
      (∀ j, j < 8 → (t.mem.group (8 * (g / 8) + j)).failed.getLsbD pos.toNat = true) ∧
      t.mem.cells = s.mem.cells ∧ t.mem.poison = s.mem.poison)) ∧
  (∀ (s : State) (ch : BitVec 9), exec (.refresh ch) s = .next s ∧
    (ch.toNat < 400 → exec (.hotRefresh ch) s = .next ({ s with mem := { s.mem with hotRefresh := true } }.event
      (srcNo (5 + ch.toNat / 80) 0x090) 0x0403 (detail3 ch.toNat 0 0))) ∧
    (400 ≤ ch.toNat → exec (.hotRefresh ch) s = .next s) ∧
    exec .hotRefreshEnd s = .next { s with mem := { s.mem with hotRefresh := false } }) ∧
  (∀ s : State,
    (HostReaches s 0x020_0010 → s.mem.reforming.isSome = true → exec .memReformStart s = .next s) ∧
    (HostReaches s 0x020_0010 → s.mem.reforming = none → s.reformError ≠ 0 → exec .memReformStart s = .next
      ({ s with mem := { s.mem with reformDone := true, reformError := BitVec.ofNat 2 s.reformError } }.hwSet 0x020_0014 2)) ∧
    (HostReaches s 0x020_0010 → s.mem.reforming = none → s.reformError = 0 → ∃ t, exec .memReformStart s = .next t ∧
      t.mem = { s.mem with reforming := some s.mem.reformMask, reformError := 0 } ∧ t.cores = s.cores ∧ t.parts = s.parts) ∧
    (s.mem.reforming = none → exec .memReformDone s = .next s) ∧
    (∀ mask, s.mem.reforming = some mask → ∃ t, exec .memReformDone s = .next t ∧ t.mem.reforming = none ∧
      t.mem.reformDone = true ∧ t.mem.reformError = 0 ∧ t.crumbLog.head = 0 ∧ t.crumbLog.tail = 0 ∧ t.crumbLog.lost = 0))

/-- Events are delivered and committed in order, windows give their records, the Ledger takes its records, bins end, and
debug acts in its scope only (19_health_ledger.mdR585, 19_health_ledger.mdR586, 19_health_ledger.mdR589,
19_health_ledger.mdR590, 19_health_ledger.mdR576, 19_health_ledger.mdR579, 19_health_ledger.mdR580,
20_register_map.mdR599, 20_register_map.mdR602, 04_core.mdR159). -/
def Obligations.LogsLedgerTelemetryAndDebug : Prop :=
  (∀ (s : State) (idx : BitVec 16),
    (s.log.pending.length ≤ idx.toNat → exec (.eventDeliver idx) s = .next s) ∧
    (∀ e, s.log.pending[idx.toNat]? = some e →
      let s1 := { s with log := { s.log with pending := s.log.pending.eraseIdx idx.toNat } }
      let first := ∀ x ∈ s.log.pending.take idx.toNat, x.src ≠ e.src
      (¬first → exec (.eventDeliver idx) s = .next s) ∧
      (first → (∀ k, s.log.last = some k → e.before k = false) → exec (.eventDeliver idx) s = .next
        { s1 with log := { s1.log with buffer := s.log.buffer ++ [e] } }) ∧
      (first → ∀ k, s.log.last = some k → e.before k = true →
        exec (.eventDeliver idx) s = .next (s1.commitEvent { e with late := true })))) ∧
  (∀ s : State,
    (s.log.buffer = [] → exec .eventCommit s = .next s) ∧
    (∀ i e, firstEvent s.log.buffer = some i → s.log.buffer[i]? = some e →
      (s.now < e.gtb + 4000 → exec .eventCommit s = .next s) ∧
      (e.gtb + 4000 ≤ s.now → s.log.extSize = 0 → exec .eventCommit s = .next { s with log := { s.log with
        buffer := s.log.buffer.eraseIdx i, next := s.log.next + 1, ring := smapInsert s.log.ring (s.log.next % 16384) (s.log.next, e)
        last := if e.late then s.log.last else some (e.gtb, e.src) } })) ∧
    (let ended := fun (a : AggWin) => decide ((a.window + 1) * 1000000 ≤ s.now)
     exec .eventAggWindowEnd s = .next { s with log := { s.log with
      agg := s.log.agg.filter fun a => !ended a
      pending := s.log.pending ++ (s.log.agg.filter ended).map fun a => a.record ((a.window + 1) * 1000000 - 1) } }) ∧
    (s.now / 3600000000000 ≤ s.ledger.lastHour → exec .ledgerHourly s = .next s) ∧
    (s.ledger.lastHour < s.now / 3600000000000 → ∃ t, exec .ledgerHourly s = .next t ∧
      t = { s with ledger := t.ledger, log := t.log } ∧ t.ledger.lastHour = s.now / 3600000000000) ∧
    exec (.marginSweep []) s = .next s ∧
    (∀ (m : Margin) (ms : List Margin),
      let r := s.ledgerAppend (m.src.toNat / 2048) 0x01 m.src.toNat (m.measure :: m.values)
      exec (.marginSweep (m :: ms)) s = .next (ms.foldl State.measure (s.measure m)) ∧
      (unitOk m.src.toNat = false → s.measure m = s) ∧
      (unitOk m.src.toNat = true → m.warn = false → s.measure m = r) ∧
      (unitOk m.src.toNat = true → m.warn = true → s.ledger.alertEn = false → s.measure m =
        ({ r with ledger := { r.ledger with marginWarn := true } }.hwSet 0x050_0000 1).event m.src.toNat 0x0801
          (detail3 m.measure.toNat (bytesNat (m.values.take 4)) 0))) ∧
    (HostReaches s 0x050_0800 → exec .crumbLogEmpty s = .next
      { s with crumbLog := { s.crumbLog with head := 0, tail := 0, lost := 0 } })) ∧
  (∀ (s : State) (v : Word),
    let c := s.log.capture v.toNat
    (s.power.alwaysOn = true → exec (.evtPortSeqWrite true v) s = .next
      { s with log := { s.log with portI3c := s.log.portI3c.captured v c } }) ∧
    (HostReaches s 0x002_0104 → exec (.evtPortSeqWrite false v) s = .next
      { s with log := { s.log with port := s.log.port.captured v c } }) ∧
    (s.log.next % 2 ^ 32 = v.toNat → c = (0, false, true))) ∧
  (∀ (s : State) (die : BitVec 5) (type : Byte) (src : SrcNo) (payload : List Byte),
    exec (.ledgerRecordWrite die type src payload) s = .next (if die.toNat < 20 ∧ 1 ≤ type.toNat ∧ type.toNat ≤ 8 ∧ unitOk src.toNat = true then
      s.ledgerAppend die.toNat type src.toNat payload else s)) ∧
  (∀ (s : State) (t : TelSample),
    let e := s.now - s.now % (1000 * s.tele.binUs.toNat)
    (s.power.st = .w5 → exec (.telemetryBinEnd t) s = .next s) ∧
    (s.power.st ≠ .w5 → ∀ start counts, s.tele.cut = some (start, counts) → ∃ u, exec (.telemetryBinEnd t) s = .next u ∧
      u = { s with tele := u.tele } ∧ u.tele.cut = none ∧ u.tele.cur = !s.tele.cur ∧ u.tele.seq = s.tele.seq + 1 ∧
      u.tele.binStart = s.tele.binStart ∧ (if s.tele.cur then u.tele.pageB = s.tele.pageB else u.tele.pageA = s.tele.pageA)) ∧
    (s.power.st ≠ .w5 → s.tele.cut = none →
      (e ≤ s.tele.binStart → exec (.telemetryBinEnd t) s = .next s) ∧
      (s.tele.binStart < e → UnitsOk s → ∃ u, exec (.telemetryBinEnd t) s = .next u ∧
        u = { s with tele := u.tele, parts := u.parts } ∧ u.tele.cur = !s.tele.cur ∧ u.tele.seq = s.tele.seq + 1 ∧
        (if s.tele.cur then u.tele.pageB = s.tele.pageB else u.tele.pageA = s.tele.pageA) ∧
        u.tele.binStart = e ∧ u.tele.binUs = s.tele.nextUs ∧
        ∀ n < 16, (u.part n).telProg = 0 ∧ (u.part n).telFrz = 0 ∧ (u.part n).cycProg = (s.part n).cycProg))) ∧
  (∀ (s : State) (pt : Pt), HostReaches s 0x100_0008 →
    (s.sec.grants 1 = false → exec (.dbgHaltGo pt) s = .next s ∧ exec (.dbgResumeGo pt) s = .next s) ∧
    (s.sec.grants 1 = true → exec (.dbgResumeGo pt) s = .next (s.resumeDebug pt.toNat) ∧
      ((s.part pt.toNat).halted = false →
        exec (.dbgHaltGo pt) s = .next (s.setPart pt.toNat { s.part pt.toNat with dbgReq := true })))) ∧
  (∀ (s : State) (off : BitVec 19) (bad : Bool), HostReaches s 0x110_0000 →
    let o := off.toNat - off.toNat % 4
    (s.sec.grants 0 = false ∨ (s.part s.dbg.pt.toNat).halted = false →
      exec (.dbgAccWindowRead off bad) s = .next { s with reply := some (.word 0) }) ∧
    exec (.dbgAccWindowRead off false) s = .next { s with reply := some (.word (s.readAcc o false)) } ∧
    (s.sec.grants 0 = true → (s.part s.dbg.pt.toNat).halted = true → (s.accEntry o).isSome = true →
      exec (.dbgAccWindowRead off true) s = .next ({ s with reply := some (.word (s.readAcc o true)) }.event
        (s.eccUnit (s.accPlace o)).2 0x0302 (eccDetail (s.accPlace o)))))

/-- A LO read captures its HI word for the next HI read, accesses reach registers only as 32-bit aligned words, poisoned
writes are dropped, counters clear (00_scope.mdR14, 00_scope.mdR15, 00_scope.mdR16, 00_scope.mdR17, 00_scope.mdR19,
17_host_pcie.mdR533, 17_host_pcie.mdR535, 17_host_pcie.mdR545, 20_register_map.mdR593,
21_electrical_mechanical.mdR618, 21_electrical_mechanical.mdR620, 08_freeze_and_schedule.mdR301). -/
def Obligations.RegistersAreReadAndWritten : Prop :=
  (∀ (s : State) (off : BitVec 25), s.linkUp = true → off.toNat % 4 = 0 → pairLo off.toNat = true →
    exec (.regPairLoRead .pf .w32 off) s = .next { s with
      reply := some (.word (s.readReg false off.toNat))
      captures := { s.captures with bar0 := smapSet none s.captures.bar0 (off.toNat + 4) (some (s.readReg false (off.toNat + 4))) } }) ∧
  (∀ (s : State) (off : BitVec 25), s.linkUp = true → off.toNat % 4 = 0 → 4 ≤ off.toNat → pairLo off.toNat = false →
    pairLo (off.toNat - 4) = true →
    (∀ w, smapGet none s.captures.bar0 off.toNat = some w → exec (.regPairHiRead .pf .w32 off) s = .next { s with
      reply := some (.word (w &&& s.served false off.toNat))
      captures := { s.captures with bar0 := smapErase s.captures.bar0 off.toNat } }) ∧
    (smapGet none s.captures.bar0 off.toNat = none → exec (.regPairHiRead .pf .w32 off) s = .next
      { s with reply := some (.word (s.readReg false off.toNat)) })) ∧
  (∀ (s : State) (w : AccessWidth) (off : BitVec 25) (v : Word) (p : Bool),
    let ur := fun (fn : Nat) (e : AerErr) => { s with host := { s.host with aer := s.host.aer ++ [(fn, e)] } }
    (s.linkUp = false → exec (.regPairLoRead .pf w off) s = .next s ∧ exec (.regPairHiRead .pf w off) s = .next s ∧
      exec (.registerWrite .pf w off v p) s = .next s ∧ ∀ n, exec (.registerWrite (.vf n) w off v p) s = .next s) ∧
    (s.linkUp = true → off.toNat % 4 ≠ 0 ∨ w ≠ .w32 →
      exec (.regPairLoRead .pf w off) s = .next { ur 0 .unsupported with reply := some .unsupported } ∧
      exec (.registerWrite .pf w off v false) s = .next (ur 0 .unsupported)) ∧
    (s.linkUp = true → exec (.registerWrite .pf w off v true) s = .next (ur 0 .poisoned)) ∧
    (s.linkUp = true → off.toNat % 4 = 0 →
      exec (.registerWrite .pf .w32 off v false) s = .next ((s.writeReg false false off.toNat v).settleAlert)) ∧
    (s.linkUp = true → s.host.vfEnable = true → ∀ n : BitVec 4,
      (exec (.registerWrite (.vf n) w off v true) s = .next (ur (n.toNat + 1) .poisoned)) ∧
      (off.toNat % 4 ≠ 0 ∨ w ≠ .w32 ∨ 0x2_0000 ≤ off.toNat →
        exec (.registerWrite (.vf n) w off v false) s = .next (ur (n.toNat + 1) .unsupported) ∧
        exec (.regPairLoRead (.vf n) w off) s = .next { ur (n.toNat + 1) .unsupported with reply := some .unsupported }) ∧
      (off.toNat % 4 = 0 → off.toNat < 0x1_0000 → exec (.registerWrite (.vf n) .w32 off v false) s = .next
        ((s.writeReg false true (0x010_0000 + 0x1_0000 * n.toNat + off.toNat) v).settleAlert))) ∧
    (∀ more, i3cWritable off.toNat = false → exec (.registerWrite (.i3c more) w off v p) s = .next s) ∧
    (∀ more, s.power.alwaysOn = true → i3cBlock off.toNat = false →
      exec (.regPairLoRead (.i3c more) w off) s = .next { s with reply := some (.word 0) }) ∧
    (s.power.alwaysOn = true → off.toNat % 4 = 0 → 0x001_1000 ≤ off.toNat → off.toNat < 0x001_1330 →
      exec (.regPairLoRead (.i3c false) w off) s = .next { s with
        burst := some s.power.fcCur
        reply := some (.word ({ s with burst := some s.power.fcCur }.readReg true off.toNat)) }) ∧
    (s.linkUp = true → ∀ x, s.configWord 0 off.toNat = some x →
      exec (.regPairLoRead (.config 0) w off) s = .next { s with reply := some (.word x) }) ∧
    (s.served false off.toNat ≠ 0xFFFF_FFFF → s.writeReg false false off.toNat v = s) ∧
    (s.served false off.toNat = 0xFFFF_FFFF → off.toNat ≠ 0x080_0130 → s.writeReg false false off.toNat v =
      writeBlock false false off.toNat (v &&& ~~~(smapGet 0 s.sets off.toNat)) s)) ∧
  (∀ (s : State) (v : Word), HostReaches s 0x8 → s.alertLevel = s.alertN → smapGet 0 s.sets 8 = 0 →
    ∃ t, exec (.registerWrite .pf .w32 0x8 v false) s = .next t ∧ t = { s with scratch := v } ∧ t.readReg false 0x8 = v) ∧
  (∀ (s : State) (pt : Pt),
    let p := s.part pt.toNat
    (HostReaches s (0x010_0000 + 0x1_0000 * pt.toNat + 0x208) → exec (.counterLoWriteClear pt 0x208) s =
      .next (s.setPart pt.toNat { p with cycFrz := 0 })) ∧
    (HostReaches s (0x010_0000 + 0x1_0000 * pt.toNat + 0x220) → exec (.counterLoWriteClear pt 0x220) s =
      .next (s.setPart pt.toNat { p with slip := 0 }))) ∧
  (∀ (s : State) (a : BitVec 7), exec (.i3cDynamicAddress a) s =
    .next (if s.power.alwaysOn then { s with i3cAddr := some a } else s))

/-- After reset the registers hold the values of the Reset columns, nothing is configured, memory lists nothing, and the
invariants hold (15_hangs_reset.mdR507, 16_power_wake.mdR529, 13_contexts_serving.mdR444, 14_faults_spares.mdR473,
17_host_pcie.mdR551, 19_health_ledger.mdR591, 20_register_map.mdR599, 01_module.mdR53). -/
def Obligations.ResetLeavesTheStatedValues : Prop :=
  let s := State.reset
  let field := fun (off w : Nat) => (s.liveReg false off).toNat % 2 ^ w
  field 0x003_0010 20 = 1000 ∧ field 0x003_0014 16 = 100 ∧ field 0x001_0020 14 = 2600 ∧ field 0x001_0024 12 = 50 ∧
  field 0x001_002C 16 = 36000 ∧ field 0x001_0038 16 = 1045 ∧ field 0x080_0314 16 = 1000 ∧ field 0x080_012C 20 = 10000 ∧
  field 0x050_0700 1 = 1 ∧ field 0x050_2000 20 = 1000 ∧ field 0x000_0108 16 = 10000 ∧ field 0x000_0118 10 = 1 ∧
  field 0x050_0008 20 = 86400 ∧ field 0x000_0008 32 = 0 ∧ s.time.gtb = 0 ∧ s.pending = [] ∧ s.log.pending = [] ∧
  s.parts = [] ∧ s.ctxs = [] ∧ s.loafs = [] ∧ s.models = [] ∧ s.mem.cells = [] ∧ (∀ n, s.part n = Part.reset) ∧
  s.power.rails = false ∧ s.linkUp = false ∧ MemOk s ∧ UnitsOk s

/-- Every step of the module keeps memory in its canonical form (11_memory.mdR347, 11_memory.mdR358, 11_memory.mdR361,
11_memory.mdR366, 11_memory.mdR629). -/
def Obligations.EveryStepKeepsMemoryCanonical : Prop :=
  ∀ s t : State, MemOk s → step s = .next t → MemOk t

/-- Every step of the module holds each numbered unit at most once and in order (00_scope.mdR20, 04_core.mdR157,
12_thatre_fabric.mdR371, 13_contexts_serving.mdR417, 17_host_pcie.mdR534). -/
def Obligations.EveryStepKeepsUnitsOnce : Prop :=
  ∀ s t : State, UnitsOk s → step s = .next t → UnitsOk t

/-- No command changes the queue or the fused identity; the fused SVN never falls, and a revoked root slot or a fused
retirement is never undone (18_security.mdR552, 18_security.mdR558, 18_security.mdR559, 14_faults_spares.mdR480,
15_hangs_reset.mdR500). -/
def Obligations.CommandsKeepTheQueueAndTheFusedIdentity : Prop :=
  ∀ (i : Instr) (s t : State), s.fuse.svn ≤ 64 → exec i s = .next t →
    t.pending = s.pending ∧
    t.fuse = { s.fuse with svn := t.fuse.svn, revoked := t.fuse.revoked } ∧
    s.fuse.svn ≤ t.fuse.svn ∧ t.fuse.svn ≤ 64 ∧
    (∀ k, s.fuse.revoked.getLsbD k = true → t.fuse.revoked.getLsbD k = true) ∧
    (∀ k, s.ledger.otp.positions.getLsbD k = true → t.ledger.otp.positions.getLsbD k = true) ∧
    (∀ k, s.ledger.otp.groups.getLsbD k = true → t.ledger.otp.groups.getLsbD k = true) ∧
    (s.ledger.otp.retire = true → t.ledger.otp.retire = true)
end

