-- ==== Sys2Proof/Laws/Map.lean ====
section
/-! SUPPORT. The laws of sparse maps (Machine/Map.lean): a read after a write, other keys left alone, and the canonical form kept. -/

namespace Sys2Proof.Laws

open Sys2Proof.Machine

variable {α : Type}

/-- The keys of a sorted map all lie above a bound. -/
def keysAbove (lo : Nat) (m : SMap α) : Prop := ∀ e ∈ m, lo < e.1

theorem smapSorted_cons {j : Nat} {v : α} {m : SMap α} (h : smapSorted ((j, v) :: m) = true) :
    keysAbove j m ∧ smapSorted m = true := by
  induction m generalizing j v with
  | nil => exact ⟨by simp [keysAbove], rfl⟩
  | cons e m ih =>
    obtain ⟨k, w⟩ := e
    simp only [smapSorted, Bool.and_eq_true, decide_eq_true_eq] at h
    refine ⟨?_, h.2⟩
    intro e he
    rcases List.mem_cons.1 he with rfl | he
    · exact h.1
    · exact lt_trans h.1 ((ih h.2).1 e he)

theorem smapSorted_of {j : Nat} {v : α} {m : SMap α} (ha : keysAbove j m) (hs : smapSorted m = true) :
    smapSorted ((j, v) :: m) = true := by
  cases m with
  | nil => rfl
  | cons e m =>
    obtain ⟨k, w⟩ := e
    simp only [smapSorted, Bool.and_eq_true, decide_eq_true_eq]
    exact ⟨ha (k, w) (by simp), hs⟩

theorem smapInsert_mem {m : SMap α} {k : Nat} {v : α} {e : Nat × α} (h : e ∈ smapInsert m k v) : e = (k, v) ∨ e ∈ m := by
  induction m with
  | nil => simpa [smapInsert] using h
  | cons x m ih =>
    obtain ⟨j, w⟩ := x
    unfold smapInsert at h
    split at h
    · simpa using h
    · split at h
      · rcases List.mem_cons.1 h with h | h
        · exact .inl h
        · exact .inr (List.mem_cons_of_mem _ h)
      · rcases List.mem_cons.1 h with h | h
        · exact .inr (by simp [h])
        · exact (ih h).imp_right (List.mem_cons_of_mem _)

theorem smapInsert_sorted {m : SMap α} (k : Nat) (v : α) (h : smapSorted m = true) : smapSorted (smapInsert m k v) = true := by
  induction m with
  | nil => rfl
  | cons x m ih =>
    obtain ⟨j, w⟩ := x
    obtain ⟨ha, hs⟩ := smapSorted_cons h
    unfold smapInsert
    split
    · next hk =>
      exact smapSorted_of (fun e he => by
        rcases List.mem_cons.1 he with rfl | he
        · exact hk
        · exact lt_trans hk (ha e he)) h
    · split
      · next hj => subst hj; exact smapSorted_of ha hs
      · next h1 h2 =>
        refine smapSorted_of (fun e he => ?_) (ih hs)
        rcases smapInsert_mem he with rfl | he
        · simp only; omega
        · exact ha e he

theorem smapErase_mem {m : SMap α} {k : Nat} {e : Nat × α} (h : e ∈ smapErase m k) : e ∈ m := by
  induction m with
  | nil => simp [smapErase] at h
  | cons x m ih =>
    obtain ⟨j, w⟩ := x
    unfold smapErase at h
    split at h
    · exact List.mem_cons_of_mem _ h
    · split at h
      · exact h
      · rcases List.mem_cons.1 h with h | h
        · simp [h]
        · exact List.mem_cons_of_mem _ (ih h)

theorem smapErase_sorted {m : SMap α} (k : Nat) (h : smapSorted m = true) : smapSorted (smapErase m k) = true := by
  induction m with
  | nil => rfl
  | cons x m ih =>
    obtain ⟨j, w⟩ := x
    obtain ⟨ha, hs⟩ := smapSorted_cons h
    unfold smapErase
    split
    · exact hs
    · split
      · exact h
      · exact smapSorted_of (fun e he => ha e (smapErase_mem he)) (ih hs)

theorem smapFilter_sorted {m : SMap α} (p : Nat × α → Bool) (h : smapSorted m = true) : smapSorted (m.filter p) = true := by
  induction m with
  | nil => rfl
  | cons x m ih =>
    obtain ⟨j, w⟩ := x
    obtain ⟨ha, hs⟩ := smapSorted_cons h
    simp only [List.filter_cons]
    split
    · exact smapSorted_of (fun e he => ha e (List.mem_of_mem_filter he)) (ih hs)
    · exact ih hs

theorem smapFind_above {m : SMap α} {j k : Nat} (ha : keysAbove j m) (hk : k ≤ j) : smapFind m k = none := by
  cases m with
  | nil => rfl
  | cons e m =>
    obtain ⟨i, w⟩ := e
    have := ha (i, w) (by simp)
    simp only at this
    unfold smapFind
    rw [if_neg (by omega), if_pos (by omega)]

/-- A read after an insertion. -/
theorem smapFind_insert {m : SMap α} (k i : Nat) (v : α) :
    smapFind (smapInsert m k v) i = if i = k then some v else smapFind m i := by
  induction m with
  | nil =>
    simp only [smapInsert, smapFind]
    by_cases h : k = i
    · simp [h]
    · simp [h, Ne.symm h]
  | cons x m ih =>
    obtain ⟨j, w⟩ := x
    unfold smapInsert
    split
    · next hk =>
      simp only [smapFind]
      by_cases h : k = i
      · simp [h]
      · simp only [h, if_false, Ne.symm h]
        by_cases h2 : i < k
        · have : ¬ j = i := by omega
          have : i < j := by omega
          simp [*]
        · simp [h2]
    · split
      · next hj =>
        subst hj
        simp only [smapFind]
        by_cases h : j = i
        · simp [h]
        · simp [h, Ne.symm h]
      · next h1 h2 =>
        simp only [smapFind, ih]
        by_cases h : i = k
        · subst h
          have : ¬ j = i := h2
          have : ¬ i < j := h1
          simp [*]
        · simp [h]

/-- A read after an erasure, in a sorted map. -/
theorem smapFind_erase {m : SMap α} (h : smapSorted m = true) (k i : Nat) :
    smapFind (smapErase m k) i = if i = k then none else smapFind m i := by
  induction m with
  | nil => simp [smapErase, smapFind]
  | cons x m ih =>
    obtain ⟨j, w⟩ := x
    obtain ⟨ha, hs⟩ := smapSorted_cons h
    unfold smapErase
    split
    · next hj =>
      subst hj
      by_cases hi : i = j
      · subst hi; simpa using smapFind_above ha le_rfl
      · simp only [smapFind, Ne.symm hi, hi, if_false]
        split
        · next hlt => exact smapFind_above ha (by omega)
        · rfl
    · split
      · next hj hk =>
        by_cases hi : i = k
        · subst hi; simp [smapFind, hj, hk]
        · simp [hi]
      · next h1 h2 =>
        simp only [smapFind, ih hs]
        by_cases hi : i = k
        · subst hi
          simp [h1, h2]
        · simp [hi]

theorem smapInsert_insert {m : SMap α} (k : Nat) (v w : α) : smapInsert (smapInsert m k v) k w = smapInsert m k w := by
  induction m with
  | nil => simp [smapInsert]
  | cons e m ih =>
    obtain ⟨j, x⟩ := e
    by_cases h1 : k < j
    · simp [smapInsert, h1]
    · by_cases h2 : j = k
      · subst h2; simp [smapInsert]
      · simp [smapInsert, h1, h2, ih]

theorem smapErase_insert {m : SMap α} (h : smapSorted m = true) (k : Nat) (v : α) :
    smapErase (smapInsert m k v) k = smapErase m k := by
  induction m with
  | nil => simp [smapInsert, smapErase]
  | cons e m ih =>
    obtain ⟨j, x⟩ := e
    obtain ⟨ha, hs⟩ := smapSorted_cons h
    by_cases h1 : k < j
    · have : j ≠ k := by omega
      simp [smapInsert, smapErase, h1, this]
    · by_cases h2 : j = k
      · subst h2; simp [smapInsert, smapErase]
      · simp [smapInsert, smapErase, h1, h2, ih hs]

theorem smapInsert_erase {m : SMap α} (h : smapSorted m = true) (k : Nat) (w : α) :
    smapInsert (smapErase m k) k w = smapInsert m k w := by
  induction m with
  | nil => simp [smapInsert, smapErase]
  | cons e m ih =>
    obtain ⟨j, x⟩ := e
    obtain ⟨ha, hs⟩ := smapSorted_cons h
    by_cases h2 : j = k
    · subst h2
      simp only [smapErase, if_true, smapInsert, lt_irrefl, if_false]
      cases m with
      | nil => rfl
      | cons f m =>
        have : j < f.1 := by simpa [smapSorted] using (by simpa [smapSorted] using h : j < f.1 ∧ _).1
        obtain ⟨i, y⟩ := f
        simp only at this
        simp [smapInsert, this]
    · by_cases h1 : k < j
      · simp [smapErase, smapInsert, h1, h2]
      · simp [smapErase, smapInsert, h1, h2, ih hs]

theorem smapErase_erase {m : SMap α} (h : smapSorted m = true) (k : Nat) :
    smapErase (smapErase m k) k = smapErase m k := by
  induction m with
  | nil => rfl
  | cons e m ih =>
    obtain ⟨j, x⟩ := e
    obtain ⟨ha, hs⟩ := smapSorted_cons h
    by_cases h2 : j = k
    · subst h2
      simp only [smapErase, if_true]
      cases m with
      | nil => rfl
      | cons f m =>
        have : j < f.1 := by simpa [smapSorted] using (by simpa [smapSorted] using h : j < f.1 ∧ _).1
        obtain ⟨i, y⟩ := f
        simp only at this
        have h3 : i ≠ j := by omega
        simp [smapErase, this, h3]
    · by_cases h1 : k < j
      · simp [smapErase, h1, h2]
      · simp [smapErase, h1, h2, ih hs]

variable [DecidableEq α]

/-- A map in canonical form is sorted. -/
theorem smapWf_sorted {d : α} {m : SMap α} (h : smapWf d m = true) : smapSorted m = true := by
  simp only [smapWf, Bool.and_eq_true] at h
  exact h.1

/-- A read after a write, of the key written. -/
@[simp] theorem smapGet_set_self (d : α) {m : SMap α} (h : smapSorted m = true) (k : Nat) (v : α) :
    smapGet d (smapSet d m k v) k = v := by
  unfold smapGet smapSet
  split
  · next hv => rw [smapFind_erase h]; simp [hv]
  · rw [smapFind_insert]; simp

/-- A read after a write, of another key. -/
theorem smapGet_set_other (d : α) {m : SMap α} (h : smapSorted m = true) {k i : Nat} (hi : i ≠ k) (v : α) :
    smapGet d (smapSet d m k v) i = smapGet d m i := by
  unfold smapGet smapSet
  split
  · rw [smapFind_erase h]; simp [hi]
  · rw [smapFind_insert]; simp [hi]

/-- A write keeps the canonical form. -/
theorem smapSet_wf (d : α) {m : SMap α} (h : smapWf d m = true) (k : Nat) (v : α) : smapWf d (smapSet d m k v) = true := by
  simp only [smapWf, Bool.and_eq_true, List.all_eq_true, Bool.not_eq_true', decide_eq_false_iff_not] at h ⊢
  unfold smapSet
  split
  · exact ⟨smapErase_sorted _ h.1, fun e he => h.2 e (smapErase_mem he)⟩
  · next hv =>
    refine ⟨smapInsert_sorted _ _ h.1, fun e he => ?_⟩
    rcases smapInsert_mem he with rfl | he
    · exact hv
    · exact h.2 e he

/-- A write of a sorted map is sorted. -/
theorem smapSet_sorted (d : α) {m : SMap α} (h : smapSorted m = true) (k : Nat) (v : α) : smapSorted (smapSet d m k v) = true := by
  unfold smapSet
  split
  · exact smapErase_sorted _ h
  · exact smapInsert_sorted _ _ h

/-- Of two writes to one key the later holds. -/
@[simp] theorem smapSet_set (d : α) {m : SMap α} (h : smapSorted m = true) (k : Nat) (v w : α) :
    smapSet d (smapSet d m k v) k w = smapSet d m k w := by
  unfold smapSet
  split <;> split <;> simp_all [smapInsert_insert, smapErase_insert, smapInsert_erase, smapErase_erase]

/-- An addition to a rising set keeps it rising. -/
theorem natSetInsert_rises {m : NatSet} (k : Nat) (h : m.Pairwise (· < ·)) : (natSetInsert m k).Pairwise (· < ·) := by
  have mem : ∀ {m : NatSet} {x : Nat}, x ∈ natSetInsert m k → x = k ∨ x ∈ m := by
    intro m
    induction m with
    | nil => intro x hx; simpa [natSetInsert] using hx
    | cons j m ih =>
      intro x hx
      unfold natSetInsert at hx
      split at hx
      · simpa using hx
      · split at hx
        · exact .inr hx
        · rcases List.mem_cons.1 hx with rfl | hx
          · exact .inr (by simp)
          · exact (ih hx).imp_right (List.mem_cons_of_mem _)
  induction m with
  | nil => simp [natSetInsert]
  | cons j m ih =>
    rw [List.pairwise_cons] at h
    unfold natSetInsert
    split
    · next hk =>
      refine List.pairwise_cons.2 ⟨fun x hx => ?_, List.pairwise_cons.2 h⟩
      rcases List.mem_cons.1 hx with rfl | hx
      · exact hk
      · exact lt_trans hk (h.1 x hx)
    · split
      · exact List.pairwise_cons.2 h
      · next h1 h2 =>
        refine List.pairwise_cons.2 ⟨fun x hx => ?_, ih h.2⟩
        rcases mem hx with rfl | hx
        · omega
        · exact h.1 x hx

/-- A removal from a rising set keeps it rising. -/
theorem natSetErase_rises {m : NatSet} (k : Nat) (h : m.Pairwise (· < ·)) : (natSetErase m k).Pairwise (· < ·) := by
  have sub : ∀ {m : NatSet} {x : Nat}, x ∈ natSetErase m k → x ∈ m := by
    intro m
    induction m with
    | nil => intro x hx; simp [natSetErase] at hx
    | cons j m ih =>
      intro x hx
      unfold natSetErase at hx
      split at hx
      · exact List.mem_cons_of_mem _ hx
      · split at hx
        · exact hx
        · rcases List.mem_cons.1 hx with rfl | hx
          · simp
          · exact List.mem_cons_of_mem _ (ih hx)
  induction m with
  | nil => exact h
  | cons j m ih =>
    rw [List.pairwise_cons] at h
    unfold natSetErase
    split
    · exact h.2
    · split
      · exact List.pairwise_cons.2 h
      · exact List.pairwise_cons.2 ⟨fun x hx => h.1 x (sub hx), ih h.2⟩

end Sys2Proof.Laws
end

