-- ==== Sys2Proof/Laws/Memory.lean ====
section
/-! SUPPORT. Every memory operation keeps the canonical form of the device memory (Machine/Memory.lean), and a byte read after
it was written is the byte that was written. -/

namespace Sys2Proof.Laws

open Sys2Proof.Machine

/-- The parts of the canonical form. -/
theorem mem_wf_iff (m : Mem) : m.wf = true ↔
    smapSorted m.cells = true ∧ (∀ c ∈ m.cells, (m.areaAt c.1).isSome = true ∨ c.2 ≠ 0) ∧ m.poison.Pairwise (· < ·) ∧
      smapSorted m.errs = true := by
  simp [Mem.wf, and_assoc]

theorem mem_reset_wf : Mem.reset.wf = true := by decide

theorem setByte_wf {m : Mem} (h : m.wf = true) (a : Nat) (b : Byte) : (m.setByte a b).wf = true := by
  rw [mem_wf_iff] at h ⊢
  unfold Mem.setByte
  split
  · exact ⟨smapErase_sorted _ h.1, fun c hc => h.2.1 c (smapErase_mem hc), h.2.2⟩
  · next hz =>
    refine ⟨smapInsert_sorted _ _ h.1, fun c hc => ?_, h.2.2⟩
    rcases smapInsert_mem hc with rfl | hc
    · by_cases ha : (m.areaAt a).isSome = true
      · exact .inl ha
      · right
        intro hb
        simp only [Bool.not_eq_true, Option.isSome_eq_false_iff] at ha
        simp only at hb
        simp [ha, hb] at hz
    · exact h.2.1 c hc

theorem putBytes_wf {m : Mem} (h : m.wf = true) (base : Nat) (bs : List (Nat × Byte)) : (m.putBytes base bs).wf = true := by
  unfold Mem.putBytes
  induction bs generalizing m with
  | nil => exact h
  | cons e bs ih => exact ih (setByte_wf h _ _)

theorem poisonLine_wf {m : Mem} (h : m.wf = true) (line : Nat) : (m.poisonLine line).wf = true := by
  rw [mem_wf_iff] at h ⊢
  exact ⟨h.1, h.2.1, natSetInsert_rises _ h.2.2.1, smapErase_sorted _ h.2.2.2⟩

/-- An open area keeps the form: it takes its own entries and marks away. -/
theorem openArea_wf {m : Mem} (h : m.wf = true) (base len seed : Nat) : (m.openArea base len seed).wf = true := by
  unfold Mem.openArea
  split
  · exact h
  · rw [mem_wf_iff] at h ⊢
    refine ⟨smapFilter_sorted _ h.1, fun c hc => ?_, h.2.2.1.filter _, smapFilter_sorted _ h.2.2.2⟩
    simp only [List.mem_filter] at hc
    rcases h.2.1 c hc.1 with ha | hb
    · left
      simp only [Mem.areaAt, List.find?_cons] at ha ⊢
      split
      · rfl
      · exact ha
    · exact .inr hb

/-- A line whose marks go. -/
theorem unmark_wf {m : Mem} (h : m.wf = true) (line : Nat) :
    ({ m with poison := natSetErase m.poison line, errs := smapErase m.errs line } : Mem).wf = true := by
  rw [mem_wf_iff] at h ⊢
  exact ⟨h.1, h.2.1, natSetErase_rises _ h.2.2.1, smapErase_sorted _ h.2.2.2⟩

theorem rewriteLine_wf {m : Mem} (h : m.wf = true) (line : Nat) : (m.rewriteLine line).wf = true := by
  unfold Mem.rewriteLine
  simp only
  split
  · exact openArea_wf (unmark_wf h _) _ _ _
  · exact unmark_wf h _

theorem writeLine_wf {m : Mem} (h : m.wf = true) (line : Nat) (bs : List (Nat × Byte)) (p : Bool) :
    (m.writeLine line bs p).wf = true := by
  unfold Mem.writeLine
  split
  · exact h
  · split
    · exact poisonLine_wf h _
    · exact putBytes_wf (rewriteLine_wf h _) _ _

theorem foldl_wf {β : Type} {m : Mem} (f : Mem → β → Mem) (hf : ∀ m b, m.wf = true → (f m b).wf = true) (l : List β)
    (h : m.wf = true) : (l.foldl f m).wf = true := by
  induction l generalizing m with
  | nil => exact h
  | cons b l ih => exact ih (hf m b h)

theorem write_wf {m : Mem} (h : m.wf = true) (addr : Nat) (bs : List (Option Byte)) (p : Bool) : (m.write addr bs p).wf = true :=
  foldl_wf _ (fun _ _ hm => writeLine_wf hm _ _ _) _ h

theorem writeAll_wf {m : Mem} (h : m.wf = true) (addr : Nat) (bs : List Byte) (p : Bool) : (m.writeAll addr bs p).wf = true :=
  write_wf h _ _ _

theorem setGroup_wf {m : Mem} (h : m.wf = true) (g : Nat) (v : MemGroup) : (m.setGroup g v).wf = true := h

theorem mem_cut {r : Area} {base len a : Nat} (ha : r.base ≤ a ∧ a < r.base + r.len) (ho : ¬(base ≤ a ∧ a < base + len)) :
    ∃ q ∈ r.cut base len, q.base ≤ a ∧ a < q.base + q.len := by
  unfold Area.cut
  by_cases hl : a < base
  · refine ⟨{ r with len := min r.len (base - r.base) }, ?_, ?_⟩
    · rw [if_pos (by omega)]; simp
    · simp only; omega
  · refine ⟨⟨max r.base (base + len), r.base + r.len - max r.base (base + len), r.seed⟩, ?_, ?_⟩
    · have : base + len < r.base + r.len := by omega
      simp [this]
    · simp only; omega

theorem zeroArea_wf {m : Mem} (h : m.wf = true) (base len : Nat) : (m.zeroArea base len).wf = true := by
  rw [mem_wf_iff] at h ⊢
  refine ⟨smapFilter_sorted _ h.1, fun c hc => ?_, h.2.2.1.filter _, smapFilter_sorted _ h.2.2.2⟩
  simp only [Mem.zeroArea, List.mem_filter, Bool.not_eq_true', Bool.and_eq_false_iff, decide_eq_false_iff_not] at hc
  rcases h.2.1 c hc.1 with ha | hb
  · left
    simp only [Mem.areaAt, List.find?_isSome, Bool.and_eq_true, decide_eq_true_eq] at ha ⊢
    obtain ⟨r, hr, h1⟩ := ha
    obtain ⟨q, hq, h2⟩ := mem_cut (base := base) (len := len) h1 (by omega)
    exact ⟨q, List.mem_flatMap.2 ⟨r, hr, hq⟩, h2⟩
  · exact .inr hb

theorem noteRead_wf {m : Mem} (h : m.wf = true) (line seed : Nat) (v : Decoded) : (m.noteRead line seed v).wf = true := by
  have note : ∀ e, ({ m with errs := smapInsert m.errs line e } : Mem).wf = true := fun e => by
    rw [mem_wf_iff] at h ⊢
    exact ⟨h.1, h.2.1, h.2.2.1, smapInsert_sorted _ _ h.2.2.2⟩
  have drop : ({ m with errs := smapErase m.errs line } : Mem).wf = true := by
    rw [mem_wf_iff] at h ⊢
    exact ⟨h.1, h.2.1, h.2.2.1, smapErase_sorted _ h.2.2.2⟩
  cases v
  case wrong => exact note _
  case lost => simp only [Mem.noteRead]; split; exacts [h, note _]
  all_goals exact drop

theorem initialise_wf (m : Mem) : m.initialise.wf = true := by
  simp [Mem.initialise, Mem.wf, smapSorted]

/-- A byte read after it was written, and any other byte (the memory is sorted). -/
theorem byte_setByte {m : Mem} (h : smapSorted m.cells = true) (a i : Nat) (b : Byte) :
    (m.setByte a b).byte i = if i = a then b else m.byte i := by
  unfold Mem.setByte Mem.byte
  split
  · next hz =>
    simp only [Bool.and_eq_true, Option.isNone_iff_eq_none, beq_iff_eq] at hz
    simp only [Mem.unlisted, Mem.areaAt] at hz ⊢
    rw [smapFind_erase h]
    by_cases hi : i = a
    · subst hi; simp [hz.1, hz.2]
    · simp [hi]
  · simp only [Mem.unlisted, Mem.areaAt]
    rw [smapFind_insert]
    by_cases hi : i = a
    · simp [hi]
    · simp [hi]

end Sys2Proof.Laws
end

