-- ==== Sys2Proof/Laws/State.lean ====
section
/-! SUPPORT. What each primitive update of the state leaves of each field and of each accessor, so that no proof unfolds a
record update; and reads after writes of the numbered units. -/

namespace Sys2Proof.Laws

open Sys2Proof.Machine

variable (s : State)

/-! `State.emit` -/

@[simp] theorem emit_pending (o : Output) : (s.emit o).pending = s.pending := rfl
@[simp] theorem emit_free (o : Output) : (s.emit o).free = s.free := rfl
@[simp] theorem emit_out (o : Output) : (s.emit o).out = s.out ++ [o] := rfl
@[simp] theorem emit_reply (o : Output) : (s.emit o).reply = s.reply := rfl
@[simp] theorem emit_time (o : Output) : (s.emit o).time = s.time := rfl
@[simp] theorem emit_log (o : Output) : (s.emit o).log = s.log := rfl
@[simp] theorem emit_ledger (o : Output) : (s.emit o).ledger = s.ledger := rfl
@[simp] theorem emit_crust (o : Output) : (s.emit o).crust = s.crust := rfl
@[simp] theorem emit_tele (o : Output) : (s.emit o).tele = s.tele := rfl
@[simp] theorem emit_crumbLog (o : Output) : (s.emit o).crumbLog = s.crumbLog := rfl
@[simp] theorem emit_cores (o : Output) : (s.emit o).cores = s.cores := rfl
@[simp] theorem emit_dies (o : Output) : (s.emit o).dies = s.dies := rfl
@[simp] theorem emit_parts (o : Output) : (s.emit o).parts = s.parts := rfl
@[simp] theorem emit_ctxs (o : Output) : (s.emit o).ctxs = s.ctxs := rfl
@[simp] theorem emit_loafs (o : Output) : (s.emit o).loafs = s.loafs := rfl
@[simp] theorem emit_models (o : Output) : (s.emit o).models = s.models := rfl
@[simp] theorem emit_bs (o : Output) : (s.emit o).bs = s.bs := rfl
@[simp] theorem emit_mem (o : Output) : (s.emit o).mem = s.mem := rfl
@[simp] theorem emit_fab (o : Output) : (s.emit o).fab = s.fab := rfl
@[simp] theorem emit_host (o : Output) : (s.emit o).host = s.host := rfl
@[simp] theorem emit_alertN (o : Output) : (s.emit o).alertN = s.alertN := rfl
@[simp] theorem emit_power (o : Output) : (s.emit o).power = s.power := rfl
@[simp] theorem emit_fuse (o : Output) : (s.emit o).fuse = s.fuse := rfl
@[simp] theorem emit_sec (o : Output) : (s.emit o).sec = s.sec := rfl
@[simp] theorem emit_ladder (o : Output) : (s.emit o).ladder = s.ladder := rfl
@[simp] theorem emit_dbg (o : Output) : (s.emit o).dbg = s.dbg := rfl
@[simp] theorem emit_links (o : Output) : (s.emit o).links = s.links := rfl
@[simp] theorem emit_bays (o : Output) : (s.emit o).bays = s.bays := rfl
@[simp] theorem emit_captures (o : Output) : (s.emit o).captures = s.captures := rfl
@[simp] theorem emit_scratch (o : Output) : (s.emit o).scratch = s.scratch := rfl
@[simp] theorem emit_i3cAddr (o : Output) : (s.emit o).i3cAddr = s.i3cAddr := rfl
@[simp] theorem emit_burst (o : Output) : (s.emit o).burst = s.burst := rfl
@[simp] theorem emit_sets (o : Output) : (s.emit o).sets = s.sets := rfl
@[simp] theorem emit_at_core (o : Output) (j : Nat) : (s.emit o).core j = s.core j := rfl
@[simp] theorem emit_at_die (o : Output) (j : Nat) : (s.emit o).die j = s.die j := rfl
@[simp] theorem emit_at_part (o : Output) (j : Nat) : (s.emit o).part j = s.part j := rfl
@[simp] theorem emit_at_ctx (o : Output) (j : Nat) : (s.emit o).ctx j = s.ctx j := rfl
@[simp] theorem emit_at_loaf (o : Output) (j : Nat) : (s.emit o).loaf j = s.loaf j := rfl
@[simp] theorem emit_at_model (o : Output) (j : Nat) : (s.emit o).model j = s.model j := rfl
@[simp] theorem emit_now (o : Output) : (s.emit o).now = s.now := rfl
@[simp] theorem emit_at_fn (o : Output) (j : Nat) : (s.emit o).fn j = s.fn j := rfl
@[simp] theorem emit_at_port (o : Output) (j : Nat) : (s.emit o).port j = s.port j := rfl

/-! `State.setCore` -/

@[simp] theorem setCore_pending (k : Nat) (v : Core) : (s.setCore k v).pending = s.pending := rfl
@[simp] theorem setCore_free (k : Nat) (v : Core) : (s.setCore k v).free = s.free := rfl
@[simp] theorem setCore_out (k : Nat) (v : Core) : (s.setCore k v).out = s.out := rfl
@[simp] theorem setCore_reply (k : Nat) (v : Core) : (s.setCore k v).reply = s.reply := rfl
@[simp] theorem setCore_time (k : Nat) (v : Core) : (s.setCore k v).time = s.time := rfl
@[simp] theorem setCore_log (k : Nat) (v : Core) : (s.setCore k v).log = s.log := rfl
@[simp] theorem setCore_ledger (k : Nat) (v : Core) : (s.setCore k v).ledger = s.ledger := rfl
@[simp] theorem setCore_crust (k : Nat) (v : Core) : (s.setCore k v).crust = s.crust := rfl
@[simp] theorem setCore_tele (k : Nat) (v : Core) : (s.setCore k v).tele = s.tele := rfl
@[simp] theorem setCore_crumbLog (k : Nat) (v : Core) : (s.setCore k v).crumbLog = s.crumbLog := rfl
@[simp] theorem setCore_cores (k : Nat) (v : Core) : (s.setCore k v).cores = smapSet .reset s.cores k v := rfl
@[simp] theorem setCore_dies (k : Nat) (v : Core) : (s.setCore k v).dies = s.dies := rfl
@[simp] theorem setCore_parts (k : Nat) (v : Core) : (s.setCore k v).parts = s.parts := rfl
@[simp] theorem setCore_ctxs (k : Nat) (v : Core) : (s.setCore k v).ctxs = s.ctxs := rfl
@[simp] theorem setCore_loafs (k : Nat) (v : Core) : (s.setCore k v).loafs = s.loafs := rfl
@[simp] theorem setCore_models (k : Nat) (v : Core) : (s.setCore k v).models = s.models := rfl
@[simp] theorem setCore_bs (k : Nat) (v : Core) : (s.setCore k v).bs = s.bs := rfl
@[simp] theorem setCore_mem (k : Nat) (v : Core) : (s.setCore k v).mem = s.mem := rfl
@[simp] theorem setCore_fab (k : Nat) (v : Core) : (s.setCore k v).fab = s.fab := rfl
@[simp] theorem setCore_host (k : Nat) (v : Core) : (s.setCore k v).host = s.host := rfl
@[simp] theorem setCore_alertN (k : Nat) (v : Core) : (s.setCore k v).alertN = s.alertN := rfl
@[simp] theorem setCore_power (k : Nat) (v : Core) : (s.setCore k v).power = s.power := rfl
@[simp] theorem setCore_fuse (k : Nat) (v : Core) : (s.setCore k v).fuse = s.fuse := rfl
@[simp] theorem setCore_sec (k : Nat) (v : Core) : (s.setCore k v).sec = s.sec := rfl
@[simp] theorem setCore_ladder (k : Nat) (v : Core) : (s.setCore k v).ladder = s.ladder := rfl
@[simp] theorem setCore_dbg (k : Nat) (v : Core) : (s.setCore k v).dbg = s.dbg := rfl
@[simp] theorem setCore_links (k : Nat) (v : Core) : (s.setCore k v).links = s.links := rfl
@[simp] theorem setCore_bays (k : Nat) (v : Core) : (s.setCore k v).bays = s.bays := rfl
@[simp] theorem setCore_captures (k : Nat) (v : Core) : (s.setCore k v).captures = s.captures := rfl
@[simp] theorem setCore_scratch (k : Nat) (v : Core) : (s.setCore k v).scratch = s.scratch := rfl
@[simp] theorem setCore_i3cAddr (k : Nat) (v : Core) : (s.setCore k v).i3cAddr = s.i3cAddr := rfl
@[simp] theorem setCore_burst (k : Nat) (v : Core) : (s.setCore k v).burst = s.burst := rfl
@[simp] theorem setCore_sets (k : Nat) (v : Core) : (s.setCore k v).sets = s.sets := rfl
@[simp] theorem setCore_at_die (k : Nat) (v : Core) (j : Nat) : (s.setCore k v).die j = s.die j := rfl
@[simp] theorem setCore_at_part (k : Nat) (v : Core) (j : Nat) : (s.setCore k v).part j = s.part j := rfl
@[simp] theorem setCore_at_ctx (k : Nat) (v : Core) (j : Nat) : (s.setCore k v).ctx j = s.ctx j := rfl
@[simp] theorem setCore_at_loaf (k : Nat) (v : Core) (j : Nat) : (s.setCore k v).loaf j = s.loaf j := rfl
@[simp] theorem setCore_at_model (k : Nat) (v : Core) (j : Nat) : (s.setCore k v).model j = s.model j := rfl
@[simp] theorem setCore_now (k : Nat) (v : Core) : (s.setCore k v).now = s.now := rfl
@[simp] theorem setCore_at_fn (k : Nat) (v : Core) (j : Nat) : (s.setCore k v).fn j = s.fn j := rfl
@[simp] theorem setCore_at_port (k : Nat) (v : Core) (j : Nat) : (s.setCore k v).port j = s.port j := rfl

/-! `State.setDie` -/

@[simp] theorem setDie_pending (d : Nat) (v : Die) : (s.setDie d v).pending = s.pending := rfl
@[simp] theorem setDie_free (d : Nat) (v : Die) : (s.setDie d v).free = s.free := rfl
@[simp] theorem setDie_out (d : Nat) (v : Die) : (s.setDie d v).out = s.out := rfl
@[simp] theorem setDie_reply (d : Nat) (v : Die) : (s.setDie d v).reply = s.reply := rfl
@[simp] theorem setDie_time (d : Nat) (v : Die) : (s.setDie d v).time = s.time := rfl
@[simp] theorem setDie_log (d : Nat) (v : Die) : (s.setDie d v).log = s.log := rfl
@[simp] theorem setDie_ledger (d : Nat) (v : Die) : (s.setDie d v).ledger = s.ledger := rfl
@[simp] theorem setDie_crust (d : Nat) (v : Die) : (s.setDie d v).crust = s.crust := rfl
@[simp] theorem setDie_tele (d : Nat) (v : Die) : (s.setDie d v).tele = s.tele := rfl
@[simp] theorem setDie_crumbLog (d : Nat) (v : Die) : (s.setDie d v).crumbLog = s.crumbLog := rfl
@[simp] theorem setDie_cores (d : Nat) (v : Die) : (s.setDie d v).cores = s.cores := rfl
@[simp] theorem setDie_dies (d : Nat) (v : Die) : (s.setDie d v).dies = smapSet .reset s.dies d v := rfl
@[simp] theorem setDie_parts (d : Nat) (v : Die) : (s.setDie d v).parts = s.parts := rfl
@[simp] theorem setDie_ctxs (d : Nat) (v : Die) : (s.setDie d v).ctxs = s.ctxs := rfl
@[simp] theorem setDie_loafs (d : Nat) (v : Die) : (s.setDie d v).loafs = s.loafs := rfl
@[simp] theorem setDie_models (d : Nat) (v : Die) : (s.setDie d v).models = s.models := rfl
@[simp] theorem setDie_bs (d : Nat) (v : Die) : (s.setDie d v).bs = s.bs := rfl
@[simp] theorem setDie_mem (d : Nat) (v : Die) : (s.setDie d v).mem = s.mem := rfl
@[simp] theorem setDie_fab (d : Nat) (v : Die) : (s.setDie d v).fab = s.fab := rfl
@[simp] theorem setDie_host (d : Nat) (v : Die) : (s.setDie d v).host = s.host := rfl
@[simp] theorem setDie_alertN (d : Nat) (v : Die) : (s.setDie d v).alertN = s.alertN := rfl
@[simp] theorem setDie_power (d : Nat) (v : Die) : (s.setDie d v).power = s.power := rfl
@[simp] theorem setDie_fuse (d : Nat) (v : Die) : (s.setDie d v).fuse = s.fuse := rfl
@[simp] theorem setDie_sec (d : Nat) (v : Die) : (s.setDie d v).sec = s.sec := rfl
@[simp] theorem setDie_ladder (d : Nat) (v : Die) : (s.setDie d v).ladder = s.ladder := rfl
@[simp] theorem setDie_dbg (d : Nat) (v : Die) : (s.setDie d v).dbg = s.dbg := rfl
@[simp] theorem setDie_links (d : Nat) (v : Die) : (s.setDie d v).links = s.links := rfl
@[simp] theorem setDie_bays (d : Nat) (v : Die) : (s.setDie d v).bays = s.bays := rfl
@[simp] theorem setDie_captures (d : Nat) (v : Die) : (s.setDie d v).captures = s.captures := rfl
@[simp] theorem setDie_scratch (d : Nat) (v : Die) : (s.setDie d v).scratch = s.scratch := rfl
@[simp] theorem setDie_i3cAddr (d : Nat) (v : Die) : (s.setDie d v).i3cAddr = s.i3cAddr := rfl
@[simp] theorem setDie_burst (d : Nat) (v : Die) : (s.setDie d v).burst = s.burst := rfl
@[simp] theorem setDie_sets (d : Nat) (v : Die) : (s.setDie d v).sets = s.sets := rfl
@[simp] theorem setDie_at_core (d : Nat) (v : Die) (j : Nat) : (s.setDie d v).core j = s.core j := rfl
@[simp] theorem setDie_at_part (d : Nat) (v : Die) (j : Nat) : (s.setDie d v).part j = s.part j := rfl
@[simp] theorem setDie_at_ctx (d : Nat) (v : Die) (j : Nat) : (s.setDie d v).ctx j = s.ctx j := rfl
@[simp] theorem setDie_at_loaf (d : Nat) (v : Die) (j : Nat) : (s.setDie d v).loaf j = s.loaf j := rfl
@[simp] theorem setDie_at_model (d : Nat) (v : Die) (j : Nat) : (s.setDie d v).model j = s.model j := rfl
@[simp] theorem setDie_now (d : Nat) (v : Die) : (s.setDie d v).now = s.now := rfl
@[simp] theorem setDie_at_fn (d : Nat) (v : Die) (j : Nat) : (s.setDie d v).fn j = s.fn j := rfl
@[simp] theorem setDie_at_port (d : Nat) (v : Die) (j : Nat) : (s.setDie d v).port j = s.port j := rfl

/-! `State.setPart` -/

@[simp] theorem setPart_pending (n : Nat) (v : Part) : (s.setPart n v).pending = s.pending := rfl
@[simp] theorem setPart_free (n : Nat) (v : Part) : (s.setPart n v).free = s.free := rfl
@[simp] theorem setPart_out (n : Nat) (v : Part) : (s.setPart n v).out = s.out := rfl
@[simp] theorem setPart_reply (n : Nat) (v : Part) : (s.setPart n v).reply = s.reply := rfl
@[simp] theorem setPart_time (n : Nat) (v : Part) : (s.setPart n v).time = s.time := rfl
@[simp] theorem setPart_log (n : Nat) (v : Part) : (s.setPart n v).log = s.log := rfl
@[simp] theorem setPart_ledger (n : Nat) (v : Part) : (s.setPart n v).ledger = s.ledger := rfl
@[simp] theorem setPart_crust (n : Nat) (v : Part) : (s.setPart n v).crust = s.crust := rfl
@[simp] theorem setPart_tele (n : Nat) (v : Part) : (s.setPart n v).tele = s.tele := rfl
@[simp] theorem setPart_crumbLog (n : Nat) (v : Part) : (s.setPart n v).crumbLog = s.crumbLog := rfl
@[simp] theorem setPart_cores (n : Nat) (v : Part) : (s.setPart n v).cores = s.cores := rfl
@[simp] theorem setPart_dies (n : Nat) (v : Part) : (s.setPart n v).dies = s.dies := rfl
@[simp] theorem setPart_parts (n : Nat) (v : Part) : (s.setPart n v).parts = smapSet .reset s.parts n v := rfl
@[simp] theorem setPart_ctxs (n : Nat) (v : Part) : (s.setPart n v).ctxs = s.ctxs := rfl
@[simp] theorem setPart_loafs (n : Nat) (v : Part) : (s.setPart n v).loafs = s.loafs := rfl
@[simp] theorem setPart_models (n : Nat) (v : Part) : (s.setPart n v).models = s.models := rfl
@[simp] theorem setPart_bs (n : Nat) (v : Part) : (s.setPart n v).bs = s.bs := rfl
@[simp] theorem setPart_mem (n : Nat) (v : Part) : (s.setPart n v).mem = s.mem := rfl
@[simp] theorem setPart_fab (n : Nat) (v : Part) : (s.setPart n v).fab = s.fab := rfl
@[simp] theorem setPart_host (n : Nat) (v : Part) : (s.setPart n v).host = s.host := rfl
@[simp] theorem setPart_alertN (n : Nat) (v : Part) : (s.setPart n v).alertN = s.alertN := rfl
@[simp] theorem setPart_power (n : Nat) (v : Part) : (s.setPart n v).power = s.power := rfl
@[simp] theorem setPart_fuse (n : Nat) (v : Part) : (s.setPart n v).fuse = s.fuse := rfl
@[simp] theorem setPart_sec (n : Nat) (v : Part) : (s.setPart n v).sec = s.sec := rfl
@[simp] theorem setPart_ladder (n : Nat) (v : Part) : (s.setPart n v).ladder = s.ladder := rfl
@[simp] theorem setPart_dbg (n : Nat) (v : Part) : (s.setPart n v).dbg = s.dbg := rfl
@[simp] theorem setPart_links (n : Nat) (v : Part) : (s.setPart n v).links = s.links := rfl
@[simp] theorem setPart_bays (n : Nat) (v : Part) : (s.setPart n v).bays = s.bays := rfl
@[simp] theorem setPart_captures (n : Nat) (v : Part) : (s.setPart n v).captures = s.captures := rfl
@[simp] theorem setPart_scratch (n : Nat) (v : Part) : (s.setPart n v).scratch = s.scratch := rfl
@[simp] theorem setPart_i3cAddr (n : Nat) (v : Part) : (s.setPart n v).i3cAddr = s.i3cAddr := rfl
@[simp] theorem setPart_burst (n : Nat) (v : Part) : (s.setPart n v).burst = s.burst := rfl
@[simp] theorem setPart_sets (n : Nat) (v : Part) : (s.setPart n v).sets = s.sets := rfl
@[simp] theorem setPart_at_core (n : Nat) (v : Part) (j : Nat) : (s.setPart n v).core j = s.core j := rfl
@[simp] theorem setPart_at_die (n : Nat) (v : Part) (j : Nat) : (s.setPart n v).die j = s.die j := rfl
@[simp] theorem setPart_at_ctx (n : Nat) (v : Part) (j : Nat) : (s.setPart n v).ctx j = s.ctx j := rfl
@[simp] theorem setPart_at_loaf (n : Nat) (v : Part) (j : Nat) : (s.setPart n v).loaf j = s.loaf j := rfl
@[simp] theorem setPart_at_model (n : Nat) (v : Part) (j : Nat) : (s.setPart n v).model j = s.model j := rfl
@[simp] theorem setPart_now (n : Nat) (v : Part) : (s.setPart n v).now = s.now := rfl
@[simp] theorem setPart_at_fn (n : Nat) (v : Part) (j : Nat) : (s.setPart n v).fn j = s.fn j := rfl
@[simp] theorem setPart_at_port (n : Nat) (v : Part) (j : Nat) : (s.setPart n v).port j = s.port j := rfl

/-! `State.setCtx` -/

@[simp] theorem setCtx_pending (n : Nat) (v : Ctx) : (s.setCtx n v).pending = s.pending := rfl
@[simp] theorem setCtx_free (n : Nat) (v : Ctx) : (s.setCtx n v).free = s.free := rfl
@[simp] theorem setCtx_out (n : Nat) (v : Ctx) : (s.setCtx n v).out = s.out := rfl
@[simp] theorem setCtx_reply (n : Nat) (v : Ctx) : (s.setCtx n v).reply = s.reply := rfl
@[simp] theorem setCtx_time (n : Nat) (v : Ctx) : (s.setCtx n v).time = s.time := rfl
@[simp] theorem setCtx_log (n : Nat) (v : Ctx) : (s.setCtx n v).log = s.log := rfl
@[simp] theorem setCtx_ledger (n : Nat) (v : Ctx) : (s.setCtx n v).ledger = s.ledger := rfl
@[simp] theorem setCtx_crust (n : Nat) (v : Ctx) : (s.setCtx n v).crust = s.crust := rfl
@[simp] theorem setCtx_tele (n : Nat) (v : Ctx) : (s.setCtx n v).tele = s.tele := rfl
@[simp] theorem setCtx_crumbLog (n : Nat) (v : Ctx) : (s.setCtx n v).crumbLog = s.crumbLog := rfl
@[simp] theorem setCtx_cores (n : Nat) (v : Ctx) : (s.setCtx n v).cores = s.cores := rfl
@[simp] theorem setCtx_dies (n : Nat) (v : Ctx) : (s.setCtx n v).dies = s.dies := rfl
@[simp] theorem setCtx_parts (n : Nat) (v : Ctx) : (s.setCtx n v).parts = s.parts := rfl
@[simp] theorem setCtx_ctxs (n : Nat) (v : Ctx) : (s.setCtx n v).ctxs = smapSet .reset s.ctxs n v := rfl
@[simp] theorem setCtx_loafs (n : Nat) (v : Ctx) : (s.setCtx n v).loafs = s.loafs := rfl
@[simp] theorem setCtx_models (n : Nat) (v : Ctx) : (s.setCtx n v).models = s.models := rfl
@[simp] theorem setCtx_bs (n : Nat) (v : Ctx) : (s.setCtx n v).bs = s.bs := rfl
@[simp] theorem setCtx_mem (n : Nat) (v : Ctx) : (s.setCtx n v).mem = s.mem := rfl
@[simp] theorem setCtx_fab (n : Nat) (v : Ctx) : (s.setCtx n v).fab = s.fab := rfl
@[simp] theorem setCtx_host (n : Nat) (v : Ctx) : (s.setCtx n v).host = s.host := rfl
@[simp] theorem setCtx_alertN (n : Nat) (v : Ctx) : (s.setCtx n v).alertN = s.alertN := rfl
@[simp] theorem setCtx_power (n : Nat) (v : Ctx) : (s.setCtx n v).power = s.power := rfl
@[simp] theorem setCtx_fuse (n : Nat) (v : Ctx) : (s.setCtx n v).fuse = s.fuse := rfl
@[simp] theorem setCtx_sec (n : Nat) (v : Ctx) : (s.setCtx n v).sec = s.sec := rfl
@[simp] theorem setCtx_ladder (n : Nat) (v : Ctx) : (s.setCtx n v).ladder = s.ladder := rfl
@[simp] theorem setCtx_dbg (n : Nat) (v : Ctx) : (s.setCtx n v).dbg = s.dbg := rfl
@[simp] theorem setCtx_links (n : Nat) (v : Ctx) : (s.setCtx n v).links = s.links := rfl
@[simp] theorem setCtx_bays (n : Nat) (v : Ctx) : (s.setCtx n v).bays = s.bays := rfl
@[simp] theorem setCtx_captures (n : Nat) (v : Ctx) : (s.setCtx n v).captures = s.captures := rfl
@[simp] theorem setCtx_scratch (n : Nat) (v : Ctx) : (s.setCtx n v).scratch = s.scratch := rfl
@[simp] theorem setCtx_i3cAddr (n : Nat) (v : Ctx) : (s.setCtx n v).i3cAddr = s.i3cAddr := rfl
@[simp] theorem setCtx_burst (n : Nat) (v : Ctx) : (s.setCtx n v).burst = s.burst := rfl
@[simp] theorem setCtx_sets (n : Nat) (v : Ctx) : (s.setCtx n v).sets = s.sets := rfl
@[simp] theorem setCtx_at_core (n : Nat) (v : Ctx) (j : Nat) : (s.setCtx n v).core j = s.core j := rfl
@[simp] theorem setCtx_at_die (n : Nat) (v : Ctx) (j : Nat) : (s.setCtx n v).die j = s.die j := rfl
@[simp] theorem setCtx_at_part (n : Nat) (v : Ctx) (j : Nat) : (s.setCtx n v).part j = s.part j := rfl
@[simp] theorem setCtx_at_loaf (n : Nat) (v : Ctx) (j : Nat) : (s.setCtx n v).loaf j = s.loaf j := rfl
@[simp] theorem setCtx_at_model (n : Nat) (v : Ctx) (j : Nat) : (s.setCtx n v).model j = s.model j := rfl
@[simp] theorem setCtx_now (n : Nat) (v : Ctx) : (s.setCtx n v).now = s.now := rfl
@[simp] theorem setCtx_at_fn (n : Nat) (v : Ctx) (j : Nat) : (s.setCtx n v).fn j = s.fn j := rfl
@[simp] theorem setCtx_at_port (n : Nat) (v : Ctx) (j : Nat) : (s.setCtx n v).port j = s.port j := rfl

/-! `State.setLoaf` -/

@[simp] theorem setLoaf_pending (i : Nat) (v : LoafSlot) : (s.setLoaf i v).pending = s.pending := rfl
@[simp] theorem setLoaf_free (i : Nat) (v : LoafSlot) : (s.setLoaf i v).free = s.free := rfl
@[simp] theorem setLoaf_out (i : Nat) (v : LoafSlot) : (s.setLoaf i v).out = s.out := rfl
@[simp] theorem setLoaf_reply (i : Nat) (v : LoafSlot) : (s.setLoaf i v).reply = s.reply := rfl
@[simp] theorem setLoaf_time (i : Nat) (v : LoafSlot) : (s.setLoaf i v).time = s.time := rfl
@[simp] theorem setLoaf_log (i : Nat) (v : LoafSlot) : (s.setLoaf i v).log = s.log := rfl
@[simp] theorem setLoaf_ledger (i : Nat) (v : LoafSlot) : (s.setLoaf i v).ledger = s.ledger := rfl
@[simp] theorem setLoaf_crust (i : Nat) (v : LoafSlot) : (s.setLoaf i v).crust = s.crust := rfl
@[simp] theorem setLoaf_tele (i : Nat) (v : LoafSlot) : (s.setLoaf i v).tele = s.tele := rfl
@[simp] theorem setLoaf_crumbLog (i : Nat) (v : LoafSlot) : (s.setLoaf i v).crumbLog = s.crumbLog := rfl
@[simp] theorem setLoaf_cores (i : Nat) (v : LoafSlot) : (s.setLoaf i v).cores = s.cores := rfl
@[simp] theorem setLoaf_dies (i : Nat) (v : LoafSlot) : (s.setLoaf i v).dies = s.dies := rfl
@[simp] theorem setLoaf_parts (i : Nat) (v : LoafSlot) : (s.setLoaf i v).parts = s.parts := rfl
@[simp] theorem setLoaf_ctxs (i : Nat) (v : LoafSlot) : (s.setLoaf i v).ctxs = s.ctxs := rfl
@[simp] theorem setLoaf_loafs (i : Nat) (v : LoafSlot) : (s.setLoaf i v).loafs = smapSet .reset s.loafs i v := rfl
@[simp] theorem setLoaf_models (i : Nat) (v : LoafSlot) : (s.setLoaf i v).models = s.models := rfl
@[simp] theorem setLoaf_bs (i : Nat) (v : LoafSlot) : (s.setLoaf i v).bs = s.bs := rfl
@[simp] theorem setLoaf_mem (i : Nat) (v : LoafSlot) : (s.setLoaf i v).mem = s.mem := rfl
@[simp] theorem setLoaf_fab (i : Nat) (v : LoafSlot) : (s.setLoaf i v).fab = s.fab := rfl
@[simp] theorem setLoaf_host (i : Nat) (v : LoafSlot) : (s.setLoaf i v).host = s.host := rfl
@[simp] theorem setLoaf_alertN (i : Nat) (v : LoafSlot) : (s.setLoaf i v).alertN = s.alertN := rfl
@[simp] theorem setLoaf_power (i : Nat) (v : LoafSlot) : (s.setLoaf i v).power = s.power := rfl
@[simp] theorem setLoaf_fuse (i : Nat) (v : LoafSlot) : (s.setLoaf i v).fuse = s.fuse := rfl
@[simp] theorem setLoaf_sec (i : Nat) (v : LoafSlot) : (s.setLoaf i v).sec = s.sec := rfl
@[simp] theorem setLoaf_ladder (i : Nat) (v : LoafSlot) : (s.setLoaf i v).ladder = s.ladder := rfl
@[simp] theorem setLoaf_dbg (i : Nat) (v : LoafSlot) : (s.setLoaf i v).dbg = s.dbg := rfl
@[simp] theorem setLoaf_links (i : Nat) (v : LoafSlot) : (s.setLoaf i v).links = s.links := rfl
@[simp] theorem setLoaf_bays (i : Nat) (v : LoafSlot) : (s.setLoaf i v).bays = s.bays := rfl
@[simp] theorem setLoaf_captures (i : Nat) (v : LoafSlot) : (s.setLoaf i v).captures = s.captures := rfl
@[simp] theorem setLoaf_scratch (i : Nat) (v : LoafSlot) : (s.setLoaf i v).scratch = s.scratch := rfl
@[simp] theorem setLoaf_i3cAddr (i : Nat) (v : LoafSlot) : (s.setLoaf i v).i3cAddr = s.i3cAddr := rfl
@[simp] theorem setLoaf_burst (i : Nat) (v : LoafSlot) : (s.setLoaf i v).burst = s.burst := rfl
@[simp] theorem setLoaf_sets (i : Nat) (v : LoafSlot) : (s.setLoaf i v).sets = s.sets := rfl
@[simp] theorem setLoaf_at_core (i : Nat) (v : LoafSlot) (j : Nat) : (s.setLoaf i v).core j = s.core j := rfl
@[simp] theorem setLoaf_at_die (i : Nat) (v : LoafSlot) (j : Nat) : (s.setLoaf i v).die j = s.die j := rfl
@[simp] theorem setLoaf_at_part (i : Nat) (v : LoafSlot) (j : Nat) : (s.setLoaf i v).part j = s.part j := rfl
@[simp] theorem setLoaf_at_ctx (i : Nat) (v : LoafSlot) (j : Nat) : (s.setLoaf i v).ctx j = s.ctx j := rfl
@[simp] theorem setLoaf_at_model (i : Nat) (v : LoafSlot) (j : Nat) : (s.setLoaf i v).model j = s.model j := rfl
@[simp] theorem setLoaf_now (i : Nat) (v : LoafSlot) : (s.setLoaf i v).now = s.now := rfl
@[simp] theorem setLoaf_at_fn (i : Nat) (v : LoafSlot) (j : Nat) : (s.setLoaf i v).fn j = s.fn j := rfl
@[simp] theorem setLoaf_at_port (i : Nat) (v : LoafSlot) (j : Nat) : (s.setLoaf i v).port j = s.port j := rfl

/-! `State.setModel` -/

@[simp] theorem setModel_pending (n : Nat) (v : ModelSlot) : (s.setModel n v).pending = s.pending := rfl
@[simp] theorem setModel_free (n : Nat) (v : ModelSlot) : (s.setModel n v).free = s.free := rfl
@[simp] theorem setModel_out (n : Nat) (v : ModelSlot) : (s.setModel n v).out = s.out := rfl
@[simp] theorem setModel_reply (n : Nat) (v : ModelSlot) : (s.setModel n v).reply = s.reply := rfl
@[simp] theorem setModel_time (n : Nat) (v : ModelSlot) : (s.setModel n v).time = s.time := rfl
@[simp] theorem setModel_log (n : Nat) (v : ModelSlot) : (s.setModel n v).log = s.log := rfl
@[simp] theorem setModel_ledger (n : Nat) (v : ModelSlot) : (s.setModel n v).ledger = s.ledger := rfl
@[simp] theorem setModel_crust (n : Nat) (v : ModelSlot) : (s.setModel n v).crust = s.crust := rfl
@[simp] theorem setModel_tele (n : Nat) (v : ModelSlot) : (s.setModel n v).tele = s.tele := rfl
@[simp] theorem setModel_crumbLog (n : Nat) (v : ModelSlot) : (s.setModel n v).crumbLog = s.crumbLog := rfl
@[simp] theorem setModel_cores (n : Nat) (v : ModelSlot) : (s.setModel n v).cores = s.cores := rfl
@[simp] theorem setModel_dies (n : Nat) (v : ModelSlot) : (s.setModel n v).dies = s.dies := rfl
@[simp] theorem setModel_parts (n : Nat) (v : ModelSlot) : (s.setModel n v).parts = s.parts := rfl
@[simp] theorem setModel_ctxs (n : Nat) (v : ModelSlot) : (s.setModel n v).ctxs = s.ctxs := rfl
@[simp] theorem setModel_loafs (n : Nat) (v : ModelSlot) : (s.setModel n v).loafs = s.loafs := rfl
@[simp] theorem setModel_models (n : Nat) (v : ModelSlot) : (s.setModel n v).models = smapSet .reset s.models n v := rfl
@[simp] theorem setModel_bs (n : Nat) (v : ModelSlot) : (s.setModel n v).bs = s.bs := rfl
@[simp] theorem setModel_mem (n : Nat) (v : ModelSlot) : (s.setModel n v).mem = s.mem := rfl
@[simp] theorem setModel_fab (n : Nat) (v : ModelSlot) : (s.setModel n v).fab = s.fab := rfl
@[simp] theorem setModel_host (n : Nat) (v : ModelSlot) : (s.setModel n v).host = s.host := rfl
@[simp] theorem setModel_alertN (n : Nat) (v : ModelSlot) : (s.setModel n v).alertN = s.alertN := rfl
@[simp] theorem setModel_power (n : Nat) (v : ModelSlot) : (s.setModel n v).power = s.power := rfl
@[simp] theorem setModel_fuse (n : Nat) (v : ModelSlot) : (s.setModel n v).fuse = s.fuse := rfl
@[simp] theorem setModel_sec (n : Nat) (v : ModelSlot) : (s.setModel n v).sec = s.sec := rfl
@[simp] theorem setModel_ladder (n : Nat) (v : ModelSlot) : (s.setModel n v).ladder = s.ladder := rfl
@[simp] theorem setModel_dbg (n : Nat) (v : ModelSlot) : (s.setModel n v).dbg = s.dbg := rfl
@[simp] theorem setModel_links (n : Nat) (v : ModelSlot) : (s.setModel n v).links = s.links := rfl
@[simp] theorem setModel_bays (n : Nat) (v : ModelSlot) : (s.setModel n v).bays = s.bays := rfl
@[simp] theorem setModel_captures (n : Nat) (v : ModelSlot) : (s.setModel n v).captures = s.captures := rfl
@[simp] theorem setModel_scratch (n : Nat) (v : ModelSlot) : (s.setModel n v).scratch = s.scratch := rfl
@[simp] theorem setModel_i3cAddr (n : Nat) (v : ModelSlot) : (s.setModel n v).i3cAddr = s.i3cAddr := rfl
@[simp] theorem setModel_burst (n : Nat) (v : ModelSlot) : (s.setModel n v).burst = s.burst := rfl
@[simp] theorem setModel_sets (n : Nat) (v : ModelSlot) : (s.setModel n v).sets = s.sets := rfl
@[simp] theorem setModel_at_core (n : Nat) (v : ModelSlot) (j : Nat) : (s.setModel n v).core j = s.core j := rfl
@[simp] theorem setModel_at_die (n : Nat) (v : ModelSlot) (j : Nat) : (s.setModel n v).die j = s.die j := rfl
@[simp] theorem setModel_at_part (n : Nat) (v : ModelSlot) (j : Nat) : (s.setModel n v).part j = s.part j := rfl
@[simp] theorem setModel_at_ctx (n : Nat) (v : ModelSlot) (j : Nat) : (s.setModel n v).ctx j = s.ctx j := rfl
@[simp] theorem setModel_at_loaf (n : Nat) (v : ModelSlot) (j : Nat) : (s.setModel n v).loaf j = s.loaf j := rfl
@[simp] theorem setModel_now (n : Nat) (v : ModelSlot) : (s.setModel n v).now = s.now := rfl
@[simp] theorem setModel_at_fn (n : Nat) (v : ModelSlot) (j : Nat) : (s.setModel n v).fn j = s.fn j := rfl
@[simp] theorem setModel_at_port (n : Nat) (v : ModelSlot) (j : Nat) : (s.setModel n v).port j = s.port j := rfl

/-! `State.event` -/

@[simp] theorem event_pending (src code : Nat) (d : BitVec 96) : (s.event src code d).pending = s.pending := rfl
@[simp] theorem event_free (src code : Nat) (d : BitVec 96) : (s.event src code d).free = s.free := rfl
@[simp] theorem event_out (src code : Nat) (d : BitVec 96) : (s.event src code d).out = s.out := rfl
@[simp] theorem event_reply (src code : Nat) (d : BitVec 96) : (s.event src code d).reply = s.reply := rfl
@[simp] theorem event_time (src code : Nat) (d : BitVec 96) : (s.event src code d).time = s.time := rfl
@[simp] theorem event_log (src code : Nat) (d : BitVec 96) : (s.event src code d).log = { s.log with pending := s.log.pending ++ [⟨s.now, src, code, d, false, false⟩] } := rfl
@[simp] theorem event_ledger (src code : Nat) (d : BitVec 96) : (s.event src code d).ledger = s.ledger := rfl
@[simp] theorem event_crust (src code : Nat) (d : BitVec 96) : (s.event src code d).crust = s.crust := rfl
@[simp] theorem event_tele (src code : Nat) (d : BitVec 96) : (s.event src code d).tele = s.tele := rfl
@[simp] theorem event_crumbLog (src code : Nat) (d : BitVec 96) : (s.event src code d).crumbLog = s.crumbLog := rfl
@[simp] theorem event_cores (src code : Nat) (d : BitVec 96) : (s.event src code d).cores = s.cores := rfl
@[simp] theorem event_dies (src code : Nat) (d : BitVec 96) : (s.event src code d).dies = s.dies := rfl
@[simp] theorem event_parts (src code : Nat) (d : BitVec 96) : (s.event src code d).parts = s.parts := rfl
@[simp] theorem event_ctxs (src code : Nat) (d : BitVec 96) : (s.event src code d).ctxs = s.ctxs := rfl
@[simp] theorem event_loafs (src code : Nat) (d : BitVec 96) : (s.event src code d).loafs = s.loafs := rfl
@[simp] theorem event_models (src code : Nat) (d : BitVec 96) : (s.event src code d).models = s.models := rfl
@[simp] theorem event_bs (src code : Nat) (d : BitVec 96) : (s.event src code d).bs = s.bs := rfl
@[simp] theorem event_mem (src code : Nat) (d : BitVec 96) : (s.event src code d).mem = s.mem := rfl
@[simp] theorem event_fab (src code : Nat) (d : BitVec 96) : (s.event src code d).fab = s.fab := rfl
@[simp] theorem event_host (src code : Nat) (d : BitVec 96) : (s.event src code d).host = s.host := rfl
@[simp] theorem event_alertN (src code : Nat) (d : BitVec 96) : (s.event src code d).alertN = s.alertN := rfl
@[simp] theorem event_power (src code : Nat) (d : BitVec 96) : (s.event src code d).power = s.power := rfl
@[simp] theorem event_fuse (src code : Nat) (d : BitVec 96) : (s.event src code d).fuse = s.fuse := rfl
@[simp] theorem event_sec (src code : Nat) (d : BitVec 96) : (s.event src code d).sec = s.sec := rfl
@[simp] theorem event_ladder (src code : Nat) (d : BitVec 96) : (s.event src code d).ladder = s.ladder := rfl
@[simp] theorem event_dbg (src code : Nat) (d : BitVec 96) : (s.event src code d).dbg = s.dbg := rfl
@[simp] theorem event_links (src code : Nat) (d : BitVec 96) : (s.event src code d).links = s.links := rfl
@[simp] theorem event_bays (src code : Nat) (d : BitVec 96) : (s.event src code d).bays = s.bays := rfl
@[simp] theorem event_captures (src code : Nat) (d : BitVec 96) : (s.event src code d).captures = s.captures := rfl
@[simp] theorem event_scratch (src code : Nat) (d : BitVec 96) : (s.event src code d).scratch = s.scratch := rfl
@[simp] theorem event_i3cAddr (src code : Nat) (d : BitVec 96) : (s.event src code d).i3cAddr = s.i3cAddr := rfl
@[simp] theorem event_burst (src code : Nat) (d : BitVec 96) : (s.event src code d).burst = s.burst := rfl
@[simp] theorem event_sets (src code : Nat) (d : BitVec 96) : (s.event src code d).sets = s.sets := rfl
@[simp] theorem event_at_core (src code : Nat) (d : BitVec 96) (j : Nat) : (s.event src code d).core j = s.core j := rfl
@[simp] theorem event_at_die (src code : Nat) (d : BitVec 96) (j : Nat) : (s.event src code d).die j = s.die j := rfl
@[simp] theorem event_at_part (src code : Nat) (d : BitVec 96) (j : Nat) : (s.event src code d).part j = s.part j := rfl
@[simp] theorem event_at_ctx (src code : Nat) (d : BitVec 96) (j : Nat) : (s.event src code d).ctx j = s.ctx j := rfl
@[simp] theorem event_at_loaf (src code : Nat) (d : BitVec 96) (j : Nat) : (s.event src code d).loaf j = s.loaf j := rfl
@[simp] theorem event_at_model (src code : Nat) (d : BitVec 96) (j : Nat) : (s.event src code d).model j = s.model j := rfl
@[simp] theorem event_now (src code : Nat) (d : BitVec 96) : (s.event src code d).now = s.now := rfl
@[simp] theorem event_at_fn (src code : Nat) (d : BitVec 96) (j : Nat) : (s.event src code d).fn j = s.fn j := rfl
@[simp] theorem event_at_port (src code : Nat) (d : BitVec 96) (j : Nat) : (s.event src code d).port j = s.port j := rfl

/-! `State.life` -/

@[simp] theorem life_pending (d : Nat) (f : LifeCounters → LifeCounters) : (s.life d f).pending = s.pending := rfl
@[simp] theorem life_free (d : Nat) (f : LifeCounters → LifeCounters) : (s.life d f).free = s.free := rfl
@[simp] theorem life_out (d : Nat) (f : LifeCounters → LifeCounters) : (s.life d f).out = s.out := rfl
@[simp] theorem life_reply (d : Nat) (f : LifeCounters → LifeCounters) : (s.life d f).reply = s.reply := rfl
@[simp] theorem life_time (d : Nat) (f : LifeCounters → LifeCounters) : (s.life d f).time = s.time := rfl
@[simp] theorem life_log (d : Nat) (f : LifeCounters → LifeCounters) : (s.life d f).log = s.log := rfl
@[simp] theorem life_ledger (d : Nat) (f : LifeCounters → LifeCounters) : (s.life d f).ledger = { s.ledger with life := smapUpd .reset s.ledger.life d f } := rfl
@[simp] theorem life_crust (d : Nat) (f : LifeCounters → LifeCounters) : (s.life d f).crust = s.crust := rfl
@[simp] theorem life_tele (d : Nat) (f : LifeCounters → LifeCounters) : (s.life d f).tele = s.tele := rfl
@[simp] theorem life_crumbLog (d : Nat) (f : LifeCounters → LifeCounters) : (s.life d f).crumbLog = s.crumbLog := rfl
@[simp] theorem life_cores (d : Nat) (f : LifeCounters → LifeCounters) : (s.life d f).cores = s.cores := rfl
@[simp] theorem life_dies (d : Nat) (f : LifeCounters → LifeCounters) : (s.life d f).dies = s.dies := rfl
@[simp] theorem life_parts (d : Nat) (f : LifeCounters → LifeCounters) : (s.life d f).parts = s.parts := rfl
@[simp] theorem life_ctxs (d : Nat) (f : LifeCounters → LifeCounters) : (s.life d f).ctxs = s.ctxs := rfl
@[simp] theorem life_loafs (d : Nat) (f : LifeCounters → LifeCounters) : (s.life d f).loafs = s.loafs := rfl
@[simp] theorem life_models (d : Nat) (f : LifeCounters → LifeCounters) : (s.life d f).models = s.models := rfl
@[simp] theorem life_bs (d : Nat) (f : LifeCounters → LifeCounters) : (s.life d f).bs = s.bs := rfl
@[simp] theorem life_mem (d : Nat) (f : LifeCounters → LifeCounters) : (s.life d f).mem = s.mem := rfl
@[simp] theorem life_fab (d : Nat) (f : LifeCounters → LifeCounters) : (s.life d f).fab = s.fab := rfl
@[simp] theorem life_host (d : Nat) (f : LifeCounters → LifeCounters) : (s.life d f).host = s.host := rfl
@[simp] theorem life_alertN (d : Nat) (f : LifeCounters → LifeCounters) : (s.life d f).alertN = s.alertN := rfl
@[simp] theorem life_power (d : Nat) (f : LifeCounters → LifeCounters) : (s.life d f).power = s.power := rfl
@[simp] theorem life_fuse (d : Nat) (f : LifeCounters → LifeCounters) : (s.life d f).fuse = s.fuse := rfl
@[simp] theorem life_sec (d : Nat) (f : LifeCounters → LifeCounters) : (s.life d f).sec = s.sec := rfl
@[simp] theorem life_ladder (d : Nat) (f : LifeCounters → LifeCounters) : (s.life d f).ladder = s.ladder := rfl
@[simp] theorem life_dbg (d : Nat) (f : LifeCounters → LifeCounters) : (s.life d f).dbg = s.dbg := rfl
@[simp] theorem life_links (d : Nat) (f : LifeCounters → LifeCounters) : (s.life d f).links = s.links := rfl
@[simp] theorem life_bays (d : Nat) (f : LifeCounters → LifeCounters) : (s.life d f).bays = s.bays := rfl
@[simp] theorem life_captures (d : Nat) (f : LifeCounters → LifeCounters) : (s.life d f).captures = s.captures := rfl
@[simp] theorem life_scratch (d : Nat) (f : LifeCounters → LifeCounters) : (s.life d f).scratch = s.scratch := rfl
@[simp] theorem life_i3cAddr (d : Nat) (f : LifeCounters → LifeCounters) : (s.life d f).i3cAddr = s.i3cAddr := rfl
@[simp] theorem life_burst (d : Nat) (f : LifeCounters → LifeCounters) : (s.life d f).burst = s.burst := rfl
@[simp] theorem life_sets (d : Nat) (f : LifeCounters → LifeCounters) : (s.life d f).sets = s.sets := rfl
@[simp] theorem life_at_core (d : Nat) (f : LifeCounters → LifeCounters) (j : Nat) : (s.life d f).core j = s.core j := rfl
@[simp] theorem life_at_die (d : Nat) (f : LifeCounters → LifeCounters) (j : Nat) : (s.life d f).die j = s.die j := rfl
@[simp] theorem life_at_part (d : Nat) (f : LifeCounters → LifeCounters) (j : Nat) : (s.life d f).part j = s.part j := rfl
@[simp] theorem life_at_ctx (d : Nat) (f : LifeCounters → LifeCounters) (j : Nat) : (s.life d f).ctx j = s.ctx j := rfl
@[simp] theorem life_at_loaf (d : Nat) (f : LifeCounters → LifeCounters) (j : Nat) : (s.life d f).loaf j = s.loaf j := rfl
@[simp] theorem life_at_model (d : Nat) (f : LifeCounters → LifeCounters) (j : Nat) : (s.life d f).model j = s.model j := rfl
@[simp] theorem life_now (d : Nat) (f : LifeCounters → LifeCounters) : (s.life d f).now = s.now := rfl
@[simp] theorem life_at_fn (d : Nat) (f : LifeCounters → LifeCounters) (j : Nat) : (s.life d f).fn j = s.fn j := rfl
@[simp] theorem life_at_port (d : Nat) (f : LifeCounters → LifeCounters) (j : Nat) : (s.life d f).port j = s.port j := rfl

/-! `State.setFn` -/

@[simp] theorem setFn_pending (n : Nat) (v : PcieFn) : (s.setFn n v).pending = s.pending := rfl
@[simp] theorem setFn_free (n : Nat) (v : PcieFn) : (s.setFn n v).free = s.free := rfl
@[simp] theorem setFn_out (n : Nat) (v : PcieFn) : (s.setFn n v).out = s.out := rfl
@[simp] theorem setFn_reply (n : Nat) (v : PcieFn) : (s.setFn n v).reply = s.reply := rfl
@[simp] theorem setFn_time (n : Nat) (v : PcieFn) : (s.setFn n v).time = s.time := rfl
@[simp] theorem setFn_log (n : Nat) (v : PcieFn) : (s.setFn n v).log = s.log := rfl
@[simp] theorem setFn_ledger (n : Nat) (v : PcieFn) : (s.setFn n v).ledger = s.ledger := rfl
@[simp] theorem setFn_crust (n : Nat) (v : PcieFn) : (s.setFn n v).crust = s.crust := rfl
@[simp] theorem setFn_tele (n : Nat) (v : PcieFn) : (s.setFn n v).tele = s.tele := rfl
@[simp] theorem setFn_crumbLog (n : Nat) (v : PcieFn) : (s.setFn n v).crumbLog = s.crumbLog := rfl
@[simp] theorem setFn_cores (n : Nat) (v : PcieFn) : (s.setFn n v).cores = s.cores := rfl
@[simp] theorem setFn_dies (n : Nat) (v : PcieFn) : (s.setFn n v).dies = s.dies := rfl
@[simp] theorem setFn_parts (n : Nat) (v : PcieFn) : (s.setFn n v).parts = s.parts := rfl
@[simp] theorem setFn_ctxs (n : Nat) (v : PcieFn) : (s.setFn n v).ctxs = s.ctxs := rfl
@[simp] theorem setFn_loafs (n : Nat) (v : PcieFn) : (s.setFn n v).loafs = s.loafs := rfl
@[simp] theorem setFn_models (n : Nat) (v : PcieFn) : (s.setFn n v).models = s.models := rfl
@[simp] theorem setFn_bs (n : Nat) (v : PcieFn) : (s.setFn n v).bs = s.bs := rfl
@[simp] theorem setFn_mem (n : Nat) (v : PcieFn) : (s.setFn n v).mem = s.mem := rfl
@[simp] theorem setFn_fab (n : Nat) (v : PcieFn) : (s.setFn n v).fab = s.fab := rfl
@[simp] theorem setFn_host (n : Nat) (v : PcieFn) : (s.setFn n v).host = { s.host with fns := smapSet .reset s.host.fns n v } := rfl
@[simp] theorem setFn_alertN (n : Nat) (v : PcieFn) : (s.setFn n v).alertN = s.alertN := rfl
@[simp] theorem setFn_power (n : Nat) (v : PcieFn) : (s.setFn n v).power = s.power := rfl
@[simp] theorem setFn_fuse (n : Nat) (v : PcieFn) : (s.setFn n v).fuse = s.fuse := rfl
@[simp] theorem setFn_sec (n : Nat) (v : PcieFn) : (s.setFn n v).sec = s.sec := rfl
@[simp] theorem setFn_ladder (n : Nat) (v : PcieFn) : (s.setFn n v).ladder = s.ladder := rfl
@[simp] theorem setFn_dbg (n : Nat) (v : PcieFn) : (s.setFn n v).dbg = s.dbg := rfl
@[simp] theorem setFn_links (n : Nat) (v : PcieFn) : (s.setFn n v).links = s.links := rfl
@[simp] theorem setFn_bays (n : Nat) (v : PcieFn) : (s.setFn n v).bays = s.bays := rfl
@[simp] theorem setFn_captures (n : Nat) (v : PcieFn) : (s.setFn n v).captures = s.captures := rfl
@[simp] theorem setFn_scratch (n : Nat) (v : PcieFn) : (s.setFn n v).scratch = s.scratch := rfl
@[simp] theorem setFn_i3cAddr (n : Nat) (v : PcieFn) : (s.setFn n v).i3cAddr = s.i3cAddr := rfl
@[simp] theorem setFn_burst (n : Nat) (v : PcieFn) : (s.setFn n v).burst = s.burst := rfl
@[simp] theorem setFn_sets (n : Nat) (v : PcieFn) : (s.setFn n v).sets = s.sets := rfl
@[simp] theorem setFn_at_core (n : Nat) (v : PcieFn) (j : Nat) : (s.setFn n v).core j = s.core j := rfl
@[simp] theorem setFn_at_die (n : Nat) (v : PcieFn) (j : Nat) : (s.setFn n v).die j = s.die j := rfl
@[simp] theorem setFn_at_part (n : Nat) (v : PcieFn) (j : Nat) : (s.setFn n v).part j = s.part j := rfl
@[simp] theorem setFn_at_ctx (n : Nat) (v : PcieFn) (j : Nat) : (s.setFn n v).ctx j = s.ctx j := rfl
@[simp] theorem setFn_at_loaf (n : Nat) (v : PcieFn) (j : Nat) : (s.setFn n v).loaf j = s.loaf j := rfl
@[simp] theorem setFn_at_model (n : Nat) (v : PcieFn) (j : Nat) : (s.setFn n v).model j = s.model j := rfl
@[simp] theorem setFn_now (n : Nat) (v : PcieFn) : (s.setFn n v).now = s.now := rfl
@[simp] theorem setFn_at_port (n : Nat) (v : PcieFn) (j : Nat) : (s.setFn n v).port j = s.port j := rfl

/-! `State.setPort` -/

@[simp] theorem setPort_pending (n : Nat) (v : Port) : (s.setPort n v).pending = s.pending := rfl
@[simp] theorem setPort_free (n : Nat) (v : Port) : (s.setPort n v).free = s.free := rfl
@[simp] theorem setPort_out (n : Nat) (v : Port) : (s.setPort n v).out = s.out := rfl
@[simp] theorem setPort_reply (n : Nat) (v : Port) : (s.setPort n v).reply = s.reply := rfl
@[simp] theorem setPort_time (n : Nat) (v : Port) : (s.setPort n v).time = s.time := rfl
@[simp] theorem setPort_log (n : Nat) (v : Port) : (s.setPort n v).log = s.log := rfl
@[simp] theorem setPort_ledger (n : Nat) (v : Port) : (s.setPort n v).ledger = s.ledger := rfl
@[simp] theorem setPort_crust (n : Nat) (v : Port) : (s.setPort n v).crust = s.crust := rfl
@[simp] theorem setPort_tele (n : Nat) (v : Port) : (s.setPort n v).tele = s.tele := rfl
@[simp] theorem setPort_crumbLog (n : Nat) (v : Port) : (s.setPort n v).crumbLog = s.crumbLog := rfl
@[simp] theorem setPort_cores (n : Nat) (v : Port) : (s.setPort n v).cores = s.cores := rfl
@[simp] theorem setPort_dies (n : Nat) (v : Port) : (s.setPort n v).dies = s.dies := rfl
@[simp] theorem setPort_parts (n : Nat) (v : Port) : (s.setPort n v).parts = s.parts := rfl
@[simp] theorem setPort_ctxs (n : Nat) (v : Port) : (s.setPort n v).ctxs = s.ctxs := rfl
@[simp] theorem setPort_loafs (n : Nat) (v : Port) : (s.setPort n v).loafs = s.loafs := rfl
@[simp] theorem setPort_models (n : Nat) (v : Port) : (s.setPort n v).models = s.models := rfl
@[simp] theorem setPort_bs (n : Nat) (v : Port) : (s.setPort n v).bs = s.bs := rfl
@[simp] theorem setPort_mem (n : Nat) (v : Port) : (s.setPort n v).mem = s.mem := rfl
@[simp] theorem setPort_fab (n : Nat) (v : Port) : (s.setPort n v).fab = { s.fab with ports := smapSet .reset s.fab.ports n v } := rfl
@[simp] theorem setPort_host (n : Nat) (v : Port) : (s.setPort n v).host = s.host := rfl
@[simp] theorem setPort_alertN (n : Nat) (v : Port) : (s.setPort n v).alertN = s.alertN := rfl
@[simp] theorem setPort_power (n : Nat) (v : Port) : (s.setPort n v).power = s.power := rfl
@[simp] theorem setPort_fuse (n : Nat) (v : Port) : (s.setPort n v).fuse = s.fuse := rfl
@[simp] theorem setPort_sec (n : Nat) (v : Port) : (s.setPort n v).sec = s.sec := rfl
@[simp] theorem setPort_ladder (n : Nat) (v : Port) : (s.setPort n v).ladder = s.ladder := rfl
@[simp] theorem setPort_dbg (n : Nat) (v : Port) : (s.setPort n v).dbg = s.dbg := rfl
@[simp] theorem setPort_links (n : Nat) (v : Port) : (s.setPort n v).links = s.links := rfl
@[simp] theorem setPort_bays (n : Nat) (v : Port) : (s.setPort n v).bays = s.bays := rfl
@[simp] theorem setPort_captures (n : Nat) (v : Port) : (s.setPort n v).captures = s.captures := rfl
@[simp] theorem setPort_scratch (n : Nat) (v : Port) : (s.setPort n v).scratch = s.scratch := rfl
@[simp] theorem setPort_i3cAddr (n : Nat) (v : Port) : (s.setPort n v).i3cAddr = s.i3cAddr := rfl
@[simp] theorem setPort_burst (n : Nat) (v : Port) : (s.setPort n v).burst = s.burst := rfl
@[simp] theorem setPort_sets (n : Nat) (v : Port) : (s.setPort n v).sets = s.sets := rfl
@[simp] theorem setPort_at_core (n : Nat) (v : Port) (j : Nat) : (s.setPort n v).core j = s.core j := rfl
@[simp] theorem setPort_at_die (n : Nat) (v : Port) (j : Nat) : (s.setPort n v).die j = s.die j := rfl
@[simp] theorem setPort_at_part (n : Nat) (v : Port) (j : Nat) : (s.setPort n v).part j = s.part j := rfl
@[simp] theorem setPort_at_ctx (n : Nat) (v : Port) (j : Nat) : (s.setPort n v).ctx j = s.ctx j := rfl
@[simp] theorem setPort_at_loaf (n : Nat) (v : Port) (j : Nat) : (s.setPort n v).loaf j = s.loaf j := rfl
@[simp] theorem setPort_at_model (n : Nat) (v : Port) (j : Nat) : (s.setPort n v).model j = s.model j := rfl
@[simp] theorem setPort_now (n : Nat) (v : Port) : (s.setPort n v).now = s.now := rfl
@[simp] theorem setPort_at_fn (n : Nat) (v : Port) (j : Nat) : (s.setPort n v).fn j = s.fn j := rfl

/-! `State.setBay` -/

@[simp] theorem setBay_pending (e : Nat) (b : Bay) : (s.setBay e b).pending = s.pending := rfl
@[simp] theorem setBay_free (e : Nat) (b : Bay) : (s.setBay e b).free = s.free := rfl
@[simp] theorem setBay_out (e : Nat) (b : Bay) : (s.setBay e b).out = s.out := rfl
@[simp] theorem setBay_reply (e : Nat) (b : Bay) : (s.setBay e b).reply = s.reply := rfl
@[simp] theorem setBay_time (e : Nat) (b : Bay) : (s.setBay e b).time = s.time := rfl
@[simp] theorem setBay_log (e : Nat) (b : Bay) : (s.setBay e b).log = s.log := rfl
@[simp] theorem setBay_ledger (e : Nat) (b : Bay) : (s.setBay e b).ledger = s.ledger := rfl
@[simp] theorem setBay_crust (e : Nat) (b : Bay) : (s.setBay e b).crust = s.crust := rfl
@[simp] theorem setBay_tele (e : Nat) (b : Bay) : (s.setBay e b).tele = s.tele := rfl
@[simp] theorem setBay_crumbLog (e : Nat) (b : Bay) : (s.setBay e b).crumbLog = s.crumbLog := rfl
@[simp] theorem setBay_cores (e : Nat) (b : Bay) : (s.setBay e b).cores = s.cores := rfl
@[simp] theorem setBay_dies (e : Nat) (b : Bay) : (s.setBay e b).dies = s.dies := rfl
@[simp] theorem setBay_parts (e : Nat) (b : Bay) : (s.setBay e b).parts = s.parts := rfl
@[simp] theorem setBay_ctxs (e : Nat) (b : Bay) : (s.setBay e b).ctxs = s.ctxs := rfl
@[simp] theorem setBay_loafs (e : Nat) (b : Bay) : (s.setBay e b).loafs = s.loafs := rfl
@[simp] theorem setBay_models (e : Nat) (b : Bay) : (s.setBay e b).models = s.models := rfl
@[simp] theorem setBay_bs (e : Nat) (b : Bay) : (s.setBay e b).bs = s.bs := rfl
@[simp] theorem setBay_mem (e : Nat) (b : Bay) : (s.setBay e b).mem = s.mem := rfl
@[simp] theorem setBay_fab (e : Nat) (b : Bay) : (s.setBay e b).fab = s.fab := rfl
@[simp] theorem setBay_host (e : Nat) (b : Bay) : (s.setBay e b).host = s.host := rfl
@[simp] theorem setBay_alertN (e : Nat) (b : Bay) : (s.setBay e b).alertN = s.alertN := rfl
@[simp] theorem setBay_power (e : Nat) (b : Bay) : (s.setBay e b).power = s.power := rfl
@[simp] theorem setBay_fuse (e : Nat) (b : Bay) : (s.setBay e b).fuse = s.fuse := rfl
@[simp] theorem setBay_sec (e : Nat) (b : Bay) : (s.setBay e b).sec = s.sec := rfl
@[simp] theorem setBay_ladder (e : Nat) (b : Bay) : (s.setBay e b).ladder = s.ladder := rfl
@[simp] theorem setBay_dbg (e : Nat) (b : Bay) : (s.setBay e b).dbg = s.dbg := rfl
@[simp] theorem setBay_links (e : Nat) (b : Bay) : (s.setBay e b).links = s.links := rfl
@[simp] theorem setBay_bays (e : Nat) (b : Bay) : (s.setBay e b).bays = smapSet .reset s.bays e b := rfl
@[simp] theorem setBay_captures (e : Nat) (b : Bay) : (s.setBay e b).captures = s.captures := rfl
@[simp] theorem setBay_scratch (e : Nat) (b : Bay) : (s.setBay e b).scratch = s.scratch := rfl
@[simp] theorem setBay_i3cAddr (e : Nat) (b : Bay) : (s.setBay e b).i3cAddr = s.i3cAddr := rfl
@[simp] theorem setBay_burst (e : Nat) (b : Bay) : (s.setBay e b).burst = s.burst := rfl
@[simp] theorem setBay_sets (e : Nat) (b : Bay) : (s.setBay e b).sets = s.sets := rfl
@[simp] theorem setBay_at_core (e : Nat) (b : Bay) (j : Nat) : (s.setBay e b).core j = s.core j := rfl
@[simp] theorem setBay_at_die (e : Nat) (b : Bay) (j : Nat) : (s.setBay e b).die j = s.die j := rfl
@[simp] theorem setBay_at_part (e : Nat) (b : Bay) (j : Nat) : (s.setBay e b).part j = s.part j := rfl
@[simp] theorem setBay_at_ctx (e : Nat) (b : Bay) (j : Nat) : (s.setBay e b).ctx j = s.ctx j := rfl
@[simp] theorem setBay_at_loaf (e : Nat) (b : Bay) (j : Nat) : (s.setBay e b).loaf j = s.loaf j := rfl
@[simp] theorem setBay_at_model (e : Nat) (b : Bay) (j : Nat) : (s.setBay e b).model j = s.model j := rfl
@[simp] theorem setBay_now (e : Nat) (b : Bay) : (s.setBay e b).now = s.now := rfl
@[simp] theorem setBay_at_fn (e : Nat) (b : Bay) (j : Nat) : (s.setBay e b).fn j = s.fn j := rfl
@[simp] theorem setBay_at_port (e : Nat) (b : Bay) (j : Nat) : (s.setBay e b).port j = s.port j := rfl

/-! `State.updLink` -/

@[simp] theorem updLink_pending (src : Nat) (f : DieLink → DieLink) : (s.updLink src f).pending = s.pending := rfl
@[simp] theorem updLink_free (src : Nat) (f : DieLink → DieLink) : (s.updLink src f).free = s.free := rfl
@[simp] theorem updLink_out (src : Nat) (f : DieLink → DieLink) : (s.updLink src f).out = s.out := rfl
@[simp] theorem updLink_reply (src : Nat) (f : DieLink → DieLink) : (s.updLink src f).reply = s.reply := rfl
@[simp] theorem updLink_time (src : Nat) (f : DieLink → DieLink) : (s.updLink src f).time = s.time := rfl
@[simp] theorem updLink_log (src : Nat) (f : DieLink → DieLink) : (s.updLink src f).log = s.log := rfl
@[simp] theorem updLink_ledger (src : Nat) (f : DieLink → DieLink) : (s.updLink src f).ledger = s.ledger := rfl
@[simp] theorem updLink_crust (src : Nat) (f : DieLink → DieLink) : (s.updLink src f).crust = s.crust := rfl
@[simp] theorem updLink_tele (src : Nat) (f : DieLink → DieLink) : (s.updLink src f).tele = s.tele := rfl
@[simp] theorem updLink_crumbLog (src : Nat) (f : DieLink → DieLink) : (s.updLink src f).crumbLog = s.crumbLog := rfl
@[simp] theorem updLink_cores (src : Nat) (f : DieLink → DieLink) : (s.updLink src f).cores = s.cores := rfl
@[simp] theorem updLink_dies (src : Nat) (f : DieLink → DieLink) : (s.updLink src f).dies = s.dies := rfl
@[simp] theorem updLink_parts (src : Nat) (f : DieLink → DieLink) : (s.updLink src f).parts = s.parts := rfl
@[simp] theorem updLink_ctxs (src : Nat) (f : DieLink → DieLink) : (s.updLink src f).ctxs = s.ctxs := rfl
@[simp] theorem updLink_loafs (src : Nat) (f : DieLink → DieLink) : (s.updLink src f).loafs = s.loafs := rfl
@[simp] theorem updLink_models (src : Nat) (f : DieLink → DieLink) : (s.updLink src f).models = s.models := rfl
@[simp] theorem updLink_bs (src : Nat) (f : DieLink → DieLink) : (s.updLink src f).bs = s.bs := rfl
@[simp] theorem updLink_mem (src : Nat) (f : DieLink → DieLink) : (s.updLink src f).mem = s.mem := rfl
@[simp] theorem updLink_fab (src : Nat) (f : DieLink → DieLink) : (s.updLink src f).fab = s.fab := rfl
@[simp] theorem updLink_host (src : Nat) (f : DieLink → DieLink) : (s.updLink src f).host = s.host := rfl
@[simp] theorem updLink_alertN (src : Nat) (f : DieLink → DieLink) : (s.updLink src f).alertN = s.alertN := rfl
@[simp] theorem updLink_power (src : Nat) (f : DieLink → DieLink) : (s.updLink src f).power = s.power := rfl
@[simp] theorem updLink_fuse (src : Nat) (f : DieLink → DieLink) : (s.updLink src f).fuse = s.fuse := rfl
@[simp] theorem updLink_sec (src : Nat) (f : DieLink → DieLink) : (s.updLink src f).sec = s.sec := rfl
@[simp] theorem updLink_ladder (src : Nat) (f : DieLink → DieLink) : (s.updLink src f).ladder = s.ladder := rfl
@[simp] theorem updLink_dbg (src : Nat) (f : DieLink → DieLink) : (s.updLink src f).dbg = s.dbg := rfl
@[simp] theorem updLink_links (src : Nat) (f : DieLink → DieLink) : (s.updLink src f).links = smapUpd .reset s.links src f := rfl
@[simp] theorem updLink_bays (src : Nat) (f : DieLink → DieLink) : (s.updLink src f).bays = s.bays := rfl
@[simp] theorem updLink_captures (src : Nat) (f : DieLink → DieLink) : (s.updLink src f).captures = s.captures := rfl
@[simp] theorem updLink_scratch (src : Nat) (f : DieLink → DieLink) : (s.updLink src f).scratch = s.scratch := rfl
@[simp] theorem updLink_i3cAddr (src : Nat) (f : DieLink → DieLink) : (s.updLink src f).i3cAddr = s.i3cAddr := rfl
@[simp] theorem updLink_burst (src : Nat) (f : DieLink → DieLink) : (s.updLink src f).burst = s.burst := rfl
@[simp] theorem updLink_sets (src : Nat) (f : DieLink → DieLink) : (s.updLink src f).sets = s.sets := rfl
@[simp] theorem updLink_at_core (src : Nat) (f : DieLink → DieLink) (j : Nat) : (s.updLink src f).core j = s.core j := rfl
@[simp] theorem updLink_at_die (src : Nat) (f : DieLink → DieLink) (j : Nat) : (s.updLink src f).die j = s.die j := rfl
@[simp] theorem updLink_at_part (src : Nat) (f : DieLink → DieLink) (j : Nat) : (s.updLink src f).part j = s.part j := rfl
@[simp] theorem updLink_at_ctx (src : Nat) (f : DieLink → DieLink) (j : Nat) : (s.updLink src f).ctx j = s.ctx j := rfl
@[simp] theorem updLink_at_loaf (src : Nat) (f : DieLink → DieLink) (j : Nat) : (s.updLink src f).loaf j = s.loaf j := rfl
@[simp] theorem updLink_at_model (src : Nat) (f : DieLink → DieLink) (j : Nat) : (s.updLink src f).model j = s.model j := rfl
@[simp] theorem updLink_now (src : Nat) (f : DieLink → DieLink) : (s.updLink src f).now = s.now := rfl
@[simp] theorem updLink_at_fn (src : Nat) (f : DieLink → DieLink) (j : Nat) : (s.updLink src f).fn j = s.fn j := rfl
@[simp] theorem updLink_at_port (src : Nat) (f : DieLink → DieLink) (j : Nat) : (s.updLink src f).port j = s.port j := rfl

/-! `State.updHost` -/

@[simp] theorem updHost_pending (f : HostPort → HostPort) : (s.updHost f).pending = s.pending := rfl
@[simp] theorem updHost_free (f : HostPort → HostPort) : (s.updHost f).free = s.free := rfl
@[simp] theorem updHost_out (f : HostPort → HostPort) : (s.updHost f).out = s.out := rfl
@[simp] theorem updHost_reply (f : HostPort → HostPort) : (s.updHost f).reply = s.reply := rfl
@[simp] theorem updHost_time (f : HostPort → HostPort) : (s.updHost f).time = s.time := rfl
@[simp] theorem updHost_log (f : HostPort → HostPort) : (s.updHost f).log = s.log := rfl
@[simp] theorem updHost_ledger (f : HostPort → HostPort) : (s.updHost f).ledger = s.ledger := rfl
@[simp] theorem updHost_crust (f : HostPort → HostPort) : (s.updHost f).crust = s.crust := rfl
@[simp] theorem updHost_tele (f : HostPort → HostPort) : (s.updHost f).tele = s.tele := rfl
@[simp] theorem updHost_crumbLog (f : HostPort → HostPort) : (s.updHost f).crumbLog = s.crumbLog := rfl
@[simp] theorem updHost_cores (f : HostPort → HostPort) : (s.updHost f).cores = s.cores := rfl
@[simp] theorem updHost_dies (f : HostPort → HostPort) : (s.updHost f).dies = s.dies := rfl
@[simp] theorem updHost_parts (f : HostPort → HostPort) : (s.updHost f).parts = s.parts := rfl
@[simp] theorem updHost_ctxs (f : HostPort → HostPort) : (s.updHost f).ctxs = s.ctxs := rfl
@[simp] theorem updHost_loafs (f : HostPort → HostPort) : (s.updHost f).loafs = s.loafs := rfl
@[simp] theorem updHost_models (f : HostPort → HostPort) : (s.updHost f).models = s.models := rfl
@[simp] theorem updHost_bs (f : HostPort → HostPort) : (s.updHost f).bs = s.bs := rfl
@[simp] theorem updHost_mem (f : HostPort → HostPort) : (s.updHost f).mem = s.mem := rfl
@[simp] theorem updHost_fab (f : HostPort → HostPort) : (s.updHost f).fab = s.fab := rfl
@[simp] theorem updHost_host (f : HostPort → HostPort) : (s.updHost f).host = f s.host := rfl
@[simp] theorem updHost_alertN (f : HostPort → HostPort) : (s.updHost f).alertN = s.alertN := rfl
@[simp] theorem updHost_power (f : HostPort → HostPort) : (s.updHost f).power = s.power := rfl
@[simp] theorem updHost_fuse (f : HostPort → HostPort) : (s.updHost f).fuse = s.fuse := rfl
@[simp] theorem updHost_sec (f : HostPort → HostPort) : (s.updHost f).sec = s.sec := rfl
@[simp] theorem updHost_ladder (f : HostPort → HostPort) : (s.updHost f).ladder = s.ladder := rfl
@[simp] theorem updHost_dbg (f : HostPort → HostPort) : (s.updHost f).dbg = s.dbg := rfl
@[simp] theorem updHost_links (f : HostPort → HostPort) : (s.updHost f).links = s.links := rfl
@[simp] theorem updHost_bays (f : HostPort → HostPort) : (s.updHost f).bays = s.bays := rfl
@[simp] theorem updHost_captures (f : HostPort → HostPort) : (s.updHost f).captures = s.captures := rfl
@[simp] theorem updHost_scratch (f : HostPort → HostPort) : (s.updHost f).scratch = s.scratch := rfl
@[simp] theorem updHost_i3cAddr (f : HostPort → HostPort) : (s.updHost f).i3cAddr = s.i3cAddr := rfl
@[simp] theorem updHost_burst (f : HostPort → HostPort) : (s.updHost f).burst = s.burst := rfl
@[simp] theorem updHost_sets (f : HostPort → HostPort) : (s.updHost f).sets = s.sets := rfl
@[simp] theorem updHost_at_core (f : HostPort → HostPort) (j : Nat) : (s.updHost f).core j = s.core j := rfl
@[simp] theorem updHost_at_die (f : HostPort → HostPort) (j : Nat) : (s.updHost f).die j = s.die j := rfl
@[simp] theorem updHost_at_part (f : HostPort → HostPort) (j : Nat) : (s.updHost f).part j = s.part j := rfl
@[simp] theorem updHost_at_ctx (f : HostPort → HostPort) (j : Nat) : (s.updHost f).ctx j = s.ctx j := rfl
@[simp] theorem updHost_at_loaf (f : HostPort → HostPort) (j : Nat) : (s.updHost f).loaf j = s.loaf j := rfl
@[simp] theorem updHost_at_model (f : HostPort → HostPort) (j : Nat) : (s.updHost f).model j = s.model j := rfl
@[simp] theorem updHost_now (f : HostPort → HostPort) : (s.updHost f).now = s.now := rfl
@[simp] theorem updHost_at_port (f : HostPort → HostPort) (j : Nat) : (s.updHost f).port j = s.port j := rfl

/-! `State.updPower` -/

@[simp] theorem updPower_pending (f : Power → Power) : (s.updPower f).pending = s.pending := rfl
@[simp] theorem updPower_free (f : Power → Power) : (s.updPower f).free = s.free := rfl
@[simp] theorem updPower_out (f : Power → Power) : (s.updPower f).out = s.out := rfl
@[simp] theorem updPower_reply (f : Power → Power) : (s.updPower f).reply = s.reply := rfl
@[simp] theorem updPower_time (f : Power → Power) : (s.updPower f).time = s.time := rfl
@[simp] theorem updPower_log (f : Power → Power) : (s.updPower f).log = s.log := rfl
@[simp] theorem updPower_ledger (f : Power → Power) : (s.updPower f).ledger = s.ledger := rfl
@[simp] theorem updPower_crust (f : Power → Power) : (s.updPower f).crust = s.crust := rfl
@[simp] theorem updPower_tele (f : Power → Power) : (s.updPower f).tele = s.tele := rfl
@[simp] theorem updPower_crumbLog (f : Power → Power) : (s.updPower f).crumbLog = s.crumbLog := rfl
@[simp] theorem updPower_cores (f : Power → Power) : (s.updPower f).cores = s.cores := rfl
@[simp] theorem updPower_dies (f : Power → Power) : (s.updPower f).dies = s.dies := rfl
@[simp] theorem updPower_parts (f : Power → Power) : (s.updPower f).parts = s.parts := rfl
@[simp] theorem updPower_ctxs (f : Power → Power) : (s.updPower f).ctxs = s.ctxs := rfl
@[simp] theorem updPower_loafs (f : Power → Power) : (s.updPower f).loafs = s.loafs := rfl
@[simp] theorem updPower_models (f : Power → Power) : (s.updPower f).models = s.models := rfl
@[simp] theorem updPower_bs (f : Power → Power) : (s.updPower f).bs = s.bs := rfl
@[simp] theorem updPower_mem (f : Power → Power) : (s.updPower f).mem = s.mem := rfl
@[simp] theorem updPower_fab (f : Power → Power) : (s.updPower f).fab = s.fab := rfl
@[simp] theorem updPower_host (f : Power → Power) : (s.updPower f).host = s.host := rfl
@[simp] theorem updPower_alertN (f : Power → Power) : (s.updPower f).alertN = s.alertN := rfl
@[simp] theorem updPower_power (f : Power → Power) : (s.updPower f).power = f s.power := rfl
@[simp] theorem updPower_fuse (f : Power → Power) : (s.updPower f).fuse = s.fuse := rfl
@[simp] theorem updPower_sec (f : Power → Power) : (s.updPower f).sec = s.sec := rfl
@[simp] theorem updPower_ladder (f : Power → Power) : (s.updPower f).ladder = s.ladder := rfl
@[simp] theorem updPower_dbg (f : Power → Power) : (s.updPower f).dbg = s.dbg := rfl
@[simp] theorem updPower_links (f : Power → Power) : (s.updPower f).links = s.links := rfl
@[simp] theorem updPower_bays (f : Power → Power) : (s.updPower f).bays = s.bays := rfl
@[simp] theorem updPower_captures (f : Power → Power) : (s.updPower f).captures = s.captures := rfl
@[simp] theorem updPower_scratch (f : Power → Power) : (s.updPower f).scratch = s.scratch := rfl
@[simp] theorem updPower_i3cAddr (f : Power → Power) : (s.updPower f).i3cAddr = s.i3cAddr := rfl
@[simp] theorem updPower_burst (f : Power → Power) : (s.updPower f).burst = s.burst := rfl
@[simp] theorem updPower_sets (f : Power → Power) : (s.updPower f).sets = s.sets := rfl
@[simp] theorem updPower_at_core (f : Power → Power) (j : Nat) : (s.updPower f).core j = s.core j := rfl
@[simp] theorem updPower_at_die (f : Power → Power) (j : Nat) : (s.updPower f).die j = s.die j := rfl
@[simp] theorem updPower_at_part (f : Power → Power) (j : Nat) : (s.updPower f).part j = s.part j := rfl
@[simp] theorem updPower_at_ctx (f : Power → Power) (j : Nat) : (s.updPower f).ctx j = s.ctx j := rfl
@[simp] theorem updPower_at_loaf (f : Power → Power) (j : Nat) : (s.updPower f).loaf j = s.loaf j := rfl
@[simp] theorem updPower_at_model (f : Power → Power) (j : Nat) : (s.updPower f).model j = s.model j := rfl
@[simp] theorem updPower_now (f : Power → Power) : (s.updPower f).now = s.now := rfl
@[simp] theorem updPower_at_fn (f : Power → Power) (j : Nat) : (s.updPower f).fn j = s.fn j := rfl
@[simp] theorem updPower_at_port (f : Power → Power) (j : Nat) : (s.updPower f).port j = s.port j := rfl

/-! `State.updSec` -/

@[simp] theorem updSec_pending (f : Security → Security) : (s.updSec f).pending = s.pending := rfl
@[simp] theorem updSec_free (f : Security → Security) : (s.updSec f).free = s.free := rfl
@[simp] theorem updSec_out (f : Security → Security) : (s.updSec f).out = s.out := rfl
@[simp] theorem updSec_reply (f : Security → Security) : (s.updSec f).reply = s.reply := rfl
@[simp] theorem updSec_time (f : Security → Security) : (s.updSec f).time = s.time := rfl
@[simp] theorem updSec_log (f : Security → Security) : (s.updSec f).log = s.log := rfl
@[simp] theorem updSec_ledger (f : Security → Security) : (s.updSec f).ledger = s.ledger := rfl
@[simp] theorem updSec_crust (f : Security → Security) : (s.updSec f).crust = s.crust := rfl
@[simp] theorem updSec_tele (f : Security → Security) : (s.updSec f).tele = s.tele := rfl
@[simp] theorem updSec_crumbLog (f : Security → Security) : (s.updSec f).crumbLog = s.crumbLog := rfl
@[simp] theorem updSec_cores (f : Security → Security) : (s.updSec f).cores = s.cores := rfl
@[simp] theorem updSec_dies (f : Security → Security) : (s.updSec f).dies = s.dies := rfl
@[simp] theorem updSec_parts (f : Security → Security) : (s.updSec f).parts = s.parts := rfl
@[simp] theorem updSec_ctxs (f : Security → Security) : (s.updSec f).ctxs = s.ctxs := rfl
@[simp] theorem updSec_loafs (f : Security → Security) : (s.updSec f).loafs = s.loafs := rfl
@[simp] theorem updSec_models (f : Security → Security) : (s.updSec f).models = s.models := rfl
@[simp] theorem updSec_bs (f : Security → Security) : (s.updSec f).bs = s.bs := rfl
@[simp] theorem updSec_mem (f : Security → Security) : (s.updSec f).mem = s.mem := rfl
@[simp] theorem updSec_fab (f : Security → Security) : (s.updSec f).fab = s.fab := rfl
@[simp] theorem updSec_host (f : Security → Security) : (s.updSec f).host = s.host := rfl
@[simp] theorem updSec_alertN (f : Security → Security) : (s.updSec f).alertN = s.alertN := rfl
@[simp] theorem updSec_power (f : Security → Security) : (s.updSec f).power = s.power := rfl
@[simp] theorem updSec_fuse (f : Security → Security) : (s.updSec f).fuse = s.fuse := rfl
@[simp] theorem updSec_sec (f : Security → Security) : (s.updSec f).sec = f s.sec := rfl
@[simp] theorem updSec_ladder (f : Security → Security) : (s.updSec f).ladder = s.ladder := rfl
@[simp] theorem updSec_dbg (f : Security → Security) : (s.updSec f).dbg = s.dbg := rfl
@[simp] theorem updSec_links (f : Security → Security) : (s.updSec f).links = s.links := rfl
@[simp] theorem updSec_bays (f : Security → Security) : (s.updSec f).bays = s.bays := rfl
@[simp] theorem updSec_captures (f : Security → Security) : (s.updSec f).captures = s.captures := rfl
@[simp] theorem updSec_scratch (f : Security → Security) : (s.updSec f).scratch = s.scratch := rfl
@[simp] theorem updSec_i3cAddr (f : Security → Security) : (s.updSec f).i3cAddr = s.i3cAddr := rfl
@[simp] theorem updSec_burst (f : Security → Security) : (s.updSec f).burst = s.burst := rfl
@[simp] theorem updSec_sets (f : Security → Security) : (s.updSec f).sets = s.sets := rfl
@[simp] theorem updSec_at_core (f : Security → Security) (j : Nat) : (s.updSec f).core j = s.core j := rfl
@[simp] theorem updSec_at_die (f : Security → Security) (j : Nat) : (s.updSec f).die j = s.die j := rfl
@[simp] theorem updSec_at_part (f : Security → Security) (j : Nat) : (s.updSec f).part j = s.part j := rfl
@[simp] theorem updSec_at_ctx (f : Security → Security) (j : Nat) : (s.updSec f).ctx j = s.ctx j := rfl
@[simp] theorem updSec_at_loaf (f : Security → Security) (j : Nat) : (s.updSec f).loaf j = s.loaf j := rfl
@[simp] theorem updSec_at_model (f : Security → Security) (j : Nat) : (s.updSec f).model j = s.model j := rfl
@[simp] theorem updSec_now (f : Security → Security) : (s.updSec f).now = s.now := rfl
@[simp] theorem updSec_at_fn (f : Security → Security) (j : Nat) : (s.updSec f).fn j = s.fn j := rfl
@[simp] theorem updSec_at_port (f : Security → Security) (j : Nat) : (s.updSec f).port j = s.port j := rfl

/-! `State.updTime` -/

@[simp] theorem updTime_pending (f : TimeBase → TimeBase) : (s.updTime f).pending = s.pending := rfl
@[simp] theorem updTime_free (f : TimeBase → TimeBase) : (s.updTime f).free = s.free := rfl
@[simp] theorem updTime_out (f : TimeBase → TimeBase) : (s.updTime f).out = s.out := rfl
@[simp] theorem updTime_reply (f : TimeBase → TimeBase) : (s.updTime f).reply = s.reply := rfl
@[simp] theorem updTime_time (f : TimeBase → TimeBase) : (s.updTime f).time = f s.time := rfl
@[simp] theorem updTime_log (f : TimeBase → TimeBase) : (s.updTime f).log = s.log := rfl
@[simp] theorem updTime_ledger (f : TimeBase → TimeBase) : (s.updTime f).ledger = s.ledger := rfl
@[simp] theorem updTime_crust (f : TimeBase → TimeBase) : (s.updTime f).crust = s.crust := rfl
@[simp] theorem updTime_tele (f : TimeBase → TimeBase) : (s.updTime f).tele = s.tele := rfl
@[simp] theorem updTime_crumbLog (f : TimeBase → TimeBase) : (s.updTime f).crumbLog = s.crumbLog := rfl
@[simp] theorem updTime_cores (f : TimeBase → TimeBase) : (s.updTime f).cores = s.cores := rfl
@[simp] theorem updTime_dies (f : TimeBase → TimeBase) : (s.updTime f).dies = s.dies := rfl
@[simp] theorem updTime_parts (f : TimeBase → TimeBase) : (s.updTime f).parts = s.parts := rfl
@[simp] theorem updTime_ctxs (f : TimeBase → TimeBase) : (s.updTime f).ctxs = s.ctxs := rfl
@[simp] theorem updTime_loafs (f : TimeBase → TimeBase) : (s.updTime f).loafs = s.loafs := rfl
@[simp] theorem updTime_models (f : TimeBase → TimeBase) : (s.updTime f).models = s.models := rfl
@[simp] theorem updTime_bs (f : TimeBase → TimeBase) : (s.updTime f).bs = s.bs := rfl
@[simp] theorem updTime_mem (f : TimeBase → TimeBase) : (s.updTime f).mem = s.mem := rfl
@[simp] theorem updTime_fab (f : TimeBase → TimeBase) : (s.updTime f).fab = s.fab := rfl
@[simp] theorem updTime_host (f : TimeBase → TimeBase) : (s.updTime f).host = s.host := rfl
@[simp] theorem updTime_alertN (f : TimeBase → TimeBase) : (s.updTime f).alertN = s.alertN := rfl
@[simp] theorem updTime_power (f : TimeBase → TimeBase) : (s.updTime f).power = s.power := rfl
@[simp] theorem updTime_fuse (f : TimeBase → TimeBase) : (s.updTime f).fuse = s.fuse := rfl
@[simp] theorem updTime_sec (f : TimeBase → TimeBase) : (s.updTime f).sec = s.sec := rfl
@[simp] theorem updTime_ladder (f : TimeBase → TimeBase) : (s.updTime f).ladder = s.ladder := rfl
@[simp] theorem updTime_dbg (f : TimeBase → TimeBase) : (s.updTime f).dbg = s.dbg := rfl
@[simp] theorem updTime_links (f : TimeBase → TimeBase) : (s.updTime f).links = s.links := rfl
@[simp] theorem updTime_bays (f : TimeBase → TimeBase) : (s.updTime f).bays = s.bays := rfl
@[simp] theorem updTime_captures (f : TimeBase → TimeBase) : (s.updTime f).captures = s.captures := rfl
@[simp] theorem updTime_scratch (f : TimeBase → TimeBase) : (s.updTime f).scratch = s.scratch := rfl
@[simp] theorem updTime_i3cAddr (f : TimeBase → TimeBase) : (s.updTime f).i3cAddr = s.i3cAddr := rfl
@[simp] theorem updTime_burst (f : TimeBase → TimeBase) : (s.updTime f).burst = s.burst := rfl
@[simp] theorem updTime_sets (f : TimeBase → TimeBase) : (s.updTime f).sets = s.sets := rfl
@[simp] theorem updTime_at_core (f : TimeBase → TimeBase) (j : Nat) : (s.updTime f).core j = s.core j := rfl
@[simp] theorem updTime_at_die (f : TimeBase → TimeBase) (j : Nat) : (s.updTime f).die j = s.die j := rfl
@[simp] theorem updTime_at_part (f : TimeBase → TimeBase) (j : Nat) : (s.updTime f).part j = s.part j := rfl
@[simp] theorem updTime_at_ctx (f : TimeBase → TimeBase) (j : Nat) : (s.updTime f).ctx j = s.ctx j := rfl
@[simp] theorem updTime_at_loaf (f : TimeBase → TimeBase) (j : Nat) : (s.updTime f).loaf j = s.loaf j := rfl
@[simp] theorem updTime_at_model (f : TimeBase → TimeBase) (j : Nat) : (s.updTime f).model j = s.model j := rfl
@[simp] theorem updTime_at_fn (f : TimeBase → TimeBase) (j : Nat) : (s.updTime f).fn j = s.fn j := rfl
@[simp] theorem updTime_at_port (f : TimeBase → TimeBase) (j : Nat) : (s.updTime f).port j = s.port j := rfl

/-! `State.updLog` -/

@[simp] theorem updLog_pending (f : EventLog → EventLog) : (s.updLog f).pending = s.pending := rfl
@[simp] theorem updLog_free (f : EventLog → EventLog) : (s.updLog f).free = s.free := rfl
@[simp] theorem updLog_out (f : EventLog → EventLog) : (s.updLog f).out = s.out := rfl
@[simp] theorem updLog_reply (f : EventLog → EventLog) : (s.updLog f).reply = s.reply := rfl
@[simp] theorem updLog_time (f : EventLog → EventLog) : (s.updLog f).time = s.time := rfl
@[simp] theorem updLog_log (f : EventLog → EventLog) : (s.updLog f).log = f s.log := rfl
@[simp] theorem updLog_ledger (f : EventLog → EventLog) : (s.updLog f).ledger = s.ledger := rfl
@[simp] theorem updLog_crust (f : EventLog → EventLog) : (s.updLog f).crust = s.crust := rfl
@[simp] theorem updLog_tele (f : EventLog → EventLog) : (s.updLog f).tele = s.tele := rfl
@[simp] theorem updLog_crumbLog (f : EventLog → EventLog) : (s.updLog f).crumbLog = s.crumbLog := rfl
@[simp] theorem updLog_cores (f : EventLog → EventLog) : (s.updLog f).cores = s.cores := rfl
@[simp] theorem updLog_dies (f : EventLog → EventLog) : (s.updLog f).dies = s.dies := rfl
@[simp] theorem updLog_parts (f : EventLog → EventLog) : (s.updLog f).parts = s.parts := rfl
@[simp] theorem updLog_ctxs (f : EventLog → EventLog) : (s.updLog f).ctxs = s.ctxs := rfl
@[simp] theorem updLog_loafs (f : EventLog → EventLog) : (s.updLog f).loafs = s.loafs := rfl
@[simp] theorem updLog_models (f : EventLog → EventLog) : (s.updLog f).models = s.models := rfl
@[simp] theorem updLog_bs (f : EventLog → EventLog) : (s.updLog f).bs = s.bs := rfl
@[simp] theorem updLog_mem (f : EventLog → EventLog) : (s.updLog f).mem = s.mem := rfl
@[simp] theorem updLog_fab (f : EventLog → EventLog) : (s.updLog f).fab = s.fab := rfl
@[simp] theorem updLog_host (f : EventLog → EventLog) : (s.updLog f).host = s.host := rfl
@[simp] theorem updLog_alertN (f : EventLog → EventLog) : (s.updLog f).alertN = s.alertN := rfl
@[simp] theorem updLog_power (f : EventLog → EventLog) : (s.updLog f).power = s.power := rfl
@[simp] theorem updLog_fuse (f : EventLog → EventLog) : (s.updLog f).fuse = s.fuse := rfl
@[simp] theorem updLog_sec (f : EventLog → EventLog) : (s.updLog f).sec = s.sec := rfl
@[simp] theorem updLog_ladder (f : EventLog → EventLog) : (s.updLog f).ladder = s.ladder := rfl
@[simp] theorem updLog_dbg (f : EventLog → EventLog) : (s.updLog f).dbg = s.dbg := rfl
@[simp] theorem updLog_links (f : EventLog → EventLog) : (s.updLog f).links = s.links := rfl
@[simp] theorem updLog_bays (f : EventLog → EventLog) : (s.updLog f).bays = s.bays := rfl
@[simp] theorem updLog_captures (f : EventLog → EventLog) : (s.updLog f).captures = s.captures := rfl
@[simp] theorem updLog_scratch (f : EventLog → EventLog) : (s.updLog f).scratch = s.scratch := rfl
@[simp] theorem updLog_i3cAddr (f : EventLog → EventLog) : (s.updLog f).i3cAddr = s.i3cAddr := rfl
@[simp] theorem updLog_burst (f : EventLog → EventLog) : (s.updLog f).burst = s.burst := rfl
@[simp] theorem updLog_sets (f : EventLog → EventLog) : (s.updLog f).sets = s.sets := rfl
@[simp] theorem updLog_at_core (f : EventLog → EventLog) (j : Nat) : (s.updLog f).core j = s.core j := rfl
@[simp] theorem updLog_at_die (f : EventLog → EventLog) (j : Nat) : (s.updLog f).die j = s.die j := rfl
@[simp] theorem updLog_at_part (f : EventLog → EventLog) (j : Nat) : (s.updLog f).part j = s.part j := rfl
@[simp] theorem updLog_at_ctx (f : EventLog → EventLog) (j : Nat) : (s.updLog f).ctx j = s.ctx j := rfl
@[simp] theorem updLog_at_loaf (f : EventLog → EventLog) (j : Nat) : (s.updLog f).loaf j = s.loaf j := rfl
@[simp] theorem updLog_at_model (f : EventLog → EventLog) (j : Nat) : (s.updLog f).model j = s.model j := rfl
@[simp] theorem updLog_now (f : EventLog → EventLog) : (s.updLog f).now = s.now := rfl
@[simp] theorem updLog_at_fn (f : EventLog → EventLog) (j : Nat) : (s.updLog f).fn j = s.fn j := rfl
@[simp] theorem updLog_at_port (f : EventLog → EventLog) (j : Nat) : (s.updLog f).port j = s.port j := rfl

/-! `State.updLadder` -/

@[simp] theorem updLadder_pending (f : Ladder → Ladder) : (s.updLadder f).pending = s.pending := rfl
@[simp] theorem updLadder_free (f : Ladder → Ladder) : (s.updLadder f).free = s.free := rfl
@[simp] theorem updLadder_out (f : Ladder → Ladder) : (s.updLadder f).out = s.out := rfl
@[simp] theorem updLadder_reply (f : Ladder → Ladder) : (s.updLadder f).reply = s.reply := rfl
@[simp] theorem updLadder_time (f : Ladder → Ladder) : (s.updLadder f).time = s.time := rfl
@[simp] theorem updLadder_log (f : Ladder → Ladder) : (s.updLadder f).log = s.log := rfl
@[simp] theorem updLadder_ledger (f : Ladder → Ladder) : (s.updLadder f).ledger = s.ledger := rfl
@[simp] theorem updLadder_crust (f : Ladder → Ladder) : (s.updLadder f).crust = s.crust := rfl
@[simp] theorem updLadder_tele (f : Ladder → Ladder) : (s.updLadder f).tele = s.tele := rfl
@[simp] theorem updLadder_crumbLog (f : Ladder → Ladder) : (s.updLadder f).crumbLog = s.crumbLog := rfl
@[simp] theorem updLadder_cores (f : Ladder → Ladder) : (s.updLadder f).cores = s.cores := rfl
@[simp] theorem updLadder_dies (f : Ladder → Ladder) : (s.updLadder f).dies = s.dies := rfl
@[simp] theorem updLadder_parts (f : Ladder → Ladder) : (s.updLadder f).parts = s.parts := rfl
@[simp] theorem updLadder_ctxs (f : Ladder → Ladder) : (s.updLadder f).ctxs = s.ctxs := rfl
@[simp] theorem updLadder_loafs (f : Ladder → Ladder) : (s.updLadder f).loafs = s.loafs := rfl
@[simp] theorem updLadder_models (f : Ladder → Ladder) : (s.updLadder f).models = s.models := rfl
@[simp] theorem updLadder_bs (f : Ladder → Ladder) : (s.updLadder f).bs = s.bs := rfl
@[simp] theorem updLadder_mem (f : Ladder → Ladder) : (s.updLadder f).mem = s.mem := rfl
@[simp] theorem updLadder_fab (f : Ladder → Ladder) : (s.updLadder f).fab = s.fab := rfl
@[simp] theorem updLadder_host (f : Ladder → Ladder) : (s.updLadder f).host = s.host := rfl
@[simp] theorem updLadder_alertN (f : Ladder → Ladder) : (s.updLadder f).alertN = s.alertN := rfl
@[simp] theorem updLadder_power (f : Ladder → Ladder) : (s.updLadder f).power = s.power := rfl
@[simp] theorem updLadder_fuse (f : Ladder → Ladder) : (s.updLadder f).fuse = s.fuse := rfl
@[simp] theorem updLadder_sec (f : Ladder → Ladder) : (s.updLadder f).sec = s.sec := rfl
@[simp] theorem updLadder_ladder (f : Ladder → Ladder) : (s.updLadder f).ladder = f s.ladder := rfl
@[simp] theorem updLadder_dbg (f : Ladder → Ladder) : (s.updLadder f).dbg = s.dbg := rfl
@[simp] theorem updLadder_links (f : Ladder → Ladder) : (s.updLadder f).links = s.links := rfl
@[simp] theorem updLadder_bays (f : Ladder → Ladder) : (s.updLadder f).bays = s.bays := rfl
@[simp] theorem updLadder_captures (f : Ladder → Ladder) : (s.updLadder f).captures = s.captures := rfl
@[simp] theorem updLadder_scratch (f : Ladder → Ladder) : (s.updLadder f).scratch = s.scratch := rfl
@[simp] theorem updLadder_i3cAddr (f : Ladder → Ladder) : (s.updLadder f).i3cAddr = s.i3cAddr := rfl
@[simp] theorem updLadder_burst (f : Ladder → Ladder) : (s.updLadder f).burst = s.burst := rfl
@[simp] theorem updLadder_sets (f : Ladder → Ladder) : (s.updLadder f).sets = s.sets := rfl
@[simp] theorem updLadder_at_core (f : Ladder → Ladder) (j : Nat) : (s.updLadder f).core j = s.core j := rfl
@[simp] theorem updLadder_at_die (f : Ladder → Ladder) (j : Nat) : (s.updLadder f).die j = s.die j := rfl
@[simp] theorem updLadder_at_part (f : Ladder → Ladder) (j : Nat) : (s.updLadder f).part j = s.part j := rfl
@[simp] theorem updLadder_at_ctx (f : Ladder → Ladder) (j : Nat) : (s.updLadder f).ctx j = s.ctx j := rfl
@[simp] theorem updLadder_at_loaf (f : Ladder → Ladder) (j : Nat) : (s.updLadder f).loaf j = s.loaf j := rfl
@[simp] theorem updLadder_at_model (f : Ladder → Ladder) (j : Nat) : (s.updLadder f).model j = s.model j := rfl
@[simp] theorem updLadder_now (f : Ladder → Ladder) : (s.updLadder f).now = s.now := rfl
@[simp] theorem updLadder_at_fn (f : Ladder → Ladder) (j : Nat) : (s.updLadder f).fn j = s.fn j := rfl
@[simp] theorem updLadder_at_port (f : Ladder → Ladder) (j : Nat) : (s.updLadder f).port j = s.port j := rfl

/-! `State.updMem` -/

@[simp] theorem updMem_pending (f : Mem → Mem) : (s.updMem f).pending = s.pending := rfl
@[simp] theorem updMem_free (f : Mem → Mem) : (s.updMem f).free = s.free := rfl
@[simp] theorem updMem_out (f : Mem → Mem) : (s.updMem f).out = s.out := rfl
@[simp] theorem updMem_reply (f : Mem → Mem) : (s.updMem f).reply = s.reply := rfl
@[simp] theorem updMem_time (f : Mem → Mem) : (s.updMem f).time = s.time := rfl
@[simp] theorem updMem_log (f : Mem → Mem) : (s.updMem f).log = s.log := rfl
@[simp] theorem updMem_ledger (f : Mem → Mem) : (s.updMem f).ledger = s.ledger := rfl
@[simp] theorem updMem_crust (f : Mem → Mem) : (s.updMem f).crust = s.crust := rfl
@[simp] theorem updMem_tele (f : Mem → Mem) : (s.updMem f).tele = s.tele := rfl
@[simp] theorem updMem_crumbLog (f : Mem → Mem) : (s.updMem f).crumbLog = s.crumbLog := rfl
@[simp] theorem updMem_cores (f : Mem → Mem) : (s.updMem f).cores = s.cores := rfl
@[simp] theorem updMem_dies (f : Mem → Mem) : (s.updMem f).dies = s.dies := rfl
@[simp] theorem updMem_parts (f : Mem → Mem) : (s.updMem f).parts = s.parts := rfl
@[simp] theorem updMem_ctxs (f : Mem → Mem) : (s.updMem f).ctxs = s.ctxs := rfl
@[simp] theorem updMem_loafs (f : Mem → Mem) : (s.updMem f).loafs = s.loafs := rfl
@[simp] theorem updMem_models (f : Mem → Mem) : (s.updMem f).models = s.models := rfl
@[simp] theorem updMem_bs (f : Mem → Mem) : (s.updMem f).bs = s.bs := rfl
@[simp] theorem updMem_mem (f : Mem → Mem) : (s.updMem f).mem = f s.mem := rfl
@[simp] theorem updMem_fab (f : Mem → Mem) : (s.updMem f).fab = s.fab := rfl
@[simp] theorem updMem_host (f : Mem → Mem) : (s.updMem f).host = s.host := rfl
@[simp] theorem updMem_alertN (f : Mem → Mem) : (s.updMem f).alertN = s.alertN := rfl
@[simp] theorem updMem_power (f : Mem → Mem) : (s.updMem f).power = s.power := rfl
@[simp] theorem updMem_fuse (f : Mem → Mem) : (s.updMem f).fuse = s.fuse := rfl
@[simp] theorem updMem_sec (f : Mem → Mem) : (s.updMem f).sec = s.sec := rfl
@[simp] theorem updMem_ladder (f : Mem → Mem) : (s.updMem f).ladder = s.ladder := rfl
@[simp] theorem updMem_dbg (f : Mem → Mem) : (s.updMem f).dbg = s.dbg := rfl
@[simp] theorem updMem_links (f : Mem → Mem) : (s.updMem f).links = s.links := rfl
@[simp] theorem updMem_bays (f : Mem → Mem) : (s.updMem f).bays = s.bays := rfl
@[simp] theorem updMem_captures (f : Mem → Mem) : (s.updMem f).captures = s.captures := rfl
@[simp] theorem updMem_scratch (f : Mem → Mem) : (s.updMem f).scratch = s.scratch := rfl
@[simp] theorem updMem_i3cAddr (f : Mem → Mem) : (s.updMem f).i3cAddr = s.i3cAddr := rfl
@[simp] theorem updMem_burst (f : Mem → Mem) : (s.updMem f).burst = s.burst := rfl
@[simp] theorem updMem_sets (f : Mem → Mem) : (s.updMem f).sets = s.sets := rfl
@[simp] theorem updMem_at_core (f : Mem → Mem) (j : Nat) : (s.updMem f).core j = s.core j := rfl
@[simp] theorem updMem_at_die (f : Mem → Mem) (j : Nat) : (s.updMem f).die j = s.die j := rfl
@[simp] theorem updMem_at_part (f : Mem → Mem) (j : Nat) : (s.updMem f).part j = s.part j := rfl
@[simp] theorem updMem_at_ctx (f : Mem → Mem) (j : Nat) : (s.updMem f).ctx j = s.ctx j := rfl
@[simp] theorem updMem_at_loaf (f : Mem → Mem) (j : Nat) : (s.updMem f).loaf j = s.loaf j := rfl
@[simp] theorem updMem_at_model (f : Mem → Mem) (j : Nat) : (s.updMem f).model j = s.model j := rfl
@[simp] theorem updMem_now (f : Mem → Mem) : (s.updMem f).now = s.now := rfl
@[simp] theorem updMem_at_fn (f : Mem → Mem) (j : Nat) : (s.updMem f).fn j = s.fn j := rfl
@[simp] theorem updMem_at_port (f : Mem → Mem) (j : Nat) : (s.updMem f).port j = s.port j := rfl

/-! `State.updFab` -/

@[simp] theorem updFab_pending (f : Fabric → Fabric) : (s.updFab f).pending = s.pending := rfl
@[simp] theorem updFab_free (f : Fabric → Fabric) : (s.updFab f).free = s.free := rfl
@[simp] theorem updFab_out (f : Fabric → Fabric) : (s.updFab f).out = s.out := rfl
@[simp] theorem updFab_reply (f : Fabric → Fabric) : (s.updFab f).reply = s.reply := rfl
@[simp] theorem updFab_time (f : Fabric → Fabric) : (s.updFab f).time = s.time := rfl
@[simp] theorem updFab_log (f : Fabric → Fabric) : (s.updFab f).log = s.log := rfl
@[simp] theorem updFab_ledger (f : Fabric → Fabric) : (s.updFab f).ledger = s.ledger := rfl
@[simp] theorem updFab_crust (f : Fabric → Fabric) : (s.updFab f).crust = s.crust := rfl
@[simp] theorem updFab_tele (f : Fabric → Fabric) : (s.updFab f).tele = s.tele := rfl
@[simp] theorem updFab_crumbLog (f : Fabric → Fabric) : (s.updFab f).crumbLog = s.crumbLog := rfl
@[simp] theorem updFab_cores (f : Fabric → Fabric) : (s.updFab f).cores = s.cores := rfl
@[simp] theorem updFab_dies (f : Fabric → Fabric) : (s.updFab f).dies = s.dies := rfl
@[simp] theorem updFab_parts (f : Fabric → Fabric) : (s.updFab f).parts = s.parts := rfl
@[simp] theorem updFab_ctxs (f : Fabric → Fabric) : (s.updFab f).ctxs = s.ctxs := rfl
@[simp] theorem updFab_loafs (f : Fabric → Fabric) : (s.updFab f).loafs = s.loafs := rfl
@[simp] theorem updFab_models (f : Fabric → Fabric) : (s.updFab f).models = s.models := rfl
@[simp] theorem updFab_bs (f : Fabric → Fabric) : (s.updFab f).bs = s.bs := rfl
@[simp] theorem updFab_mem (f : Fabric → Fabric) : (s.updFab f).mem = s.mem := rfl
@[simp] theorem updFab_fab (f : Fabric → Fabric) : (s.updFab f).fab = f s.fab := rfl
@[simp] theorem updFab_host (f : Fabric → Fabric) : (s.updFab f).host = s.host := rfl
@[simp] theorem updFab_alertN (f : Fabric → Fabric) : (s.updFab f).alertN = s.alertN := rfl
@[simp] theorem updFab_power (f : Fabric → Fabric) : (s.updFab f).power = s.power := rfl
@[simp] theorem updFab_fuse (f : Fabric → Fabric) : (s.updFab f).fuse = s.fuse := rfl
@[simp] theorem updFab_sec (f : Fabric → Fabric) : (s.updFab f).sec = s.sec := rfl
@[simp] theorem updFab_ladder (f : Fabric → Fabric) : (s.updFab f).ladder = s.ladder := rfl
@[simp] theorem updFab_dbg (f : Fabric → Fabric) : (s.updFab f).dbg = s.dbg := rfl
@[simp] theorem updFab_links (f : Fabric → Fabric) : (s.updFab f).links = s.links := rfl
@[simp] theorem updFab_bays (f : Fabric → Fabric) : (s.updFab f).bays = s.bays := rfl
@[simp] theorem updFab_captures (f : Fabric → Fabric) : (s.updFab f).captures = s.captures := rfl
@[simp] theorem updFab_scratch (f : Fabric → Fabric) : (s.updFab f).scratch = s.scratch := rfl
@[simp] theorem updFab_i3cAddr (f : Fabric → Fabric) : (s.updFab f).i3cAddr = s.i3cAddr := rfl
@[simp] theorem updFab_burst (f : Fabric → Fabric) : (s.updFab f).burst = s.burst := rfl
@[simp] theorem updFab_sets (f : Fabric → Fabric) : (s.updFab f).sets = s.sets := rfl
@[simp] theorem updFab_at_core (f : Fabric → Fabric) (j : Nat) : (s.updFab f).core j = s.core j := rfl
@[simp] theorem updFab_at_die (f : Fabric → Fabric) (j : Nat) : (s.updFab f).die j = s.die j := rfl
@[simp] theorem updFab_at_part (f : Fabric → Fabric) (j : Nat) : (s.updFab f).part j = s.part j := rfl
@[simp] theorem updFab_at_ctx (f : Fabric → Fabric) (j : Nat) : (s.updFab f).ctx j = s.ctx j := rfl
@[simp] theorem updFab_at_loaf (f : Fabric → Fabric) (j : Nat) : (s.updFab f).loaf j = s.loaf j := rfl
@[simp] theorem updFab_at_model (f : Fabric → Fabric) (j : Nat) : (s.updFab f).model j = s.model j := rfl
@[simp] theorem updFab_now (f : Fabric → Fabric) : (s.updFab f).now = s.now := rfl
@[simp] theorem updFab_at_fn (f : Fabric → Fabric) (j : Nat) : (s.updFab f).fn j = s.fn j := rfl

/-! `State.updLedger` -/

@[simp] theorem updLedger_pending (f : Ledger → Ledger) : (s.updLedger f).pending = s.pending := rfl
@[simp] theorem updLedger_free (f : Ledger → Ledger) : (s.updLedger f).free = s.free := rfl
@[simp] theorem updLedger_out (f : Ledger → Ledger) : (s.updLedger f).out = s.out := rfl
@[simp] theorem updLedger_reply (f : Ledger → Ledger) : (s.updLedger f).reply = s.reply := rfl
@[simp] theorem updLedger_time (f : Ledger → Ledger) : (s.updLedger f).time = s.time := rfl
@[simp] theorem updLedger_log (f : Ledger → Ledger) : (s.updLedger f).log = s.log := rfl
@[simp] theorem updLedger_ledger (f : Ledger → Ledger) : (s.updLedger f).ledger = f s.ledger := rfl
@[simp] theorem updLedger_crust (f : Ledger → Ledger) : (s.updLedger f).crust = s.crust := rfl
@[simp] theorem updLedger_tele (f : Ledger → Ledger) : (s.updLedger f).tele = s.tele := rfl
@[simp] theorem updLedger_crumbLog (f : Ledger → Ledger) : (s.updLedger f).crumbLog = s.crumbLog := rfl
@[simp] theorem updLedger_cores (f : Ledger → Ledger) : (s.updLedger f).cores = s.cores := rfl
@[simp] theorem updLedger_dies (f : Ledger → Ledger) : (s.updLedger f).dies = s.dies := rfl
@[simp] theorem updLedger_parts (f : Ledger → Ledger) : (s.updLedger f).parts = s.parts := rfl
@[simp] theorem updLedger_ctxs (f : Ledger → Ledger) : (s.updLedger f).ctxs = s.ctxs := rfl
@[simp] theorem updLedger_loafs (f : Ledger → Ledger) : (s.updLedger f).loafs = s.loafs := rfl
@[simp] theorem updLedger_models (f : Ledger → Ledger) : (s.updLedger f).models = s.models := rfl
@[simp] theorem updLedger_bs (f : Ledger → Ledger) : (s.updLedger f).bs = s.bs := rfl
@[simp] theorem updLedger_mem (f : Ledger → Ledger) : (s.updLedger f).mem = s.mem := rfl
@[simp] theorem updLedger_fab (f : Ledger → Ledger) : (s.updLedger f).fab = s.fab := rfl
@[simp] theorem updLedger_host (f : Ledger → Ledger) : (s.updLedger f).host = s.host := rfl
@[simp] theorem updLedger_alertN (f : Ledger → Ledger) : (s.updLedger f).alertN = s.alertN := rfl
@[simp] theorem updLedger_power (f : Ledger → Ledger) : (s.updLedger f).power = s.power := rfl
@[simp] theorem updLedger_fuse (f : Ledger → Ledger) : (s.updLedger f).fuse = s.fuse := rfl
@[simp] theorem updLedger_sec (f : Ledger → Ledger) : (s.updLedger f).sec = s.sec := rfl
@[simp] theorem updLedger_ladder (f : Ledger → Ledger) : (s.updLedger f).ladder = s.ladder := rfl
@[simp] theorem updLedger_dbg (f : Ledger → Ledger) : (s.updLedger f).dbg = s.dbg := rfl
@[simp] theorem updLedger_links (f : Ledger → Ledger) : (s.updLedger f).links = s.links := rfl
@[simp] theorem updLedger_bays (f : Ledger → Ledger) : (s.updLedger f).bays = s.bays := rfl
@[simp] theorem updLedger_captures (f : Ledger → Ledger) : (s.updLedger f).captures = s.captures := rfl
@[simp] theorem updLedger_scratch (f : Ledger → Ledger) : (s.updLedger f).scratch = s.scratch := rfl
@[simp] theorem updLedger_i3cAddr (f : Ledger → Ledger) : (s.updLedger f).i3cAddr = s.i3cAddr := rfl
@[simp] theorem updLedger_burst (f : Ledger → Ledger) : (s.updLedger f).burst = s.burst := rfl
@[simp] theorem updLedger_sets (f : Ledger → Ledger) : (s.updLedger f).sets = s.sets := rfl
@[simp] theorem updLedger_at_core (f : Ledger → Ledger) (j : Nat) : (s.updLedger f).core j = s.core j := rfl
@[simp] theorem updLedger_at_die (f : Ledger → Ledger) (j : Nat) : (s.updLedger f).die j = s.die j := rfl
@[simp] theorem updLedger_at_part (f : Ledger → Ledger) (j : Nat) : (s.updLedger f).part j = s.part j := rfl
@[simp] theorem updLedger_at_ctx (f : Ledger → Ledger) (j : Nat) : (s.updLedger f).ctx j = s.ctx j := rfl
@[simp] theorem updLedger_at_loaf (f : Ledger → Ledger) (j : Nat) : (s.updLedger f).loaf j = s.loaf j := rfl
@[simp] theorem updLedger_at_model (f : Ledger → Ledger) (j : Nat) : (s.updLedger f).model j = s.model j := rfl
@[simp] theorem updLedger_now (f : Ledger → Ledger) : (s.updLedger f).now = s.now := rfl
@[simp] theorem updLedger_at_fn (f : Ledger → Ledger) (j : Nat) : (s.updLedger f).fn j = s.fn j := rfl
@[simp] theorem updLedger_at_port (f : Ledger → Ledger) (j : Nat) : (s.updLedger f).port j = s.port j := rfl

/-! `State.updTele` -/

@[simp] theorem updTele_pending (f : Telemetry → Telemetry) : (s.updTele f).pending = s.pending := rfl
@[simp] theorem updTele_free (f : Telemetry → Telemetry) : (s.updTele f).free = s.free := rfl
@[simp] theorem updTele_out (f : Telemetry → Telemetry) : (s.updTele f).out = s.out := rfl
@[simp] theorem updTele_reply (f : Telemetry → Telemetry) : (s.updTele f).reply = s.reply := rfl
@[simp] theorem updTele_time (f : Telemetry → Telemetry) : (s.updTele f).time = s.time := rfl
@[simp] theorem updTele_log (f : Telemetry → Telemetry) : (s.updTele f).log = s.log := rfl
@[simp] theorem updTele_ledger (f : Telemetry → Telemetry) : (s.updTele f).ledger = s.ledger := rfl
@[simp] theorem updTele_crust (f : Telemetry → Telemetry) : (s.updTele f).crust = s.crust := rfl
@[simp] theorem updTele_tele (f : Telemetry → Telemetry) : (s.updTele f).tele = f s.tele := rfl
@[simp] theorem updTele_crumbLog (f : Telemetry → Telemetry) : (s.updTele f).crumbLog = s.crumbLog := rfl
@[simp] theorem updTele_cores (f : Telemetry → Telemetry) : (s.updTele f).cores = s.cores := rfl
@[simp] theorem updTele_dies (f : Telemetry → Telemetry) : (s.updTele f).dies = s.dies := rfl
@[simp] theorem updTele_parts (f : Telemetry → Telemetry) : (s.updTele f).parts = s.parts := rfl
@[simp] theorem updTele_ctxs (f : Telemetry → Telemetry) : (s.updTele f).ctxs = s.ctxs := rfl
@[simp] theorem updTele_loafs (f : Telemetry → Telemetry) : (s.updTele f).loafs = s.loafs := rfl
@[simp] theorem updTele_models (f : Telemetry → Telemetry) : (s.updTele f).models = s.models := rfl
@[simp] theorem updTele_bs (f : Telemetry → Telemetry) : (s.updTele f).bs = s.bs := rfl
@[simp] theorem updTele_mem (f : Telemetry → Telemetry) : (s.updTele f).mem = s.mem := rfl
@[simp] theorem updTele_fab (f : Telemetry → Telemetry) : (s.updTele f).fab = s.fab := rfl
@[simp] theorem updTele_host (f : Telemetry → Telemetry) : (s.updTele f).host = s.host := rfl
@[simp] theorem updTele_alertN (f : Telemetry → Telemetry) : (s.updTele f).alertN = s.alertN := rfl
@[simp] theorem updTele_power (f : Telemetry → Telemetry) : (s.updTele f).power = s.power := rfl
@[simp] theorem updTele_fuse (f : Telemetry → Telemetry) : (s.updTele f).fuse = s.fuse := rfl
@[simp] theorem updTele_sec (f : Telemetry → Telemetry) : (s.updTele f).sec = s.sec := rfl
@[simp] theorem updTele_ladder (f : Telemetry → Telemetry) : (s.updTele f).ladder = s.ladder := rfl
@[simp] theorem updTele_dbg (f : Telemetry → Telemetry) : (s.updTele f).dbg = s.dbg := rfl
@[simp] theorem updTele_links (f : Telemetry → Telemetry) : (s.updTele f).links = s.links := rfl
@[simp] theorem updTele_bays (f : Telemetry → Telemetry) : (s.updTele f).bays = s.bays := rfl
@[simp] theorem updTele_captures (f : Telemetry → Telemetry) : (s.updTele f).captures = s.captures := rfl
@[simp] theorem updTele_scratch (f : Telemetry → Telemetry) : (s.updTele f).scratch = s.scratch := rfl
@[simp] theorem updTele_i3cAddr (f : Telemetry → Telemetry) : (s.updTele f).i3cAddr = s.i3cAddr := rfl
@[simp] theorem updTele_burst (f : Telemetry → Telemetry) : (s.updTele f).burst = s.burst := rfl
@[simp] theorem updTele_sets (f : Telemetry → Telemetry) : (s.updTele f).sets = s.sets := rfl
@[simp] theorem updTele_at_core (f : Telemetry → Telemetry) (j : Nat) : (s.updTele f).core j = s.core j := rfl
@[simp] theorem updTele_at_die (f : Telemetry → Telemetry) (j : Nat) : (s.updTele f).die j = s.die j := rfl
@[simp] theorem updTele_at_part (f : Telemetry → Telemetry) (j : Nat) : (s.updTele f).part j = s.part j := rfl
@[simp] theorem updTele_at_ctx (f : Telemetry → Telemetry) (j : Nat) : (s.updTele f).ctx j = s.ctx j := rfl
@[simp] theorem updTele_at_loaf (f : Telemetry → Telemetry) (j : Nat) : (s.updTele f).loaf j = s.loaf j := rfl
@[simp] theorem updTele_at_model (f : Telemetry → Telemetry) (j : Nat) : (s.updTele f).model j = s.model j := rfl
@[simp] theorem updTele_now (f : Telemetry → Telemetry) : (s.updTele f).now = s.now := rfl
@[simp] theorem updTele_at_fn (f : Telemetry → Telemetry) (j : Nat) : (s.updTele f).fn j = s.fn j := rfl
@[simp] theorem updTele_at_port (f : Telemetry → Telemetry) (j : Nat) : (s.updTele f).port j = s.port j := rfl

/-! `State.hwSet` -/

@[simp] theorem hwSet_pending (off bits : Nat) : (s.hwSet off bits).pending = s.pending := rfl
@[simp] theorem hwSet_free (off bits : Nat) : (s.hwSet off bits).free = s.free := rfl
@[simp] theorem hwSet_out (off bits : Nat) : (s.hwSet off bits).out = s.out := rfl
@[simp] theorem hwSet_reply (off bits : Nat) : (s.hwSet off bits).reply = s.reply := rfl
@[simp] theorem hwSet_time (off bits : Nat) : (s.hwSet off bits).time = s.time := rfl
@[simp] theorem hwSet_log (off bits : Nat) : (s.hwSet off bits).log = s.log := rfl
@[simp] theorem hwSet_ledger (off bits : Nat) : (s.hwSet off bits).ledger = s.ledger := rfl
@[simp] theorem hwSet_crust (off bits : Nat) : (s.hwSet off bits).crust = s.crust := rfl
@[simp] theorem hwSet_tele (off bits : Nat) : (s.hwSet off bits).tele = s.tele := rfl
@[simp] theorem hwSet_crumbLog (off bits : Nat) : (s.hwSet off bits).crumbLog = s.crumbLog := rfl
@[simp] theorem hwSet_cores (off bits : Nat) : (s.hwSet off bits).cores = s.cores := rfl
@[simp] theorem hwSet_dies (off bits : Nat) : (s.hwSet off bits).dies = s.dies := rfl
@[simp] theorem hwSet_parts (off bits : Nat) : (s.hwSet off bits).parts = s.parts := rfl
@[simp] theorem hwSet_ctxs (off bits : Nat) : (s.hwSet off bits).ctxs = s.ctxs := rfl
@[simp] theorem hwSet_loafs (off bits : Nat) : (s.hwSet off bits).loafs = s.loafs := rfl
@[simp] theorem hwSet_models (off bits : Nat) : (s.hwSet off bits).models = s.models := rfl
@[simp] theorem hwSet_bs (off bits : Nat) : (s.hwSet off bits).bs = s.bs := rfl
@[simp] theorem hwSet_mem (off bits : Nat) : (s.hwSet off bits).mem = s.mem := rfl
@[simp] theorem hwSet_fab (off bits : Nat) : (s.hwSet off bits).fab = s.fab := rfl
@[simp] theorem hwSet_host (off bits : Nat) : (s.hwSet off bits).host = s.host := rfl
@[simp] theorem hwSet_alertN (off bits : Nat) : (s.hwSet off bits).alertN = s.alertN := rfl
@[simp] theorem hwSet_power (off bits : Nat) : (s.hwSet off bits).power = s.power := rfl
@[simp] theorem hwSet_fuse (off bits : Nat) : (s.hwSet off bits).fuse = s.fuse := rfl
@[simp] theorem hwSet_sec (off bits : Nat) : (s.hwSet off bits).sec = s.sec := rfl
@[simp] theorem hwSet_ladder (off bits : Nat) : (s.hwSet off bits).ladder = s.ladder := rfl
@[simp] theorem hwSet_dbg (off bits : Nat) : (s.hwSet off bits).dbg = s.dbg := rfl
@[simp] theorem hwSet_links (off bits : Nat) : (s.hwSet off bits).links = s.links := rfl
@[simp] theorem hwSet_bays (off bits : Nat) : (s.hwSet off bits).bays = s.bays := rfl
@[simp] theorem hwSet_captures (off bits : Nat) : (s.hwSet off bits).captures = s.captures := rfl
@[simp] theorem hwSet_scratch (off bits : Nat) : (s.hwSet off bits).scratch = s.scratch := rfl
@[simp] theorem hwSet_i3cAddr (off bits : Nat) : (s.hwSet off bits).i3cAddr = s.i3cAddr := rfl
@[simp] theorem hwSet_burst (off bits : Nat) : (s.hwSet off bits).burst = s.burst := rfl
@[simp] theorem hwSet_sets (off bits : Nat) : (s.hwSet off bits).sets = smapUpd 0 s.sets off fun w => w ||| BitVec.ofNat 32 bits := rfl
@[simp] theorem hwSet_at_core (off bits : Nat) (j : Nat) : (s.hwSet off bits).core j = s.core j := rfl
@[simp] theorem hwSet_at_die (off bits : Nat) (j : Nat) : (s.hwSet off bits).die j = s.die j := rfl
@[simp] theorem hwSet_at_part (off bits : Nat) (j : Nat) : (s.hwSet off bits).part j = s.part j := rfl
@[simp] theorem hwSet_at_ctx (off bits : Nat) (j : Nat) : (s.hwSet off bits).ctx j = s.ctx j := rfl
@[simp] theorem hwSet_at_loaf (off bits : Nat) (j : Nat) : (s.hwSet off bits).loaf j = s.loaf j := rfl
@[simp] theorem hwSet_at_model (off bits : Nat) (j : Nat) : (s.hwSet off bits).model j = s.model j := rfl
@[simp] theorem hwSet_now (off bits : Nat) : (s.hwSet off bits).now = s.now := rfl
@[simp] theorem hwSet_at_fn (off bits : Nat) (j : Nat) : (s.hwSet off bits).fn j = s.fn j := rfl
@[simp] theorem hwSet_at_port (off bits : Nat) (j : Nat) : (s.hwSet off bits).port j = s.port j := rfl

/-! `State.updBs` -/

@[simp] theorem updBs_pending (f : BatchSheet → BatchSheet) : (s.updBs f).pending = s.pending := rfl
@[simp] theorem updBs_free (f : BatchSheet → BatchSheet) : (s.updBs f).free = s.free := rfl
@[simp] theorem updBs_out (f : BatchSheet → BatchSheet) : (s.updBs f).out = s.out := rfl
@[simp] theorem updBs_reply (f : BatchSheet → BatchSheet) : (s.updBs f).reply = s.reply := rfl
@[simp] theorem updBs_time (f : BatchSheet → BatchSheet) : (s.updBs f).time = s.time := rfl
@[simp] theorem updBs_log (f : BatchSheet → BatchSheet) : (s.updBs f).log = s.log := rfl
@[simp] theorem updBs_ledger (f : BatchSheet → BatchSheet) : (s.updBs f).ledger = s.ledger := rfl
@[simp] theorem updBs_crust (f : BatchSheet → BatchSheet) : (s.updBs f).crust = s.crust := rfl
@[simp] theorem updBs_tele (f : BatchSheet → BatchSheet) : (s.updBs f).tele = s.tele := rfl
@[simp] theorem updBs_crumbLog (f : BatchSheet → BatchSheet) : (s.updBs f).crumbLog = s.crumbLog := rfl
@[simp] theorem updBs_cores (f : BatchSheet → BatchSheet) : (s.updBs f).cores = s.cores := rfl
@[simp] theorem updBs_dies (f : BatchSheet → BatchSheet) : (s.updBs f).dies = s.dies := rfl
@[simp] theorem updBs_parts (f : BatchSheet → BatchSheet) : (s.updBs f).parts = s.parts := rfl
@[simp] theorem updBs_ctxs (f : BatchSheet → BatchSheet) : (s.updBs f).ctxs = s.ctxs := rfl
@[simp] theorem updBs_loafs (f : BatchSheet → BatchSheet) : (s.updBs f).loafs = s.loafs := rfl
@[simp] theorem updBs_models (f : BatchSheet → BatchSheet) : (s.updBs f).models = s.models := rfl
@[simp] theorem updBs_bs (f : BatchSheet → BatchSheet) : (s.updBs f).bs = f s.bs := rfl
@[simp] theorem updBs_mem (f : BatchSheet → BatchSheet) : (s.updBs f).mem = s.mem := rfl
@[simp] theorem updBs_fab (f : BatchSheet → BatchSheet) : (s.updBs f).fab = s.fab := rfl
@[simp] theorem updBs_host (f : BatchSheet → BatchSheet) : (s.updBs f).host = s.host := rfl
@[simp] theorem updBs_alertN (f : BatchSheet → BatchSheet) : (s.updBs f).alertN = s.alertN := rfl
@[simp] theorem updBs_power (f : BatchSheet → BatchSheet) : (s.updBs f).power = s.power := rfl
@[simp] theorem updBs_fuse (f : BatchSheet → BatchSheet) : (s.updBs f).fuse = s.fuse := rfl
@[simp] theorem updBs_sec (f : BatchSheet → BatchSheet) : (s.updBs f).sec = s.sec := rfl
@[simp] theorem updBs_ladder (f : BatchSheet → BatchSheet) : (s.updBs f).ladder = s.ladder := rfl
@[simp] theorem updBs_dbg (f : BatchSheet → BatchSheet) : (s.updBs f).dbg = s.dbg := rfl
@[simp] theorem updBs_links (f : BatchSheet → BatchSheet) : (s.updBs f).links = s.links := rfl
@[simp] theorem updBs_bays (f : BatchSheet → BatchSheet) : (s.updBs f).bays = s.bays := rfl
@[simp] theorem updBs_captures (f : BatchSheet → BatchSheet) : (s.updBs f).captures = s.captures := rfl
@[simp] theorem updBs_scratch (f : BatchSheet → BatchSheet) : (s.updBs f).scratch = s.scratch := rfl
@[simp] theorem updBs_i3cAddr (f : BatchSheet → BatchSheet) : (s.updBs f).i3cAddr = s.i3cAddr := rfl
@[simp] theorem updBs_burst (f : BatchSheet → BatchSheet) : (s.updBs f).burst = s.burst := rfl
@[simp] theorem updBs_sets (f : BatchSheet → BatchSheet) : (s.updBs f).sets = s.sets := rfl
@[simp] theorem updBs_at_core (f : BatchSheet → BatchSheet) (j : Nat) : (s.updBs f).core j = s.core j := rfl
@[simp] theorem updBs_at_die (f : BatchSheet → BatchSheet) (j : Nat) : (s.updBs f).die j = s.die j := rfl
@[simp] theorem updBs_at_part (f : BatchSheet → BatchSheet) (j : Nat) : (s.updBs f).part j = s.part j := rfl
@[simp] theorem updBs_at_ctx (f : BatchSheet → BatchSheet) (j : Nat) : (s.updBs f).ctx j = s.ctx j := rfl
@[simp] theorem updBs_at_loaf (f : BatchSheet → BatchSheet) (j : Nat) : (s.updBs f).loaf j = s.loaf j := rfl
@[simp] theorem updBs_at_model (f : BatchSheet → BatchSheet) (j : Nat) : (s.updBs f).model j = s.model j := rfl
@[simp] theorem updBs_now (f : BatchSheet → BatchSheet) : (s.updBs f).now = s.now := rfl
@[simp] theorem updBs_at_fn (f : BatchSheet → BatchSheet) (j : Nat) : (s.updBs f).fn j = s.fn j := rfl
@[simp] theorem updBs_at_port (f : BatchSheet → BatchSheet) (j : Nat) : (s.updBs f).port j = s.port j := rfl

/-! `State.hwSetIf` -/

@[simp] theorem hwSetIf_pending (c : Bool) (off bits : Nat) : (s.hwSetIf c off bits).pending = s.pending := by cases c <;> rfl
@[simp] theorem hwSetIf_free (c : Bool) (off bits : Nat) : (s.hwSetIf c off bits).free = s.free := by cases c <;> rfl
@[simp] theorem hwSetIf_out (c : Bool) (off bits : Nat) : (s.hwSetIf c off bits).out = s.out := by cases c <;> rfl
@[simp] theorem hwSetIf_reply (c : Bool) (off bits : Nat) : (s.hwSetIf c off bits).reply = s.reply := by cases c <;> rfl
@[simp] theorem hwSetIf_time (c : Bool) (off bits : Nat) : (s.hwSetIf c off bits).time = s.time := by cases c <;> rfl
@[simp] theorem hwSetIf_log (c : Bool) (off bits : Nat) : (s.hwSetIf c off bits).log = s.log := by cases c <;> rfl
@[simp] theorem hwSetIf_ledger (c : Bool) (off bits : Nat) : (s.hwSetIf c off bits).ledger = s.ledger := by cases c <;> rfl
@[simp] theorem hwSetIf_crust (c : Bool) (off bits : Nat) : (s.hwSetIf c off bits).crust = s.crust := by cases c <;> rfl
@[simp] theorem hwSetIf_tele (c : Bool) (off bits : Nat) : (s.hwSetIf c off bits).tele = s.tele := by cases c <;> rfl
@[simp] theorem hwSetIf_crumbLog (c : Bool) (off bits : Nat) : (s.hwSetIf c off bits).crumbLog = s.crumbLog := by cases c <;> rfl
@[simp] theorem hwSetIf_cores (c : Bool) (off bits : Nat) : (s.hwSetIf c off bits).cores = s.cores := by cases c <;> rfl
@[simp] theorem hwSetIf_dies (c : Bool) (off bits : Nat) : (s.hwSetIf c off bits).dies = s.dies := by cases c <;> rfl
@[simp] theorem hwSetIf_parts (c : Bool) (off bits : Nat) : (s.hwSetIf c off bits).parts = s.parts := by cases c <;> rfl
@[simp] theorem hwSetIf_ctxs (c : Bool) (off bits : Nat) : (s.hwSetIf c off bits).ctxs = s.ctxs := by cases c <;> rfl
@[simp] theorem hwSetIf_loafs (c : Bool) (off bits : Nat) : (s.hwSetIf c off bits).loafs = s.loafs := by cases c <;> rfl
@[simp] theorem hwSetIf_models (c : Bool) (off bits : Nat) : (s.hwSetIf c off bits).models = s.models := by cases c <;> rfl
@[simp] theorem hwSetIf_bs (c : Bool) (off bits : Nat) : (s.hwSetIf c off bits).bs = s.bs := by cases c <;> rfl
@[simp] theorem hwSetIf_mem (c : Bool) (off bits : Nat) : (s.hwSetIf c off bits).mem = s.mem := by cases c <;> rfl
@[simp] theorem hwSetIf_fab (c : Bool) (off bits : Nat) : (s.hwSetIf c off bits).fab = s.fab := by cases c <;> rfl
@[simp] theorem hwSetIf_host (c : Bool) (off bits : Nat) : (s.hwSetIf c off bits).host = s.host := by cases c <;> rfl
@[simp] theorem hwSetIf_alertN (c : Bool) (off bits : Nat) : (s.hwSetIf c off bits).alertN = s.alertN := by cases c <;> rfl
@[simp] theorem hwSetIf_power (c : Bool) (off bits : Nat) : (s.hwSetIf c off bits).power = s.power := by cases c <;> rfl
@[simp] theorem hwSetIf_fuse (c : Bool) (off bits : Nat) : (s.hwSetIf c off bits).fuse = s.fuse := by cases c <;> rfl
@[simp] theorem hwSetIf_sec (c : Bool) (off bits : Nat) : (s.hwSetIf c off bits).sec = s.sec := by cases c <;> rfl
@[simp] theorem hwSetIf_ladder (c : Bool) (off bits : Nat) : (s.hwSetIf c off bits).ladder = s.ladder := by cases c <;> rfl
@[simp] theorem hwSetIf_dbg (c : Bool) (off bits : Nat) : (s.hwSetIf c off bits).dbg = s.dbg := by cases c <;> rfl
@[simp] theorem hwSetIf_links (c : Bool) (off bits : Nat) : (s.hwSetIf c off bits).links = s.links := by cases c <;> rfl
@[simp] theorem hwSetIf_bays (c : Bool) (off bits : Nat) : (s.hwSetIf c off bits).bays = s.bays := by cases c <;> rfl
@[simp] theorem hwSetIf_captures (c : Bool) (off bits : Nat) : (s.hwSetIf c off bits).captures = s.captures := by cases c <;> rfl
@[simp] theorem hwSetIf_scratch (c : Bool) (off bits : Nat) : (s.hwSetIf c off bits).scratch = s.scratch := by cases c <;> rfl
@[simp] theorem hwSetIf_i3cAddr (c : Bool) (off bits : Nat) : (s.hwSetIf c off bits).i3cAddr = s.i3cAddr := by cases c <;> rfl
@[simp] theorem hwSetIf_burst (c : Bool) (off bits : Nat) : (s.hwSetIf c off bits).burst = s.burst := by cases c <;> rfl
@[simp] theorem hwSetIf_false (off bits : Nat) : s.hwSetIf false off bits = s := rfl
@[simp] theorem hwSetIf_true (off bits : Nat) : s.hwSetIf true off bits = s.hwSet off bits := rfl

/-! Updates by a function are updates by a value. -/

@[simp] theorem updCore_eq (k : Nat) (f : Core → Core) : s.updCore k f = s.setCore k (f (s.core k)) := rfl
@[simp] theorem updPart_eq (n : Nat) (f : Part → Part) : s.updPart n f = s.setPart n (f (s.part n)) := rfl
@[simp] theorem updPort_eq (n : Nat) (f : Port → Port) : s.updPort n f = s.setPort n (f (s.port n)) := rfl
@[simp] theorem setEngine_eq (d e : Nat) (v : Engine) :
    s.setEngine d e v = s.setDie d { s.die d with engines := smapSet .reset (s.die d).engines e v } := rfl
@[simp] theorem setDssLine_eq (d i : Nat) (v : DssLine) :
    s.setDssLine d i v = s.setDie d { s.die d with dss := smapSet .zero (s.die d).dss i v } := rfl
@[simp] theorem delay_eq (r : CoreRef) (lat rank : Nat) (a : Act) :
    s.delay r lat rank a = s.setCore r.k ((s.core r.k).delay (s.cyc r + lat - 1) rank a) := rfl
@[simp] theorem countReads_eq (r : CoreRef) (n : Nat) :
    s.countReads r n = s.setCore r.k { s.core r.k with reads := (s.core r.k).reads + n } := rfl
@[simp] theorem holdCycle_eq (n : Nat) :
    s.holdCycle n = s.setPart n { s.part n with holdNow := true, rested := true } := rfl

/-! Reads after writes of the numbered units. -/

@[simp] theorem setCore_core_self (h : smapSorted s.cores = true) (k : Nat) (v : Core) : (s.setCore k v).core k = v :=
  smapGet_set_self _ h k v
theorem setCore_core_other (h : smapSorted s.cores = true) (k i : Nat) (hi : i ≠ k) (v : Core) : (s.setCore k v).core i = s.core i :=
  smapGet_set_other _ h hi v
@[simp] theorem setCore_setCore (h : smapSorted s.cores = true) (k : Nat) (v w : Core) : (s.setCore k v).setCore k w = s.setCore k w := by
  unfold State.setCore; simp [h]
@[simp] theorem setDie_die_self (h : smapSorted s.dies = true) (k : Nat) (v : Die) : (s.setDie k v).die k = v :=
  smapGet_set_self _ h k v
theorem setDie_die_other (h : smapSorted s.dies = true) (k i : Nat) (hi : i ≠ k) (v : Die) : (s.setDie k v).die i = s.die i :=
  smapGet_set_other _ h hi v
@[simp] theorem setDie_setDie (h : smapSorted s.dies = true) (k : Nat) (v w : Die) : (s.setDie k v).setDie k w = s.setDie k w := by
  unfold State.setDie; simp [h]
@[simp] theorem setPart_part_self (h : smapSorted s.parts = true) (k : Nat) (v : Part) : (s.setPart k v).part k = v :=
  smapGet_set_self _ h k v
theorem setPart_part_other (h : smapSorted s.parts = true) (k i : Nat) (hi : i ≠ k) (v : Part) : (s.setPart k v).part i = s.part i :=
  smapGet_set_other _ h hi v
@[simp] theorem setPart_setPart (h : smapSorted s.parts = true) (k : Nat) (v w : Part) : (s.setPart k v).setPart k w = s.setPart k w := by
  unfold State.setPart; simp [h]
@[simp] theorem setCtx_ctx_self (h : smapSorted s.ctxs = true) (k : Nat) (v : Ctx) : (s.setCtx k v).ctx k = v :=
  smapGet_set_self _ h k v
theorem setCtx_ctx_other (h : smapSorted s.ctxs = true) (k i : Nat) (hi : i ≠ k) (v : Ctx) : (s.setCtx k v).ctx i = s.ctx i :=
  smapGet_set_other _ h hi v
@[simp] theorem setCtx_setCtx (h : smapSorted s.ctxs = true) (k : Nat) (v w : Ctx) : (s.setCtx k v).setCtx k w = s.setCtx k w := by
  unfold State.setCtx; simp [h]
@[simp] theorem setLoaf_loaf_self (h : smapSorted s.loafs = true) (k : Nat) (v : LoafSlot) : (s.setLoaf k v).loaf k = v :=
  smapGet_set_self _ h k v
theorem setLoaf_loaf_other (h : smapSorted s.loafs = true) (k i : Nat) (hi : i ≠ k) (v : LoafSlot) : (s.setLoaf k v).loaf i = s.loaf i :=
  smapGet_set_other _ h hi v
@[simp] theorem setLoaf_setLoaf (h : smapSorted s.loafs = true) (k : Nat) (v w : LoafSlot) : (s.setLoaf k v).setLoaf k w = s.setLoaf k w := by
  unfold State.setLoaf; simp [h]
@[simp] theorem setModel_model_self (h : smapSorted s.models = true) (k : Nat) (v : ModelSlot) : (s.setModel k v).model k = v :=
  smapGet_set_self _ h k v
theorem setModel_model_other (h : smapSorted s.models = true) (k i : Nat) (hi : i ≠ k) (v : ModelSlot) : (s.setModel k v).model i = s.model i :=
  smapGet_set_other _ h hi v
@[simp] theorem setModel_setModel (h : smapSorted s.models = true) (k : Nat) (v w : ModelSlot) : (s.setModel k v).setModel k w = s.setModel k w := by
  unfold State.setModel; simp [h]

end Sys2Proof.Laws
end

