-- ==== Sys2Proof/Laws/Ops.lean ====
section
/-! SUPPORT. For each shared operation of Machine/Ops.lean, once, all that it can change; what a command that names a core,
an instruction's row, and an access to a register answer. -/

namespace Sys2Proof.Laws

open Sys2Proof.Machine

/-! ### Commands that name a core or a register -/

theorem onCore_some {s : State} {pt : Pt} {c : LCore} {k : Nat} (f : CoreRef → State)
    (h : s.phys pt.toNat c.toNat = some k) : onCore s pt c f = .next (f ⟨pt.toNat, c.toNat, k⟩) := by simp [onCore, h]

theorem onCore_none {s : State} {pt : Pt} {c : LCore} (f : CoreRef → State)
    (h : s.phys pt.toNat c.toNat = none) : onCore s pt c f = .fault .noSuchUnit := by simp [onCore, h]

/-- The only way a command that names a core answers a next state. -/
theorem onCore_next {s t : State} {pt : Pt} {c : LCore} {f : CoreRef → State} (h : onCore s pt c f = .next t) :
    ∃ k, s.phys pt.toNat c.toNat = some k ∧ t = f ⟨pt.toNat, c.toNat, k⟩ := by
  unfold onCore at h
  split at h
  · next k hk => exact ⟨k, hk, by cases h; rfl⟩
  · cases h

/-- An instruction's row at a core that issues. -/
theorem runIns_issuing {s : State} {pt : Pt} {c : LCore} {k : Nat} (f : CoreRef → InsRes)
    (h : s.phys pt.toNat c.toNat = some k) (hi : s.issuing ⟨pt.toNat, c.toNat, k⟩ = true) :
    runIns s pt c f = .next (settleIns s ⟨pt.toNat, c.toNat, k⟩ (f ⟨pt.toNat, c.toNat, k⟩)) := by
  simp [runIns, onCore, h, hi]

/-- An instruction's row at a core that does not issue: nothing takes place (log 14). -/
theorem runIns_idle {s : State} {pt : Pt} {c : LCore} {k : Nat} (f : CoreRef → InsRes)
    (h : s.phys pt.toNat c.toNat = some k) (hi : s.issuing ⟨pt.toNat, c.toNat, k⟩ = false) :
    runIns s pt c f = .next s := by
  simp [runIns, onCore, h, hi]

theorem hostReg_served {s : State} {off : Nat} (f : State → State) (h : s.linkUp = true)
    (hm : s.served false off = 0xFFFF_FFFF) : s.hostReg off f = f s := by simp [State.hostReg, h, hm]

theorem hostReg_down {s : State} {off : Nat} (f : State → State) (h : s.linkUp = false) : s.hostReg off f = s := by
  simp [State.hostReg, h]

theorem fabReg_served {s : State} {off : Nat} (f : State → State) (h : s.power.routes = true)
    (hm : s.served false off = 0xFFFF_FFFF) : s.fabReg off f = f s := by simp [State.fabReg, h, hm]

/-- An access to a register has its effect or none. -/
theorem hostReg_cases (s : State) (off : Nat) (f : State → State) : s.hostReg off f = f s ∨ s.hostReg off f = s := by
  unfold State.hostReg; split <;> simp

theorem fabReg_cases (s : State) (off : Nat) (f : State → State) : s.fabReg off f = f s ∨ s.fabReg off f = s := by
  unfold State.fabReg; split <;> simp

/-! ### What each shared operation can change -/

/-- A fold of steps that each change only some fields changes only those. -/
theorem foldl_keeps {α : Type} (P : State → State → Prop) (refl : ∀ s, P s s)
    (trans : ∀ a b c, P a b → P b c → P a c) (f : State → α → State) (hf : ∀ s a, P s (f s a)) (l : List α) (s : State) :
    P s (l.foldl f s) := by
  induction l generalizing s with
  | nil => exact refl s
  | cons a l ih => exact trans _ _ _ (hf s a) (ih _)

/-- Only the cores can differ. -/
def OnlyCores (s t : State) : Prop := ∃ c, t = { s with cores := c }

theorem updCoresOf_only (s : State) (n : Nat) (f : Core → Core) : OnlyCores s (s.updCoresOf n f) :=
  foldl_keeps OnlyCores (fun s => ⟨s.cores, rfl⟩) (fun _ _ _ ⟨_, h⟩ ⟨d, g⟩ => ⟨d, by rw [g, h]⟩) _
    (fun s (e : Nat × Nat) => ⟨smapSet .reset s.cores e.2 (f (s.core e.2)), rfl⟩) _ _

/-- A write to memory changes memory, and logs and counts what it poisons. -/
def OnlyMemory (s t : State) : Prop := ∃ m l c, t = { s with mem := m, log := l, ledger := c }

theorem logPoison_only (s : State) (l : Nat) : ∃ e c, s.logPoison l = { s with log := e, ledger := c } := ⟨_, _, rfl⟩

theorem logPoisons_only (s : State) (ls : List Nat) :
    ∃ e c, ls.foldl State.logPoison s = { s with log := e, ledger := c } :=
  foldl_keeps (fun s t => ∃ e c, t = { s with log := e, ledger := c }) (fun s => ⟨s.log, s.ledger, rfl⟩)
    (fun _ _ _ ⟨_, _, h⟩ ⟨d, e, g⟩ => ⟨d, e, by rw [g, h]⟩) _ logPoison_only _ _

theorem memWrite_only (s : State) (a : Nat) (bs : List (Option Byte)) (p : Bool) :
    ∃ e c, s.memWrite a bs p = { s with mem := s.mem.write a bs p, log := e, ledger := c } :=
  logPoisons_only { s with mem := s.mem.write a bs p } _

/-- Memory after a write is the write of memory; its canonical form is kept. -/
@[simp] theorem memWrite_mem (s : State) (a : Nat) (bs : List (Option Byte)) (p : Bool) :
    (s.memWrite a bs p).mem = s.mem.write a bs p := by
  obtain ⟨e, c, h⟩ := memWrite_only s a bs p
  rw [h]

theorem memWrite_wf {s : State} (h : s.mem.wf = true) (a : Nat) (bs : List (Option Byte)) (p : Bool) :
    (s.memWrite a bs p).mem.wf = true := by simpa using write_wf h a bs p

/-- An interrupt message changes the function's pending bits, WAKE_N and what is sent. -/
theorem sendMsix_only (s : State) (fn v : Nat) :
    ∃ h p o, s.sendMsix fn v = { s with host := h, power := p, out := o } := by
  by_cases h1 : (if fn = 0 then 2048 else 4) ≤ v
  · exact ⟨s.host, s.power, s.out, by simp only [State.sendMsix, if_pos h1]⟩
  · simp only [State.sendMsix, if_neg h1]
    split
    · exact ⟨s.host, s.power, _, rfl⟩
    · split <;> exact ⟨_, _, _, rfl⟩

theorem alert_only (s : State) : ∃ h p o a, s.alert = { s with host := h, power := p, out := o, alertN := a } := by
  unfold State.alert
  split
  · obtain ⟨h, p, o, e⟩ := sendMsix_only s 0 s.host.evtVec.toNat
    exact ⟨h, p, o, s.alertN, by simpa using e⟩
  · obtain ⟨h, p, o, e⟩ := sendMsix_only
      (({ s with alertN := true }.emit (.pin "ALERT_N" true)).emit (.ibi 2)) 0 s.host.evtVec.toNat
    exact ⟨h, p, o, true, by simpa using e⟩

theorem settleAlert_only (s : State) :
    ∃ h p o a, s.settleAlert = { s with host := h, power := p, out := o, alertN := a } := by
  unfold State.settleAlert
  split
  · split
    · exact ⟨s.host, s.power, s.out, s.alertN, rfl⟩
    · exact alert_only s
  · split
    · exact ⟨s.host, s.power, _, false, rfl⟩
    · exact ⟨s.host, s.power, s.out, s.alertN, rfl⟩

/-- A freeze changes its partition. -/
theorem freeze_only (s : State) (n : Nat) (ws : List FreezeNeed) : ∃ p, s.freeze n ws = s.setPart n p := ⟨_, rfl⟩

theorem noteEnded_only (s : State) (n : Nat) : s.noteEnded n = s ∨ ∃ p, s.noteEnded n = s.setPart n p := by
  simp only [State.noteEnded]
  split
  · exact .inl rfl
  · exact .inr ⟨_, rfl⟩

/-- What the end of a context can change: the run of its partition, and the descriptors of its engines. -/
def OnlyRun (s t : State) : Prop := ∃ c p x b d, t = { s with cores := c, parts := p, ctxs := x, bs := b, dies := d }

theorem OnlyRun.refl (s : State) : OnlyRun s s := ⟨s.cores, s.parts, s.ctxs, s.bs, s.dies, rfl⟩

theorem OnlyRun.trans {a b c : State} (h : OnlyRun a b) (g : OnlyRun b c) : OnlyRun a c := by
  obtain ⟨_, _, _, _, _, rfl⟩ := h
  obtain ⟨c, p, x, d, e, rfl⟩ := g
  exact ⟨c, p, x, d, e, rfl⟩

theorem OnlyCores.run {s t : State} (h : OnlyCores s t) : OnlyRun s t := by
  obtain ⟨c, rfl⟩ := h
  exact ⟨c, s.parts, s.ctxs, s.bs, s.dies, rfl⟩

theorem setPart_run (s : State) (n : Nat) (v : Part) : OnlyRun s (s.setPart n v) := ⟨_, _, _, _, _, rfl⟩

theorem setDie_run (s : State) (d : Nat) (v : Die) : OnlyRun s (s.setDie d v) := ⟨_, _, _, _, _, rfl⟩

theorem updCore_run (s : State) (k : Nat) (f : Core → Core) : OnlyRun s (s.updCore k f) := ⟨_, _, _, _, _, rfl⟩

theorem setCtx_run (s : State) (n : Nat) (c : Ctx) : OnlyRun s (s.setCtx n c) := ⟨_, _, _, _, _, rfl⟩

theorem setBs_run (s : State) (b : BatchSheet) : OnlyRun s { s with bs := b } := ⟨_, _, _, _, _, rfl⟩

theorem endRun_only (s : State) (n : Nat) : OnlyRun s (s.endRun n) := by
  simp only [State.endRun]
  exact (updCoresOf_only s n _).run.trans (setPart_run _ _ _)

theorem complete_run (s : State) (a : Admitted) (st code flags : Nat) : OnlyRun s (s.complete a st code flags) := setBs_run _ _

theorem loseCopy_run (s : State) (cn : Nat) (b : Bool) : OnlyRun s (s.loseCopy cn b) := by
  simp only [State.loseCopy]
  exact (setBs_run s _).trans (setCtx_run _ _ _)

theorem updEntry_run (s : State) (i : Nat) (f : Admitted → Admitted) : OnlyRun s (s.updEntry i f) := setBs_run _ _

theorem filterDescs_run (s : State) (d : Nat) (keep : PeelDesc → Bool) : OnlyRun s (s.filterDescs d keep) :=
  foldl_keeps OnlyRun .refl (fun _ _ _ => .trans) _ (fun _ _ => setDie_run _ _ _) _ _

/-- Every core stops, the streams that nothing will feed leave their engines, and the run is over. -/
theorem stopAll_run (s : State) (n d : Nat) (keep : PeelDesc → Bool) :
    OnlyRun s (((s.filterDescs d keep).updCoresOf n Core.stopFault).endRun n) :=
  ((filterDescs_run s d keep).trans (updCoresOf_only _ n _).run).trans (endRun_only _ n)

theorem killContext_only (s : State) (n code : Nat) (lost : Bool) : OnlyRun s (s.killContext n code lost) := by
  have h := stopAll_run s n (s.part n).die.toNat fun d => !(d.pt == n && d.openStream)
  simp only [State.killContext]
  generalize (((s.filterDescs _ _).updCoresOf n Core.stopFault).endRun n) = s2 at h ⊢
  split
  · exact h
  · split
    · exact h.trans (loseCopy_run _ _ _)
    · split
      · exact h.trans (setCtx_run _ _ _)
      · split
        · exact (h.trans (updEntry_run _ _ _)).trans (setCtx_run _ _ _)
        · exact (h.trans (setCtx_run _ _ _)).trans (complete_run _ _ _ _ _)

/-- What a context fault can change: the run of its partition, the partition's descriptors, and what reports it. -/
def OnlyFault (s t : State) : Prop :=
  ∃ c p x b d e f h w o y,
    t = { s with
          cores := c, parts := p, ctxs := x, bs := b, dies := d, log := e, ledger := f, host := h, power := w, out := o, sets := y }

theorem OnlyFault.refl (s : State) : OnlyFault s s := ⟨_, _, _, _, _, _, _, _, _, _, _, rfl⟩

theorem OnlyFault.trans {a b c : State} (h : OnlyFault a b) (g : OnlyFault b c) : OnlyFault a c := by
  obtain ⟨_, _, _, _, _, _, _, _, _, _, _, rfl⟩ := h
  obtain ⟨c, p, x, d, e, f, i, j, k, l, m, rfl⟩ := g
  exact ⟨c, p, x, d, e, f, i, j, k, l, m, rfl⟩

theorem OnlyRun.fault {s t : State} (h : OnlyRun s t) : OnlyFault s t := by
  obtain ⟨c, p, x, b, d, rfl⟩ := h
  exact ⟨c, p, x, b, d, _, _, _, _, _, _, rfl⟩

theorem sendMsix_fault (s : State) (fn v : Nat) : OnlyFault s (s.sendMsix fn v) := by
  obtain ⟨h, p, o, e⟩ := sendMsix_only s fn v
  rw [e]
  exact ⟨_, _, _, _, _, _, _, _, _, _, _, rfl⟩

theorem notifyFault_only (s : State) (n : Nat) (was : Bool) : OnlyFault s (s.notifyFault n was) := by
  unfold State.notifyFault
  split
  · exact .refl s
  · exact (sendMsix_fault s _ _).trans (sendMsix_fault _ _ _)

theorem hwSet_fault (s : State) (off bits : Nat) : OnlyFault s (s.hwSet off bits) := ⟨_, _, _, _, _, _, _, _, _, _, _, rfl⟩

theorem life_fault (s : State) (d : Nat) (f : LifeCounters → LifeCounters) : OnlyFault s (s.life d f) :=
  ⟨_, _, _, _, _, _, _, _, _, _, _, rfl⟩

theorem event_fault (s : State) (src code : Nat) (d : BitVec 96) : OnlyFault s (s.event src code d) :=
  ⟨_, _, _, _, _, _, _, _, _, _, _, rfl⟩

/-- A change of each core of a list. -/
theorem updCores_run (l : List (Nat × Nat)) (f : Nat × Nat → Core → Core) (s : State) :
    OnlyRun s (l.foldl (fun z e => z.updCore e.2 (f e)) s) :=
  foldl_keeps OnlyRun .refl (fun _ _ _ => .trans) _ (fun _ _ => updCore_run _ _ _) _ _

theorem abandonTile_only (s : State) (n src : Nat) : OnlyFault s (s.abandonTile n src) := by
  simp only [State.abandonTile]
  split
  · exact .refl s
  · have h := filterDescs_run s (s.part n).die.toNat fun d => !(d.pt == n && (d.openStream || s.unbegunImage d))
    generalize s.filterDescs _ _ = s0 at h ⊢
    refine .trans (.trans (OnlyRun.fault ?_) (life_fault _ _ _)) (event_fault _ _ _ _)
    exact ((h.trans (updCores_run _ _ _)).trans (updCoresOf_only _ n _).run).trans (setPart_run _ _ _)

theorem recordFault_only (s : State) (n core : Nat) (f : FaultInfo) (src : Nat) : OnlyFault s (s.recordFault n core f src) :=
  (setPart_run s n _).fault.trans (hwSet_fault _ _ _)

/-- The end of a raised fault: the context ends where one runs, the fault is notified and logged. -/
theorem report_only {s s1 : State} (h : OnlyFault s s1) (b was : Bool) (n code src ev : Nat) (d : BitVec 96) :
    OnlyFault s (((if b = true then s1.killContext n code false else s1).notifyFault n was).event src ev d) := by
  refine .trans (.trans ?_ (notifyFault_only _ n was)) (event_fault _ _ _ _)
  split
  · exact h.trans (killContext_only _ n _ _).fault
  · exact h

theorem raiseFrom_only (s : State) (n core src : Nat) (f : FaultInfo) : OnlyFault s (s.raiseFrom n core src f) := by
  simp only [State.raiseFrom]
  split
  · exact .refl s
  · split
    · exact abandonTile_only s n src
    · exact report_only (recordFault_only s n core f src) _ _ _ _ _ _ _

theorem raise_only (s : State) (n core k : Nat) (f : FaultInfo) : OnlyFault s (s.raise n core k f) :=
  raiseFrom_only s n core _ f

theorem raiseAll_only (s : State) (r : CoreRef) (fs : List FaultInfo) : OnlyFault s (s.raiseAll r fs) :=
  foldl_keeps OnlyFault .refl (fun _ _ _ => .trans) _ (fun s f => raise_only s r.pt r.c r.k f) _ _

theorem raisePart_only (s : State) (n code src core pc : Nat) : OnlyFault s (s.raisePart n code src core pc) :=
  report_only (recordFault_only s n core ⟨code, 0, 7, pc, 0⟩ src) _ _ _ _ _ _ _

/-- What an instruction's answer makes of the state: its effect, with the faults that stand beside it, or only a fault's changes. -/
theorem settleIns_only (s : State) (r : CoreRef) (a : InsRes) :
    (∃ t, (a = .ok t ∨ ∃ fs, a = .okWith t fs) ∧ OnlyFault t (settleIns s r a)) ∨ OnlyFault s (settleIns s r a) := by
  cases a with
  | ok t => exact .inl ⟨t, .inl rfl, .refl t⟩
  | okWith t fs => exact .inl ⟨t, .inr ⟨fs, rfl⟩, raiseAll_only t r fs⟩
  | hold => exact .inr (setPart_run s _ _).fault
  | wait ws => exact .inr (setPart_run s _ _).fault
  | fault fs => exact .inr (raiseAll_only s r fs)

/-- A context fault moves neither memory, nor fuses, nor the queue of commands. -/
theorem OnlyFault.frame {s t : State} (h : OnlyFault s t) :
    t.mem = s.mem ∧ t.fuse = s.fuse ∧ t.sec = s.sec ∧ t.pending = s.pending ∧ t.fab = s.fab ∧ t.crust = s.crust ∧
      t.time = s.time ∧ t.free = s.free ∧ t.models = s.models ∧ t.ladder = s.ladder := by
  obtain ⟨_, _, _, _, _, _, _, _, _, _, _, rfl⟩ := h
  exact ⟨rfl, rfl, rfl, rfl, rfl, rfl, rfl, rfl, rfl, rfl⟩

end Sys2Proof.Laws
end

