-- ==== Sys2Proof/Laws/Reset.lean ====
section
/-! SUPPORT. A reform of the DRAM groups and a module reset keep the canonical form of the device memory. -/

namespace Sys2Proof.Laws

open Sys2Proof.Machine

theorem copiedPoison_rises {m : Mem} (h : m.wf = true) (limit : Nat) : (m.copiedPoison limit).Pairwise (· < ·) := by
  unfold Mem.copiedPoison
  split
  · exact List.pairwise_lt_range.filter _
  · exact ((mem_wf_iff m).1 h).2.2.1.filter _

theorem settleErrs_wf {m : Mem} (h : m.wf = true) : m.settleErrs.wf = true := by
  refine foldl_wf _ (fun m e hm => ?_) _ h
  split
  · rw [mem_wf_iff] at hm ⊢
    exact ⟨hm.1, hm.2.1, natSetInsert_rises _ hm.2.2.1, smapErase_sorted _ hm.2.2.2⟩
  · exact rewriteLine_wf hm _

/-- A reform keeps the canonical form, whatever rising list of poisoned lines it leaves. -/
theorem reformed_wf {m : Mem} (h : m.wf = true) {poison : List Nat} (hp : poison.Pairwise (· < ·)) (limit : Nat) :
    (m.reformed poison limit).wf = true := by
  rw [mem_wf_iff] at h ⊢
  refine ⟨smapFilter_sorted _ h.1, fun c hc => ?_, hp, h.2.2.2⟩
  simp only [Mem.reformed, List.mem_filter, decide_eq_true_eq] at hc
  rcases h.2.1 c hc.1 with ha | hb
  · left
    simp only [Mem.areaAt, List.find?_isSome, Bool.and_eq_true, decide_eq_true_eq] at ha ⊢
    obtain ⟨r, hr, h1⟩ := ha
    refine ⟨{ r with len := min r.len (limit - r.base) }, ?_, ?_⟩
    · simp only [Mem.reformed, List.mem_filter, List.mem_map, bne_iff_ne]
      exact ⟨⟨r, hr, rfl⟩, by omega⟩
    · simp only; omega
  · exact .inr hb

theorem afterReset_wf {m : Mem} (h : m.wf = true) : m.afterReset.wf = true := by
  unfold Mem.afterReset
  simp only
  split
  · exact initialise_wf _
  · exact h

end Sys2Proof.Laws
end

