-- ==== Sys2Proof/Tests/Slice0.lean ====
section
/-! SUPPORT. Small tests on fixed values: ill-formed commands, the spec's worked examples, one step of each family, and for every
statement with hypotheses a state and operands that meet them. -/

namespace Sys2Proof.Tests

open Sys2Proof Sys2Proof.Machine

-- One theorem at a time: each holds a large stack while the kernel evaluates it.
set_option Elab.async false

/-! ### States to test on -/

/-- The next state of an outcome, if it is one. -/
def nx (o : Out) : Option State :=
  match o with
  | .next t => some t
  | _ => none

/-- A field of the next state. -/
def after {α : Type} (o : Out) (f : State → α) : Option α := (nx o).map f

/-- A kernel that runs. -/
def run0 : RunInfo := ⟨0, 0, 0, 0, 0, false, 0, 0, 0, 20000⟩

/-- Partition 0 with logical cores 0 and 1 in program cycle 10 of a kernel of context 0. -/
def pt0 : Part :=
  { Part.reset with hold := false, inReset := false, count := 2, en := true, cyc := 10, run := some run0, ctx := some 0 }

/-- The module in W0 with the host link up and firmware running. -/
def base : State :=
  { State.reset with
    power := { Power.reset with st := .w0, target := .w0, pwrEn := true, rails := true, pwrGood := true }
    host := { HostPort.reset with perst := false, gen := 6, width := 16, flit := true, trained := true }
    sec := { Security.reset with boot := 1 } }

/-- The module with partition 0 as `p` and its two cores issuing. -/
def busy (p : Part) (q : Core) : State :=
  { base with parts := [(0, p)]
              cores := [(0, { q with seq := .issuing, progLen := 8 }), (1, { Core.reset with seq := .issuing, progLen := 8 })] }

/-- A Bench line with data. -/
def valid (d : Line) : BenchLine := ⟨.valid, d, false, false, false, none⟩

/-! ### Ill-formed commands -/

theorem test_wf_core : WellFormed (.nop 0 23) = true ∧ WellFormed (.nop 0 24) = false := by decide
theorem test_wf_port : WellFormed (.linkLoss 39) = true ∧ WellFormed (.linkLoss 40) = false := by decide
theorem test_wf_source : WellFormed (.dieLinkRetry 0x9FFF) = true ∧ WellFormed (.dieLinkRetry 0xA000) = false := by decide
theorem test_wf_physical_core : WellFormed (.coreFail 3 25) = true ∧ WellFormed (.coreFail 3 26) = false := by decide
theorem test_wf_engine :
    WellFormed (.engineReset (.core 0 25)) = true ∧ WellFormed (.engineReset (.core 0 26)) = false ∧
    WellFormed (.engineHangDetect (.link 40)) = false := by decide
theorem test_wf_sram : WellFormed (.sramEccError (.bench 0 23 0) true) = true ∧
    WellFormed (.sramEccError (.regs 0 24) true) = false := by decide
theorem test_wf_crust : WellFormed (.crustCommit (List.replicate 64 (0, 0)) 0) = true ∧
    WellFormed (.crustCommit (List.replicate 65 (0, 0)) 0) = false := by decide +kernel
theorem test_wf_tasting : WellFormed (.tastingRoundComplete (.pair ⟨0, 25, 3⟩ ⟨1, 25, 3⟩)) = true ∧
    WellFormed (.tastingRoundComplete (.pair ⟨0, 0, 0⟩ ⟨0, 26, 0⟩)) = false := by decide
theorem test_wf_journal : WellFormed (.journalAppend 0 (.undo 0 0) false) = true ∧
    WellFormed (.journalAppend 0 (.out 24 0 0) false) = false := by decide
theorem test_wf_steps : WellFormed (.powerBinEnd 0 0 ⟨10, 10, 10, 10⟩) = true ∧
    WellFormed (.powerBinEnd 0 0 ⟨0, 0, 0, 11⟩) = false := by decide
theorem test_wf_packet :
    let p : Packet := ⟨0, 0, 0x03, 0, 2, 0, 0, 0, 0, false, 31, [1, 2]⟩
    WellFormed (.write p) = true ∧ WellFormed (.write { p with payload := [1] }) = false ∧
    WellFormed (.write { p with hops := 32 }) = false ∧ WellFormed (.write { p with len := 2049 }) = false := by decide
theorem test_wf_forecast : WellFormed (.forecastPublish (List.replicate 200 0)) = true ∧
    WellFormed (.forecastPublish []) = false := by decide +kernel
theorem test_wf_telemetry : WellFormed (.telemetryBinEnd ⟨[], [], [], [], [], [], 0⟩) = false := by decide
theorem test_wf_hello : WellFormed (.hello 0 ⟨0, 0, 40, 0, false, 0, false, false, false, false, false, 0, 0⟩) = false := by decide
theorem test_wf_loaf :
    let none : LoafSect := ⟨0, 0⟩
    let k : KernelDesc := ⟨0, 1, 20000, 0, [⟨256, 2, 0⟩]⟩
    let h : LoafHead := ⟨0, 0, 1, none, ⟨256, 64⟩, ⟨512, 64⟩, none, ⟨768, 0⟩, [k]⟩
    WellFormed (.loafVerifyDone 0 h) = true ∧ WellFormed (.loafVerifyDone 0 { h with table := [] }) = false ∧
    WellFormed (.loafVerifyDone 0 { h with programs := ⟨128, 192⟩ }) = false ∧
    WellFormed (.loafVerifyDone 0 { h with table := [{ k with progs := [] }] }) = false ∧
    WellFormed (.loafVerifyDone 0 { h with table := [{ k with progs := [⟨256, 3, 0⟩] }] }) = false := by decide
theorem test_wf_numbers :
    WellFormed (.thermalTrip 20) = false ∧ WellFormed (.laserSourceInsert 0 3) = false ∧ WellFormed (.laserFail 0 10) = false ∧
    WellFormed (.pcieConfigWrite 17 (.bme true)) = false ∧ WellFormed (.spdmVendorReport []) = false ∧
    WellFormed (.memPositionFail 40 0 false) = false ∧ WellFormed (.memChanFail 0 10) = false ∧ WellFormed (.refresh 400) = false ∧
    WellFormed (.hotRefresh 400) = false ∧ WellFormed (.ledgerRecordWrite 20 1 0 []) = false ∧
    WellFormed (.marginSweep [⟨0xA000, 0, [], false⟩]) = false ∧ WellFormed (.counterLoWriteClear 0 0x209) = false ∧
    WellFormed (.quarantineTestsDone 0 (some 24)) = false := by decide

/-! ### Worked examples of the spec -/

/-- 02_number_formats.md, Worked examples: 300.0 to E4M3. -/
theorem test_e4m3_of_300 :
    e4m3.encode .rne (f32 0x4396_0000) = 0x79 ∧ e4m3.encode (.sr 0x3A_1C57) (f32 0x4396_0000) = 0x7A ∧
    e4m3.encode (.sr 0x9B_4000) (f32 0x4396_0000) = 0x79 ∧ e4m3.encode .rne (f32 0x43FA_0000) = 0x7E ∧
    (MaxReg.ofValues [f32 0x4396_0000]).mag = 0x4396_0000 := by decide

/-- 02_number_formats.md, Worked examples: a block of FP32 values to MXFP4 (13.0, 2.3, −0.7, 0.2). -/
theorem test_mxfp4_block :
    let xs := [0x4150_0000, 0x4013_3333, 0xBF33_3333, 0x3E4C_CCCD].map fun w : Word => (Rnd.rne, f32 w)
    mxBlock e2m1 xs = (0x80, [7, 2, 9, 0]) := by decide

/-- 03_anchored_sums.md, the dot product of length 300: the anchor, the addends and the drained value. -/
theorem test_anchored_sum :
    magExponent 0x3FC0_0000 + magExponent 0x4B80_0000 + 1 = 25 ∧
    (placeOnGrid 25 false ((bf16.decode 0x3FC0).mul (bf16.decode 0x4B80))).q = 0xC000_0000_0000 ∧
    (placeOnGrid 25 false ((bf16.decode 0x3FC0).mul (bf16.decode 0x3380))).q = 1 ∧
    placeOnGrid 25 false ((bf16.decode 0x3F80).mul (bf16.decode 0x3380)) = ⟨0, .none, true⟩ ∧
    toF32 (leaveGrid 25 ⟨(0xDE00_0001 : BitVec 80), .none⟩) = 0x43DE_0000 := by decide

/-- 04_core.md, the drain of that sum with bias 0.5 and scale 0.25 to E4M3. -/
theorem test_drained_cell :
    let f : DrainF := ⟨4, false, 0, false, true, true, 0, 0, false, false, 0, 0, 0, 0⟩
    let j : DrainJob := { id := 0, kind := .drain 0, issue := 0, f := f, desc := parseDrainDesc 0, dest := 0, bias := [0x3F00_0000],
                          scale := [0x3E80_0000], biasPoison := false, scalePoison := false, seed := 0, step := 0, anchor := 25, next := 0,
                          snap := none, pc := 0, beyond := false }
    let c := drainCell j 25 ⟨0xDE00_0001, .none⟩ .nan false 0
    toF32 c.val = 0x42DE_4000 ∧ e4m3.encode .rne c.val = 0x6E ∧ c.poison = false ∧ c.ovf = false := by decide

/-- 07_fiard_compute.md, VOPT: three updates of −2^−10. -/
theorem test_vopt_updates :
    optElem 0x3F80 1024 0xBA80_0000 = (0x3F80, 0xF400) ∧ optElem 0x3F80 0xF400 0xBA80_0000 = (0x3F80, 0xE400) ∧
    optElem 0x3F80 0xE400 0xBA80_0000 = (0x3F7F, 0x2800) := by decide

/-- 06_fiard_bundles.md, the bundle of ADD s3, s1, 5: it owes s3 the sum at the end of its cycle. -/
theorem test_bundle_add :
    let s := busy pt0 { Core.reset with s := [(1, 37)], prog := [(0, (0x8002_0C18_0000_0005 : BitVec 256) <<< 192)] }
    after (exec (.bundleIssue 0 0) s) (fun t => ((t.core 0).pc, (t.core 0).nextAt, (t.core 0).writes)) =
      some (1, 11, [⟨10, 1, .sreg 3 42⟩]) := by decide +kernel

/-- R298: two cores fault in one cycle; the lowest logical core is recorded and MULTI is set, whichever bundle issues first. -/
theorem test_two_cores_fault :
    let q := { Core.reset with prog := [(0, BitVec.twoPow 256 249)], progLen := 8, seq := .issuing }
    let s := { busy pt0 q with cores := [(0, q), (1, q)] }
    after (exec (.bundleIssue 0 1) s) (fun t => ((t.part 0).fault.core, (t.part 0).fault.code, (t.part 0).fault.multi)) =
      some (0, 1, true) := by decide +kernel

/-- R229: a WLD of one line read in cycle 0 is LOADED at the end of that cycle, not in it. -/
theorem test_wld_loaded :
    let q := { Core.reset with arrays := [(0, { ArrayS.reset with
      shadow := .writing ⟨0, 1, 0, 0, 0, 0, ⟨0, 0, 0, [0], [], false⟩⟩ })] }
    wldLoadedCore q 0 0 = q ∧ ((wldLoadedCore q 0 1).array 0).shadow = .loaded ⟨0, 0, 0, [0], [], false⟩ := by decide +kernel

/-- 09_reproducibility.md: the logical index of element (476, 1,905) of a shard, and of the element of the whole tensor. -/
theorem test_logical_index :
    drainIndex { parseDrainDesc 0 with base := 8392704, rowStride := 8192, colStride := 1 } 476 1905 = 12294001 ∧
    drainIndex { parseDrainDesc 0 with base := 0, rowStride := 8192, colStride := 1 } 1500 6001 = 12294001 := by decide

/-- 11_memory.md: the group of line 0xAB_CDEF_12 with 40 groups, and after group 5 has been retired. -/
theorem test_line_group :
    Mem.reset.groupOfLine 2882400018 = 18 ∧
    ((Mem.reset.setGroup 5 { MemGroup.reset with retired := true }).groupOfLine 2882400018) = 31 := by decide

/-- 16_power_wake.md: f_floor under three ceilings of the example part. -/
theorem test_floor : Fuse.reset.floorFor 2600 = 1100 ∧ Fuse.reset.floorFor 2592 = 1045 ∧ Fuse.reset.floorFor 2200 = 880 := by decide

/-- 17_host_pcie.md: local addresses behind BAR2 with PCIE_BAR2_OFF at 1,024 GiB. -/
theorem test_bar2_window :
    let s := { base with host := { base.host with bar2Off := 0x100_0000_0000 } }
    s.barLocal 0 0x3F_DBFF_FF00 = 0x13F_DBFF_FF00 ∧ s.barLocal 0 0x3F_DBFF_FF00 + 256 = s.mem.hostTop ∧
    s.barLocal 0 0x3F_E000_0000 = s.mem.dumpBase ∧ s.barLocal 0 0x40_0000_0000 = s.mem.top := by decide

/-- 20_register_map.md: a field repair of column 17 with spare column 129 of array A2 of core 25 on HD3. -/
theorem test_repair_map : tasteMap ⟨3, 25, 2⟩ = 0x060_59C8 ∧ moveColumn 0x8382_8180 17 129 = 0x8382_8011 := by decide

/-- 01_module.md: the source numbers of three events. -/
theorem test_sources : srcCore 26 3 = 0x0843 ∧ srcPort 0 = 0x2100 ∧ srcGroup 18 = 0x3882 := by decide

/-- 12_thatre_fabric.md: the clocks of a child 6.5 ns ahead over 20 m of fibre, in 1/16 ns. -/
theorem test_time_offset :
    let delay : Int := ((8 * 1000000000266 + 4 : Int) - 8 * 1000000000000) - ((8 * 1000000000160 : Int) - (8 * 1000000000093 + 4))
    let theta : Int := 2 * ((8 * 1000125000106 + 4 : Int) - 8 * 1000125000000) - delay
    delay = 1600 ∧ theta = 104 ∧ offsetWord theta = 6 ∧ slewFor theta = -52000 := by decide

/-- 07_fiard_compute.md, an array through two tiles: a row popped in cycle 130 lands in cycle 399. -/
theorem test_row_latency : 130 + landLatency = 399 := by decide
/-! ### States and operands that meet the statements' hypotheses -/

/-- The module with partition 0 running and both cores fresh. -/
def world : State := busy pt0 .reset

/-- The module with a bundle at the pc of core 0. -/
def bundleWorld (b : Bundle) : State := busy pt0 { Core.reset with prog := [(0, b)] }

theorem test_premises_issue : IssuesAt world 0 0 0 ∧ IsCore world 0 1 1 ∧ VectorFree world 0 0 ∧ UnitsOk world := by
  unfold IssuesAt IsCore VectorFree UnitsOk; decide +kernel

/-- SpecifiersReadAndWriteRegisters, AluWritesDestination, ConstantsPredicatesAndStepRegisters, AnchorAndTimeReads: the first
and last specifier of each range. -/
theorem test_premises_specifiers :
    (0x1F : BitVec 6).toNat < 0x20 ∧ (0x20 : BitVec 6).toNat = 0x20 ∧ 0x20 < (0x21 : BitVec 6).toNat ∧
    (0x27 : BitVec 6).toNat < 0x28 ∧ 0x28 ≤ (0x28 : BitVec 6).toNat ∧ (0x2B : BitVec 6).toNat < 0x2C ∧
    0x2C ≤ (0x2C : BitVec 6).toNat ∧ (0x2F : BitVec 6).toNat < 0x30 ∧ 0x30 ≤ (0x30 : BitVec 6).toNat ∧
    src2Ok (.reg 0x2F) = true ∧ src2Ok (.imm 0) = true ∧ src2Ok (.reg 0x30) = false := by decide

/-- ControlFlowMovesTheSequencer: targets at both ends of the loop and one past it, a taken and an untaken branch, loop
counts at their limits, tile budgets at theirs. -/
theorem test_premises_control :
    let q := { Core.reset with pc := 1, progLen := 8, p := [(1, true)], s := [(1, 2 ^ 32), (2, 2 ^ 32 - 1)],
                               loops := [⟨0, 7, 2⟩, ⟨0, 7, 2⟩, ⟨0, 7, 2⟩] }
    let t := fun off : BitVec 20 => (q.pc : Int) + off.toInt
    (0 ≤ t (-1) ∧ t (-1) = 0 ∧ t 6 = 7 ∧ t 6 < q.progLen ∧ ∀ f ∈ q.loops.head?, (f.start : Int) ≤ t (-1) ∧ t 6 ≤ f.last) ∧
    ¬t 7 < q.progLen ∧ smapGet false q.p 1 = true ∧ smapGet false q.p 2 = false ∧ q.loops.length < 4 ∧
    1 ≤ (1 : BitVec 16).toNat ∧ (8191 : BitVec 16).toNat ≤ 8191 ∧ (q.readSpec 0).toNat = 0 ∧
    (q.readSpec 2).toNat < 2 ^ 32 ∧ 0 < (q.readSpec 2).toNat ∧ 2 ^ 32 ≤ (q.readSpec 1).toNat ∧
    (100000 : BitVec 17).toNat ≤ 100000 ∧ 100000 < (100001 : BitVec 17).toNat := by decide +kernel

theorem test_premises_control_issues :
    IssuesAt (busy pt0 { Core.reset with loops := [⟨0, 7, 2⟩], p := [(1, true)] }) 0 0 0 := by
  unfold IssuesAt IsCore; decide +kernel

/-- EffectsTakePlaceAtCycleEnd: effects due in this cycle and in the next, and an order of the three effects on a running
maximum other than their own. -/
theorem test_premises_cycle_end :
    smapSorted Core.reset.s = true ∧ smapSorted Core.reset.m = true ∧
    ([⟨10, 2, .mjoin 0 .zero⟩, ⟨10, 1, .mreg 0 .zero⟩, ⟨10, 0, .mclear 0⟩] : List Delayed).Perm
      [⟨10, 0, .mclear 0⟩, ⟨10, 1, .mreg 0 .zero⟩, ⟨10, 2, .mjoin 0 .zero⟩] ∧
    ([⟨10, 2, .mjoin 0 .zero⟩, ⟨10, 0, .mclear 0⟩] : List Delayed).Perm [⟨10, 0, .mclear 0⟩, ⟨10, 2, .mjoin 0 .zero⟩] := by
  decide +kernel

/-- BundleIssuesAllSlotsOrNone: no core waits, with an instruction, a TRAP, a zero bundle, a reserved bit, and past the end
of the program. -/
theorem test_premises_bundle :
    let free := fun (s : State) => (∀ e ∈ s.coresOf 0, assess s ⟨0, e.1, e.2⟩ = ([], false)) ∧
      (s.core 0).nextAt ≤ (s.part 0).cyc ∧ s.issuing ⟨0, 0, 0⟩ = true
    let res := fun (s : State) => runSlots ((s.core 0).bundle 0) (s.issued ⟨0, 0, 0⟩) ⟨0, 0, 0⟩
    let ok := fun (s : State) => (res s).waits = [] ∧ (res s).hold = false ∧ (res s).faults = [] ∧
      lendOk (s.core 0) (((s.core 0).bundle 0).getLsbD 250) (slotLoops (slotOf ((s.core 0).bundle 0) 255 192 56)) = true
    let a := bundleWorld ((0x8002_0C18_0000_0005 : BitVec 256) <<< 192)
    let b := bundleWorld ((0x8014_4200_0000_0000 : BitVec 256) <<< 192)
    free a ∧ ok a ∧ (res a).late = [] ∧ free b ∧ ok b ∧ (res b).late ≠ [] ∧
    free (bundleWorld 0) ∧ (world.core 0).pc < (world.core 0).progLen ∧ (world.core 0).loops = [] ∧
    (∀ i ∈ [0, 1, 2, 3], ((world.core 0).array i).dq = []) ∧
    free (bundleWorld (BitVec.twoPow 256 249)) ∧ free (bundleWorld (BitVec.twoPow 256 248)) ∧
    free (busy pt0 { Core.reset with pc := 8 }) := by decide +kernel

/-- BundleIssuesAllSlotsOrNone: a partition of one core, and a bundle that faults (SUB with a reserved rd). -/
theorem test_premises_bundle_alone :
    let s := bundleWorld ((0x8002_0C18_0000_0005 : BitVec 256) <<< 192 ||| BitVec.twoPow 256 250)
    ({ world with parts := [(0, { pt0 with count := 1 })] }).coresOf 0 = [(0, 0)] ∧
    lendOk (s.core 0) (((s.core 0).bundle 0).getLsbD 250) (slotLoops (slotOf ((s.core 0).bundle 0) 255 192 56)) = false := by
  decide +kernel

/-- BundleIssuesAllSlotsOrNone: a due bundle of the partition waits for a message. -/
theorem test_premises_bundle_waits :
    let s := bundleWorld (BitVec.twoPow 256 251 + 0x02_0000)
    (∃ e ∈ s.coresOf 0, (assess s ⟨0, e.1, e.2⟩).1 ≠ []) ∧ (s.core 0).nextAt ≤ (s.part 0).cyc ∧ s.issuing ⟨0, 0, 0⟩ = true := by
  decide +kernel

/-- IdleCoreTakesNoInstruction: a core that has no kernel, and a core that the partition does not have. -/
theorem test_premises_idle :
    let s := { world with cores := [] }
    s.phys 0 0 = some 0 ∧ s.issuing ⟨0, 0, 0⟩ = false ∧ s.phys 0 2 = none := by decide +kernel
/-- A weight tile in FP8 E4M3 without side data. -/
def tile0 : Tile := ⟨0, 0, 0, [], [], false⟩

/-- An activation row of the same class. -/
def row0 : AqRow := ⟨0, 0, 0, false⟩

/-- WeightTilesMove: a WLD whose tile ends with the last Bench line, one on a full shadow, a WLD that has read all its lines,
a WSWAP of a loaded and of an empty shadow. -/
theorem test_premises_weights :
    let q := { Core.reset with
      s := [(1, 65536 - 128)], bench := [(65536 - 128, valid 0)]
      arrays := [(1, { ArrayS.reset with shadow := .loaded tile0 }),
                 (2, { ArrayS.reset with shadow := .writing ⟨0, 1, 0, 0, 0, 0, { tile0 with lines := [0] }⟩ })] }
    (busy pt0 q).issuing ⟨0, 0, 0⟩ = true ∧ wldPairOk 0 0 = true ∧ wldSides 0 0 = 0 ∧ (q.array 0).shadow = .empty ∧
    q.lineOf 1 + wldLines 0 = 65536 ∧ (q.line (q.lineOf 1)).st = .valid ∧ (q.array 1).shadow ≠ .empty ∧
    (q.array 1).shadow = .loaded tile0 ∧
    (q.array 2).shadow = .writing ⟨0, 1, 0, 0, 0, 0, { tile0 with lines := [0] }⟩ ∧ 0 + 1 ≤ pt0.cyc := by decide +kernel

theorem test_premises_weights_not_loaded (t : Tile) : (Core.reset.array 0).shadow ≠ .loaded t := nofun

/-- MatrixRowsReachBanks: an MMA onto a ZERO bank with its tile active and one with none, one that finds the AQ empty and an ACT
at work, a row to pop, an AQ that is empty, and a row that lands in this cycle. -/
theorem test_premises_matrix :
    let j : MmaJob := ⟨3, false, 10, 4, 0, [⟨0, 0, tile0, 0⟩], 0⟩
    let f : RowFlight := ⟨3, 0, 5, 10, { row0 with poison := true }, tile0, 0, 0⟩
    let q := { Core.reset with aq := [row0], mmas := [j]
                               arrays := [(0, { ArrayS.reset with active := some tile0, flight := [f] })] }
    (busy pt0 q).issuing ⟨0, 0, 0⟩ = true ∧ pt0.advancing = true ∧ (q.array 0).active = some tile0 ∧ tile0.cls = 0 ∧
    ((q.array 0).bank 0).st = .zero ∧ addCount ((q.array 0).bank 0).count 256 ≤ 2 ^ 30 ∧
    2 ^ 30 < addCount (2 ^ 30) 128 ∧ (q.array 1).active = none ∧
    j.start + j.popped * 1 ≤ pt0.cyc ∧ (∀ m ∈ j.arrays, m.tile.cls = fmtClass row0.fmt) ∧ Core.reset.aq = [] ∧
    Core.reset.acts = [] ∧ f.due ≤ pt0.cyc ∧
    (q.streamFree ≤ pt0.cyc → q.aq = [] → q.acts = []) ∧ (busy pt0 q).arrayHold 0 = false ∧
    (let w := { Core.reset with acts := [⟨0, 0, 1, 0, 1, 10, 0, [], 0⟩] }
     (busy pt0 w).issuing ⟨0, 0, 0⟩ = true ∧ w.streamFree ≤ pt0.cyc ∧ w.aq = [] ∧ w.acts ≠ []) ∧
    ∀ x ∈ rowSums f.act f.tile f.anchor, x.1.fl.ovf = false := by decide +kernel

/-- A drain of FP32 elements without bias, scale or function. -/
def drain0 : DrainF := ⟨0, false, 0, false, false, false, 0, 0, false, false, 0, 0, 0, 0⟩

/-- The drain job of `drain0` in bank 0. -/
def job0 (kind : DrainKind) : DrainJob :=
  { id := 0, kind := kind, issue := 0, f := drain0, desc := parseDrainDesc 0, dest := 0, bias := [], scale := [], biasPoison := false,
    scalePoison := false, seed := 0, step := 0, anchor := 0, next := 0, snap := none, pc := 0, beyond := false }

/-- DrainsReadAndWriteRows: a descriptor with a pitch of four lines, a second job, a full path, a row to read, and a row to
write 24 cycles after its read. -/
theorem test_premises_drains :
    let q := { Core.reset with bench := [(0, valid (BitVec.ofNat 1024 (512 * 2 ^ 256)))]
                               arrays := [(1, { ArrayS.reset with jobs := [job0 (.drain 0)] }),
                                          (2, { ArrayS.reset with jobs := [job0 (.drain 0), job0 (.drain 1)] })] }
    let d := parseDrainDesc (q.line (q.lineOf drain0.rq)).data
    (busy pt0 q).issuing ⟨0, 0, 0⟩ = true ∧ (q.array 1).pathFull pt0.cyc = false ∧ (q.line (q.lineOf drain0.rq)).st = .valid ∧
    drainFieldFaults drain0 d (q.sreg drain0.rd.toNat) (max 1 ((q.array 0).bank 1).top) = [] ∧
    drainFieldFaults drain0 d (q.sreg drain0.rd.toNat) 128 = [] ∧
    drainFieldFaults { drain0 with dest := 3 } (parseDrainDesc 0) 0 128 = [0x01] ∧ (q.array 2).pathFull pt0.cyc = true := by decide +kernel

theorem test_premises_drain_rows :
    let j := job0 (.drain 0)
    let ar := { ArrayS.reset with jobs := [j], bank0 := { Bank.zero with st := .spent, anchor := some 0, top := 1 } }
    let q := { Core.reset with arrays := [(1, ar)] }
    let out := drainRow j (drainSource q 1 j).2.1 j.next pt0.cyc (drainSource q 1 j).1 [] false
    drainMayRead q 1 j pt0.cyc = true ∧ (drainSource q 1 j).2.2 = false ∧ j.f.op.toNat < 2 ∧ out.2.1 = false ∧
    ({ out.1 with readAt := 0 } : DqRow).readAt + 24 ≤ 24 ∧ out.1.f.dest = 0 ∧
    (∀ w ∈ out.1.writes, (q.line w.line).st ≠ .pending) := by decide +kernel

theorem test_premises_drain_kind (b sa x y : Nat) (sb : Option Nat) (u v : Word) (w : BankState) :
    (job0 (.drain x)).kind ≠ .fold b sa sb u v w ∧ (job0 (.pbdrain y)).kind ≠ .fold b sa sb u v w := ⟨nofun, nofun⟩

/-- BanksClearAndArraysIdle: a bank with a row in flight and one without, and a Tasting injection at each end of an IDLE. -/
theorem test_premises_idle_arrays :
    let q := { Core.reset with
      arrays := [(0, { ArrayS.reset with idleFrom := 10, idleTo := 11, flight := [⟨0, 1, 0, 20, row0, tile0, 0, 0⟩] }),
                 (1, { ArrayS.reset with idleFrom := 9, idleTo := 10 })] }
    let s := busy pt0 q
    s.issuing ⟨0, 0, 0⟩ = true ∧ (q.array 0).flight.any (fun f => f.bank == 1) = true ∧
    (q.array 0).flight.any (fun f => f.bank == 0) = false ∧
    q.mmas.any (fun j => j.arrays.any fun m => m.array == 0 && m.bank == 0) = false ∧ s.tele.tasteEn = true ∧
    pt0.advancing = true ∧ (q.array 0).idleFrom ≤ pt0.cyc ∧ pt0.cyc < (q.array 0).idleTo ∧ ¬pt0.cyc < (q.array 1).idleTo ∧
    pt0.quarantined = false := by decide +kernel

/-- ProofBufferInstructionsTakeTheirPlace: free slots, a marked slot, an image at the end of the host region and one beyond
it, a re-run that suppresses. -/
theorem test_premises_proof_buffer :
    let q := { Core.reset with s := [(1, BitVec.ofNat 64 (base.mem.hostTop - 278784)), (2, BitVec.ofNat 64 (base.mem.hostTop - 278528))]
                               pb := [(7, { PbSlot.zero with readMark := true })] }
    let s := busy pt0 q
    s.issuing ⟨0, 0, 0⟩ = true ∧ (q.array 0).pathFull pt0.cyc = false ∧ q.pbSuppress ≤ q.pbIssued ∧ (q.slot 0).readMark = false ∧
    (q.slot 7).readMark = true ∧ (q.sreg 1).toNat % 256 = 0 ∧ (q.sreg 1).toNat + 278784 ≤ s.mem.hostTop ∧
    ¬(q.sreg 2).toNat + 278784 ≤ s.mem.hostTop ∧ (s.engine 0 (s.serving 0 7)).queue.length < 32 ∧
    ({ Core.reset with pbSuppress := 1 } : Core).pbIssued < 1 := by decide +kernel

/-- A PEEL or image descriptor of core 0. -/
def desc0 (kind : DescKind) : PeelDesc :=
  { pt := 0, core := 0, xfer := 0, kind := kind, space := 0, tsz := 0, line := 0, addr := 0, addr2 := 0, rowBytes := 128, rows := 1,
    memPitch := 128, benchPitch := 1, started := true, received := 0, rowBuf := [], sent := false, data := [], headerOk := false,
    headerPoison := false, imgAnchor := none, imgCount := 0, imgPsn := false, slot := 0, op := 0, tag := 0, pc := 0 }

/-- The module with a descriptor at the head of engine 0 of HD0. -/
def engineWorld (q : Core) (d : PeelDesc) : State :=
  { busy pt0 q with dies := [(0, { Die.reset with engines := [(0, { Engine.reset with queue := [d] })] })] }

/-- ProofBufferRowsMove: the second row of a FOLD of an OPEN bank, the last row of a spill, and a header that is due. -/
theorem test_premises_proof_buffer_rows :
    let j := { job0 (.fold 0 1 none 0 0 .open) with next := 1 }
    let q := { Core.reset with
      arrays := [(0, { ArrayS.reset with jobs := [j], bank0 := { Bank.zero with st := .spent, anchor := some 0, top := 2 } })]
      pbOps := [⟨0, .fold, [1], true, 1, false⟩] }
    0 < j.next ∧ q.pbOps.any (fun o => o.id == j.id && o.suppressed) = false ∧ drainMayRead q 0 j pt0.cyc = true ∧
    pbEarlier q 1 (j.next % 128) j.id = false ∧ pbFoldBusy q 1 j.id = false := by decide +kernel

theorem test_premises_image_rows :
    let q := { Core.reset with pbOps := [⟨0, .spillW, [0], true, 127, false⟩] }
    let d := { desc0 .spillW with received := 127 }
    let s := engineWorld q d
    (s.engine 0 0).queue[0]? = some d ∧ d.received < 128 ∧ pbMayBegin (s.core 0) d.op = true ∧
    pbEarlier (s.core 0) d.slot d.received d.op = false := by decide +kernel

theorem test_premises_image_header :
    let q := { Core.reset with pbOps := [⟨0, .load 0, [0], true, 0, false⟩] }
    let d := desc0 .load
    let s := engineWorld q d
    (s.engine 0 0).queue[0]? = some d ∧ s.headerDue d = true ∧ s.mem.linePoison (d.addr / 256) = false ∧
    headerFaults d ((s.core 0).slot 0) false (imageAnchor (s.mem.field 0 2)) (BitVec.ofNat 32 (s.mem.field 4 4)) = [] ∧
    headerFaults { d with tag := 1 } ((s.core 0).slot 0) false (imageAnchor (s.mem.field 0 2)) 0 ≠ [] := by
  decide +kernel

/-- ProofBufferRowsMove: row 0 of a FOLD that binds its slot, of one beyond the capacity, of one with another tag, of a SUSPECT bank. -/
theorem test_premises_fold_row0 :
    let j := job0 (.fold 0 1 none 7 0 .open)
    let bank := { Bank.zero with st := .spent, anchor := some 0, top := 2, count := 2 ^ 30 }
    let q := fun (b : Bank) (v : PbSlot) => { Core.reset with
      arrays := [(0, { ArrayS.reset with jobs := [j], bank0 := b })], pb := [(1, v)], pbOps := [⟨0, .fold, [1], true, 0, false⟩] }
    let v := { PbSlot.zero with tag := 7 }
    let ok := fun (x : Core) => drainMayRead x 0 j pt0.cyc = true
    ok (q bank v) ∧ ((q bank v).slot 1).tag = 7 ∧ ((q bank v).slot 1).anchor = none ∧
    (((q bank v).slot 1).foldInto bank).count ≤ 2 ^ 30 ∧
    2 ^ 30 < (((q bank { v with count := 1 }).slot 1).foldInto bank).count ∧ ok (q bank { v with count := 1 }) ∧
    ok (q bank .zero) ∧ foldFaults (q bank .zero) 0 bank 0 1 none 7 0 .open 0 ≠ [] ∧
    ok (q { bank with suspect := true } v) := by decide +kernel

/-- ProofBufferRowsMove: a poisoned header, a PBSPILL.A of a slot that is not OPEN, a PBLOAD past the capacity. -/
theorem test_premises_image_cases :
    let w := fun (kind : DescKind) (op : PbKind) (o : Bool) => engineWorld { Core.reset with
      pbOps := [⟨0, op, [0], true, 0, false⟩], pb := if o then [(0, { PbSlot.zero with isOpen := true })] else [] } (desc0 kind)
    let p := { w .spillA .spillA true with mem := { Mem.reset with poison := [0] } }
    let z := w .spillA .spillA false
    p.headerDue (desc0 .spillA) = true ∧ p.mem.linePoison 0 = true ∧ ((z.core 0).slot 0).isOpen = false ∧
    pbEarlier (z.core 0) 0 127 0 = false ∧ (z.core 0).portBusy 0 pt0.cyc = false ∧ pbMayBegin (z.core 0) 0 = true ∧
    pbMayBegin ((w .load (.load 0) false).core 0) 0 = true ∧ 2 ^ 30 < ({ desc0 .load with imgCount := 2 ^ 30 + 1 }).imgCount := by
  decide +kernel

/-- MatrixRowsReachBanks: a bank whose count passes the capacity, and a row that adds one of OVF. -/
theorem test_premises_capacity :
    let b := { Bank.zero with st := .open, anchor := some 0, count := 2 ^ 30 }
    2 ^ 30 < addCount b.count 128 ∧ (b.st = .open → b.anchor = some (Core.reset.anchor 0)) ∧
    ∃ x ∈ rowSums { row0 with data := 0x7E } { tile0 with lines := List.replicate 128 (BitVec.ofNat 1024 0x7E) } (-512),
      x.1.fl.ovf = true := by decide +kernel
/-- VectorUnitHoldsWhileBusy, VectorLoadsAndStores: a unit busy for one more cycle, a run that ends with the last Bench line
and one that goes beyond it. -/
theorem test_premises_vector :
    let q := { Core.reset with s := [(1, 65528), (2, 65529)], bench := (List.range 8).map fun i => (65528 + i, valid 0) }
    let l := fun (r : Nat) => (q.sreg r).toNat % 2 ^ 16
    (busy pt0 { q with vBusy := 11 }).issuing ⟨0, 0, 0⟩ = true ∧ pt0.cyc < ({ q with vBusy := 11 } : Core).vBusy ∧
    (busy pt0 q).issuing ⟨0, 0, 0⟩ = true ∧ q.vBusy ≤ pt0.cyc ∧ q.vldsOut < 8 ∧ l 1 + 8 ≤ 65536 ∧ 65536 < l 2 + 8 ∧
    (∀ i ∈ (List.range 8).map (l 1 + ·), (q.line i).st = .valid) ∧ smapSorted q.v = true := by decide +kernel

/-- ConversionsFunctionsAndSoftUpdates: pairs of VCVT that are and are not listed, the last function, the largest Crumb count
of each width, and the two answers of the selector. -/
theorem test_premises_conversions :
    cvtPair 0 9 = true ∧ cvtPair 2 5 = true ∧ cvtPair 6 9 = false ∧ (9 : BitVec 4).toNat < 10 ∧ (8 : BitVec 4).toNat < 9 ∧
    (1023 + 1) * (8 * 2 ^ 0) ≤ 8192 ∧ (255 + 1) * (8 * 2 ^ 2) ≤ 8192 ∧ 8192 < (256 + 1) * (8 * 2 ^ 2) ∧
    VReg.zero.poison = false ∧ VReg.zero.bits.extractLsb' 0 4 = 0 ∧ (⟨8, false⟩ : VReg).bits.extractLsb' 0 4 ≠ 0 ∧
    (⟨0, true⟩ : VReg).poison = true := by decide +kernel

/-- ExactAccumulatorsAdd: the largest n of each mode, anchors at both ends, a count at the capacity, and two anchors that
differ. -/
theorem test_premises_accumulators :
    let acc := fun (a : Int) (n : Nat) => VAcc.ofBits (VAcc.bits ⟨Ax.zero, a, n⟩)
    let z := VReg.zero
    (acc (-512) 0).anchor = -512 ∧ (acc 511 0).anchor = 511 ∧ (acc 0 0).anchor ≠ (acc 1 0).anchor ∧
    (AxMode.f32.addends (acc 0 0) 256 z).2.2.2 = false ∧ (AxMode.f64.addends (acc 0 0) 128 z).2.2.2 = false ∧
    (AxMode.w80.addends (acc 0 0) 85 z).2.2.2 = false ∧ (AxMode.tap.addends (acc 0 0) 64 z).2.2.2 = false ∧
    (acc 0 (2 ^ 78 - 64 * 2 ^ 30)).count + (AxMode.tap.addends (acc 0 0) 64 z).2.1 = 2 ^ 78 ∧
    (acc 0 0).count + (AxMode.w128.addends (acc 0 0) 1 z).2.1 ≤ 2 ^ 78 := by decide +kernel

/-- ActivationRowsAreDelivered: an ACT whose rows end with the Bench and one beyond it, a row that is available and one into a
full AQ, and a row that a frozen core waits for. -/
theorem test_premises_activations :
    let q := { Core.reset with s := [(1, 65534), (2, 128)], bench := [(65534, valid 0), (65535, valid 0)] }
    let line := fun r : Nat => (q.sreg r).toNat % 2 ^ 16
    let job : ActJob := ⟨0, 65534, 0, 0, 1, 10, 0, [], 0⟩
    (busy pt0 q).issuing ⟨0, 0, 0⟩ = true ∧ line 1 + (1 - 1) * 128 + actLines 0 ≤ 65536 ∧ ¬line 1 + (256 - 1) * 128 + actLines 0 ≤ 65536 ∧
    (∀ i ∈ job.lines 0, (q.line i).st = .valid) ∧ (6 : BitVec 4).toNat < 7 ∧ 7 ≤ (7 : BitVec 4).toNat ∧
    q.acts.foldl (fun t j => max t (j.start + j.rows)) pt0.cyc = pt0.cyc := by decide +kernel

theorem test_premises_activation_rows :
    let job : ActJob := ⟨0, 0, 0, 0, 2, 7, 1, [(10, row0)], 0⟩
    let frozen := { pt0 with needs := [⟨0, .aqRow, false, 0⟩] }
    nextActRow [job] = some ((10, row0), [{ job with buf := [] }]) ∧ pt0.advancing = true ∧ 10 ≤ pt0.cyc ∧
    Core.reset.aq.length < 64 ∧ 64 ≤ (List.replicate 64 row0).length ∧ frozen.advancing = false ∧
    frozen.needs.any (fun w => w.core == 0 && w.need == .aqRow) = true ∧ Core.reset.aq = [] ∧
    pt0.needs.any (fun w => w.core == 0 && w.need == .aqRow) = false := by decide +kernel

/-- A PEEL descriptor line of one row of 128 bytes. -/
def peelLine (kind : Nat) : Line := BitVec.ofNat 1024 (kind + 128 * 2 ^ 192 + 2 ^ 224 + 128 * 2 ^ 256 + 128 * 2 ^ 288)

/-- PeelDescriptorsAndTheirRows: descriptors of every kind, one of a kind that does not exist, an engine with one place and
one without. -/
theorem test_premises_peel :
    let q := { Core.reset with s := [(1, 1), (2, 2), (3, 3), (4, 4)]
                               bench := [(0, valid (peelLine 0)), (1, valid (peelLine 1)), (2, valid (peelLine 2)),
                                         (3, valid (peelLine 3)), (4, valid (peelLine 4))] }
    let s := engineWorld q (desc0 .copy)
    s.issuing ⟨0, 0, 0⟩ = true ∧ (s.part 0).replay.contains 0 = false ∧ q.carried ≤ q.issuedXfers ∧
    (∀ i ∈ List.range 4, peelFault s (parsePeel (q.line i).data) = none) ∧
    peelFault s (parsePeel (q.line 4).data) = some 0x01 ∧ (∀ i ∈ peelLines 0 128 1 128, (q.line i).st = .valid) ∧
    (s.engine 0 (s.serving 0 0)).queue.length < 32 ∧ 32 ≤ (List.replicate 32 (desc0 .copy)).length := by decide +kernel

theorem test_premises_peel_lines :
    let hold := fun (src : Bool) => some (⟨0, if src then 1 else 2, src⟩ : LineHold)
    let x : Xfer := ⟨0, .peel 0, [], [1, 2], [], 0, 0⟩
    let y : Xfer := ⟨1, .dssld, [], [1, 2], [], 0, 1⟩
    let z : Xfer := ⟨2, .dssst, [1, 2], [], [], 0, 1⟩
    let q := { Core.reset with xfers := [x, y, z], bench := [(1, ⟨.pending, 0, false, false, false, hold false⟩)] }
    let d := { desc0 .into with benchPitch := 128, line := 1 }
    let s := engineWorld q d
    (s.engine 0 0).queue.find? (fun x => !x.started) = none ∧
    (engineWorld q { desc0 .out with started := false }).engine 0 0 = ⟨[{ desc0 .out with started := false }], 0, none, false⟩ ∧
    q.xfer 0 = some x ∧ q.xfer 1 = some y ∧ q.xfer 2 = some z ∧ 1 < y.dst.length ∧ 1 < z.src.length ∧ z.src.head? = some 1 ∧
    s.findDesc 0 0 = some (0, d) ∧ (q.line 1).hold = some ⟨0, 2, false⟩ ∧ (s.peelLineData d 1).isSome = true := by
  decide +kernel

theorem test_premises_peel_complete :
    let s := engineWorld .reset (desc0 .into)
    (s.engine 0 0).queue[0]? = some (desc0 .into) ∧ (desc0 .into).started = true ∧ s.destCame (desc0 .into) = true := by
  decide +kernel

/-- CopiesAndDssTransfers: 4,096 lines that end with the Bench, one line beyond it, the last line of the DSS and an odd
offset. -/
theorem test_premises_copies :
    (busy pt0 .reset).issuing ⟨0, 0, 0⟩ = true ∧ 61440 + ((4095 : BitVec 12).toNat + 1) ≤ 65536 ∧
    65536 < 65535 + ((1 : BitVec 12).toNat + 1) ∧ (2 ^ 26 - 128) % 128 = 0 ∧ 2 ^ 26 - 128 + 128 * 1 ≤ 2 ^ 26 ∧ ¬64 % 128 = 0 := by
  decide +kernel

/-- MessagesCrossInOrder: a message of one line to core 1, a full send XQ, a span beyond the Bench, an empty and a matching
receive XQ, and a whole message at the head of its destination. -/
theorem test_premises_messages :
    let to1 : DWord := 1 <<< 39
    let q := { Core.reset with s := [(1, 65535), (2, 65535 + 2 ^ 16), (3, to1)], bench := [(65535, valid 0)] }
    let s := busy pt0 q
    let adr := s.normNode (msgAddr to1)
    let m : Msg := ⟨adr, ⟨0, 0, 0⟩, 0, 1, [(0, false)]⟩
    s.issuing ⟨0, 0, 0⟩ = true ∧ msgSpan (q.sreg 1) = (65535, 1, 0) ∧ 65536 < 65535 + (msgSpan (q.sreg 2)).2.1 ∧ adr.node = 0 ∧
    (s.target adr).isSome = true ∧ (∀ x ∈ q.recvXq, x.isFrom adr 0 = false) ∧ m.isFrom adr 0 = true ∧
    m.count = (msgSpan (q.sreg 1)).2.1 ∧ s.fab.owed.any (fun o => o.2.1 == 0 && o.2.2 == 0) = false ∧ smapSorted s.cores = true ∧
    s.target m.dst = some 0 ∧ m.lines.length = m.count ∧ s.holdsMessages 0 0 = false ∧
    16 ≤ (List.replicate 16 (⟨0, m⟩ : SendMsg)).length := by decide +kernel

/-- An XRED descriptor of one element in group 1, from line 2 to line 3 with status in line 4. -/
def xredLine : Line := BitVec.ofNat 1024 (1 + 2 ^ 32 + 2 ^ 160 + 2 * 2 ^ 192 + 3 * 2 ^ 208 + 4 * 2 ^ 224)

/-- CollectiveOperationsJoinAndEnd: a descriptor that every XRED takes. -/
theorem test_premises_collectives :
    let q := { Core.reset with bench := [(0, valid xredLine), (2, valid 0)] }
    let f := parseXred (q.line 0).data
    let ops := [CollOp.sumExact, .sumTree, .gather, .scatter]
    (busy pt0 q).issuing ⟨0, 0, 0⟩ = true ∧ (q.line 0).st = .valid ∧ f.fmt < 4 ∧ f.group = 1 ∧
    (∀ op ∈ ops, f.src + ceilDiv (collSizes op f).1 128 ≤ 65536 ∧ f.dst + ceilDiv (collSizes op f).2 128 ≤ 65536) ∧
    (∀ j ∈ [2], (q.line j).st = .valid) ∧ (∀ j ∈ [3, 4], (q.line j).st ≠ .pending) := by decide +kernel

theorem test_premises_collective_end :
    let a : CollInput := ⟨.sumExact, 1, 0, 0, 1, 0, 1, 0, false, List.replicate 12 0, false⟩
    let m : CollMember := ⟨0, 0, 0, 0, 0, 2, 3, 4, 0, a, true, true⟩
    let c : CollAgreed := ⟨a, 1, 1⟩
    let u : CollRun := ⟨1, 0, [m], [], some c, true, [], [⟨0, ⟨[⟨0, 0, 0, List.replicate 12 0⟩], 0, false⟩, false⟩]⟩
    let g : CollGroup := { CollGroup.reset with id := 1, pTotal := 1, nNodes := 1, valid := true, localPt := 1 }
    let s := { world with fab := { Fabric.reset with groups := [(0, g)], runs := [u] } }
    s.readyRun 1 = some (u, c) ∧ s.readyRun 2 = none ∧ a.op ≠ .xbar ∧ (collResult a u.results).marked = false ∧
    (collResult a [⟨0, ⟨[], 0, false⟩, true⟩]).marked = true := by decide +kernel

/-- CollectiveOperationsJoinAndEnd: the sum of what two nodes contribute to a segment, and one outside the range (R100). -/
theorem test_combine :
    let a : CollInput := ⟨.sumExact, 1, 0, 0, 0, 0, 1, 0, false, natBytes 12 5, false⟩
    let x := contribution a [a, a] [0]
    let big : CollInput := { a with data := natBytes 12 (2 ^ 79 - 1) }
    let y := contribution a [big, big] [0]
    x.vals = [⟨0, 0, 0, natBytes 12 10⟩] ∧ (combine a [x, x] [0] fun _ => []).1.vals = [⟨0, 0, 0, natBytes 12 20⟩] ∧
    y.vals.length = 2 ∧ (combine a [y] [0] fun _ => []).2 = true := by decide +kernel

/-- BarriersTimesAndFences: an XBAR that has been released and one that has not, a time that has come with the lag and one that
has not come, a core without transfers and one with a PEEL in flight. -/
theorem test_premises_barriers :
    let x : Xfer := ⟨0, .peel 0, [], [], [], 0, 0⟩
    let q := { Core.reset with s := [(1, 5)], xbars := [(5, 1)], xfers := [x], nextId := 1 }
    let s := { busy { pt0 with xbarRel := [(5, 2)] } q with time := { TimeBase.reset with gtb := BitVec.ofNat 96 (100 * 2 ^ 32) } }
    let bar := { pt0 with needs := [⟨0, .xbar 0 1, false, 0⟩, ⟨1, .xbar 0 1, false, 0⟩] }
    s.issuing ⟨0, 0, 0⟩ = true ∧ smapGet 0 q.xbars 5 < smapGet 0 (s.part 0).xbarRel 5 ∧
    smapGet 0 (s.part 0).xbarRel 0 ≤ smapGet 0 q.xbars 0 ∧ (q.sreg 1).toNat + 16 ≤ s.now ∧ s.now < 101 ∧
    q.timeAt ≠ some (q.sreg 1) ∧ Core.reset.xfers = [] ∧
    s.needMet 0 ⟨0, .fence true false q.nextId, false, s.now⟩ = false ∧ (busy bar .reset).localBar 0 = some 1 ∧
    (100 : DWord) ≠ 0 ∧ (100 : DWord).toNat ≤ s.now := by decide +kernel
/-- The module with the GTB at `t` ns. -/
def at' (t : Nat) (s : State) : State := { s with time := { s.time with gtb := BitVec.ofNat 96 (t * 2 ^ 32) } }

/-- FreezesBeginHoldAndEnd: an XRECV without a message, a core that needs nothing, and a freeze that can end, that is one cycle
too young, and that still waits. -/
theorem test_premises_freezes :
    let r : CoreRef := ⟨0, 0, 0⟩
    let ws := fun (s : State) => ((assess s r).1 ++ popNeeds s r ++ settleNeeds s r ++ dqNeeds (s.core 0) (s.cyc r) true).dedup.filter
      fun w => !(s.part 0).notices.contains (0, w.cause)
    let s := bundleWorld (BitVec.twoPow 256 251 + 0x02_0000)
    let frozen := fun (ended : Bool) (n : Nat) => { pt0 with needs := [⟨0, .settle, ended, 0⟩], frzCycles := n }
    IsCore world 0 0 0 ∧ pt0.inReset = false ∧ pt0.run.isSome = true ∧ pt0.halted = false ∧ pt0.perstHold = false ∧
    ws (bundleWorld 0) = [] ∧ ws s ≠ [] ∧ (∀ w ∈ ws s, w.cause ≠ 7) ∧ pt0.frozen = false ∧
    (frozen true 1).frozen = true ∧ 1 ≤ (frozen true 1).frzCycles ∧ (∀ w ∈ (frozen true 1).needs, w.ended = true) ∧
    (frozen true 0).frzCycles = 0 ∧ (∃ w ∈ (frozen false 1).needs, w.ended = false) := by
  unfold IsCore; decide +kernel

/-- TilesSettleCommitAndYield: a core with and without work, a partition whose cores have all met, a bank left OPEN, a window
that has just ended and one that has not, and a core that has issued nothing in it. -/
theorem test_premises_tiles :
    let met := { Core.reset with seq := .met false 20000 3 }
    let openBank := { met with arrays := [(0, { ArrayS.reset with bank0 := { Bank.zero with st := .open, anchor := some 0 } })] }
    let s := { world with cores := [(0, met), (1, met)] }
    let f := { s with cores := [(0, openBank), (1, met)] }
    let w := fun (cores : List Nat) => at' 100 (busy { pt0 with winEnd := some 100, issuedCores := cores } .reset)
    Core.reset.quiet = true ∧ (∀ x ∈ Core.reset.xfers, s.xferOpen 0 x = true) ∧
    (∃ x ∈ [(⟨0, .dssld, [], [], [], 0, 0⟩ : Xfer)], s.xferOpen 0 x = false) ∧
    ({ Core.reset with bcopies := [⟨0, 0, 1, 0, false, 0, 0⟩] } : Core).quiet = false ∧ pt0.advancing = true ∧ s.refsOf 0 ≠ [] ∧
    (∀ r ∈ s.refsOf 0, (s.core r.k).hasMet = true) ∧ (∃ r ∈ world.refsOf 0, (world.core r.k).hasMet = false) ∧
    (∀ e, (s.part 0).winEnd = some e → s.now < e) ∧
    (let o := at' 100 { world with parts := [(0, { pt0 with winEnd := some 100 })], cores := [(0, met), (1, met)] }
     (∀ r ∈ o.refsOf 0, (o.core r.k).hasMet = true) ∧ (o.part 0).winEnd = some 100 ∧ 100 ≤ o.now) ∧
    commitFault s 0 = none ∧ commitFault f 0 = some (⟨0, 0, 0⟩, ⟨0x18, 0, 0, 3, 1⟩) ∧
    ({ pt0 with atYield := true } : Part).atYield = true ∧ (w []).now = 100 ∧ (w [0, 1]).hangEvidence 0 = none ∧
    (w [1]).hangEvidence 0 = some (.core 0 0) := by decide +kernel

/-- TilesAreAbandonedAndReexecuted: a partition that runs a kernel and one that does not. -/
theorem test_premises_abandon : (world.part 0).run.isSome = true ∧ (world.part 1).run = none ∧
    unitOk (srcCore 0 1) = true ∧ unitOk 0xA000 = false := by decide +kernel

/-- An entry of context 0. -/
def entry0 : Admitted :=
  { idx := 4095, serial := 0, express := false, ctx := 0, kernel := 0, deadline := 0, gen := 0, model := 0, args := [], setStep := none,
    setSeed := none, msix := none, tag := 0, shadowMask := 0, shadowOff := 0, seqFirst := 0, seqCount := 0, projected := 0, started := false,
    startGtb := 0, slip := 0, slip2 := 0, poison1 := false, poison2 := false, primary := .waiting, secondary := .waiting, crumbs1 := [],
    crumbs2 := [], saved := none, regs := [] }

/-- A Loaf with kernel 0. -/
def loaf0 : LoafImage :=
  ⟨⟨0, recipeId, 0, ⟨0, 0⟩, ⟨0, 0⟩, ⟨0, 0⟩, ⟨0, 0⟩, ⟨0, 0⟩, []⟩,
    [⟨0, 2, 0, 0, [⟨0, [0]⟩, ⟨0, [0]⟩], ⟨1, 1, 1, 0, 0, 0, 0, 0, 0⟩⟩]⟩

/-- The module with context 0 resident on partition 0 and an entry admitted. -/
def served (p : Part) (c : Ctx) (a : Admitted) : State :=
  { busy p .reset with ctxs := [(0, c)], loafs := [(0, { LoafSlot.reset with st := .ready, image := some loaf0 })]
                       bs := { BatchSheet.reset with en := true, scanner := true, run := [a] } }

/-- EntriesAreAdmittedStartedAndCompleted: a tick that is due and one that is not, an entry that can start, a kernel that has
halted and one that has not, and a completion without an interrupt. -/
theorem test_premises_entries :
    let res := { Ctx.reset with st := .resident }
    let s := served { pt0 with run := none } res entry0
    let t := at' 10000 s
    let h := { served pt0 { Ctx.reset with st := .running } { entry0 with started := true } with
      cores := [(0, { Core.reset with seq := .halted }), (1, { Core.reset with seq := .halted })] }
    let s1 := (List.range 16).foldl State.genTick { t with bs := { t.bs with
      lastTick := tickOf t.now, sawReady := t.entryField t.bs.scan 0 1 == 1 || !t.bs.held.isEmpty } }
    tickOf s.now ≤ s.bs.lastTick ∧ t.bs.lastTick < tickOf t.now ∧ s1.bs.en = true ∧ s1.bs.scanner = true ∧ s1.bs.paused = false ∧
    s1.host.perst = false ∧ s1.sec.boot = 1 ∧ s1.power.st = .w0 ∧ s1.power.exiting = false ∧ s.canStart 0 = true ∧
    s.nextEntry 0 = some entry0 ∧ (s.ctx 0).live = true ∧ (s.part 0).ctx = some 0 ∧ (s.kernelOf (s.ctx 0) 0).isSome = true ∧
    (h.part 0).run = some run0 ∧ h.runningEntry 0 = some { entry0 with started := true } ∧ h.allHalted 0 = true ∧
    (served pt0 res entry0).allHalted 0 = false ∧ ((h.crumbGroups 0).any fun g => g.2.2.poison) = false := by decide +kernel

theorem test_premises_completion :
    let c : Completion := ⟨0, 0, 0, 0, 0, 0, 0, 0, none, none, 0, 0, 0, 0, false⟩
    let b := { BatchSheet.reset with due := [c] }
    b.due = [c] ∧ c.msix = none ∧ c.ctx = none ∧ BatchSheet.reset.due = [] := by decide

/-- ContextsSwitchAndExpressCopiesAreCompared: a context that can come on, one that is on, a deadline that waits for a
background kernel, copies that agree and that differ, and a pair that can be made again. -/
theorem test_premises_contexts :
    let c1 := { Ctx.reset with st := .idle }
    let s := { served { pt0 with run := none } { Ctx.reset with st := .resident } entry0 with
      ctxs := [(0, { Ctx.reset with st := .resident }), (1, c1)] }
    let bg := { pt0 with run := some { run0 with background := true }, atYield := true }
    let w := { served bg { Ctx.reset with st := .running } { entry0 with deadline := 1, ctx := 1 } with
      ctxs := [(0, { Ctx.reset with st := .running }), (1, c1)] }
    (s.part 0).inReset = false ∧ (s.part 0).frozen = false ∧ (s.part 0).halted = false ∧ s.stoppedOn 0 = false ∧
    (s.part 0).replay = [] ∧ (s.part 0).run = none ∧ (s.part 0).ctx ≠ some 1 ∧ (s.part 0).ctx = some 0 ∧ (s.ctx 1).live = true ∧
    0 ∈ (s.ctx 1).pts ∧ s.suspendedEntry 1 = none ∧ (w.part 0).bgRun = true ∧ (w.part 0).atYield = true ∧
    (∃ a ∈ w.waiting 0, a.deadline ≠ 0 ∧ (w.part 0).ctx ≠ some a.ctx) ∧ (∀ a ∈ s.waiting 0, a.deadline = 0) := by decide +kernel

theorem test_premises_express :
    let a := { entry0 with express := true, primary := .halted, secondary := .halted }
    let c := { Ctx.reset with st := .resident, express := true, pt := 0, pt2 := 1, unpaired := true, lost2 := true }
    let p := { Part.reset with inReset := false, hold := false, count := 2 }
    let s := { served { pt0 with run := none } c a with
      parts := [(0, { pt0 with run := none }), (2, p)], bs := { BatchSheet.reset with run := [], ptExpress := [(0, true), (1, true), (2, true)] } }
    [a].find? (fun a => a.idx == 4095 && a.express) = some a ∧ a.comparable = true ∧ { a with primary := .running }.comparable = false ∧
    a.crumbs1 = a.crumbs2 ∧ { a with crumbs1 := [(0, 0, .zero)] }.crumbs1 ≠ a.crumbs2 ∧ c.lost1 = false ∧ c.unpaired = true ∧
    Ctx.reset.unpaired = false ∧ s.ctxBusy 0 = false ∧ c.live = true ∧ (s.part 2).inReset = false ∧ (s.part 2).quarantined = false ∧
    (s.part 2).die = (s.part 1).die ∧ (s.part 2).count = (s.part 0).count ∧ smapGet false s.bs.ptExpress 2 = true ∧
    (s.part 0).ctx = some 0 ∧ (s.part 1).ctx ≠ some 0 := by decide +kernel

theorem test_premises_express_lost : ({ Ctx.reset with express := true } : Ctx).lost1 = false ∧ Ctx.reset.lost2 = false := by decide

theorem test_premises_host : HostReaches base 0x080_0024 ∧ HostReaches base 0x080_0104 ∧ HostReaches base 0x080_0008 ∧
    HostReaches base 0x080_020C ∧ HostReaches base 0x003_0000 ∧ HostReaches base 0x003_0100 ∧ HostReaches base 0x080_0318 ∧
    HostReaches base (0x010_0010 + 0x1_0000 * 15) ∧ HostReaches base (0x010_0000 + 0x1_0000 * 15) := by
  unfold HostReaches; decide +kernel

theorem test_premises_host_more : HostReaches base 0x001_0008 ∧ HostReaches base 0x001_0004 ∧ HostReaches base 0x004_0010 ∧
    HostReaches base 0x004_0004 ∧ HostReaches base 0x020_0020 ∧ HostReaches base 0x020_0010 ∧ HostReaches base 0x050_0800 ∧
    HostReaches base 0x002_0104 ∧ HostReaches base 0x8 ∧ HostReaches base (0x010_0000 + 0x1_0000 * 15 + 0x208) ∧
    HostReaches base (0x010_0000 + 0x1_0000 * 15 + 0x220) := by
  unfold HostReaches; decide +kernel

/-- The debug block is served while debug is unlocked (R602). -/
theorem test_premises_debug :
    let s := { base with sec := { base.sec with debug := true, scopes := 1 } }
    let t := { base with sec := { base.sec with debug := true, scopes := 2 } }
    HostReaches s 0x110_0000 ∧ HostReaches t 0x100_0008 ∧ HostReaches s 0x100_0008 ∧ HostReaches t 0x110_0000 ∧ s.sec.grants 0 = true ∧
    s.sec.grants 1 = false ∧ t.sec.grants 1 = true ∧ t.sec.grants 0 = false := by
  unfold HostReaches; decide +kernel

theorem test_premises_fabric_access : FabReaches base 0x030_0104 ∧ FabReaches base 0x030_0000 ∧ FabReaches base 0x040_0010 ∧
    FabReaches base 0x030_0210 := by
  unfold FabReaches; decide +kernel

/-- ServingBlockIsConfigured: a context that the checks take and one that they refuse, a Batch Sheet of 4,096 entries and one
of 17, and a Loaf whose key slot is filled and one whose slot is empty. -/
theorem test_premises_serving :
    let m := { ModelSlot.reset with cur := some ⟨1, 0, 0⟩ }
    let c := { Ctx.reset with jsize := 1, rwd := 0x10_0000_0000, en := true }
    let s := { served { pt0 with ctx := none } .reset entry0 with models := [(0, m)] }
    s.ctxBad c = false ∧ s.ctxBad { c with jsize := 0 } = true ∧ (∀ n < 16, (s.part n).ctx ≠ some 0) ∧ (s.ctx 0).st = .free ∧
    (0x8000_0000 : Word).getLsbD 31 = true ∧ (0x0001_1000 : Word).getLsbD 16 = true ∧ sizeOk 4096 = true ∧ sizeOk 17 = false ∧
    4096 + 256 * 4096 ≤ s.mem.hostTop ∧ (s.loaf 0).st ≠ .verifying ∧
    smapGet none [((0 : Nat), some ([] : List Byte))] 0 = some [] ∧ smapGet none [((0 : Nat), some ([] : List Byte))] 1 = none := by
  decide +kernel

/-- SramErrorsAreCountedAndContained: places that are there and one that is not, an event record that is in the ring. -/
theorem test_premises_sram :
    let ring := smapInsert [] 3 (0, (⟨5, 0, 0x0101, 0, false, false⟩ : Event))
    world.eccHere (.bench 0 1 65535) = true ∧ world.eccHere (.dss 3 0) = true ∧ world.eccHere (.regs 0 0) = true ∧
    world.eccHere (.router 39 0) = true ∧ world.eccHere (.coll 1 0) = true ∧ world.eccHere (.eventLog 3) = true ∧
    world.eccHere (.bench 0 2 0) = false ∧ (world.eccUnit (.bench 0 0 0)).1 ≠ 4 ∧ (world.eccUnit (.pipeline 0 0)).1 = 4 ∧
    (smapFind ring 3).isSome = true ∧ IsCore world 0 1 1 := by
  unfold IsCore; decide +kernel

/-- CrustRegistersCommitAndAreScrubbed: a word outside the maps with its CRC, an offset that is no Crust register, and a
register one copy of which differs. -/
theorem test_premises_crust :
    let es : List (Word × Word) := [(0x060_1000, 5)]
    let c := Crust.reset.setReg 0x060_1000 ⟨1, 1, 0⟩
    es.length ≤ 64 ∧ 64 < (List.replicate 65 ((0, 0) : Word × Word)).length ∧ crc32 (stagedBytes es) ≠ 0 ∧
    crc32 (stagedBytes es) = crc32 (stagedBytes [(0x060_1000, 5)]) ∧ isCrustOffset 0x060_1000 = true ∧ isMapOffset 0x060_1000 = false ∧
    isMapRecord 0x060_1000 = false ∧ isCrustOffset 0 = false ∧ (∀ e ∈ Crust.reset.regs, e.2.badCopies = 0) ∧
    c.regs.filter (fun e => e.2.badCopies != 0) = [(0x060_1000, ⟨1, 1, 0⟩)] := by decide +kernel

/-- CrustRegistersCommitAndAreScrubbed: a copy that differs under CRCs that all match, a group whose CRC does not, a map that
concerns a running partition, and words that cannot be staged. -/
theorem test_premises_crust_groups :
    let c := { Crust.reset with regs := [(0x060_1000, ⟨0, 0, 1⟩)] }
    let d := Crust.reset.setReg 0x060_4000 (.all 0x8382_8011)
    (∀ g, c.groupCrc g = c.heldCrc g) ∧ c.regs.filter (fun e => e.2.badCopies != 0) = [(0x060_1000, ⟨0, 0, 1⟩)] ∧
    smapSorted c.regs = true ∧ (∀ g, Crust.reset.groupCrc g = Crust.reset.heldCrc g) ∧ (∀ e ∈ d.regs, e.2.badCopies = 0) ∧
    ((d.regs.map fun e => crustGroup e.1) ++ d.crcs.map Prod.fst).dedup = [0x060_4000] ∧
    d.groupCrc 0x060_4000 ≠ d.heldCrc 0x060_4000 ∧ (world.part 0).run.isSome = true ∧ isMapOffset 0x060_2000 = true ∧
    world.mapConcerns 0 (0x060_2000, 0x0302_0119) = true ∧ stagedOk (0x060_4000, 0x8382_8180) = true ∧
    stagedOk (0x060_4000, 0x8081_8283) = false := by
  refine ⟨fun g => ?_, by decide +kernel, by decide +kernel, fun g => rfl, by decide +kernel, by decide +kernel, by decide +kernel,
    by decide +kernel, by decide +kernel, by decide +kernel, by decide +kernel, by decide +kernel⟩
  have h : ∀ off, ({ Crust.reset with regs := [(0x060_1000, ⟨0, 0, 1⟩)] } : Crust).read off = Crust.reset.read off := by
    intro off
    by_cases e : off = 0x060_1000
    · subst e; decide +kernel
    · simp [Crust.read, Crust.reg, Crust.reset, smapFind, Ne.symm e]
  show Crust.groupCrc _ g = Crust.groupCrc Crust.reset g
  simp only [Crust.groupCrc, h]

/-- A complete round of an array whose column 0 is off by `n`. -/
def tasted (n : DWord) : TasteArr := { TasteArr.reset with loaded := tasteTileRows 0, injected := 256, acc := smapInsert [] 0 n }

/-- The module with a complete round on array 0 of core 0 of every die. -/
def tasteWorld (n0 n1 n2 n3 : DWord) : State :=
  { base with dies := [(0, { Die.reset with taste := [(0, tasted n0)] }), (1, { Die.reset with taste := [(0, tasted n1)] }),
                       (2, { Die.reset with taste := [(0, tasted n2)] }), (3, { Die.reset with taste := [(0, tasted n3)] })] }

/-- TastingRoundsAndQuarantine: arrays that agree and that differ, a referee that agrees with one and with none, a fourth that
does and does not, a choice that R130 allows and one it does not, no column apart. -/
theorem test_premises_tasting :
    let x : TasteAt := ⟨0, 0, 0⟩
    let y : TasteAt := ⟨1, 0, 0⟩
    let z : TasteAt := ⟨2, 0, 0⟩
    let w : TasteAt := ⟨3, 0, 0⟩
    let s := tasteWorld 1 2 1 1
    let u := tasteWorld 1 2 3 4
    let v := tasteWorld 1 2 3 3
    s.comparable [x, y] = true ∧ s.comparable [x, x] = false ∧ base.comparable [x, y] = false ∧
    (s.tasteAt x).agrees (s.tasteAt z) = true ∧ (s.tasteAt x).agrees (s.tasteAt y) = false ∧ s.comparable [x, y, z] = true ∧
    s.choiceOk z [x, y] [[128]] = true ∧ s.choiceOk z [x, y] [[17]] = false ∧
    ((u.tasteAt x).agrees (u.tasteAt z) = false ∧ (u.tasteAt y).agrees (u.tasteAt z) = false) ∧ u.comparable [x, y, z, w] = true ∧
    (∀ a ∈ [x, y, z], (u.tasteAt a).agrees (u.tasteAt w) = false) ∧ v.comparable [x, y, z, w] = true ∧
    (∃ a ∈ [x, y, z], (v.tasteAt a).agrees (v.tasteAt w) = true) ∧ v.choiceOk w [x, y, z] [[128], [128]] = true ∧
    ((columnsApart (s.tasteAt y) (s.tasteAt z)).map (s.physColumn y)).length = 1 ∧ 1 ≤ (s.spareColumns y).length ∧
    columnsApart (s.tasteAt x) (s.tasteAt z) = [] ∧ repairMapOk 0x8382_8180 = true ∧ moveOk [] 0x8382_8180 17 129 = true := by
  decide +kernel

/-- TastingRoundsAndQuarantine: a partition without entries that can be quarantined, one with an entry, one released in this
cycle, and one in quarantine with a core to convict. -/
theorem test_premises_quarantine :
    let s := served pt0 .reset entry0
    world.entriesOn 0 = [] ∧ (world.part 0).quarantined = false ∧ (world.part 0).inReset = false ∧ (world.part 0).releasedNow = false ∧
    s.entriesOn 0 ≠ [] ∧ ({ pt0 with releasedNow := true } : Part).quarantined = false ∧
    (busy { pt0 with quarantined := true } .reset).phys 0 1 = some 1 ∧ ({ pt0 with quarantined := true } : Part).quarantined = true := by
  decide +kernel

/-- FailedCoresAndRewind: a failed core with spares, without spares and without a context; a core that is fused off, one outside
the partitions and a spare; a context that can be rewound, one that is stopped with a checkpoint, a replaying core whose records
are messages and one with others left, a journal that is empty and one that is full. -/
theorem test_premises_rewind :
    let m : Msg := ⟨⟨0, 0, 0⟩, ⟨0, 0, 1⟩, 0, 0, []⟩
    let c := { Ctx.reset with st := .resident, ckpt := some [], stopped := true, journal := [.bar 0 0], replay := [.msg 0 m] }
    let s := { served { pt0 with run := none, replay := [0] } c { entry0 with ctx := 1 } with
      cores := [(0, { Core.reset with failed := true })], dies := [(3, { Die.reset with sparesLeft := 0 })] }
    let f := { s with parts := [(0, { pt0 with run := none, ctx := none })] }
    (s.core 0).failed = true ∧ (s.core 1).failed = false ∧ (s.core 1).retired = false ∧ s.fusedOff 0 1 = false ∧
    ({ s with fuse := { s.fuse with coresOff := [(0, [1])] } }).fusedOff 0 1 = true ∧ s.ptOfCore 1 = some 0 ∧ s.ptOfCore 25 = none ∧
    (s.logicalOf 0 25).isNone = true ∧ (s.die 0).sparesLeft ≠ 0 ∧ (s.logicalOf 0 23).isNone = false ∧
    s.spareCores 0 ≠ [] ∧ s.spareCores 3 = [] ∧ (s.part 0).ctx = some 0 ∧ c.rewindable = true ∧ Ctx.reset.rewindable = false ∧
    c.express = false ∧ c.live = true ∧ c.jrnlFull = false ∧ s.journalRec 0 (.out 1 2 0) = some (.out 1 2 0) ∧ c.journal ≠ [] ∧
    Ctx.reset.journal = [] ∧ ({ c with jrnlFull := true } : Ctx).jrnlFull = true ∧ Ctx.reset.live = false ∧
    s.failedOf 0 = [(0, 0)] ∧ world.failedOf 0 = [] ∧ (s.ctx 0).stopped = true ∧ (s.ctx 0).ckpt = some [] ∧ 0 ∈ (s.part 0).replay ∧
    1 ∉ (s.part 0).replay ∧ (f.part 0).ctx = none ∧ f.failedOf 0 = [(0, 0)] ∧ f.spareCores 0 = [24, 25] ∧
    c.replay.filter (fun x => x.core == some 0) = [JrnlRec.msg 0 m] ∧
    (∃ x ∈ [JrnlRec.bar 0 0, .msg 0 m], ∀ i n, x ≠ .msg i n) := by
  refine ⟨?_, ?_, ?_, ?_, ?_, ?_, ?_, ?_, ?_, ?_, ?_, ?_, ?_, ?_, ?_, ?_, ?_, ?_, ?_, ?_, ?_, ?_, ?_, ?_, ?_, ?_, ?_, ?_, ?_, ?_, ?_, ?_, ?_,
    ⟨.bar 0 0, List.mem_cons_self, nofun⟩⟩ <;> decide +kernel

theorem test_premises_checkpoint :
    let s := served { pt0 with run := none } { Ctx.reset with st := .resident } entry0
    (s.part 0).ctx = some 0 ∧ (s.ctx 0).express = false ∧ (s.ctx 0).live = true ∧ (s.ctx 0).stopped = false ∧ (s.part 0).replay = [] ∧
    (s.part 0).run = none ∧ (s.bs.run.any fun a => a.deadline != 0 && (s.ctx a.ctx).pts.contains 0) = false ∧ (s.part 1).ctx = none := by
  decide +kernel

/-- TilesSettleCommitAndYield, ContextsSwitchAndExpressCopiesAreCompared: a yield that a waiting deadline asks for, and a context
whose background kernel has yielded. -/
theorem test_premises_yield :
    let bg := { pt0 with run := some { run0 with background := true }, atYield := true }
    let w := served bg { Ctx.reset with st := .running } { entry0 with deadline := 1 }
    let s := served { pt0 with run := none } { Ctx.reset with st := .resident } { entry0 with saved := some run0, started := true }
    w.mustYield 0 = true ∧ world.mustYield 0 = false ∧ s.suspendedEntry 0 = some { entry0 with saved := some run0, started := true } ∧
    s.waitingDeadline 0 = none ∧ (s.ctx 0).live = true ∧ 0 ∈ (s.ctx 0).pts ∧ (s.part 0).run = none := by decide +kernel

/-- EntriesAreAdmittedStartedAndCompleted, ContextsSwitchAndExpressCopiesAreCompared: a result that poison has left in, copies that
ended otherwise, an entry that has started and one that has not. -/
theorem test_premises_copies_end :
    let a := { entry0 with express := true, started := true, primary := .halted, secondary := .lost }
    let s := served pt0 { Ctx.reset with st := .running } { a with poison1 := true }
    a.comparable = true ∧ { a with secondary := .fault 0x20 }.comparable = true ∧ (0x18 : Nat) ≠ 0x20 ∧
    (s.ctx 0).isPrimary 0 = true ∧ s.runningEntry 0 = some { a with poison1 := true } ∧
    s.bs.run.find? (fun b => b.idx == 4095) = some { a with poison1 := true } ∧ entry0.started = false := by decide +kernel
/-- HangsAreDetected: a core silent for just three windows and for a nanosecond less, a ladder step that covers and one that
does not, suspects and none. -/
theorem test_premises_hangs :
    let w := fun (t : Nat) => at' t (busy pt0 { Core.reset with watched := true })
    let x : Suspect := ⟨0, .part 0, 0, true⟩
    let l := { world with ladder := { Ladder.reset with steps := [⟨.part 1, 0⟩], suspects := [x], verdict := 1 } }
    ((w 3000000).core 0).watched = true ∧
    ((w 3000000).core 0).lastBeat + 3 * (w 3000000).ladder.hangPeriod.toNat * 1000 ≤ (w 3000000).now ∧
    (w 2999999).now < ((w 2999999).core 0).lastBeat + 3 * (w 2999999).ladder.hangPeriod.toNat * 1000 ∧
    (Core.reset).watched = false ∧ (∃ t ∈ l.ladder.steps, l.covers t.target (.part 1) = true) ∧
    (∀ t ∈ l.ladder.steps, l.covers t.target (.part 0) = false) ∧ world.ladder.suspects = [] ∧ l.firstSuspect = some x ∧
    l.ladder.verdict ≠ 0 ∧ (l.ctx x.ctx).express = false ∧ x.failed = true ∧ world.engHung (.core 0 0) = false ∧
    (let y := { l with ladder := { l.ladder with verdict := 0, suspects := [{ x with failed := false }] } }
     y.firstSuspect = some { x with failed := false } ∧ y.ladder.verdict = 0 ∧ ∀ z ∈ y.ladder.suspects, z.ctx = x.ctx) := by decide +kernel

/-- LadderStepsResetUnits: a suspect context and one that is not, a step that is there, at its limit and before it. -/
theorem test_premises_ladder :
    let x : Suspect := ⟨0, .part 0, 0, true⟩
    let t : LadderStep := ⟨.ctx 0, 0⟩
    let s := fun (now : Nat) => at' now { world with ladder := { Ladder.reset with steps := [t], suspects := [x] } }
    (∀ y ∈ (s 0).ladder.suspects, y.ctx ≠ 63) ∧ (s 0).ladder.suspects.find? (fun x => x.ctx == 0) = some x ∧
    (s 0).ladder.steps[0]? = some t ∧ (s 0).ladder.steps.length ≤ 1 ∧ (s 99999).now < t.start + t.target.limit ∧
    t.start + t.target.limit ≤ (s 100000).now ∧ base.power.pwrEn = true ∧ State.reset.power.pwrEn = false ∧
    ({ Ladder.reset with pwrReq := true } : Ladder).pwrReq = true ∧ Ladder.reset.pwrReq = false ∧
    ((s 0).ladder.steps.any fun y => (s 0).covers y.target (.part 0)) = false := by decide +kernel

/-- OvenTimerAndWhatResetsKeep: the timer at its limits, a first expiry 10 s ago and one less than that, no restart yet. -/
theorem test_premises_oven :
    let s := fun (now : Nat) (l f : Option Nat) => at' now { world with ladder := { Ladder.reset with ovtLast := l, ovtFirst := f } }
    (s 49999999 (some 0) none).now < 0 + 50000000 ∧ 0 + 50000000 ≤ (s 50000000 (some 0) none).now ∧
    (s 9999999999 (some 0) (some 0)).now < 0 + 10000000000 ∧ 0 + 10000000000 ≤ (s 10000000000 (some 0) (some 0)).now ∧
    (s 0 none none).ladder.ovtLast = none ∧ (s 999999999 none none).now < 0 + 1000000000 ∧
    0 + 1000000000 ≤ (s 1000000000 none none).now ∧ world.mem.reforming = none := by decide +kernel

/-- PartitionsAreConfiguredAndReleased: partitions held and running, one that takes all 24 cores, and one that leaves cores. -/
theorem test_premises_partitions :
    let s := fun (n : BitVec 5) => { base with parts := [(0, { Part.reset with en := true, count := n })] }
    Part.reset.inReset = true ∧ Part.reset.hold = true ∧ pt0.inReset = false ∧ pt0.hold = false ∧ pt0.quarantined = false ∧
    Part.reset.en = false ∧ (s 24).cfgBad 0 = false ∧ (s 23).cfgBad 0 = true ∧ ((s 24).part 0).outOfService = false ∧
    ((s 24).ladder.steps.any fun t => (s 24).covers t.target (.part 0)) = false ∧
    (let b := { world with ladder := { Ladder.reset with steps := [⟨.part 0, 0⟩] } }
     (b.ladder.steps.any fun t => b.covers t.target (.part 0)) = true) := by decide +kernel

/-- CrashDumpsAreTakenAndRead: a dump held, none held, one in progress to the dump SRAM with a hole. -/
theorem test_premises_dumps :
    let r : DumpRun := ⟨0, .module, 0, [], true, true⟩
    let l := { Ladder.reset with dump := some r }
    let s := { world with ladder := l }
    Ladder.reset.dump = none ∧ ({ Ladder.reset with full := true } : Ladder).full = true ∧ Ladder.reset.overwrite = false ∧
    Ladder.reset.full = false ∧ Ladder.reset.auto = true ∧ ({ Ladder.reset with auto := false } : Ladder).auto = false ∧
    Ladder.reset.dumpScope.isSome = true ∧ ({ Ladder.reset with scope := 7 } : Ladder).dumpScope = none ∧ l.dump = some r ∧
    (0x040 : Nat) % 2048 ≠ 0 ∧ (dieUnits 0).contains 0x040 = true ∧ s.inScope r.scope 0x040 = true ∧ 0x040 ∉ r.holes ∧
    l.dumpHost = 0 ∧ s.power.alwaysOn = true := by decide +kernel

/-- CrashDumpsAreTakenAndRead: records that are those of partition 0 with one hole, the same cut short, records of another scope,
and more of them than the dump SRAM holds. -/
theorem test_premises_dump_records :
    let r : DumpRun := ⟨0, .part 0, 0, [srcCore 0 0], true, true⟩
    let s := fun (now : Nat) => at' now { world with ladder := { Ladder.reset with dump := some r } }
    let xs := (world.scopeUnits (.part 0)).map fun u => (⟨BitVec.ofNat 16 u, false, if u = srcCore 0 0 then 1 else 0, 0, 0⟩ : DumpRec)
    let cut := xs.map fun x => if x.status = 0 then { x with status := 2 } else x
    (s 0).recordsOk r xs = true ∧ 64 + (xs.map dumpSize).sum ≤ r.room ∧ (xs.any fun x => x.status == 2) = false ∧
    (s 0).recordsOk r cut = true ∧ (cut.any fun x => x.status == 2) = true ∧
    r.began + (s (2 ^ 40)).ladder.limit.toNat * 1000000 ≤ (s (2 ^ 40)).now ∧ (s 0).recordsOk r [] = false ∧
    r.room < 64 + ([(⟨0x040, false, 0, 16 * 2 ^ 20, 0⟩ : DumpRec)].map dumpSize).sum := by decide +kernel

/-- GenerationsLoadActivateAndRelease: a manifest for an empty publisher slot is refused; model slots in each state, one whose
generation stands where the load would, a shard with and without fetches left, a load at its time limit and before it. -/
theorem test_premises_generations :
    let g : GenInfo := ⟨1, 0, 256⟩
    let x : ShardInfo := ⟨0, 256, 0, 0, 0, false⟩
    let m := { ModelSlot.reset with st := .loading, load := some g, shards := [x] }
    let s := fun (now : Nat) => at' now { base with models := [(0, m)] }
    base.manifestOk 0 0 = false ∧ ModelSlot.reset.st = .none ∧ m.st ≠ .none ∧ m.st ≠ .failed ∧ m.load = some g ∧
    m.shards[0]? = some x ∧ x.done = false ∧ m.st = .loading ∧ ModelSlot.reset.cur = none ∧ ModelSlot.reset.old = none ∧
    g.overlaps ⟨2, 128, 256⟩ = true ∧ g.overlaps ⟨2, 256, 256⟩ = false ∧ x.primary < 3 ∧
    (∀ y : ShardInfo, y = { x with primary := 3 } → 3 ≤ y.primary ∧ y.replica < 3) ∧
    (∀ y : ShardInfo, y = { x with primary := 3, replica := 3 } → 3 ≤ y.primary ∧ 3 ≤ y.replica) ∧
    g.base.toNat + g.len.toNat ≤ base.mem.hostTop ∧ base.mem.hostTop < base.mem.hostTop + g.len.toNat ∧
    (m.loadStart + m.timeout.toNat * 1000000 ≤ (s 1000000000).now) ∧ ¬m.loadStart + m.timeout.toNat * 1000000 ≤ (s 999999999).now := by
  refine ⟨?_, ?_, ?_, ?_, ?_, ?_, ?_, ?_, ?_, ?_, ?_, ?_, ?_, ?_, ?_, ?_, ?_, ?_, ?_⟩ <;> first | decide +kernel | (rintro _ rfl; decide)

/-- A manifest with ID 1 for slot 0 with one shard, where both signatures verify. -/
theorem test_premises_manifest (hEd : ∀ k m s, Config.ed25519Verify k m s = true) (hMl : ∀ k m s, Config.mldsa65Verify k m s = true) :
    let s := { base with sec := { base.sec with pubs := [(0, some [])] }, mem := { base.mem with cells := [(0, 1), (6, 1)] } }
    s.manifestOk 0 1 = true ∧ s.mem.field 0 4 ≠ 0 ∧ s.mem.field 4 2 = 0 ∧ 0 < s.mem.field 6 2 := by
  refine ⟨?_, by decide +kernel, by decide +kernel, by decide +kernel⟩
  have h : smapGet none [((0 : Nat), some ([] : List Byte))]
      (({ base.mem with cells := [(0, 1), (6, 1)] } : Mem).field (0 + shardAt 1) 1) = some [] := by decide +kernel
  unfold State.manifestOk
  show (match smapGet none [((0 : Nat), some ([] : List Byte))]
      (({ base.mem with cells := [(0, 1), (6, 1)] } : Mem).field (0 + shardAt 1) 1) with
    | some _ => _
    | none => false) = true
  rw [h]
  simp only [verifyBoth, hEd, hMl]
  rfl

/-- A shard whose bytes match, fetched and in place, and one whose bytes do not. -/
theorem test_premises_shard_matches (bs : List Byte) :
    let h := BitVec.ofNat 512 (Config.sha512 bs).toNat
    let x : ShardInfo := ⟨0, 256, h, 0, 0, false⟩
    h = x.hash ∧ x.done = false ∧ h ≠ { x with hash := h + 1 }.hash := by
  refine ⟨rfl, rfl, fun e => ?_⟩
  have := congrArg (· - BitVec.ofNat 512 (Config.sha512 bs).toNat) e
  simp at this

/-- PowerComesUpAndGoesDown: the conditions of each edge, and its absence; a laser whose position a spare takes, and one of a bay
without spares. -/
theorem test_premises_power :
    let p := base.power
    let trip := { p with tripped := true, tripPin := true, pwrEn := false }
    let t := at' 500000000 { base with power := trip }
    p.alwaysOn = true ∧ p.ovp = false ∧ p.tripped = false ∧ ({ p with ovp := true } : Power).ovp = true ∧ p.pwrEn = true ∧
    State.reset.power.pwrEn = false ∧ State.reset.power.rails = false ∧ State.reset.power.st = .w5 ∧
    ({ State.reset.power with exiting := true } : Power).exiting = true ∧ State.reset.power.pwrGood = false ∧ p.pwrGood = true ∧
    (19 : BitVec 5).toNat < 20 ∧ p.tripPin = false ∧ trip.tripped = true ∧ ({ trip with tripPin := false, pwrEn := true } : Power).pwrEn = true ∧
    t.power.tripPin = true ∧ t.power.pwrEnAt + 500000000 ≤ t.now ∧ (base.bay 3).latched = true ∧
    ({ Bay.reset with latched := false } : Bay).latched = false ∧ base.laserPlace 0 8 = none ∧ base.laserPlace 0 7 = some 7 ∧
    (base.bay 0).on = true ∧ (base.bay 0).failed.getLsbD 7 = false ∧ (base.bay 0).spares ≠ 0 ∧
    [8, 9].find? (fun x => !((base.bay 0).failed ||| 0x80).getLsbD x && (base.laserPlace 0 x).isNone) = some 8 ∧
    ({ Bay.reset with spares := 0 } : Bay).spares = 0 ∧ ({ p with alwaysOn := false } : Power).alwaysOn = false := by decide +kernel

/-- ClocksFollowDroopsHeatAndPower: clocks that run at the lowest step that can go down, above and at f_floor; a die in a droop
and one without rails; an input below its minimum; a bin and a forecast that are due and a bin that has been cut; both ends of a
link. -/
theorem test_premises_clocks :
    let s := at' 10000000 { base with dies := [(0, { Die.reset with nextMhz := 605 })] }
    let low := { s with power := { s.power with floorMhz := 550 } }
    s.aclkRuns = true ∧ 605 ≤ (s.die 0).nextMhz ∧ low.power.floorMhz ≤ (low.die 0).nextMhz - 55 ∧
    (s.die 0).nextMhz - 55 < s.power.floorMhz ∧ s.power.alertEn = false ∧ ({ Die.reset with nextMhz := 604 } : Die).nextMhz < 605 ∧
    Die.reset.droop = false ∧ ({ Die.reset with droop := true } : Die).droop = true ∧ State.reset.power.rails = false ∧
    ({ base with power := { base.power with st := .w4 } }).aclkRuns = false ∧
    ({ base with power := { base.power with st := .w4 } }).power.rails = true ∧
    (35999 : BitVec 16) < s.power.band.vinMin ∧ s.power.band.vinMin ≤ (36000 : BitVec 16) ∧ State.reset.aclkRuns = false ∧
    s.power.binNext ≤ s.now ∧ (at' 999999 base).now < base.power.binNext ∧ base.power.binCut = false ∧
    ({ base.power with binCut := true } : Power).binCut = true ∧ s.power.fcNext ≤ s.now ∧
    s.now < ({ s.power with fcNext := 10000001 } : Power).fcNext ∧
    s.power.fcastIbi = false ∧ linkPeer 0x230 = some (srcNo 5 0x3C0) ∧ linkPeer 0x22F = none ∧ base.power.fcCur = false := by decide +kernel

/-- WakeStatesAreEnteredAndLeft: idle times at the dwell of W1 and W5 and short of it, exits that can end, a tolerance at the
latency of W1 and one below it. -/
theorem test_premises_wake :
    let idle := { base with power := { base.power with idleFrom := some 0, wakeTol := 400000, allowW5 := true } }
    let exit := fun (w : WState) => { base with power := { base.power with st := w, exiting := true }, host := { base.host with gen := 0 } }
    idle.idle = true ∧ idle.power.exiting = false ∧ (at' 9999 idle).now - 0 = 9999 ∧ idle.power.deepest 9999 = none ∧
    idle.power.deepest 10000 = some .w1 ∧ idle.power.deepest 2000000000 = some .w5 ∧ idle.power.st ≠ .w5 ∧ idle.power.st = .w0 ∧
    world.idle = false ∧ (exit .w5).mayLeaveW5 = true ∧ (exit .w5).power.rails = true ∧ (exit .w1).host.gen = 0 ∧
    (exit .w1).power.st ≠ .w0 ∧ (exit .w1).power.alwaysOn = true ∧ State.reset.mayLeaveW5 = false ∧
    (exit .w1).power.st.latency ≤ (2 : Word).toNat ∧ (1 : Word).toNat < (exit .w1).power.st.latency ∧
    ({ base.power with idleFrom := none } : Power).idleFrom = none ∧
    (let saving := { idle.power with w3Save := 0x1000, allowW5 := false }
     saving.deepest 20000000000 = some .w4 ∧ ∃ n ∈ [50000000, 100000000, 200000000, 500000000, 1000000000], saving.deepest n = some .w3) ∧
    idle.power.deepest 500000 = some .w2 ∧ (exit .w3).power.st = .w3 ∧ base.host.gen ≠ 0 := by decide +kernel

/-- HostLinkComesAndGoes: the port in and out of reset, up and down, the modes of a link, functions that are and are not
there. -/
theorem test_premises_link :
    let vfs := { base with host := { base.host with vfEnable := true } }
    State.reset.host.perst = true ∧ base.host.perst = false ∧ base.host.reads = [] ∧ State.reset.host.gen = 0 ∧ base.host.gen ≠ 0 ∧
    base.linkUp = true ∧ State.reset.linkUp = false ∧ base.portLive = true ∧ State.reset.portLive = false ∧
    (3 : BitVec 5).toNat < 4 ∧ 4 ≤ (4 : BitVec 5).toNat ∧ linkModeOk 1 4 false = true ∧ linkModeOk 6 16 true = true ∧
    linkModeOk 6 16 false = false ∧ linkModeOk 0 4 false = false ∧ base.fnHere 0 = true ∧ base.fnHere 16 = false ∧
    vfs.fnHere 16 = true ∧ vfs.fnHere 17 = false ∧ base.power.wakeN = false ∧ vfs.host.vfEnable = true ∧ base.host.vfEnable = false ∧
    ({ base with power := { base.power with wakeN := true } }).power.wakeN = true ∧ (base.fn 0).d3hot = false ∧
    { base with host := { base.host with gen := 0 } }.portLive = true := by decide +kernel

/-- HostMemoryAccessAndInterrupts: the last bytes of the host's window and of memory and one beyond each, a read request at its
time limit, and a vector that is pending and can be sent. -/
theorem test_premises_bar2 :
    let s := { base with host := { base.host with bar2Log := 11 } }
    let f := { PcieFn.reset with msixEn := true, bme := true, pend := [5], msix := [(5, ⟨0, 0, false⟩)] }
    s.linkUp = true ∧ s.fnHere 0 = true ∧ (4096 : BitVec 13) ≠ 0 ∧ s.power.st ≠ .w4 ∧ s.barServed = true ∧
    (s.mem.top - 4096) + 4096 ≤ s.barSize 0 ∧ s.barLocal 0 (s.mem.top - 4096) + 4096 ≤ s.mem.top ∧
    s.mem.top < s.barLocal 0 (s.mem.top - 4095) + 4096 ∧ s.barSize 0 < (s.barSize 0 - 4095) + 4096 ∧ s.vfReach 0 (s.mem.top - 1) = true ∧
    { s with mem := { s.mem with reforming := some 1 } }.barServed = false ∧ 5 ∈ f.pend ∧ f.deliverable 5 = true ∧
    PcieFn.reset.deliverable 5 = false ∧ 5 ∉ PcieFn.reset.pend ∧
    (let w := { s with power := { s.power with st := .w4 } }
     w.power.st = .w4 ∧ w.barServed = true ∧ w.linkUp = true) ∧
    ({ s with host := { s.host with vfEnable := true } }).vfReach 1 0 = false := by decide +kernel

theorem test_premises_host_reads :
    let r : HostRead := ⟨1, 1, 0, 4, 2, 0, .peelRead 0 0 0 0 0⟩
    let s := at' 10000000 { base with host := { base.host with reads := [r] } }
    s.host.reads.find? (fun r => r.tag == 1) = some r ∧ s.host.reads.find? (fun r => r.tag == 2) = none ∧
    r.sent + s.host.cplTo.toNat * 1000 ≤ s.now ∧ (at' 9999999 s).now < r.sent + s.host.cplTo.toNat * 1000 ∧ ([1, 2] : List Byte) ≠ [] ∧
    r.got + ([1, 2] : List Byte).length = r.len ∧ r.got + ([1] : List Byte).length < r.len ∧ r.len - r.got < ([1, 2, 3] : List Byte).length := by
  decide +kernel

/-- FirmwareKeysDebugAndAttestation: an image of zeros is refused, the mailbox in each state of the boot, an SVN that rises. -/
theorem test_premises_firmware :
    let zeros := (List.range 8).map fun i => (i, (0 : Byte))
    let s := { State.reset with sec := { Security.reset with flash := zeros } }
    let rec' := { base.sec with boot := 2, len := 32768, addr := 16 * 2 ^ 20 - 32768 }
    s.power.alwaysOn = true ∧ s.sec.boot = 0 ∧ imageError s.fuse s.flashByte = 6 ∧ base.sec.boot ≠ 0 ∧ base.sec.busy = false ∧
    base.sec.boot ≠ 2 ∧ rec'.boot ≠ 1 ∧ rec'.len.toNat ≤ 32768 ∧ rec'.addr.toNat % 32768 = 0 ∧ rec'.addr.toNat + rec'.len.toNat ≤ 16 * 2 ^ 20 ∧
    base.mbxInside 1984 = true ∧ base.sec.pubLocked = false ∧ ({ base.sec with pubLocked := true } : Security).pubLocked = true ∧
    base.fuse.svn < ({ base.sec with svnTarget := 1 } : Security).svnTarget ∧ base.sec.svnTarget ≤ base.fuse.svn ∧
    { base with sec := { base.sec with addr := 2 ^ 41 } }.tokenError ≠ 0 ∧ State.reset.answers = false ∧ base.answers = true ∧
    spdmAnswer 0x00 = none ∧ spdmAnswer 0xE0 ≠ none ∧ base.spdmBody 0xE0 [0, 8] = none ∧ spdmAnswer 0x84 = some 0x04 ∧
    base.spdmBody 0x84 [] = some none ∧ (List.replicate 32 (0 : Byte)).length = 32 := by decide +kernel

/-- An image in flash with an empty body that passes its checks, where both signatures verify. -/
def goodImage : State :=
  let digest : List Byte := digestBytes (Config.sha512 [])
  let s : State := { State.reset with sec := { Security.reset with flash := [(0, 0x44), (1, 0x58), (2, 0x57), (3, 0x46), (4, 1), (5, 0),
  (6, 0), (7, 0),
    (8, 0), (9, 0), (10, 0), (11, 0), (12, 0), (13, 0), (14, 0), (15, 0)] ++ digest.zipIdx.map fun (e : Byte × Nat) => (16 + e.2, e.1) } }
  { s with fuse := { s.fuse with roots := [(0, Config.sha512 (bytesFrom s.flashByte 128 1984))] } }

theorem test_premises_image (hEd : ∀ k m s, Config.ed25519Verify k m s = true) (hMl : ∀ k m s, Config.mldsa65Verify k m s = true) :
    imageError goodImage.fuse goodImage.flashByte = 0 ∧ goodImage.power.alwaysOn = true ∧ goodImage.sec.boot = 0 := by
  refine ⟨?_, rfl, rfl⟩
  have h1 : ¬(bytesNat (bytesFrom goodImage.flashByte 0 4) ≠ 0x46575844 ∨ bytesNat (bytesFrom goodImage.flashByte 4 2) ≠ 1 ∨
      maxBody < bodyLen goodImage.flashByte ∨ 4 ≤ (goodImage.flashByte 7).toNat) := by decide +kernel
  have h2 : Config.sha512 (bytesFrom goodImage.flashByte 128 1984) = smapGet 0 goodImage.fuse.roots (goodImage.flashByte 7).toNat := rfl
  have h3 : goodImage.fuse.revoked.getLsbD (goodImage.flashByte 7).toNat = false := by decide +kernel
  have h4 : ¬(goodImage.flashByte 6).toNat < goodImage.fuse.svn := by decide +kernel
  have h5 : digestBytes (Config.sha512 (bytesFrom goodImage.flashByte 8192 (bodyLen goodImage.flashByte))) =
      bytesFrom goodImage.flashByte 16 64 := by rfl
  simp only [imageError, if_neg h1, h2, h3, if_neg h4, h5, verifyBoth, hEd, hMl]
  simp

theorem find_beyond {α : Type} (k : Nat) : ∀ m : SMap α, (∀ e ∈ m, e.1 < k) → smapFind m k = none
  | [], _ => rfl
  | (j, v) :: m, h => by
    have hj : j < k := h (j, v) List.mem_cons_self
    rw [smapFind, if_neg (by omega), if_neg (by omega)]
    exact find_beyond k m fun e he => h e (List.mem_cons_of_mem _ he)

/-- FirmwareKeysDebugAndAttestation: the same image in memory, to be written by FW_UPDATE. -/
def goodUpdate : State :=
  let s := { goodImage with mem := { base.mem with cells := goodImage.sec.flash }, sec := { goodImage.sec with boot := 1, len := 8192 } }
  { s with fuse := { s.fuse with roots := [(0, Config.sha512 (List.replicate 1984 0))] } }

theorem test_premises_update (hEd : ∀ k m s, Config.ed25519Verify k m s = true) (hMl : ∀ k m s, Config.mldsa65Verify k m s = true) :
    let rd := fun i => if i < goodUpdate.sec.len.toNat then goodUpdate.mbxByte i else 0
    imageError goodUpdate.fuse rd = 0 ∧ goodUpdate.mbxInside goodUpdate.sec.len.toNat = true ∧
    8192 + bodyLen rd ≤ goodUpdate.sec.len.toNat ∧ goodUpdate.sec.boot = 1 := by
  intro rd
  have h0 : ∀ i < 80, rd i = goodImage.flashByte i := by
    have h : ∀ i < 80, (smapFind goodImage.sec.flash i).isSome = true := by decide +kernel
    intro i hi
    obtain ⟨v, hv⟩ := Option.isSome_iff_exists.1 (h i hi)
    have hl : i < goodUpdate.sec.len.toNat := show i < 8192 by omega
    show (if i < goodUpdate.sec.len.toNat then goodUpdate.mbxByte i else 0) = (smapFind goodImage.sec.flash i).getD _
    rw [if_pos hl, hv]
    show Mem.read goodUpdate.mem (0 + i) = v
    rw [Nat.zero_add]
    have hp : goodUpdate.mem.linePoison 0 = false := by decide +kernel
    have he : smapFind goodUpdate.mem.errs 0 = none := by decide +kernel
    have hc : smapFind goodUpdate.mem.cells i = some v := hv
    simp [Mem.read, Mem.byte, show i / 256 = 0 by omega, hp, he, hc]
  have h1 : ¬(bytesNat (bytesFrom rd 0 4) ≠ 0x46575844 ∨ bytesNat (bytesFrom rd 4 2) ≠ 1 ∨
      maxBody < bodyLen rd ∨ 4 ≤ (rd 7).toNat) := by decide +kernel
  have h2 : Config.sha512 (bytesFrom rd 128 1984) = smapGet 0 goodUpdate.fuse.roots (rd 7).toNat := by
    have hk : ∀ e ∈ goodImage.sec.flash, e.1 < 80 := by decide +kernel
    have h : bytesFrom rd 128 1984 = List.replicate 1984 0 := List.eq_replicate_iff.2 ⟨by simp [bytesFrom], fun b hb => by
      obtain ⟨i, hi, rfl⟩ := List.mem_map.1 hb
      have hi := List.mem_range.1 hi
      have hl : 128 + i < goodUpdate.sec.len.toNat := show 128 + i < 8192 by omega
      have hn : smapFind goodUpdate.mem.cells (128 + i) = none := find_beyond _ _ fun e he => by have := hk e he; omega
      have hp : ∀ l < 16, goodUpdate.mem.linePoison l = false := by decide +kernel
      have he : goodUpdate.mem.errs = [] := rfl
      have ha : goodUpdate.mem.areas = [] := rfl
      show (if 128 + i < goodUpdate.sec.len.toNat then goodUpdate.mbxByte (128 + i) else 0) = 0
      rw [if_pos hl]
      show goodUpdate.mem.read (0 + (128 + i)) = 0
      rw [Nat.zero_add]
      simp [Mem.read, Mem.byte, Mem.unlisted, Mem.areaAt, hp ((128 + i) / 256) (by omega), he, ha, hn, smapFind]⟩
    rw [h]; rfl
  have h3 : goodUpdate.fuse.revoked.getLsbD (rd 7).toNat = false := by decide +kernel
  have h4 : ¬(rd 6).toNat < goodUpdate.fuse.svn := by decide +kernel
  have h5 : digestBytes (Config.sha512 (bytesFrom rd 8192 (bodyLen rd))) = bytesFrom rd 16 64 := by
    have hb : bodyLen rd = 0 := by decide +kernel
    have hr : bytesFrom rd 16 64 = bytesFrom goodImage.flashByte 16 64 :=
      List.map_congr_left fun i hi => h0 _ (by have := List.mem_range.1 hi; omega)
    rw [hb, hr]; rfl
  refine ⟨?_, by decide +kernel, by decide +kernel, rfl⟩
  simp only [imageError, if_neg h1, h2, h3, if_neg h4, h5, verifyBoth, hEd, hMl]
  simp

/-- A debug token in memory that names the part and a nonce that is valid, where both signatures verify. -/
theorem test_premises_token (hEd : ∀ k m s, Config.ed25519Verify k m s = true) (hMl : ∀ k m s, Config.mldsa65Verify k m s = true) :
    let s := { base with mem := { base.mem with cells := [(0, 1)] }, sec := { base.sec with nonce := some (List.replicate 32 0, 0) } }
    { s with fuse := { s.fuse with debugKey := Config.sha512 (bytesFrom s.mbxByte 128 1984) } }.tokenError = 0 := by
  intro s
  have h1 : s.mbxInside 5553 = true := by decide +kernel
  have h2 : bytesFrom s.mbxByte 0 8 = natBytes 8 s.fuse.uid.toNat := by decide +kernel
  have h3 : s.validNonce = some (bytesFrom s.mbxByte 8 32) := by decide +kernel
  show (if !s.mbxInside 5553 then 6
    else if Config.sha512 (bytesFrom s.mbxByte 128 1984) ≠ Config.sha512 (bytesFrom s.mbxByte 128 1984) then 3
    else
      let e := verifyBoth (bytesFrom s.mbxByte 128 1984) "DXDBGT01" (bytesFrom s.mbxByte 0 2176) (bytesFrom s.mbxByte 2180 64)
        (bytesFrom s.mbxByte 2244 3309)
      if e ≠ 0 then e
      else if bytesFrom s.mbxByte 0 8 ≠ natBytes 8 s.fuse.uid.toNat then 7
      else if s.validNonce ≠ some (bytesFrom s.mbxByte 8 32) then 8
      else 0) = 0
  simp [h1, h2, h3, verifyBoth, hEd, hMl]

/-- PortsTrainAndLinksAreKept: a port of each kind in each state, at the limits of training, backoff and hellos. -/
theorem test_premises_ports :
    let w := fun (now : Nat) (p : Port) => at' now { base with fab := { Fabric.reset with ports := [(39, p)] } }
    let up := { Port.reset with st := .up, lanes := 4, width := 4 }
    let train := { Port.reset with st := .train, signal := true }
    base.power.routes = true ∧ (39 : BitVec 6).toNat < 40 ∧ Port.reset.st = .off ∧ Port.reset.en = true ∧ Port.reset.backoff = none ∧
    up.st ≠ .off ∧ train.st = .train ∧ widthFor 39 (min 2 (portLanes 39)) = some 2 ∧ widthFor 39 (min 1 (portLanes 39)) = none ∧
    base.crust.read (laneOffset 39) = 0 ∧ train.trainStart + trainLimit 39 ≤ (w 500000000 train).now ∧
    (w 499999999 train).now < train.trainStart + trainLimit 39 ∧ (w 99999999 .reset).now < 0 + 100000000 ∧
    0 + 100000000 ≤ (w 100000000 .reset).now ∧ ({ Port.reset with backoff := some 0, signal := true } : Port).backoff = some 0 ∧
    up.linked = true ∧ ({ up with st := .link } : Port).linked = true ∧ base.fuse.uid = 1 ∧ Port.reset.linked = false ∧
    (w 299999 up).now < up.lastHello + 300000 ∧ up.lastHello + 300000 ≤ (w 300000 up).now ∧ portLanes 39 ≤ (4 : BitVec 3).toNat ∧
    up.queue = [] ∧ (∀ n < 40, (base.port n).linked = false) ∧ (base.bay 0).on = true ∧ (2 : DWord) ≠ base.fuse.uid ∧
    ({ up with peerUid := some 2 } : Port).peerUid = some 2 ∧ (3 : BitVec 3).toNat < portLanes 39 ∧ 3 ∉ up.lanesOut ∧
    widthFor 39 (up.lanes - 1) = some 2 ∧ (2 : Nat) ≠ up.width ∧ widthFor 39 ({ up with lanes := 3, width := 2 }.lanes - 1) = some 2 ∧
    widthFor 39 ({ up with lanes := 2, width := 2 }.lanes - 1) = none ∧ (∀ x ∈ up.sent, x.replays < 8) ∧
    (∃ x ∈ ({ up with sent := [⟨5, 0, 8⟩] } : Port).sent, 8 ≤ x.replays) ∧
    (∀ x, x = ({ up with sent := [⟨5, 0, 8⟩] } : Port).acked (4 + 2 ^ 28) → ∃ y ∈ x.sent, 8 ≤ y.replays) := by
  refine ⟨?_, ?_, ?_, ?_, ?_, ?_, ?_, ?_, ?_, ?_, ?_, ?_, ?_, ?_, ?_, ?_, ?_, ?_, ?_, ?_, ?_, ?_, ?_, ?_, ?_, ?_, ?_, ?_, ?_, ?_, ?_, ?_, ?_, ?_,
    ?_, ?_⟩ <;> first | decide +kernel | (rintro _ rfl; decide +kernel)

/-- The flit whose first 248 bytes are the number `b`, with its CRC. -/
def flitWith (b : Nat) : MemLine :=
  BitVec.ofNat 2048 (2 ^ 1984 * (crc64 ((List.range 248).map fun i => BitVec.ofNat 8 ((b >>> (8 * i)) % 2 ^ 8))).toNat + b)

theorem stacked_lt (n m k c b : Nat) (hk : k = n + m) (hc : c < 2 ^ m) (hb : b < 2 ^ n) : 2 ^ n * c + b < 2 ^ k := by
  rw [hk, Nat.pow_add]
  calc 2 ^ n * c + b < 2 ^ n * (c + 1) := by rw [Nat.mul_succ]; omega
    _ ≤ 2 ^ n * 2 ^ m := Nat.mul_le_mul_left _ hc

theorem stacked_toNat (n m k c b : Nat) (hk : k = n + m) (hc : c < 2 ^ m) (hb : b < 2 ^ n) :
    (BitVec.ofNat k (2 ^ n * c + b)).toNat = 2 ^ n * c + b := by
  rw [BitVec.toNat_ofNat, Nat.mod_eq_of_lt (stacked_lt n m k c b hk hc hb)]

theorem stacked_field (n c b lo w : Nat) (hb : b < 2 ^ n) (h : lo + w ≤ n) : ((2 ^ n * c + b) >>> lo) % 2 ^ w = (b >>> lo) % 2 ^ w := by
  refine Nat.eq_of_testBit_eq fun i => ?_
  simp only [Nat.testBit_mod_two_pow, Nat.testBit_shiftRight, Nat.testBit_two_pow_mul_add _ hb]
  by_cases hi : i < w
  · simp [hi, show lo + i < n by omega]
  · simp [hi]

theorem flitWith_toNat (b : Nat) (hb : b < 2 ^ 1984) : (flitWith b).toNat =
    2 ^ 1984 * (crc64 ((List.range 248).map fun i => BitVec.ofNat 8 ((b >>> (8 * i)) % 2 ^ 8))).toNat + b := by
  exact stacked_toNat 1984 64 2048 _ _ rfl (BitVec.isLt _) hb

theorem flitWith_field (b lo w : Nat) (hb : b < 2 ^ 1984) (h : lo + w ≤ 1984) : flitField (flitWith b) lo w = (b >>> lo) % 2 ^ w := by
  unfold flitField
  rw [flitWith_toNat b hb]
  exact stacked_field 1984 _ _ _ _ hb h

/-- PortsTrainAndLinksAreKept: a flit with its CRC is good, whatever it carries. -/
theorem flitWith_good (b : Nat) (hb : b < 2 ^ 1984) : flitGood (flitWith b) = true := by
  have h1 : ((List.range 248).map fun i => BitVec.ofNat 8 (flitField (flitWith b) (8 * i) 8)) =
      (List.range 248).map fun i => BitVec.ofNat 8 ((b >>> (8 * i)) % 2 ^ 8) :=
    List.map_congr_left fun i hi => by rw [flitWith_field b (8 * i) 8 hb (by have := List.mem_range.1 hi; omega)]
  have h2 : ∀ n c : Nat, c < 2 ^ 64 → b < 2 ^ n → ((2 ^ n * c + b) >>> n) % 2 ^ 64 = c := fun n c hc hn => by
    rw [Nat.shiftRight_eq_div_pow, Nat.mul_add_div (Nat.two_pow_pos n), Nat.div_eq_of_lt hn, Nat.add_zero, Nat.mod_eq_of_lt hc]
  unfold flitGood
  rw [h1, flitField, flitWith_toNat b hb, beq_iff_eq]
  exact h2 1984 _ (BitVec.isLt _) hb

theorem flitWith_small (n : Nat) (hn : 32 ≤ n) (b : Nat) (hb : b < 2 ^ 32) : b < 2 ^ n :=
  Nat.lt_of_lt_of_le hb (Nat.pow_le_pow_right (by decide) hn)

/-- PortsTrainAndLinksAreKept: a data flit in its turn, a control flit and a NAK. -/
theorem test_premises_flits :
    flitField (flitWith 0) 2 2 = 0 ∧ flitField (flitWith 0) 4 12 = Port.reset.rxSeq.toNat ∧ flitField (flitWith 0) 28 1 = 0 ∧
    flitField (flitWith 4) 2 2 ≠ 0 ∧ flitField (flitWith 4) 28 1 = 0 ∧ flitField (flitWith (4 + 2 ^ 28)) 2 2 ≠ 0 ∧
    flitField (flitWith (4 + 2 ^ 28)) 28 1 = 1 ∧ flitField (flitWith 16) 2 2 = 0 ∧ flitField (flitWith 16) 4 12 ≠ Port.reset.rxSeq.toNat ∧
    flitGood (flitWith 0) = true ∧ flitGood (flitWith 4) = true ∧ flitGood (flitWith (4 + 2 ^ 28)) = true := by
  have small : ∀ b < 2 ^ 32, b < 2 ^ 1984 := flitWith_small 1984 (by decide)
  refine ⟨?_, ?_, ?_, ?_, ?_, ?_, ?_, ?_, ?_, flitWith_good _ (small _ (by decide)), flitWith_good _ (small _ (by decide)),
    flitWith_good _ (small _ (by decide))⟩ <;> rw [flitWith_field _ _ _ (small _ (by decide)) (by decide)] <;> decide

/-- A packet from node 2 to node 1. -/
def packet0 (kind : Byte) (seq : Word) (len : Nat) (payload : List Byte) : Packet :=
  ⟨1, 2, kind, 0, len, seq, 0, 0, 0, false, 0, payload⟩

/-- PeersReadAndWriteInSequence: requests in turn through a window, without one and ahead of their turn, messages that their
service, filter, shape, target and queue let pass and turn away. -/
theorem test_premises_peers :
    let win : FabWin := ⟨0, 4096, 2, 2, true, true, true, true⟩
    let s := { world with fab := { Fabric.reset with node := 1, wins := [(15, win)], msgFilter := [(0, 0x2_0002)] } }
    let seq := smapGet 0 s.fab.execSeq 2
    let s1 := { s with fab := { s.fab with execSeq := smapSet 0 s.fab.execSeq 2 (seq + 1) } }
    let m := fun (n : Nat) => packet0 6 0 n (List.replicate n 0)
    s.forMe (packet0 1 0 2048 []) = true ∧ s.power.routes = true ∧ seq = 0 ∧ s1.judge (packet0 1 0 2048 []) = 0 ∧
    s1.judge (packet0 3 0 1 [7]) = 0 ∧ s1.judge (packet0 4 0 12 (List.replicate 12 0)) = 0 ∧ s1.fabLocal 0 12 = .mem 0 ∧
    s.servesMem = true ∧ s.servesDss = true ∧ State.reset.servesMem = false ∧ State.reset.servesDss = false ∧
    (∀ k < 16, (smapGet FabWin.reset base.fab.wins k).en = false) ∧ s.filterAdmits 0 2 = true ∧ s.filterAdmits 0 3 = false ∧
    s.servesCores = true ∧ State.reset.servesCores = false ∧ (m 1).payload.length % 128 ≠ 0 ∧ (m 128).payload.length % 128 = 0 ∧
    s.target (messageOf (m 128)).dst = some 0 ∧ base.target (messageOf (m 128)).dst = none ∧ (s.core 0).recvXq.length < 16 ∧
    s.holdsMessages 0 0 = false ∧ s.fab.owed = [] ∧ 16 ≤ (List.replicate 16 (messageOf (m 128))).length ∧
    0 < ((1 : Word) - seq).toNat ∧ ((2 ^ 31 - 1 : Word) - seq).toNat < 2 ^ 31 ∧ 2 ^ 31 ≤ ((0 : Word) - (1 : Word)).toNat ∧
    base.forMe (packet0 1 0 1 []) = false ∧ base.fab.early = [] ∧ base.fab.told = [] := by decide +kernel

/-- PeersReadAndWriteInSequence: answers to requests of each kind, their time limits, and packets on their way. -/
theorem test_premises_answers :
    let q := fun (kind : Byte) (i : Issuer) => (⟨2, 7, { packet0 kind 7 4 [] with dst := 2, src := 1 }, i, 0, 0⟩ : FabReq)
    let op := Issuer.fabOp 0
    let s := fun (now : Nat) (x : FabReq) => at' now { base with fab := { Fabric.reset with node := 1, reqs := [x] } }
    let last := fun (h : Nat) => ({ packet0 1 0 1 [] with hops := h, dst := 3 } : Packet)
    (s 0 (q 1 op)).findReq 2 7 = some (q 1 op) ∧ (s 0 (q 3 op)).findReq 2 7 = some (q 3 op) ∧
    (s 0 (q 6 (.message 0 0))).findReq 2 7 = some (q 6 (.message 0 0)) ∧ (s 0 (q 1 op)).findReq 2 8 = none ∧
    (s 0 (q 1 (.peelRead 0 0 0 0 0))).findReq 2 7 = some (q 1 (.peelRead 0 0 0 0 0)) ∧
    (s 0 (q 1 op)).forMe (packet0 2 7 4 [1, 2, 3, 4]) = true ∧ (packet0 2 7 4 [1, 2, 3, 4]).src = 2 ∧
    (packet0 2 7 4 [1, 2, 3, 4]).payload.length = (q 1 op).pkt.len ∧ (packet0 9 7 0 []).tag = (q 1 op).pkt.tag ∧
    ({ packet0 9 7 0 [] with tag := 1 } : Packet).tag ≠ (q 1 op).pkt.tag ∧ (q 3 op).pkt.kind ≠ 0x01 ∧
    (s 49999 (q 1 op)).now < (q 1 op).last + 50000 ∧ (q 1 op).last + 50000 ≤ (s 50000 (q 1 op)).now ∧ (s 0 (q 1 op)).fab.node ≠ 0 ∧
    (s 1999999 (q 1 op)).now < (q 1 op).first + 2000000 ∧ (q 1 op).first + 2000000 ≤ (s 2000000 (q 1 op)).now ∧
    (last 30).hops + 1 < 32 ∧ 32 ≤ (last 31).hops + 1 ∧ base.forMe (last 30) = false ∧ (last 30).dst ≠ 0xFFFF ∧
    State.reset.power.routes = true ∧ ({ base with power := { base.power with alwaysOn := false } }).power.routes = false ∧
    (0x10 : Byte).toNat ∈ [1, 2, 3, 4, 5, 6, 7, 8, 9, 0x10] ∧
    (0x0A : Byte).toNat ∉ [1, 2, 3, 4, 5, 6, 7, 8, 9, 0x10, 0x20, 0x21, 0x22, 0x23, 0x24] := by decide +kernel

/-- PeersReadAndWriteInSequence: collective data of a listed sender, of one that is not listed, with and without an operation under
way, and of an operation that has ended. -/
theorem test_premises_collective_packets :
    let g : CollGroup := { CollGroup.reset with id := 1, pTotal := 2, nNodes := 2, valid := true, localPt := 1 }
    let u : CollRun := ⟨1, 0, [], [], none, false, [], []⟩
    let s := { world with fab := { Fabric.reset with node := 1, groups := [(0, g)], nodeList := [(0, 1), (1, 2)], collDone := [(1, 5)] } }
    s.groupEntry 1 = some g ∧ s.groupLists g = true ∧ 2 ∈ s.otherNodes 1 ∧ 3 ∉ s.otherNodes 1 ∧ s.findRun 1 0 = none ∧
    ({ s with fab := { s.fab with runs := [u] } }).findRun 1 0 = some u ∧ (4 : Word).toNat < s.collDoneOf 1 ∧
    s.collDoneOf 1 ≤ (5 : Word).toNat ∧ s.servesCores = true ∧ s.fab.node ≠ 0 ∧ CollMsg.share 0 ⟨[], 0, false⟩ ≠ .mismatch := by
  decide +kernel

/-- FabricRegistersAndManage: a node ID before the fabric runs and after, a group entry with and without VALID, one-sided
operations, and MANAGE packets at and before their target. -/
theorem test_premises_fabric :
    let s := { world with fab := { Fabric.reset with node := 1, groups := [(0, { CollGroup.reset with valid := true })] } }
    let op := fun (a : DWord) => { base with fab := { Fabric.reset with node := 1, op := { FabOp.reset with addr := 2 <<< 48, localAddr := a } } }
    let up := { base with fab := { Fabric.reset with ports := [(0, { Port.reset with st := .up })] } }
    base.fab.node = 0 ∧ (∀ n < 16, (base.part n).inReset = true) ∧ ¬(s.fab.node = 0 ∨ ∀ n < 16, (s.part n).inReset = true) ∧
    (smapGet CollGroup.reset s.fab.groups 0).valid = true ∧ (smapGet CollGroup.reset base.fab.groups 0).valid = false ∧
    (BitVec.twoPow 32 28).getLsbD 28 = true ∧ FabOp.reset.busy = false ∧ ({ FabOp.reset with busy := true } : FabOp).busy = true ∧
    (BitVec.twoPow 32 31).getLsbD 31 = true ∧ (op (2 ^ 41)).fabOpBad 1 = true ∧ (op 0).fabOpBad 2048 = false ∧
    (∀ k ∈ [0, 1, 2], ({ (op 0) with fab := { (op 0).fab with op := { (op 0).fab.op with kind := k } } }).fabOpBad 12 = false) ∧
    (op 0).namesSelf 2 = false ∧ (op 0).namesSelf 1 = true ∧ (op 0).fab.node ≠ 0 ∧ base.namesSelf 2 = false ∧ (up.port 0).linked = true ∧
    (base.port 0).linked = false ∧
    ({ packet0 0x21 0 4 [] with tag := 15, hops := 15 } : Packet).tag.toNat ≤ 15 ∧
    ({ packet0 0x21 0 4 [] with tag := 15, hops := 14 } : Packet).hops < 15 ∧ up.power.routes = true ∧ base.clears 0x030_0000 5 = 5 := by
  decide +kernel

/-- TimeIsCarriedFromTheParent: a child with its parent on port 0, locked and not, offsets of 1 µs, and the time of holdover. -/
theorem test_premises_time :
    let p := { Port.reset with st := .up, advert := some ⟨1, 0⟩, peerNode := 1, t1 := some 0 }
    let s := fun (now : Nat) (once : Bool) => at' now { base with
      fab := { Fabric.reset with node := 2, ports := [(0, p)] }, time := { TimeBase.reset with lockedOnce := once, locked := once } }
    let theta := fun (z : State) (ts : Nat) => 2 * ((z.eighths : Int) - ts) - (z.port 0).delay
    base.power.routes = true ∧ (s 0 true).fab.node ≠ 0 ∧ (∀ n < 40, (base.port n).st ≠ .up) ∧ ((s 0 true).port 0).st = .up ∧
    ((s 0 true).port 0).t1 = some 0 ∧ (base.port 0).t1 = none ∧ (s 0 true).timeParent = some 0 ∧ (s 0 false).timeParent = some 0 ∧
    base.timeParent = none ∧ (theta (s 1000 true) 0).natAbs ≤ 16000 ∧ (s 374999 true).now < (s 0 true).time.lastSync + 375000 ∧
    (s 0 true).time.lastSync + 375000 ≤ (s 375000 true).now ∧ (s 0 true).time.holdover = false ∧ base.time.locked = false ∧
    base.time.master = false ∧ ((s 0 true).time.locked || (s 0 true).time.master) = true ∧ base.time.lockedOnce = false ∧
    16000 < (theta (s 2001 true) 0).natAbs ∧ base.time.outOfSync = false ∧ base.time.alertEn = false ∧ base.time.upFirst = none ∧
    (at' (base.syncLimit - 1) base).now < (at' (base.syncLimit - 1) base).syncLimit ∧
    (at' base.syncLimit base).syncLimit ≤ (at' base.syncLimit base).now ∧ ({ base.time with upFirst := some 0 } : TimeBase).upFirst = some 0 := by
  decide +kernel

/-- MemoryLinesGroupsAndReform: the last line and one beyond it, groups and positions at their ends, a reform that is refused,
one that can begin and one that runs. -/
theorem test_premises_memory :
    let last := base.mem.top / 256 - 1
    let s := { base with mem := { base.mem with reformMask := 1 } }
    base.mem.top ≤ (last + 1) * 256 ∧ last * 256 < base.mem.top ∧ (base.mem.group (base.mem.groupOfLine last)).state = 0 ∧
    base.mem.linePoison last = false ∧ MemGroup.reset.failed = 0 ∧ (base.mem.group 39).failed.getLsbD 9 = false ∧
    ({ MemGroup.reset with failed := 512 } : MemGroup).failed.getLsbD 9 = true ∧ (399 : BitVec 9).toNat < 400 ∧ 400 ≤ (400 : BitVec 9).toNat ∧
    base.mem.reforming = none ∧ s.reformError = 0 ∧ { s with parts := [(0, pt0)] }.reformError ≠ 0 ∧
    ({ base.mem with scrubEn := false } : Mem).scrubEn = false ∧
    base.mclkRuns = true ∧ State.reset.mclkRuns = false ∧ base.mem.scrubEn = true ∧ base.mem.lineCritical last = false ∧
    base.mem.poisonForm 0 0 = false ∧ (base.codecRead 0 0 0).1 = .clean ∧ (base.codecRead 0 1 0).1 = .corrected ∧
    (base.codecRead 0 7 0).1 = .lost ∧ 0 ∉ (base.codecRead 0 7 0).2.mem.poison ∧ (base.mem.group (base.mem.groupOfLine 0)).decode 7 0 = .lost ∧
    (let f := fun (n : BitVec 10) => { base with mem := { base.mem with groups := [(0, { MemGroup.reset with failed := n })] } }
     (f 3).mem.groupOfLine 0 = 0 ∧ ((f 3).codecRead 0 0 1).1 = .wrong ∧ (f 3).mem.lineCritical 0 = false ∧ ((f 1).mem.group 0).state = 1 ∧
     ((f 3).mem.group 0).state = 2 ∧ 3 ≤ ((f 7).mem.group 0).state) ∧
    (let p := { base with mem := { base.mem with poison := [0] } }
     (p.codecRead 0 0 0).1 = .lost ∧ 0 ∈ (p.codecRead 0 0 0).2.mem.poison) ∧
    ({ base.mem with groups := [(0, { MemGroup.reset with failed := 7 })] } : Mem).lineCritical 0 = true := by decide +kernel

theorem test_premises_mem_ok : MemOk base := by unfold MemOk; decide +kernel

/-- LogsLedgerTelemetryAndDebug: records in and out of order, one at the end of its delay and one before it, an hour and a
telemetry bin that are over and that are not. -/
theorem test_premises_logs :
    let e : Event := ⟨5, 0, 0x0101, 0, false, false⟩
    let l := { EventLog.reset with pending := [e], buffer := [e], last := some (6, 0) }
    let s := fun (t : Nat) => at' t { base with log := l }
    l.pending[0]? = some e ∧ l.pending.length ≤ 1 ∧ e.before (6, 0) = true ∧ e.before (5, 0) = false ∧ EventLog.reset.last = none ∧
    firstEvent l.buffer = some 0 ∧ l.buffer[0]? = some e ∧ (s 4004).now < e.gtb + 4000 ∧ e.gtb + 4000 ≤ (s 4005).now ∧ l.extSize = 0 ∧
    EventLog.reset.buffer = [] ∧ base.now / 3600000000000 ≤ base.ledger.lastHour ∧
    base.ledger.lastHour < (s 3600000000000).now / 3600000000000 ∧ base.log.next % 2 ^ 32 = 0 ∧ State.reset.power.st = .w5 ∧
    base.power.st ≠ .w5 ∧ base.tele.cut = none ∧ (∀ x ∈ l.pending.take 0, x.src ≠ e.src) ∧ (∃ x ∈ [e, e].take 1, x.src = e.src) ∧
    unitOk (srcCore 0 1) = true ∧ unitOk 0xA000 = false ∧ base.ledger.alertEn = false ∧ base.log.capture 0 = (0, false, true) ∧
    ({ base.tele with cut := some (0, []) } : Telemetry).cut = some (0, []) ∧
    base.tele.binStart < (s 1000000).now - (s 1000000).now % (1000 * base.tele.binUs.toNat) ∧
    (s 999999).now - (s 999999).now % (1000 * base.tele.binUs.toNat) ≤ base.tele.binStart ∧ pt0.halted = false := by
  decide +kernel

/-- LogsLedgerTelemetryAndDebug: the last entry of the accumulator window of a halted partition, and one past the rows of a slot. -/
theorem test_premises_window :
    let s := { busy { pt0 with halted := true } .reset with sec := { base.sec with debug := true, scopes := 1 } }
    s.sec.grants 0 = true ∧ (s.part s.dbg.pt.toNat).halted = true ∧ (s.accEntry 0x7_FFFC).isSome = true ∧
    ({ s with dbg := { s.dbg with slot := true } }.accEntry 0x4_0000).isSome = false := by
  decide +kernel

/-- RegistersAreReadAndWritten: a pair of registers, with and without a capture, an offset that is not a register's, VFs, an I3C
burst at both ends of PWR_FCAST, configuration words, and a module without its link. -/
theorem test_premises_registers :
    let vf := { base with host := { base.host with vfEnable := true } }
    base.linkUp = true ∧ 0x010_0208 % 4 = 0 ∧ pairLo 0x010_0208 = true ∧ pairLo 0x010_020C = false ∧ pairLo (0x010_020C - 4) = true ∧
    smapGet none [((0x010_020C : Nat), some (5 : Word))] 0x010_020C = some 5 ∧ smapGet none base.captures.bar0 0x010_020C = none ∧
    State.reset.linkUp = false ∧ 0x010_0209 % 4 ≠ 0 ∧ AccessWidth.w64 ≠ .w32 ∧ vf.linkUp = true ∧ vf.host.vfEnable = true ∧
    i3cWritable 0x010_0208 = false ∧ i3cBlock 0x010_0208 = false ∧ base.power.alwaysOn = true ∧ (0x001_132C : BitVec 25).toNat < 0x001_1330 ∧
    (base.configWord 0 0x2C).isSome = true ∧ (base.configWord 0 0x04).isSome = false ∧
    State.reset.served false 0x010_0208 ≠ 0xFFFF_FFFF ∧ base.served false 0x010_0208 = 0xFFFF_FFFF ∧ smapGet 0 base.sets 8 = 0 ∧
    base.alertLevel = base.alertN := by decide +kernel

/-- EveryStepKeepsMemoryCanonical, EveryStepKeepsUnitsOnce, CommandsKeepTheQueueAndTheFusedIdentity: states with memory, units
and fuses, and steps from them. -/
theorem test_premises_invariants :
    let s := { world with mem := { world.mem with cells := [(0, 1), (5, 2)] }, pending := [.halt 0 0] }
    s.mem.wf = true ∧ smapSorted s.cores = true ∧ smapSorted s.parts = true ∧ s.fuse.svn ≤ 64 ∧ (nx (step s)).isSome = true ∧
    (nx (exec (.halt 0 0) s)).isSome = true := by decide +kernel

/-- EmptyQueueRunsOneClock: the queue of the module at reset. -/
theorem test_premises_clock : State.reset.pending = [] ∧ State.reset.power.alwaysOn = true ∧ base.pending = [] := by decide

/-! ### One step of each family -/

/-- R207, R208: a difference that wraps, an arithmetic shift by 63, and −1 below 0 signed but not unsigned. -/
theorem test_scalar :
    let s := busy pt0 { Core.reset with s := [(1, BitVec.allOnes 64)] }
    let owes := fun (i : Instr) => after (exec i s) fun t => (t.core 0).writes
    owes (.sub 0 0 2 0 (.imm 1)) = some [⟨10, 1, .sreg 2 (BitVec.allOnes 64)⟩] ∧
    owes (.shrA 0 0 2 1 (.imm 63)) = some [⟨10, 1, .sreg 2 (BitVec.allOnes 64)⟩] ∧
    owes (.mul 0 0 2 1 (.reg 1)) = some [⟨12, 1, .sreg 2 1⟩] ∧
    owes (.cmp 0 0 3 2 1 (.reg 0)) = some [⟨10, 1, .pred 3 true⟩] ∧
    owes (.cmp 0 0 3 6 1 (.reg 0)) = some [⟨10, 1, .pred 3 false⟩] ∧
    owes (.li 0 0 2 true 0x1234) = some [⟨10, 1, .sreg 2 0x1234_0000_0000⟩] := by decide +kernel

/-- R182, R299: a reserved specifier is an illegal instruction in the C slot, recorded in the partition's fault record. -/
theorem test_reserved_specifier :
    after (exec (.add 0 1 0x30 1 (.imm 0)) world) (fun t => ((t.part 0).fault.code, (t.part 0).fault.core, (t.part 0).fault.valid)) =
      some (0x01, 1, true) := by decide +kernel

/-- R110: an anchor from two running maxima and a δ of −8. -/
theorem test_anchor :
    after (exec (.anc 0 0 3 1 2 (-8)) (busy pt0 { Core.reset with m := [(1, ⟨0x3FC0_0000, false⟩), (2, ⟨0x4B80_0000, false⟩)] }))
      (fun t => (t.core 0).writes) = some [⟨11, 1, .anchor 3 17⟩] := by decide +kernel

/-- R126, R130 of 04_core.md: WSWAP makes the loaded tile active and empties the shadow. -/
theorem test_wswap :
    let s := busy pt0 { Core.reset with arrays := [(2, { ArrayS.reset with shadow := .loaded tile0 })] }
    after (exec (.wswap 0 0 4) s) (fun t => (((t.core 0).array 2).active, ((t.core 0).array 2).shadow)) = some (some tile0, .empty) := by
  decide +kernel

/-- R98, R231: MMA.F8 of two rows opens bank 1, binds its anchor and adds 128 addends to its count. -/
theorem test_mma :
    let s := busy pt0 { Core.reset with an := [(2, 7)], arrays := [(2, { ArrayS.reset with active := some tile0 })] }
    after (exec (.mma 0 0 0 4 4 1) s) (fun t =>
      let b := ((t.core 0).array 2).bank 1
      (b.st, b.anchor, b.count, b.top, (t.core 0).mmas.map fun j => j.rows)) = some (.open, some 7, 128, 2, [2]) := by decide +kernel

/-- R120, R123: a row popped in cycle 10 lands at the end of cycle 279. -/
theorem test_row_pop :
    let s := busy pt0 { Core.reset with aq := [row0], mmas := [⟨3, false, 10, 1, 0, [⟨0, 0, tile0, 5⟩], 0⟩] }
    after (exec (.aqRowPop 0 0) s) (fun t => ((t.core 0).aq, (t.core 0).mmas, ((t.core 0).array 0).flight.map fun f => (f.row, f.due, f.anchor))) =
      some ([], [], [(0, 279, 5)]) := by decide +kernel

/-- R137: a ZOA of a bank with a row in flight is a fault, of code STATE, in the M slot. -/
theorem test_zoa_busy :
    let s := busy pt0 { Core.reset with arrays := [(0, { ArrayS.reset with flight := [⟨0, 1, 0, 20, row0, tile0, 0, 0⟩] })] }
    after (exec (.zoa 0 0 2) s) (fun t => ((t.part 0).fault.code, (t.part 0).fault.detail, (t.part 0).fault.slot)) = some (0x18, 4, 1) := by
  decide +kernel

/-- R139: a DRAIN of a ZERO bank reads its row 0 only, and the bank is SPENT at its issue. -/
theorem test_drain_issue :
    let s := busy pt0 { Core.reset with bench := [(0, valid (BitVec.ofNat 1024 (512 * 2 ^ 256)))] }
    after (exec (.drain 0 0 3 0 drain0) s) (fun t =>
      let ar := (t.core 0).array 3
      (ar.bank0.st, ar.jobs.map fun j => drainRows (t.core 0) 3 j)) = some (.spent, [1]) := by decide +kernel

/-- R176: PBZERO clears a slot at once when nothing is before it, and leaves it with its tag. -/
theorem test_pbzero :
    let s := busy pt0 { Core.reset with s := [(1, 0x55)], pb := [(2, ⟨true, 1, some 3, 4, false, []⟩)] }
    after (exec (.pbzero 0 0 2 1) s) (fun t => ((t.core 0).slot 2, (t.core 0).pbOps)) = some (⟨false, 0x55, none, 0, false, []⟩, []) := by
  decide +kernel

/-- R249: INT32 lanes wrap; VSEL takes the second source where the third is 0. -/
theorem test_vector_lanes :
    let reg := fun (w : Nat) => (⟨BitVec.ofNat 8192 w, false⟩ : VReg)
    let s := busy pt0 { Core.reset with v := [(1, reg 0xFFFF_FFFF), (2, reg 0x5_0000_0001)] }
    after (exec (.vadd 0 0 3 1 2 2) s) (fun t => (t.core 0).writes) = some [⟨13, 1, .vreg 3 (reg 0x5_0000_0000)⟩] ∧
    after (exec (.vsel 0 0 3 1 2 1) s) (fun t => (t.core 0).writes) = some [⟨13, 1, .vreg 3 (reg 0x5_FFFF_FFFF)⟩] := by decide +kernel

/-- R150, R248: a VLD of part 1 reads four lines and brings them at the end of its sixth cycle, with their poison. -/
theorem test_vld :
    let s := busy pt0 { Core.reset with bench := [(0, valid 7), (1, { valid 0 with poison := true }), (2, valid 0), (3, valid 0)] }
    after (exec (.vld 0 0 5 0 1) s) (fun t => ((t.core 0).reads, (t.core 0).writes)) = some (4, [⟨15, 1, .vload 5 1 7 true⟩]) := by
  decide +kernel

/-- R268: a BCOPY onto a later, overlapping range copies from the top down. -/
theorem test_bcopy :
    let s := busy pt0 { Core.reset with s := [(1, 10), (2, 12)] }
    after (exec (.bcopy 0 0 1 2 3) s) (fun t => (t.core 0).bcopies) = some [⟨10, 12, 4, 10, true, 0, 0⟩] ∧
    after (exec (.bcopy 0 0 2 1 3) s) (fun t => (t.core 0).bcopies) = some [⟨12, 10, 4, 10, false, 0, 0⟩] := by decide +kernel

/-- R263, R265: a PEEL into the Bench holds its line PENDING under cause 0 and enters its engine's queue. -/
theorem test_peel :
    let s := busy pt0 { Core.reset with bench := [(0, valid (peelLine 0 + BitVec.ofNat 1024 (9 * 2 ^ 32)))] }
    after (exec (.peel 0 0 3 0) s) (fun t => (((t.core 0).line 9).st, ((t.core 0).line 9).hold.map fun h => h.cause,
      (t.engine 0 3).queue.map fun d => (d.kind, d.line, d.started))) = some (.pending, some 0, [(.into, 9, false)]) := by decide +kernel

/-- R284: a message that stands whole in a send XQ enters the receive XQ of its destination. -/
theorem test_message :
    let m : Msg := ⟨⟨0, 0, 0⟩, ⟨0, 0, 1⟩, 9, 1, [(3, false)]⟩
    let s := busy pt0 { Core.reset with sendXq := [⟨0, m⟩], xfers := [⟨0, .xsend, [], [], [], 0, 0⟩] }
    after (exec (.messageAccept 0 0 0) s) (fun t => ((t.core 0).sendXq, (t.core 0).xfers, (t.core 1).recvXq)) = some ([], [], [m]) := by
  decide +kernel

/-- R276, R285: an XBAR that is not released freezes the partition under cause 7. -/
theorem test_xbar_freezes :
    after (exec (.xbar 0 0 0) world) (fun t => ((t.part 0).frozen, (t.part 0).needs.map fun w => w.need.cause)) = some (true, [7]) := by
  decide +kernel

/-- R201, R210: TILE with budget 0 settles with 20,000 ns. -/
theorem test_tile :
    after (exec (.tile 0 0 0) world) (fun t => ((t.core 0).seq, (t.core 0).pc)) = some (.settling false 20000 0, 1) := by decide +kernel

/-- R202, R631: a commit takes the registers and clears vector registers and banks. -/
theorem test_commit :
    let q := { Core.reset with s := [(1, 5)], v := [(0, ⟨1, false⟩)], seq := .met true 20000 3, pc := 4 }
    (q.commitTile 10 100).commit.s = [(1, 5)] ∧ (q.commitTile 10 100).commit.pc = 4 ∧ (q.commitTile 10 100).v = [] ∧
    (q.commitTile 10 100).seq = .halted := by decide +kernel

/-- R458, R463: an abandoned tile gives back the commit state, counts its cycles and logs event 0x0202. -/
theorem test_abandon :
    let q := { Core.reset with pc := 7, s := [(1, 9)], commit := { CommitState.zero with pc := 2, s := [(1, 5)] } }
    let s := busy { pt0 with cycProg := 50, tileProg0 := 20 } q
    after (exec (.tileAbandon 0 0x40) s) (fun t => ((t.core 0).pc, (t.core 0).s, (t.part 0).cycReexec,
      t.log.pending.map fun e => (e.code, e.src))) = some (2, [(1, 5)], 31, [(0x0202, 0x40)]) := by decide +kernel

/-- R431: a completion advances CT_HEAD and marks its entry done. -/
theorem test_completion :
    let c : Completion := ⟨3, 0, 0, 0xAB, 0, 0, 0, 0, none, none, 0, 0, 0, 0, false⟩
    let s := { base with bs := { BatchSheet.reset with due := [c], ctSize := 16, ctBase := 0x1000, ctHead := 15 } }
    after (exec .completionWrite s) (fun t => (t.bs.ctHead, t.bs.due, t.mem.read 0x300)) = some (0, [], 4) := by decide +kernel

/-- R445: an uncorrectable error in a Bench line poisons it; one in an INVALID line does not. -/
theorem test_bench_error :
    let s := busy pt0 { Core.reset with bench := [(4, valid 1)] }
    after (exec (.sramEccError (.bench 0 0 4) true) s) (fun t => (((t.core 0).line 4).poison, ((t.core 0).line 5).poison)) = some (true, false) ∧
    after (exec (.sramEccError (.bench 0 0 5) true) s) (fun t => ((t.core 0).line 5).poison) = some false := by decide +kernel

/-- R447, R448: a commit with a wrong CRC writes nothing; the majority of three copies is what a read returns. -/
theorem test_crust :
    after (exec (.crustCommit [(0x060_1000, 5)] 0) base) (fun t => (t.crust.crcFail, t.crust.read 0x060_1000, t.crust.commits)) =
      some (true, 0, 0) ∧
    after (exec (.crustCommit [(0x060_1000, 5)] (crc32 (stagedBytes [(0x060_1000, 5)]))) base)
      (fun t => (t.crust.crcFail, t.crust.read 0x060_1000, t.crust.commits)) = some (false, 5, 1) := by decide +kernel

/-- R464: a core that fails on a die with spares and without a context is marked, and its partition keeps it. -/
theorem test_core_fail :
    after (exec (.coreFail 0 1) (busy { pt0 with ctx := none } .reset)) (fun t => ((t.core 1).failed, (t.core 0).failed, t.phys 0 1)) =
      some (true, false, some 1) := by decide +kernel

/-- R487, R493: RST_REQ for a partition begins a step of it, and a second one is ignored. -/
theorem test_partition_reset :
    let once := after (exec (.rstReqPartition 0) world) id
    once.map (fun t => (t.ladder.steps.map (·.target), (t.part 0).inReset)) = some ([.part 0], true) ∧
    (once.bind fun t => after (exec (.rstReqPartition 0) t) fun u => (u.ladder.ignored, u.ladder.steps.length)) = some (true, 1) := by
  decide +kernel

/-- R504: a dump while one is held without OVERWRITE is skipped and counted. -/
theorem test_dump_skipped :
    after (exec (.dumpStart none false) { base with ladder := { Ladder.reset with full := true } }) (fun t => (t.ladder.skipped, t.ladder.dump)) =
      some (1, none) := by decide +kernel

/-- R441: CLOSE of a load that does not wait for memory has no effect; ACTIVATE of a VERIFIED load stands. -/
theorem test_generation_control :
    let s := { base with models := [(0, { ModelSlot.reset with st := .verified })] }
    after (exec .genClose s) (fun t => (t.model 0).closeReq) = some false ∧
    after (exec .genActivate s) (fun t => (t.model 0).activate) = some true := by decide +kernel

/-- R596: PT_CFG of a partition that is not in reset is ignored and says so. -/
theorem test_partition_config :
    after (exec (.ptCfgWrite 0 false 0x1FFF) world) (fun t => ((t.part 0).writeIgnored, (t.part 0).count)) = some (true, 2) ∧
    after (exec (.ptCfgWrite 1 false 0x1061) world) (fun t => ((t.part 1).die, (t.part 1).first, (t.part 1).count, (t.part 1).en)) =
      some (1, 24, 0, true) := by decide +kernel

/-- R614: a thermal trip cuts the rails, keeps the die and asserts its pin. -/
theorem test_thermal_trip :
    after (exec (.thermalTrip 7) base) (fun t => (t.power.tripped, t.power.tripDie, t.power.rails, t.power.st)) = some (true, 7, false, .w5) := by
  decide +kernel

/-- R33: a thermal step is 55 MHz from the next cycle boundary, and 550 MHz is the lowest. -/
theorem test_thermal_step :
    let at550 := { base with dies := [(0, { Die.reset with freqMhz := 550, nextMhz := 550 })] }
    after (exec (.thermalStepDown 0) base) (fun t => ((t.die 0).freqMhz, (t.die 0).nextMhz)) = some (1100, 1045) ∧
    after (exec (.thermalStepDown 0) at550) (fun t => (t.die 0).nextMhz) = some 550 := by decide +kernel

/-- R17: STRETCH_SEEN that a droop has set in this cycle stands against a write that clears it; in the next cycle it is cleared. -/
theorem test_set_wins :
    let seen := fun (s : State) => (s.readReg false 0x001_0100).getLsbD 17
    let clear := Instr.registerWrite .pf .w32 0x001_0100 0x2_0000 false
    let s := (nx (exec (.supplyDroop 0) base)).getD base
    after (exec clear s) seen = some true ∧ after (exec clear { s with sets := [] }) seen = some false := by decide +kernel

/-- R620: a page published within a burst read of PWR_FCAST does not change what the burst reads. -/
theorem test_forecast_burst :
    let s := { base with power := { base.power with page1 := BitVec.ofNat 6528 (9 * 2 ^ 128) } }
    let first := (nx (exec (.regPairLoRead (.i3c false) .w32 0x001_1000) s)).getD s
    let turned := { first with power := { first.power with fcCur := true } }
    (after (exec (.regPairLoRead (.i3c true) .w32 0x001_1010) turned) fun t => t.reply) =
      (after (exec (.regPairLoRead (.i3c true) .w32 0x001_1010) first) fun t => t.reply) := by decide +kernel

/-- R522: after 10 µs of idle time and with a tolerance of 2 µs the module enters W1. -/
theorem test_wake_state :
    let s := at' 10000 { base with power := { base.power with idleFrom := some 0, wakeTol := 2 }, host := { base.host with gen := 0 } }
    after (exec .wStateEnter s) (fun t => t.power.st) = some .w1 ∧
    after (exec .wStateEnter (at' 9999 s)) (fun t => t.power.st) = some .w0 := by decide +kernel

/-- R545: a read through BAR2 beyond memory is an Unsupported Request; within it, it returns what memory holds. -/
theorem test_bar2_read :
    let s := { base with mem := { base.mem with cells := [(5, 0xAB)] } }
    after (exec (.bar2Read 0 4 2) s) (fun t => t.reply) = some (some (.bytes [0, 0xAB] false)) ∧
    after (exec (.bar2Read 0 (BitVec.ofNat 64 s.mem.top) 1) s) (fun t => (t.reply, t.host.aer)) = some (some .unsupported, [(0, .unsupported)]) := by
  decide +kernel

/-- R557, R560: an image with a wrong magic number opens the recovery window with error 6. -/
theorem test_rom_refuses :
    after (exec .starterRomBoot { State.reset with sec := { Security.reset with flash := (List.range 8).map fun i => (i, 0) } })
      (fun t => (t.sec.boot, t.sec.error)) = some (2, 6) := by decide +kernel

/-- R376: a signal on an OFF port starts its training; four lanes of an electrical port that all lock give LINK at width 4. -/
theorem test_port_training :
    let train := { base with fab := { Fabric.reset with ports := [(39, { Port.reset with st := .train, signal := true })] } }
    after (exec (.portSignalDetect 39) base) (fun t => (t.port 39).st) = some .train ∧
    after (exec (.portTrainComplete 39 4 true) train) (fun t => ((t.port 39).st, (t.port 39).width, (t.port 39).rate)) = some (.link, 4, true) := by
  decide +kernel

/-- R396: the 32nd router drops a packet. -/
theorem test_hop_limit :
    after (exec (.packetForward 0 { packet0 1 0 4 [] with hops := 31 }) base) (fun t => (t.fab.ttlDrop, t.out)) = some (true, []) := by
  decide +kernel

/-- R401: a WRITE through a window lands and is acknowledged, and its source's next number follows. -/
theorem test_peer_write :
    let s := { base with fab := { Fabric.reset with node := 1, wins := [(0, ⟨0, 4096, 2, 2, false, true, false, true⟩)] } }
    after (exec (.write (packet0 3 0 2 [7, 8])) s) (fun t => (t.mem.read 0, t.mem.read 1, smapGet 0 t.fab.execSeq 2)) = some (7, 8, 1) := by
  decide +kernel

/-- R389: a node ID is taken while every partition is in reset, and 0xFFFF never is. -/
theorem test_node_id :
    after (exec (.fabNodeIdWrite 5) base) (fun t => t.fab.node) = some 5 ∧
    after (exec (.fabNodeIdWrite 0xFFFF) base) (fun t => (t.fab.node, t.fab.writeIgnored)) = some (0, true) := by decide +kernel

/-- R41, R413: an offset of 6.5 ns is slewed away at −52,000 parts per 10^9 (the fabric chapter's clocks, moved to start at 0). -/
theorem test_sync :
    let p := { Port.reset with st := .up, advert := some ⟨1, 0⟩, peerNode := 1, delay := 1600 }
    let s := { base with
      fab := { Fabric.reset with node := 2, ports := [(0, p)] }
      time := { TimeBase.reset with lockedOnce := true, gtb := BitVec.ofNat 96 (213 * 2 ^ 31) } }
    after (exec (.sync 0 0) s) (fun t => (t.time.offset, t.time.ratePpb.toInt)) = some (6, -52000) := by decide +kernel

/-- R351, R353: a group is HEALTHY, then DEGRADED by one failed position and CRITICAL by three. -/
theorem test_position_fails :
    after (exec (.memPositionFail 39 9 false) base) (fun t => ((t.mem.group 39).state, (t.mem.group 38).state)) = some (1, 0) ∧
    after (exec (.memPositionFail 39 9 true) base) (fun t => (List.range 40).map fun g => (t.mem.group g).state) =
      some ((List.range 40).map fun g => if 32 ≤ g then 1 else 0) ∧
    ({ MemGroup.reset with failed := 7 } : MemGroup).state = 3 := by decide +kernel

/-- R586: an event in order enters the buffer; one that comes before the last that was committed is committed at once, marked
LATE. -/
theorem test_event_delivery :
    let e : Event := ⟨5, 0, 0x0101, 0, false, false⟩
    let s := { base with log := { EventLog.reset with pending := [e], last := some (6, 0) } }
    after (exec (.eventDeliver 0) { s with log := { s.log with last := none } }) (fun t => (t.log.buffer, t.log.next)) = some ([e], 0) ∧
    after (exec (.eventDeliver 0) s) (fun t => (t.log.buffer, t.log.next, t.log.ring.map fun r => r.2.2.late)) = some ([], 1, [true]) := by
  decide +kernel

/-- R15: a LO read captures its HI word, and the next HI read returns the capture once. -/
theorem test_register_pair :
    let s := { base with parts := [(0, { pt0 with cycFrz := 0x1_0000_0002 })] }
    let lo := after (exec (.regPairLoRead .pf .w32 0x010_0208) s) id
    lo.map (fun t => t.reply) = some (some (.word 2)) ∧
    (lo.bind fun t => after (exec (.regPairHiRead .pf .w32 0x010_020C) { t with parts := [] }) fun u => (u.reply, u.captures.bar0)) =
      some (some (.word 1), []) := by decide +kernel

/-- R14, R16: SCRATCH holds what is written, an access of 64 bits is an Unsupported Request, and a read-only register keeps its
value. -/
theorem test_register_write :
    after (exec (.registerWrite .pf .w32 0x8 0xDEAD_BEEF false) base) (fun t => (t.scratch, t.readReg false 0x8)) =
      some (0xDEAD_BEEF, 0xDEAD_BEEF) ∧
    after (exec (.registerWrite .pf .w64 0x8 0xDEAD_BEEF false) base) (fun t => (t.scratch, t.host.aer)) = some (0, [(0, .unsupported)]) ∧
    after (exec (.registerWrite .pf .w32 0x0 5 false) base) (fun t => t.readReg false 0x0) = some (base.readReg false 0x0) := by
  decide +kernel

/-- A step takes the command at the front of the queue and leaves the rest. -/
theorem test_step_takes_front :
    after (step { world with pending := [.halt 0 0, .nop 0 0] }) (fun t => ((t.core 0).pc, t.pending)) = some (1, [.nop 0 0]) := by decide +kernel

/-- R38: with no command waiting, a step is one nanosecond of the GTB. -/
theorem test_step_idle : after (step base) (fun t => t.now) = some 1 := by decide +kernel

/-- No row of the table has bits. -/
theorem test_table_words : (decodeTableWord 8 0x55).isNone = true := by decide

end Sys2Proof.Tests
end

section
namespace Sys2Proof.Machine
open Sys2Proof.Laws

-- The laws are many and small: their proofs are checked in turn, not each in a thread of its own.
set_option Elab.async false

/-! ## Every step holds each unit at most once (O59)

`UnitsOk` says that the ten lists of numbered units are in order. A law `UnitsOk.<f>` says that the model's operation `<f>` keeps
that, `OutOk.<f>` that a command answers such a state, and `InsOk.<f>` that an instruction in a slot does. Each law composes the
laws of the operations that `<f>` calls, in the order in which it calls them, so a law is as short as its operation. The lists
change in three ways only: an entry is set (`smapSet_sorted`), all entries are mapped (`smapMap_sorted`), or entries are dropped
(`smapFilter_sorted`); everything else is `UnitsOk.same`. -/

/-- A state that differs from `s` in none of the lists of units. -/
theorem UnitsOk.same {pending free out reply time log ledger crust tele crumbLog bs mem host fab alertN power fuse sec ladder
    dbg captures scratch i3cAddr burst sets} {s : State} (h : UnitsOk s)
    (fns : HostPort.fns host = s.host.fns := by with_reducible rfl)
    (ports : Fabric.ports fab = s.fab.ports := by with_reducible rfl) :
    UnitsOk { s with pending, free, out, reply, time, log, ledger, crust, tele, crumbLog, bs, mem, host, fab, alertN, power, fuse,
                     sec, ladder, dbg, captures, scratch, i3cAddr, burst, sets } := by
  unfold UnitsOk
  rw [fns, ports]
  exact h

theorem UnitsOk.foldl {α : Type} {f : State → α → State} {l : List α} {s : State} (h : UnitsOk s)
    (hf : ∀ {s a}, UnitsOk s → UnitsOk (f s a)) : UnitsOk (l.foldl f s) := by
  induction l generalizing s with
  | nil => exact h
  | cons a l ih => exact ih (hf h)

theorem UnitsOk.ite {c : Prop} [Decidable c] {s t : State} (hs : UnitsOk s) (ht : UnitsOk t) :
    UnitsOk (if c then s else t) := by
  split
  · exact hs
  · exact ht

/-- What a command answers, where it answers a state. -/
def OutOk : Out → Prop
  | .next t => UnitsOk t
  | _ => True

/-- What an instruction answers, where it gives a state of its own. -/
def InsOk : InsRes → Prop
  | .ok t => UnitsOk t
  | .okWith t _ => UnitsOk t
  | _ => True

/-- What a replayed record or a queue gives, where it gives something. -/
def OptOk : Option State → Prop
  | some t => UnitsOk t
  | none => True

/-- Every instruction that a slot decodes to keeps the lists in order. -/
def DecodedOk (d : Option Ins) : Prop := ∀ f, d = some f → ∀ {s r}, UnitsOk s → InsOk (f s r)

theorem DecodedOk.none : DecodedOk none := fun _ hf => nomatch hf

theorem DecodedOk.some {f : Ins} (hf : ∀ {s r}, UnitsOk s → InsOk (f s r)) : DecodedOk (some f) := by
  intro g hg
  cases hg
  exact hf

theorem OutOk.ite {c : Prop} [Decidable c] {a b : Out} (ha : OutOk a) (hb : OutOk b) : OutOk (if c then a else b) := by
  split
  · exact ha
  · exact hb

theorem InsOk.ite {c : Prop} [Decidable c] {a b : InsRes} (ha : InsOk a) (hb : InsOk b) : InsOk (if c then a else b) := by
  split
  · exact ha
  · exact hb

theorem OutOk.onCore {s : State} {pt c} {f : CoreRef → State} (h : ∀ r, UnitsOk (f r)) :
    OutOk (onCore s pt c f) := by
  unfold Machine.onCore
  split
  · exact h _
  · trivial

theorem UnitsOk.hostReg {s : State} {off} {f : State → State} (h : UnitsOk s) (hf : UnitsOk (f s)) :
    UnitsOk (s.hostReg off f) := hf.ite h

theorem UnitsOk.fabReg {s : State} {off} {f : State → State} (h : UnitsOk s) (hf : UnitsOk (f s)) : UnitsOk (s.fabReg off f) :=
  hf.ite h

section
variable {s : State} (h : UnitsOk s)
include h

theorem UnitsOk.setCore {k v} : UnitsOk (s.setCore k v) := by
  obtain ⟨cores, h⟩ := h
  exact ⟨smapSet_sorted _ cores _ _, h⟩

theorem UnitsOk.setDie {d v} : UnitsOk (s.setDie d v) := by
  obtain ⟨cores, dies, h⟩ := h
  exact ⟨cores, smapSet_sorted _ dies _ _, h⟩

theorem UnitsOk.setPart {n v} : UnitsOk (s.setPart n v) := by
  obtain ⟨cores, dies, parts, h⟩ := h
  exact ⟨cores, dies, smapSet_sorted _ parts _ _, h⟩

theorem UnitsOk.setCtx {n v} : UnitsOk (s.setCtx n v) := by
  obtain ⟨cores, dies, parts, ctxs, h⟩ := h
  exact ⟨cores, dies, parts, smapSet_sorted _ ctxs _ _, h⟩

theorem UnitsOk.setLoaf {n v} : UnitsOk (s.setLoaf n v) := by
  obtain ⟨cores, dies, parts, ctxs, loafs, h⟩ := h
  exact ⟨cores, dies, parts, ctxs, smapSet_sorted _ loafs _ _, h⟩

theorem UnitsOk.setModel {n v} : UnitsOk (s.setModel n v) := by
  obtain ⟨cores, dies, parts, ctxs, loafs, models, h⟩ := h
  exact ⟨cores, dies, parts, ctxs, loafs, smapSet_sorted _ models _ _, h⟩

theorem UnitsOk.setBay {n v} : UnitsOk (s.setBay n v) := by
  obtain ⟨cores, dies, parts, ctxs, loafs, models, links, bays, h⟩ := h
  exact ⟨cores, dies, parts, ctxs, loafs, models, links, smapSet_sorted _ bays _ _, h⟩

theorem UnitsOk.setFn {f v} : UnitsOk (s.setFn f v) := by
  obtain ⟨cores, dies, parts, ctxs, loafs, models, links, bays, fns, ports⟩ := h
  exact ⟨cores, dies, parts, ctxs, loafs, models, links, bays, smapSet_sorted _ fns _ _, ports⟩

theorem UnitsOk.setPort {n p} : UnitsOk (s.setPort n p) := by
  obtain ⟨cores, dies, parts, ctxs, loafs, models, links, bays, fns, ports⟩ := h
  exact ⟨cores, dies, parts, ctxs, loafs, models, links, bays, fns, smapSet_sorted _ ports _ _⟩

theorem UnitsOk.updLink {n f} : UnitsOk (s.updLink n f) := by
  obtain ⟨cores, dies, parts, ctxs, loafs, models, links, bays, h⟩ := h
  exact ⟨cores, dies, parts, ctxs, loafs, models, smapSet_sorted _ links _ _, bays, h⟩

end
section
variable {s : State}

/-! ### Machine/Ops.lean -/

theorem UnitsOk.draw {w} (h : UnitsOk s) : UnitsOk (s.draw w).2 := h.same
theorem UnitsOk.gtbView (h : UnitsOk s) : UnitsOk s.gtbView.2 := h.draw (w := 5)
theorem UnitsOk.updCore {k f} (h : UnitsOk s) : UnitsOk (s.updCore k f) := h.setCore
theorem UnitsOk.updPart {n f} (h : UnitsOk s) : UnitsOk (s.updPart n f) := h.setPart
theorem UnitsOk.setEngine {d e v} (h : UnitsOk s) : UnitsOk (s.setEngine d e v) := h.setDie
theorem UnitsOk.setDssLine {d i v} (h : UnitsOk s) : UnitsOk (s.setDssLine d i v) := h.setDie
theorem UnitsOk.hwSet {off bits} (h : UnitsOk s) : UnitsOk (s.hwSet off bits) := h.same
theorem UnitsOk.hwSetIf {c off bits} (h : UnitsOk s) : UnitsOk (s.hwSetIf c off bits) := h.hwSet.ite h
theorem UnitsOk.emit {o} (h : UnitsOk s) : UnitsOk (s.emit o) := h.same
theorem UnitsOk.updCoresOf {n f} (h : UnitsOk s) : UnitsOk (s.updCoresOf n f) := h.foldl fun h => h.updCore
theorem UnitsOk.event {src code detail} (h : UnitsOk s) : UnitsOk (s.event src code detail) := h.same
theorem UnitsOk.eventAgg {src code} (h : UnitsOk s) : UnitsOk (s.eventAgg src code) := h.same
theorem UnitsOk.life {d f} (h : UnitsOk s) : UnitsOk (s.life d f) := h.same
theorem UnitsOk.logPoison {line} (h : UnitsOk s) : UnitsOk (s.logPoison line) := h.life.event
theorem UnitsOk.memWrite {addr bs poisoned} (h : UnitsOk s) : UnitsOk (s.memWrite addr bs poisoned) :=
  h.same.foldl fun h => h.logPoison
theorem UnitsOk.memPut {addr bs} (h : UnitsOk s) : UnitsOk (s.memPut addr bs) := h.memWrite
theorem UnitsOk.sendMsix {fn v} (h : UnitsOk s) : UnitsOk (s.sendMsix fn v) :=
  h.ite (h.emit.ite (h.setFn.same.emit.ite h.setFn))
theorem UnitsOk.alert (h : UnitsOk s) : UnitsOk s.alert := (h.ite h.same.emit.emit).sendMsix
theorem UnitsOk.updPower {f} (h : UnitsOk s) : UnitsOk (s.updPower f) := h.same
theorem UnitsOk.wake (h : UnitsOk s) : UnitsOk s.wake := h.ite (h.updPower.same (fns := rfl))
theorem UnitsOk.settleAlert (h : UnitsOk s) : UnitsOk s.settleAlert := (h.ite h.alert).ite (h.same.emit.ite h)
theorem UnitsOk.notifyFault {n was} (h : UnitsOk s) : UnitsOk (s.notifyFault n was) := h.ite h.sendMsix.sendMsix
theorem UnitsOk.freeze {n ws} (h : UnitsOk s) : UnitsOk (s.freeze n ws) := h.setPart

theorem UnitsOk.noteEnded {n} (h : UnitsOk s) : UnitsOk (s.noteEnded n) := by
  dsimp only [State.noteEnded]
  split
  · exact h
  · exact h.setPart

theorem UnitsOk.updEntry {idx f} (h : UnitsOk s) : UnitsOk (s.updEntry idx f) := h.same
theorem UnitsOk.complete {a status code flags} (h : UnitsOk s) : UnitsOk (s.complete a status code flags) := h.same
theorem UnitsOk.endRun {n} (h : UnitsOk s) : UnitsOk (s.endRun n) := h.updCoresOf.updPart
theorem UnitsOk.loseCopy {cn primary} (h : UnitsOk s) : UnitsOk (s.loseCopy cn primary) := h.same.setCtx
theorem UnitsOk.filterDescs {d keep} (h : UnitsOk s) : UnitsOk (s.filterDescs d keep) := h.foldl fun h => h.setEngine

theorem UnitsOk.killContext {n code lost} (h : UnitsOk s) : UnitsOk (s.killContext n code lost) := by
  dsimp only [State.killContext]
  split
  · exact h.filterDescs.updCoresOf.endRun
  · split
    · exact h.filterDescs.updCoresOf.endRun.loseCopy
    · split
      · exact h.filterDescs.updCoresOf.endRun.setCtx
      · exact h.filterDescs.updCoresOf.endRun.updEntry.setCtx.ite h.filterDescs.updCoresOf.endRun.setCtx.complete

theorem UnitsOk.abandonTile {n src} (h : UnitsOk s) : UnitsOk (s.abandonTile n src) :=
  h.ite (h.filterDescs.foldl fun h => h.updCore).updCoresOf.setPart.life.event
theorem UnitsOk.recordFault {n core f src} (h : UnitsOk s) : UnitsOk (s.recordFault n core f src) := h.setPart.hwSet
theorem UnitsOk.raiseFrom {n core src f} (h : UnitsOk s) : UnitsOk (s.raiseFrom n core src f) :=
  h.ite (h.abandonTile.ite (h.recordFault.killContext.ite h.recordFault).notifyFault.event)
theorem UnitsOk.raise {n core k f} (h : UnitsOk s) : UnitsOk (s.raise n core k f) := h.raiseFrom
theorem UnitsOk.raisePart {n code src core pc} (h : UnitsOk s) : UnitsOk (s.raisePart n code src core pc) :=
  (h.recordFault.killContext.ite h.recordFault).notifyFault.event
theorem UnitsOk.dropRequests {ks} (h : UnitsOk s) : UnitsOk (s.dropRequests ks) := h.same
theorem UnitsOk.withdraw {n} (h : UnitsOk s) : UnitsOk (s.withdraw n) := h.filterDescs.updCoresOf.dropRequests
theorem UnitsOk.abortPart {n src} (h : UnitsOk s) : UnitsOk (s.abortPart n src) := h.ite h.raisePart.withdraw
theorem UnitsOk.refuseAbort {n reason} (h : UnitsOk s) : UnitsOk (s.refuseAbort n reason) := h.abortPart.event
theorem UnitsOk.holdCycle {n} (h : UnitsOk s) : UnitsOk (s.holdCycle n) := h.updPart
theorem UnitsOk.raiseAll {r fs} (h : UnitsOk s) : UnitsOk (s.raiseAll r fs) := h.foldl fun h => h.raise

theorem UnitsOk.settleIns {r} {a : InsRes} (h : UnitsOk s) (ha : InsOk a) : UnitsOk (settleIns s r a) := by
  cases a with
  | ok t => exact ha
  | okWith t fs => exact UnitsOk.raiseAll ha
  | hold => exact h.holdCycle
  | wait ws => exact h.freeze
  | fault fs => exact h.raiseAll

theorem OutOk.runIns {pt c} {f : CoreRef → InsRes} (h : UnitsOk s) (hf : ∀ r, InsOk (f r)) : OutOk (runIns s pt c f) :=
  .onCore fun r => (h.settleIns (hf r)).ite h

theorem InsOk.insFault {r code slot detail unit} : InsOk (insFault s r code slot detail unit) := trivial
theorem InsOk.checkReadWith {r slot fs ls go} (hgo : InsOk go) : InsOk (checkReadWith s r slot fs ls go) :=
  .ite trivial (.ite hgo trivial)
theorem InsOk.checkRead {r slot ls go} (hgo : InsOk go) : InsOk (checkRead s r slot ls go) := .checkReadWith hgo
theorem InsOk.checkWrite {r ls go} (hgo : InsOk go) : InsOk (checkWrite s r ls go) := .ite hgo trivial
theorem UnitsOk.resumeDebug {n} (h : UnitsOk s) : UnitsOk (s.resumeDebug n) := h.updPart.updCoresOf.ite h.updPart
theorem UnitsOk.endDebug (h : UnitsOk s) : UnitsOk s.endDebug := h.same.foldl fun h => h.resumeDebug
theorem UnitsOk.countLoss {k id loss} (h : UnitsOk s) : UnitsOk (s.countLoss k id loss) := h.updCore.same.ite h
theorem UnitsOk.delay {r lat rank a} (h : UnitsOk s) : UnitsOk (s.delay r lat rank a) := h.updCore
theorem UnitsOk.countReads {r n} (h : UnitsOk s) : UnitsOk (s.countReads r n) := h.updCore

/-! ### Machine/Ledger.lean -/

theorem UnitsOk.ledgerAppend {d type src payload} (h : UnitsOk s) : UnitsOk (s.ledgerAppend d type src payload) :=
  h.same.ite (h.same.event.same.ite h.same.event)
theorem UnitsOk.residue {k a bank} (h : UnitsOk s) : UnitsOk (s.residue k a bank) := h.life.ledgerAppend
theorem UnitsOk.ledgerFlag {d src flag} (h : UnitsOk s) : UnitsOk (s.ledgerFlag d src flag) := h.ledgerAppend
theorem UnitsOk.spare {d pool src count sub} (h : UnitsOk s) : UnitsOk (s.spare d pool src count sub) := h.ledgerAppend.event
theorem UnitsOk.otp {f} (h : UnitsOk s) : UnitsOk (s.otp f) := h.same
theorem UnitsOk.writeCounters {d} (h : UnitsOk s) : UnitsOk (s.writeCounters d) :=
  h.ledgerAppend.foldl fun h => h.ledgerAppend
theorem UnitsOk.hourOf {d} (h : UnitsOk s) : UnitsOk (s.hourOf d) := h.life.writeCounters.ledgerAppend.life

theorem UnitsOk.ledgerHourly (h : UnitsOk s) : UnitsOk (ledgerHourly s) := by
  have hours : UnitsOk ((List.range 20).foldl State.hourOf s) := h.foldl fun h => h.hourOf
  exact h.ite hours.same

theorem UnitsOk.measure {m} (h : UnitsOk s) : UnitsOk (s.measure m) :=
  h.ite ((h.ledgerAppend.same.hwSet.event.alert.ite h.ledgerAppend.same.hwSet.event).ite h.ledgerAppend)
theorem UnitsOk.ledgerRecordWrite {d type src payload} (h : UnitsOk s) : UnitsOk (ledgerRecordWrite d type src payload s) :=
  h.ledgerAppend.ite h
theorem OutOk.execLedgerRecordWrite {die type src payload} (h : UnitsOk s) :
    OutOk (execLedgerRecordWrite die type src payload s) :=
  h.ledgerRecordWrite
theorem OutOk.execLedgerHourly (h : UnitsOk s) : OutOk (execLedgerHourly s) := h.ledgerHourly
theorem OutOk.execMarginSweep {ms} (h : UnitsOk s) : OutOk (execMarginSweep ms s) := h.foldl fun h => h.measure

/-! ### Machine/Arrays.lean -/

theorem InsOk.insWld {a fmt tgt mode rw rx r} (h : UnitsOk s) : InsOk (insWld a fmt tgt mode rw rx s r) :=
  .ite .insFault (.checkReadWith h.updCore)

theorem InsOk.insWswap {mask r} (h : UnitsOk s) : InsOk (insWswap mask s r) := by
  dsimp only [Machine.insWswap]
  split
  · exact .insFault
  · exact h.updCore

theorem InsOk.insMma {mod mask banks m1 r} (h : UnitsOk s) : InsOk (insMma mod mask banks m1 s r) := by
  dsimp only [Machine.insMma]
  split
  · exact .insFault
  · split
    · exact trivial
    · split
      · exact trivial
      · split
        · exact h.setCore
        · exact h.setCore

theorem UnitsOk.otherPops {s0 r} (h : UnitsOk s) : UnitsOk (otherPops s0 r s) := by
  refine h.foldl fun h => h.ite ?_
  split
  · exact h.raise
  · exact h

theorem UnitsOk.aqRowPop {r} (h : UnitsOk s) : UnitsOk (aqRowPop s r) := by
  dsimp only [Machine.aqRowPop]
  split
  · exact h
  · split
    · exact h
    · split
      · exact h.raise.otherPops.ite h.freeze
      · split
        · exact h.updCore.raise
        · exact h.setCore

theorem UnitsOk.arrayRowLand {a mismatch r} (h : UnitsOk s) : UnitsOk (arrayRowLand a mismatch s r) := by
  dsimp only [Machine.arrayRowLand]
  split
  · exact h
  · exact h.ite ((h.setCore.countLoss.event.residue.ite h.setCore.countLoss).raise.ite
      (h.setCore.countLoss.event.residue.ite h.setCore.countLoss))

theorem InsOk.insZoa {mask r} (h : UnitsOk s) : InsOk (insZoa mask s r) := by
  dsimp only [Machine.insZoa]
  split
  · exact .insFault
  · exact h.updCore

theorem InsOk.insIdle {mask n r} (h : UnitsOk s) : InsOk (insIdle mask n s r) := h.updCore
theorem UnitsOk.tastingRowInject {x round seed err} (h : UnitsOk s) : UnitsOk (tastingRowInject x round seed err s) :=
  h.setDie.ite h
theorem OutOk.execWld {pt c a fmt tgt mode rw rx} (h : UnitsOk s) : OutOk (execWld pt c a fmt tgt mode rw rx s) :=
  .runIns h fun _ => .insWld h
theorem OutOk.execWldLoaded {pt c a} (h : UnitsOk s) : OutOk (execWldLoaded pt c a s) := .onCore fun _ => h.updCore
theorem OutOk.execWswap {pt c mask} (h : UnitsOk s) : OutOk (execWswap pt c mask s) := .runIns h fun _ => .insWswap h
theorem OutOk.execMma {pt c mod mask banks m1} (h : UnitsOk s) : OutOk (execMma pt c mod mask banks m1 s) :=
  .runIns h fun _ => .insMma h
theorem OutOk.execAqRowPop {pt c} (h : UnitsOk s) : OutOk (execAqRowPop pt c s) := .onCore fun _ => h.aqRowPop
theorem OutOk.execArrayRowLand {pt c a mismatch} (h : UnitsOk s) : OutOk (execArrayRowLand pt c a mismatch s) :=
  .onCore fun _ => h.arrayRowLand
theorem OutOk.execZoa {pt c mask} (h : UnitsOk s) : OutOk (execZoa pt c mask s) := .runIns h fun _ => .insZoa h
theorem OutOk.execIdle {pt c mask n} (h : UnitsOk s) : OutOk (execIdle pt c mask n s) := .runIns h fun _ => .insIdle h
theorem OutOk.execTastingRowInject {x round seed err} (h : UnitsOk s) : OutOk (execTastingRowInject x round seed err s) :=
  h.tastingRowInject

/-! ### Machine/Requests.lean -/

theorem UnitsOk.dssPut {die o bs poison} (h : UnitsOk s) : UnitsOk (s.dssPut die o bs poison) :=
  h.ite (h.foldl fun h => h.ite h.setDssLine)
theorem UnitsOk.toRouter {p} (h : UnitsOk s) : UnitsOk (s.toRouter p) := h.same
theorem UnitsOk.sendReq {dst kind flow tag addr len bytes poison who} (h : UnitsOk s) :
    UnitsOk (s.sendReq dst kind flow tag addr len bytes poison who) :=
  h.same.toRouter
theorem UnitsOk.sendAnswer {dst kind flow seq tag addr reason bytes poison} (h : UnitsOk s) :
    UnitsOk (s.sendAnswer dst kind flow seq tag addr reason bytes poison) :=
  h.ite h.toRouter
theorem UnitsOk.sendHostRead {fn addr len who} (h : UnitsOk s) : UnitsOk (s.sendHostRead fn addr len who) := h.same.emit

theorem UnitsOk.putPlace {n flow p bs poison who} (h : UnitsOk s) : UnitsOk (s.putPlace n flow p bs poison who).1 := by
  dsimp only [State.putPlace]
  split
  · exact h.memWrite
  · exact h.dssPut
  · exact h.foldl fun h => h.sendReq
  · split
    · exact h.foldl fun h => h.emit
    · exact h.refuseAbort
  · exact h.refuseAbort

theorem UnitsOk.markPoisoned {n} (h : UnitsOk s) : UnitsOk (s.markPoisoned n) := by
  dsimp only [State.markPoisoned]
  split
  · exact h.updEntry
  · exact h

/-! ### Machine/Collective.lean -/

theorem UnitsOk.updRun {group idx f} (h : UnitsOk s) : UnitsOk (s.updRun group idx f) := h.same
theorem UnitsOk.endRunOf {group idx} (h : UnitsOk s) : UnitsOk (s.endRunOf group idx) := h.same
theorem UnitsOk.collTell {group idx nodes m} (h : UnitsOk s) : UnitsOk (s.collTell group idx nodes m) := h.ite h.same.emit
theorem UnitsOk.failRun {u} (h : UnitsOk s) : UnitsOk (s.failRun u) := h.endRunOf.foldl fun h => h.raisePart
theorem UnitsOk.failAll {u} (h : UnitsOk s) : UnitsOk (s.failAll u) := h.failRun.collTell

theorem UnitsOk.checkRun {group idx} (h : UnitsOk s) : UnitsOk (s.checkRun group idx) := by
  dsimp only [State.checkRun]
  split
  · exact h
  · split
    · exact h.failRun
    · split
      · exact h.ite (h.updRun.ite h.failAll)
      · exact h

theorem UnitsOk.contribute {group idx} (h : UnitsOk s) : UnitsOk (s.contribute group idx) := by
  dsimp only [State.contribute]
  split
  · exact h
  · split
    · exact h
    · exact h.ite (h.updRun.foldl fun h => h.updRun.ite h.collTell)

theorem UnitsOk.combineOwn {group idx seg} (h : UnitsOk s) : UnitsOk (s.combineOwn group idx seg) := by
  dsimp only [State.combineOwn]
  split
  · exact h
  · split
    · exact h
    · split
      · exact h
      · refine .collTell ?_
        refine .updRun ?_
        split
        · exact h.draw
        · exact h

theorem UnitsOk.advanceRun {group idx} (h : UnitsOk s) : UnitsOk (s.advanceRun group idx) :=
  h.checkRun.contribute.foldl fun h => h.combineOwn
theorem UnitsOk.addToRun {group idx f} (h : UnitsOk s) : UnitsOk (s.addToRun group idx f) := h.updRun.ite h.same

theorem UnitsOk.joinRun {group idx m} (h : UnitsOk s) : UnitsOk (s.joinRun group idx m) := by
  dsimp only [State.joinRun]
  split
  · exact h.failAll
  · exact h.failAll.ite (h.refuseAbort.ite (h.updRun.advanceRun.ite h.addToRun.collTell.advanceRun))

theorem UnitsOk.memberReady {k id ls} (h : UnitsOk s) : UnitsOk (s.memberReady k id ls) := by
  dsimp only [State.memberReady]
  split
  · exact h
  · exact h.updRun.advanceRun

/-! ### Machine/Transfers.lean -/

theorem InsOk.carriedOr {r go} (h : UnitsOk s) (hgo : InsOk go) : InsOk (carriedOr s r go) := .ite h.updCore hgo

theorem UnitsOk.of_fst {α : Type} {p : State × α} {a : α} (e : p = (s, a)) (h : UnitsOk p.1) : UnitsOk s := by
  subst e
  exact h

theorem UnitsOk.useRec {r p x} (h : UnitsOk s) (hx : s.useRec r p = some x) : UnitsOk x.2 := by
  unfold State.useRec at hx
  split at hx
  · cases hx
  · split at hx
    · cases hx
    · obtain ⟨e, -, rfl⟩ := Option.map_eq_some_iff.1 hx
      exact h.setCtx

theorem UnitsOk.useOut {r kind group t} (h : UnitsOk s) (ht : s.useOut r kind group = some t) : UnitsOk t := by
  obtain ⟨x, hx, rfl⟩ := Option.map_eq_some_iff.1 ht
  exact h.useRec hx

theorem InsOk.replayOut {r kind go} (h : UnitsOk s) (hgo : InsOk go) : InsOk (replayOut s r kind go) := by
  unfold Machine.replayOut
  split
  · next ht => exact (h.useOut ht).updCore
  · exact hgo

theorem InsOk.checkSource {r slot ls go} (hgo : InsOk go) : InsOk (checkSource s r slot ls go) := .checkRead hgo
theorem InsOk.faultD {r code} : InsOk (faultD s r code) := .insFault
theorem UnitsOk.updEngine {d e f} (h : UnitsOk s) : UnitsOk (s.updEngine d e f) := h.setEngine
theorem UnitsOk.beatEngine {d e} (h : UnitsOk s) : UnitsOk (s.beatEngine d e) := h.updEngine
theorem UnitsOk.updDesc {d e k xfer f} (h : UnitsOk s) : UnitsOk (s.updDesc d e k xfer f) := h.updEngine

theorem UnitsOk.putRow {d e base row cells} (h : UnitsOk s) : UnitsOk (s.putRow d e base row cells).1 := by
  dsimp only [State.putRow]
  split
  · exact h.putPlace
  · exact h.putPlace
  · exact h.putPlace
  · exact h.putPlace.putPlace

theorem UnitsOk.putRows {d e base rows} (h : UnitsOk s) : UnitsOk (s.putRows d e base rows).1 := by
  induction rows generalizing s with
  | nil => exact h
  | cons x rows ih =>
    unfold State.putRows
    split
    · next hs => exact .of_fst hs h.putRow
    · next hs => exact ih (.of_fst hs h.putRow)

theorem UnitsOk.sendWrites {d e} (h : UnitsOk s) : UnitsOk (s.sendWrites d e) := by
  refine h.ite ?_
  split
  · exact h
  · dsimp only
    split
    · next hs => exact .of_fst hs h.updDesc.putRows
    · next hs =>
      have hw := UnitsOk.of_fst hs h.updDesc.putRows
      exact hw.markPoisoned.raise.ite hw

theorem UnitsOk.usePeel {r x} (h : UnitsOk s) (hx : s.usePeel r = some x) : UnitsOk x.2 := by
  unfold State.usePeel at hx
  split at hx
  · next hr => cases hx; exact h.useRec hr
  · cases hx

theorem UnitsOk.replayPeel {r e f pc t} (h : UnitsOk s) (ht : s.replayPeel r e f pc = some t) : UnitsOk t := by
  unfold State.replayPeel at ht
  dsimp only at ht
  split at ht
  · cases ht
  split at ht
  · obtain ⟨x, hx, rfl⟩ := Option.map_eq_some_iff.1 ht
    refine (h.usePeel hx).updCore.foldl fun h => ?_
    split
    · exact h.updCore
    · exact h
  · obtain ⟨x, hx, rfl⟩ := Option.map_eq_some_iff.1 ht
    exact (h.useOut hx).updCore
  · obtain ⟨x, hx, rfl⟩ := Option.map_eq_some_iff.1 ht
    have h1 := (h.usePeel hx).updCore (k := r.k) (f := Core.countXfer)
    split
    · next hs => exact h1.useOut hs
    · exact h1.putRows
    · exact h1
  · cases ht

theorem InsOk.insPeel {eng rq r} (h : UnitsOk s) : InsOk (insPeel eng rq s r) := by
  refine .ite h.updCore (.checkRead ?_)
  split
  · trivial
  · dsimp only
    split
    · next ht => exact h.replayPeel ht
    · exact .ite trivial (.checkSource (.checkWrite h.setCore.updEngine.countReads))

theorem UnitsOk.requestRows {d e} (h : UnitsOk s) : UnitsOk (s.requestRows d e) := by
  dsimp only [State.requestRows]
  refine .foldl ?_ ?_
  · exact h
  · intro s _ h
    refine .foldl ?_ ?_
    · exact h
    · intro s _ h
      split
      · exact h.sendReq
      · exact h.sendHostRead
      · exact h

theorem UnitsOk.peelStart {d e} (h : UnitsOk s) : UnitsOk (peelStart d e s) := by
  dsimp only [Machine.peelStart]
  split
  · exact h
  · split
    · exact h.updDesc.beatEngine.requestRows
    · exact h.updDesc.beatEngine.sendWrites
    · exact h.updDesc.beatEngine.requestRows.sendWrites
    · exact h.updDesc.beatEngine

theorem UnitsOk.peelLineArrive {line r} (h : UnitsOk s) : UnitsOk (peelLineArrive line s r) := by
  dsimp only [Machine.peelLineArrive]
  split
  · split
    · exact h
    · split
      · exact h.setCore
      · split
        · exact h
        · split
          · split
            · exact h.setCore.beatEngine
            · exact h
          · exact h
      · exact h
  · exact h

theorem UnitsOk.sendMessage {k m} (h : UnitsOk s) : UnitsOk (s.sendMessage k m) := h.sendReq
theorem UnitsOk.offerMessages {k} (h : UnitsOk s) : UnitsOk (s.offerMessages k) := h.foldl fun h => h.sendMessage.ite h
theorem UnitsOk.messageRead {r id lines} (h : UnitsOk s) : UnitsOk (s.messageRead r id lines) := h.updCore.offerMessages

theorem UnitsOk.engineSourceRead {line r} (h : UnitsOk s) : UnitsOk (engineSourceRead line s r) := by
  unfold Machine.engineSourceRead
  dsimp only
  split
  · split
    · exact h
    · refine h.ite ?_
      split
      · exact h.setCore.setDssLine.updCore.ite h.setCore.setDssLine
      · split
        · exact h.setCore.beatEngine.sendWrites.ite h.setCore.beatEngine
        · exact h.setCore.beatEngine
      · exact h.setCore.messageRead.ite h.setCore
      · exact h.setCore.memberReady.ite h.setCore
      · exact h.setCore
  · exact h

theorem UnitsOk.dropDesc {e d} (h : UnitsOk s) : UnitsOk (s.dropDesc e d) := h.updEngine.beatEngine.updCore

theorem UnitsOk.completePeel {e d} (h : UnitsOk s) : UnitsOk (s.completePeel e d) := by
  dsimp only [State.completePeel]
  split
  · exact h
  · split
    · exact h.dropDesc.ite h
    · exact h.sendWrites.dropDesc.ite h.sendWrites
    · split
      · exact h.sendWrites.dropDesc.ite h.sendWrites
      · exact h.sendWrites
    · exact h.dropDesc.ite h
    · exact h

theorem UnitsOk.putStream {d e row bs poison} (h : UnitsOk s) : UnitsOk (s.putStream d e row bs poison).1 := h.putPlace
theorem UnitsOk.putBlock {d e base rows} (h : UnitsOk s) : UnitsOk (s.putBlock d e base rows) := h.foldl fun h => h.putStream

theorem UnitsOk.streamRow {r eng rowBytes width mx bytes poison} (h : UnitsOk s) :
    UnitsOk (s.streamRow r eng rowBytes width mx bytes poison).1 :=
  by
  dsimp only [State.streamRow]
  split
  · exact h
  · split
    · exact h
    · split
      · split
        · exact h.updDesc.putStream.markPoisoned
        · exact h.updDesc.putStream.beatEngine
      · split
        · exact (h.updDesc.updDesc.putBlock.ite h.updDesc.updDesc).markPoisoned
        · exact (h.updDesc.updDesc.putBlock.ite h.updDesc.updDesc).beatEngine

theorem InsOk.insBcopy {rs rt n1 r} (h : UnitsOk s) : InsOk (insBcopy rs rt n1 s r) := .ite .faultD h.updCore
theorem InsOk.insDssld {rs rt n1 r} (h : UnitsOk s) : InsOk (insDssld rs rt n1 s r) :=
  .carriedOr h (.ite .faultD (.checkWrite h.setCore))
theorem InsOk.insDssst {rs rt n1 r} (h : UnitsOk s) : InsOk (insDssst rs rt n1 s r) :=
  .carriedOr h (.ite .faultD (.checkSource h.setCore))
theorem InsOk.insAct {rs rows1 fmt rp rx r} (h : UnitsOk s) : InsOk (insAct rs rows1 fmt rp rx s r) :=
  .ite .faultD (.ite .faultD (.checkRead h.updCore))

theorem UnitsOk.actRowDeliver {r} (h : UnitsOk s) : UnitsOk (actRowDeliver s r) := by
  dsimp only [Machine.actRowDeliver]
  split
  · exact h
  · exact h.ite (h.setCore.raise.ite h.setCore)

theorem OutOk.execAct {pt c rs rows1 fmt rp rx} (h : UnitsOk s) : OutOk (execAct pt c rs rows1 fmt rp rx s) :=
  .runIns h fun _ => .insAct h
theorem OutOk.execActRowDeliver {pt c} (h : UnitsOk s) : OutOk (execActRowDeliver pt c s) := .onCore fun _ => h.actRowDeliver
theorem OutOk.execPeel {pt c eng rq} (h : UnitsOk s) : OutOk (execPeel pt c eng rq s) := .runIns h fun _ => .insPeel h
theorem OutOk.execPeelDescriptorStart {die eng} (h : UnitsOk s) : OutOk (execPeelDescriptorStart die eng s) := h.peelStart
theorem OutOk.execPeelLineArrive {pt c line} (h : UnitsOk s) : OutOk (execPeelLineArrive pt c line s) :=
  .onCore fun _ => h.peelLineArrive
theorem OutOk.execEngineSourceLineRead {pt c line} (h : UnitsOk s) : OutOk (execEngineSourceLineRead pt c line s) :=
  .onCore fun _ => h.engineSourceRead
theorem OutOk.execBcopy {pt c rs rt n1} (h : UnitsOk s) : OutOk (execBcopy pt c rs rt n1 s) := .runIns h fun _ => .insBcopy h
theorem OutOk.execDssld {pt c rs rt n1} (h : UnitsOk s) : OutOk (execDssld pt c rs rt n1 s) := .runIns h fun _ => .insDssld h
theorem OutOk.execDssst {pt c rs rt n1} (h : UnitsOk s) : OutOk (execDssst pt c rs rt n1 s) := .runIns h fun _ => .insDssst h

/-! ### Machine/Cycle.lean -/

theorem UnitsOk.beginCycle {n} (h : UnitsOk s) : UnitsOk (s.beginCycle n) :=
  h.ite (h.freeze.ite ((h.foldl fun h => h.raise).ite h.updCoresOf))
theorem UnitsOk.frozenCycle {n} (h : UnitsOk s) : UnitsOk (s.frozenCycle n) := h.noteEnded.updPart
theorem UnitsOk.programCycle {n} (h : UnitsOk s) : UnitsOk (s.programCycle n) :=
  (((h.updCoresOf.ite h).foldl fun h => h.setCore).setPart.foldl fun h => h.raiseAll).updPart.beginCycle
theorem UnitsOk.partCycle {n} (h : UnitsOk s) : UnitsOk (s.partCycle n) := h.updPart.ite (h.frozenCycle.ite h.programCycle)

/-! ### Machine/Exchange.lean -/

theorem InsOk.faultX {r code} : InsOk (faultX s r code) := .insFault
theorem UnitsOk.deliver {k m} (h : UnitsOk s) : UnitsOk (s.deliver k m) := h.updCore
theorem InsOk.insXsend {rs rt r} (h : UnitsOk s) : InsOk (insXsend rs rt s r) :=
  .carriedOr h (.replayOut h (.ite .faultX (.ite trivial
    (.checkSource (.ite h.refuseAbort (.ite h.refuseAbort h.setCore))))))

theorem UnitsOk.messageAccept {idx r} (h : UnitsOk s) : UnitsOk (messageAccept idx s r) := by
  dsimp only [Machine.messageAccept]
  split
  · exact h
  · split
    · exact h
    · split
      · exact h.updCore.refuseAbort
      · exact h.ite h.updCore.deliver

theorem UnitsOk.nextMessage {r src tag x} (h : UnitsOk s) (hx : s.nextMessage r src tag = some x) : UnitsOk x.2 := by
  unfold State.nextMessage at hx
  dsimp only at hx
  split at hx
  · next hr => cases hx; exact h.useRec hr
  · obtain ⟨e, -, rfl⟩ := Option.map_eq_some_iff.1 hx
    exact h.updCore

theorem InsOk.insXrecv {rs rt r} (h : UnitsOk s) : InsOk (insXrecv rs rt s r) := by
  refine .carriedOr h (.ite trivial ?_)
  split
  · trivial
  · next hx => exact .ite trivial (.checkWrite ((h.nextMessage hx).setCore.foldl fun h => h.delay))

theorem UnitsOk.relink {r group id} (h : UnitsOk s) : UnitsOk (s.relink r group id) := by
  dsimp only [State.relink]
  split
  · exact h
  · exact h.same

theorem UnitsOk.useRes {r group x} (h : UnitsOk s) (hx : s.useRes r group = some x) : UnitsOk x.2 := by
  unfold State.useRes at hx
  split at hx
  · next hr => cases hx; exact h.useRec hr
  · cases hx

theorem UnitsOk.replayRed {r group dstLine status len dst} (h : UnitsOk s) :
    UnitsOk (s.replayRed r group dstLine status len dst) := by
  unfold State.replayRed
  split
  · next hx => exact (h.useRes hx).updCore
  · exact h.setCore.relink.same

theorem UnitsOk.replayMax {r group mx} (h : UnitsOk s) : UnitsOk (s.replayMax r group mx) := by
  unfold State.replayMax
  split
  · next hx => exact (h.useRes hx).updCore
  · exact h.setCore.relink

theorem InsOk.insXred {op rq r} (h : UnitsOk s) : InsOk (insXred op rq s r) := by
  refine .carriedOr h (.checkRead (.ite trivial (.ite trivial ?_)))
  dsimp only
  split
  · next ht => exact (h.useOut ht).replayRed
  · exact .checkSource (.checkWrite h.setCore.countReads.joinRun)

theorem InsOk.insXredMax {rq mx r} (h : UnitsOk s) : InsOk (insXredMax rq mx s r) := by
  refine .carriedOr h ?_
  dsimp only
  split
  · next ht => exact (h.useOut ht).replayMax
  · exact h.setCore.joinRun

theorem UnitsOk.journalResult {n x} (h : UnitsOk s) : UnitsOk (s.journalResult n x) := by
  dsimp only [State.journalResult]
  split
  · exact h
  · exact h.setCtx

theorem UnitsOk.collectiveWrite {group} (h : UnitsOk s) : UnitsOk (collectiveWrite group s) := by
  dsimp only [Machine.collectiveWrite]
  split
  · exact h
  · exact h.ite (((h.foldl fun h => h.updCore.ite h.journalResult).endRunOf.same.foldl fun h => h.raiseFrom).ite
      (h.foldl fun h => h.updCore.ite h.journalResult).endRunOf.same)

theorem InsOk.insXbar {rg r} (h : UnitsOk s) : InsOk (insXbar rg s r) := by
  refine .carriedOr h ?_
  dsimp only
  split
  · next hx =>
    have h1 := h.useRec hx
    exact h1.setCore.updPart.ite h1.updCore
  · exact .ite h.setCore trivial

theorem UnitsOk.reachXbar {r w} (h : UnitsOk s) : UnitsOk (s.reachXbar r w) := by
  dsimp only [State.reachXbar]
  split
  · exact h.ite (h.ite h.joinRun)
  · exact h

theorem UnitsOk.waitFor {r ws} (h : UnitsOk s) : UnitsOk (s.waitFor r ws) := h.freeze.foldl fun h => h.reachXbar

theorem UnitsOk.settleAll {r a2} (h : UnitsOk s) (ha2 : InsOk a2) : UnitsOk (settleAll s r a2) := by
  dsimp only [Machine.settleAll]
  split
  · exact h.waitFor
  · exact h.settleIns ha2

theorem UnitsOk.xbarRelease {n group} (h : UnitsOk s) : UnitsOk (xbarRelease n group s) := by
  dsimp only [Machine.xbarRelease]
  split
  · split
    · exact h
    · exact h.updPart
  · split
    · exact h
    · exact h.ite (h.foldl fun h => h.updPart).endRunOf

theorem InsOk.insXtime {rt r} (h : UnitsOk s) : InsOk (insXtime rt s r) := .ite h.gtbView.updCore trivial

theorem UnitsOk.xtimeRelease {r} (h : UnitsOk s) : UnitsOk (xtimeRelease s r) := by
  dsimp only [Machine.xtimeRelease]
  split
  · exact h.updCore.updPart
  · exact h

theorem UnitsOk.applyMaxReds {r} (h : UnitsOk s) : UnitsOk (s.applyMaxReds r) := by
  dsimp only [State.applyMaxReds]
  refine .updCore ?_
  refine .foldl ?_ ?_
  · exact h
  · intro s _ h
    split
    · exact h.ite h.delay
    · exact h

theorem InsOk.insXfenceFrom {before p x r} (h : UnitsOk s) : InsOk (insXfenceFrom before p x s r) :=
  .ite (h.applyMaxReds.ite h) trivial
theorem InsOk.insXfence {p x r} (h : UnitsOk s) : InsOk (insXfence p x s r) := .insXfenceFrom h
theorem OutOk.execXsend {pt c rs rt} (h : UnitsOk s) : OutOk (execXsend pt c rs rt s) := .runIns h fun _ => .insXsend h
theorem OutOk.execMessageAccept {pt c idx} (h : UnitsOk s) : OutOk (execMessageAccept pt c idx s) :=
  .onCore fun _ => h.messageAccept
theorem OutOk.execXrecv {pt c rs rt} (h : UnitsOk s) : OutOk (execXrecv pt c rs rt s) := .runIns h fun _ => .insXrecv h
theorem OutOk.execXredSumExact {pt c rq} (h : UnitsOk s) : OutOk (execXredSumExact pt c rq s) :=
  .runIns h fun _ => .insXred h
theorem OutOk.execXredSumTree {pt c rq} (h : UnitsOk s) : OutOk (execXredSumTree pt c rq s) := .runIns h fun _ => .insXred h
theorem OutOk.execXredMax {pt c rq mx} (h : UnitsOk s) : OutOk (execXredMax pt c rq mx s) := .runIns h fun _ => .insXredMax h
theorem OutOk.execXredGather {pt c rq} (h : UnitsOk s) : OutOk (execXredGather pt c rq s) := .runIns h fun _ => .insXred h
theorem OutOk.execXredScatter {pt c rq} (h : UnitsOk s) : OutOk (execXredScatter pt c rq s) := .runIns h fun _ => .insXred h
theorem OutOk.execCollectiveResultWrite {group} (h : UnitsOk s) : OutOk (execCollectiveResultWrite group s) :=
  h.collectiveWrite
theorem OutOk.execXbar {pt c rg} (h : UnitsOk s) : OutOk (execXbar pt c rg s) :=
  .onCore fun _ => (h.settleAll (.insXbar h)).ite h
theorem OutOk.execXbarRelease {pt group} (h : UnitsOk s) : OutOk (execXbarRelease pt group s) := h.xbarRelease
theorem OutOk.execXtime {pt c rt} (h : UnitsOk s) : OutOk (execXtime pt c rt s) := .runIns h fun _ => .insXtime h
theorem OutOk.execXtimeRelease {pt c} (h : UnitsOk s) : OutOk (execXtimeRelease pt c s) := .onCore fun _ => h.xtimeRelease
theorem OutOk.execXfence {pt c p x} (h : UnitsOk s) : OutOk (execXfence pt c p x s) := .runIns h fun _ => .insXfence h

/-! ### Machine/Hang.lean -/

theorem UnitsOk.ladderEvent {u phase} (h : UnitsOk s) : UnitsOk (s.ladderEvent u phase) := h.event
theorem UnitsOk.beginStep {u} (h : UnitsOk s) : UnitsOk (s.beginStep u) := h.same.wake.ladderEvent
theorem UnitsOk.addSuspect {u e} (h : UnitsOk s) : UnitsOk (s.addSuspect u e) := h.ite h.same

theorem UnitsOk.detectHang {u byBudget} (h : UnitsOk s) : UnitsOk (s.detectHang u byBudget) := by
  unfold State.detectHang
  refine h.ite ?_
  dsimp only
  generalize hs3 : List.foldl (fun (s : State) e => s.sendMsix (e.2 + 1) 1) _ (s.suspectsOf u) = s3
  have h3 : UnitsOk s3 := by
    rw [← hs3]
    exact (h.same.foldl fun h => h.addSuspect).event.foldl fun h => h.sendMsix
  exact (h3.alert.ite h3).hwSet

theorem UnitsOk.coreHangDetect {r} (h : UnitsOk s) : UnitsOk (coreHangDetect s r) := h.detectHang.ite h
theorem UnitsOk.engineHangDetect {u} (h : UnitsOk s) : UnitsOk (engineHangDetect u s) := h.detectHang.ite h
theorem OutOk.execCoreHangDetect {pt c} (h : UnitsOk s) : OutOk (execCoreHangDetect pt c s) :=
  .onCore fun _ => h.coreHangDetect
theorem OutOk.execEngineHangDetect {e} (h : UnitsOk s) : OutOk (execEngineHangDetect e s) := h.engineHangDetect

/-! ### Machine/Answers.lean -/

theorem UnitsOk.dropReq {dst seq} (h : UnitsOk s) : UnitsOk (s.dropReq dst seq) := h.same
theorem UnitsOk.finishFabOp {reason} (h : UnitsOk s) : UnitsOk (s.finishFabOp reason) := h.same.hwSet

theorem UnitsOk.bringData {d e k x off bytes poison} (h : UnitsOk s) : UnitsOk (s.bringData d e k x off bytes poison) := by
  dsimp only [State.bringData]
  split
  · exact h.updDesc.beatEngine.sendWrites.ite h.updDesc.beatEngine
  · exact h.updDesc.beatEngine

theorem UnitsOk.failReq {q reason} (h : UnitsOk s) : UnitsOk (s.failReq q reason) := by
  dsimp only [State.failReq]
  split
  · exact h.dropReq.bringData
  · exact h.dropReq.refuseAbort
  · exact h.dropReq.updCore.refuseAbort
  · exact h.dropReq.finishFabOp

theorem UnitsOk.readData {p} (h : UnitsOk s) : UnitsOk (readData p s) := by
  dsimp only [Machine.readData]
  split
  · exact h
  · split
    · exact h
    · split
      · exact h.dropReq.bringData
      · exact h.dropReq.memWrite.finishFabOp
      · exact h.dropReq

theorem UnitsOk.ackReceive {p} (h : UnitsOk s) : UnitsOk (ackReceive p s) := by
  dsimp only [Machine.ackReceive]
  split
  · exact h
  · split
    · exact h
    · split
      · exact h.dropReq.updCore.offerMessages
      · exact h.dropReq.finishFabOp
      · exact h.dropReq.beatEngine
      · exact h.dropReq

theorem UnitsOk.notReadyReceive {p} (h : UnitsOk s) : UnitsOk (notReadyReceive p s) := by
  dsimp only [Machine.notReadyReceive]
  split
  · exact h
  · exact h.ite h.dropReq.same

theorem UnitsOk.xqFreeReceive {p} (h : UnitsOk s) : UnitsOk (xqFreeReceive p s) :=
  h.ite (h.same.foldl fun h => h.offerMessages)

theorem UnitsOk.failColl {group idx reason} (h : UnitsOk s) : UnitsOk (s.failColl group idx reason) := by
  dsimp only [State.failColl]
  split
  · exact h
  · exact h.endRunOf.foldl fun h => h.refuseAbort

theorem UnitsOk.refuseReceive {p} (h : UnitsOk s) : UnitsOk (refuseReceive p s) := by
  dsimp only [Machine.refuseReceive]
  split
  · exact h
  · split
    · exact h.failReq.ite h.failColl
    · exact h.failColl

theorem UnitsOk.requestResend {dst seq} (h : UnitsOk s) : UnitsOk (requestResend dst seq s) := by
  dsimp only [Machine.requestResend]
  split
  · exact h
  · exact h.ite h.same.toRouter

theorem UnitsOk.requestTimeout {dst seq} (h : UnitsOk s) : UnitsOk (requestTimeout dst seq s) := by
  dsimp only [Machine.requestTimeout]
  split
  · exact h
  · exact h.ite h.failReq

theorem OutOk.execReadData {p} (h : UnitsOk s) : OutOk (execReadData p s) := h.readData.ite h
theorem OutOk.execAck {p} (h : UnitsOk s) : OutOk (execAck p s) := h.ackReceive.ite h
theorem OutOk.execNotReady {p} (h : UnitsOk s) : OutOk (execNotReady p s) := h.notReadyReceive.ite h
theorem OutOk.execXqFree {p} (h : UnitsOk s) : OutOk (execXqFree p s) := h.xqFreeReceive
theorem OutOk.execRefuse {p} (h : UnitsOk s) : OutOk (execRefuse p s) := h.refuseReceive
theorem OutOk.execRequestResend {dst seq} (h : UnitsOk s) : OutOk (execRequestResend dst seq s) := h.requestResend
theorem OutOk.execRequestTimeout {dst seq} (h : UnitsOk s) : OutOk (execRequestTimeout dst seq s) := h.requestTimeout

/-! ### Machine/EventLog.lean -/

theorem UnitsOk.extWrite {e seq} (h : UnitsOk s) : UnitsOk (s.extWrite e seq) := h.ite (h.same.ite (h.ite h.memPut))
theorem UnitsOk.commitEvent {e} (h : UnitsOk s) : UnitsOk (s.commitEvent e) := h.same.extWrite

theorem UnitsOk.deliverEvent {e} (h : UnitsOk s) : UnitsOk (s.deliverEvent e) := by
  dsimp only [State.deliverEvent]
  split
  · exact h.commitEvent.ite h.same
  · exact h.same

theorem UnitsOk.eventDeliver {idx} (h : UnitsOk s) : UnitsOk (eventDeliver idx s) := by
  dsimp only [Machine.eventDeliver]
  split
  · exact h
  · exact h.ite h.same.deliverEvent

theorem UnitsOk.eventCommit (h : UnitsOk s) : UnitsOk (eventCommit s) := by
  dsimp only [Machine.eventCommit]
  split
  · exact h
  · split
    · exact h
    · exact h.ite h.same.commitEvent

theorem UnitsOk.drainEvents {n} (h : UnitsOk s) : UnitsOk (s.drainEvents n) := by
  induction n generalizing s with
  | zero => exact h
  | succ n ih =>
    unfold State.drainEvents
    split
    · exact h
    · split
      · exact h
      · exact ih h.same.commitEvent

theorem UnitsOk.eventAggWindowEnd (h : UnitsOk s) : UnitsOk (eventAggWindowEnd s) := h.same
theorem UnitsOk.flushEvents (h : UnitsOk s) : UnitsOk s.flushEvents := h.same.drainEvents
theorem UnitsOk.evtPortSeqWrite {i3c v} (h : UnitsOk s) : UnitsOk (evtPortSeqWrite i3c v s) := h.same.ite h.same
theorem OutOk.execEventDeliver {idx} (h : UnitsOk s) : OutOk (execEventDeliver idx s) := h.eventDeliver
theorem OutOk.execEventCommit (h : UnitsOk s) : OutOk (execEventCommit s) := h.eventCommit
theorem OutOk.execEventAggWindowEnd (h : UnitsOk s) : OutOk (execEventAggWindowEnd s) := h.eventAggWindowEnd
theorem OutOk.execEvtPortSeqWrite {i3c v} (h : UnitsOk s) : OutOk (execEvtPortSeqWrite i3c v s) :=
  (h.evtPortSeqWrite.ite h).ite (h.hostReg h.evtPortSeqWrite)

/-! ### Machine/Drain.lean -/

theorem InsOk.issueDrain {kind a f detail rows mark r} (h : UnitsOk s) : InsOk (issueDrain kind a f detail rows mark s r) :=
  .ite trivial (.checkRead (.checkReadWith h.setCore.countReads))

theorem InsOk.insDrain {a bank f r} (h : UnitsOk s) : InsOk (insDrain a bank f s r) := by
  dsimp only [Machine.insDrain]
  exact .issueDrain h

theorem InsOk.insPbdrain {a slot f r} (h : UnitsOk s) : InsOk (insPbdrain a slot f s r) := .issueDrain h

theorem UnitsOk.drainRowRead {a r} (h : UnitsOk s) : UnitsOk (drainRowRead a s r) := by
  dsimp only [Machine.drainRowRead]
  split
  · exact h
  · split
    · exact h
    · split
      · exact h.abandonTile
      · refine .settleIns ?_ ?_
        · exact h
        · split
          · exact trivial
          · exact .checkRead (h.setCore.countReads.countLoss.raise.ite h.setCore.countReads.countLoss)

theorem UnitsOk.dssWrite {d ws} (h : UnitsOk s) : UnitsOk (s.dssWrite d ws) := h.foldl fun h => h.setDssLine
theorem UnitsOk.dqPop {r a q} (h : UnitsOk s) : UnitsOk (s.dqPop r a q) := h.updCore

theorem UnitsOk.drainRowWrite {a r} (h : UnitsOk s) : UnitsOk (drainRowWrite a s r) := by
  unfold Machine.drainRowWrite
  dsimp only
  split
  · exact h
  refine h.ite ?_
  split
  · refine h.dqPop.dssWrite.ite (.ite ?_ h.dqPop)
    split
    · next hs => exact (UnitsOk.of_fst hs h.streamRow).dqPop
    · next hs => exact (UnitsOk.of_fst hs h.streamRow).raise
  · exact h.freeze
  · exact h

theorem OutOk.execDrain {pt c a bank f} (h : UnitsOk s) : OutOk (execDrain pt c a bank f s) := .runIns h fun _ => .insDrain h
theorem OutOk.execDrainRowRead {pt c a} (h : UnitsOk s) : OutOk (execDrainRowRead pt c a s) :=
  .onCore fun _ => h.drainRowRead
theorem OutOk.execDrainRowWrite {pt c a} (h : UnitsOk s) : OutOk (execDrainRowWrite pt c a s) :=
  .onCore fun _ => h.drainRowWrite
theorem OutOk.execPbdrain {pt c a slot f} (h : UnitsOk s) : OutOk (execPbdrain pt c a slot f s) :=
  .runIns h fun _ => .insPbdrain h

/-! ### Machine/ProofBuffer.lean -/

theorem InsOk.insFold {a bank sa sb rt r} (h : UnitsOk s) : InsOk (insFold a bank sa sb rt s r) :=
  .ite trivial (.ite .insFault h.setCore)

theorem UnitsOk.foldRowAdd {a r} (h : UnitsOk s) : UnitsOk (foldRowAdd a s r) := by
  dsimp only [Machine.foldRowAdd]
  split
  · exact h
  · split
    · exact h.ite (h.abandonTile.ite (h.setCore.raiseAll.ite h.setCore))
    · exact h

theorem InsOk.faultPb {r code slot} : InsOk (faultPb s r code slot) := .insFault
theorem InsOk.insPbzero {slot rt r} (h : UnitsOk s) : InsOk (insPbzero slot rt s r) :=
  .ite h.updCore (.ite .faultPb h.setCore)
theorem InsOk.insImage {kind op slot eng ri tag r} (h : UnitsOk s) : InsOk (insImage kind op slot eng ri tag s r) :=
  .ite h.updCore (.ite .faultPb (.ite .faultPb (.ite trivial h.setCore.updEngine)))
theorem InsOk.insPbspillW {slot eng ri r} (h : UnitsOk s) : InsOk (insPbspillW slot eng ri s r) := .insImage h
theorem InsOk.insPbspillA {slot eng ri r} (h : UnitsOk s) : InsOk (insPbspillA slot eng ri s r) := .insImage h
theorem InsOk.insPbload {slot eng ri rt r} (h : UnitsOk s) : InsOk (insPbload slot eng ri rt s r) := .insImage h

theorem UnitsOk.pbHeaderArrive {d e idx} (h : UnitsOk s) : UnitsOk (pbHeaderArrive d e idx s) := by
  dsimp only [Machine.pbHeaderArrive]
  split
  · exact h
  · exact h.ite (h.dropDesc.raiseAll.ite (h.updDesc.ite h.updDesc))

theorem UnitsOk.pbRowTransfer {d e idx} (h : UnitsOk s) : UnitsOk (pbRowTransfer d e idx s) := by
  dsimp only [Machine.pbRowTransfer]
  split
  · exact h
  · split
    · exact h
    · split
      · exact h.updCore.updDesc.beatEngine.memPut.ite h.updCore.updDesc.beatEngine
      · exact (h.ite h.updCore.updDesc).ite (h.ite (h.updCore.updDesc.beatEngine.memPut.ite h.updCore.updDesc.beatEngine))
      · exact h.ite (h.updCore.updDesc.beatEngine.raiseAll.ite h.updCore.updDesc.beatEngine)
      · exact h

theorem UnitsOk.transferComplete {d e idx} (h : UnitsOk s) : UnitsOk (transferComplete d e idx s) := by
  dsimp only [Machine.transferComplete]
  split
  · exact h
  · split
    · exact h.dropDesc.ite h
    · exact h.dropDesc.ite h
    · exact h.dropDesc.ite h
    · exact h.completePeel

theorem OutOk.execFold {pt c a bank sa sb rt} (h : UnitsOk s) : OutOk (execFold pt c a bank sa sb rt s) :=
  .runIns h fun _ => .insFold h
theorem OutOk.execFoldRowAdd {pt c a} (h : UnitsOk s) : OutOk (execFoldRowAdd pt c a s) := .onCore fun _ => h.foldRowAdd
theorem OutOk.execPbzero {pt c slot rt} (h : UnitsOk s) : OutOk (execPbzero pt c slot rt s) :=
  .runIns h fun _ => .insPbzero h
theorem OutOk.execPbspillW {pt c slot eng ri} (h : UnitsOk s) : OutOk (execPbspillW pt c slot eng ri s) :=
  .runIns h fun _ => .insPbspillW h
theorem OutOk.execPbspillA {pt c slot eng ri} (h : UnitsOk s) : OutOk (execPbspillA pt c slot eng ri s) :=
  .runIns h fun _ => .insPbspillA h
theorem OutOk.execPbload {pt c slot eng ri rt} (h : UnitsOk s) : OutOk (execPbload pt c slot eng ri rt s) :=
  .runIns h fun _ => .insPbload h
theorem OutOk.execPbImageHeaderArrive {die eng idx} (h : UnitsOk s) : OutOk (execPbImageHeaderArrive die eng idx s) :=
  h.pbHeaderArrive
theorem OutOk.execPbSlotRowTransfer {die eng idx} (h : UnitsOk s) : OutOk (execPbSlotRowTransfer die eng idx s) :=
  h.pbRowTransfer
theorem OutOk.execPeelTransferComplete {die eng idx} (h : UnitsOk s) : OutOk (execPeelTransferComplete die eng idx s) :=
  h.transferComplete

/-! ### Machine/Scalar.lean -/

theorem InsOk.writeSpec {r lat rd v} (h : UnitsOk s) : InsOk (writeSpec s r lat rd v) := h.delay
theorem InsOk.illegalC {r} : InsOk (illegalC s r) := .insFault
theorem InsOk.insAlu {op rd ra b r} (h : UnitsOk s) : InsOk (insAlu op rd ra b s r) := .ite (.writeSpec h) .illegalC
theorem InsOk.insLi {rd hd imm r} (h : UnitsOk s) : InsOk (insLi rd hd imm s r) := .ite (.writeSpec h) .illegalC
theorem InsOk.insCmp {pd cond ra b r} (h : UnitsOk s) : InsOk (insCmp pd cond ra b s r) := .ite h.delay .illegalC
theorem InsOk.insBrp {p inv off r} (h : UnitsOk s) : InsOk (insBrp p inv off s r) := .ite h.updCore .illegalC

theorem InsOk.insLoop {len count r} (h : UnitsOk s) : InsOk (insLoop len count s r) := by
  dsimp only [Machine.insLoop]
  split
  · exact .illegalC
  · exact .ite .illegalC h.updCore

theorem InsOk.insTile {budget r} (h : UnitsOk s) : InsOk (insTile budget s r) := .ite .illegalC h.updCore
theorem InsOk.insHalt {r} (h : UnitsOk s) : InsOk (insHalt s r) := h.updCore
theorem InsOk.insTrap {code r} (h : UnitsOk s) : InsOk (insTrap code s r) := h
theorem InsOk.insAnc {a mx my delta r} (h : UnitsOk s) : InsOk (insAnc a mx my delta s r) := h.delay
theorem InsOk.insSteprR {rd r} (h : UnitsOk s) : InsOk (insSteprR rd s r) := .ite (.writeSpec h) .illegalC
theorem InsOk.insSteprW {ra r} (h : UnitsOk s) : InsOk (insSteprW ra s r) := .ite h.delay .illegalC
theorem InsOk.insSteprInc {r} (h : UnitsOk s) : InsOk (insSteprInc s r) := h.delay
theorem InsOk.insSeedrR {rd r} (h : UnitsOk s) : InsOk (insSeedrR rd s r) := .ite (.writeSpec h) .illegalC
theorem InsOk.insSeedrW {ra r} (h : UnitsOk s) : InsOk (insSeedrW ra s r) := .ite h.delay .illegalC
theorem InsOk.insGtbr {rd r} (h : UnitsOk s) : InsOk (insGtbr rd s r) := .ite (.writeSpec h.gtbView) .illegalC
theorem InsOk.insHbeat {progress r} (h : UnitsOk s) : InsOk (insHbeat progress s r) := h.updCore
theorem OutOk.execNop {pt c} (h : UnitsOk s) : OutOk (execNop pt c s) := .runIns h fun _ => h
theorem OutOk.execLi {pt c rd hd imm} (h : UnitsOk s) : OutOk (execLi pt c rd hd imm s) := .runIns h fun _ => .insLi h
theorem OutOk.execAdd {pt c rd ra b} (h : UnitsOk s) : OutOk (execAdd pt c rd ra b s) := .runIns h fun _ => .insAlu h
theorem OutOk.execSub {pt c rd ra b} (h : UnitsOk s) : OutOk (execSub pt c rd ra b s) := .runIns h fun _ => .insAlu h
theorem OutOk.execAnd {pt c rd ra b} (h : UnitsOk s) : OutOk (execAnd pt c rd ra b s) := .runIns h fun _ => .insAlu h
theorem OutOk.execOr {pt c rd ra b} (h : UnitsOk s) : OutOk (execOr pt c rd ra b s) := .runIns h fun _ => .insAlu h
theorem OutOk.execXor {pt c rd ra b} (h : UnitsOk s) : OutOk (execXor pt c rd ra b s) := .runIns h fun _ => .insAlu h
theorem OutOk.execShl {pt c rd ra b} (h : UnitsOk s) : OutOk (execShl pt c rd ra b s) := .runIns h fun _ => .insAlu h
theorem OutOk.execShr {pt c rd ra b} (h : UnitsOk s) : OutOk (execShr pt c rd ra b s) := .runIns h fun _ => .insAlu h
theorem OutOk.execShrA {pt c rd ra b} (h : UnitsOk s) : OutOk (execShrA pt c rd ra b s) := .runIns h fun _ => .insAlu h
theorem OutOk.execMul {pt c rd ra b} (h : UnitsOk s) : OutOk (execMul pt c rd ra b s) := .runIns h fun _ => .insAlu h
theorem OutOk.execCmp {pt c pd cond ra b} (h : UnitsOk s) : OutOk (execCmp pt c pd cond ra b s) :=
  .runIns h fun _ => .insCmp h
theorem OutOk.execBrp {pt c p inv off} (h : UnitsOk s) : OutOk (execBrp pt c p inv off s) := .runIns h fun _ => .insBrp h
theorem OutOk.execLoop {pt c len count} (h : UnitsOk s) : OutOk (execLoop pt c len count s) := .runIns h fun _ => .insLoop h
theorem OutOk.execTile {pt c budget} (h : UnitsOk s) : OutOk (execTile pt c budget s) := .runIns h fun _ => .insTile h
theorem OutOk.execHalt {pt c} (h : UnitsOk s) : OutOk (execHalt pt c s) := .runIns h fun _ => .insHalt h
theorem OutOk.execTrap {pt c code} (h : UnitsOk s) : OutOk (execTrap pt c code s) := .runIns h fun _ => .insTrap h
theorem OutOk.execAnc {pt c a mx my delta} (h : UnitsOk s) : OutOk (execAnc pt c a mx my delta s) :=
  .runIns h fun _ => .insAnc h
theorem OutOk.execSteprR {pt c rd} (h : UnitsOk s) : OutOk (execSteprR pt c rd s) := .runIns h fun _ => .insSteprR h
theorem OutOk.execSteprW {pt c ra} (h : UnitsOk s) : OutOk (execSteprW pt c ra s) := .runIns h fun _ => .insSteprW h
theorem OutOk.execSteprInc {pt c} (h : UnitsOk s) : OutOk (execSteprInc pt c s) := .runIns h fun _ => .insSteprInc h
theorem OutOk.execSeedrR {pt c rd} (h : UnitsOk s) : OutOk (execSeedrR pt c rd s) := .runIns h fun _ => .insSeedrR h
theorem OutOk.execSeedrW {pt c ra} (h : UnitsOk s) : OutOk (execSeedrW pt c ra s) := .runIns h fun _ => .insSeedrW h
theorem OutOk.execGtbr {pt c rd} (h : UnitsOk s) : OutOk (execGtbr pt c rd s) := .runIns h fun _ => .insGtbr h
theorem OutOk.execHbeat {pt c progress} (h : UnitsOk s) : OutOk (execHbeat pt c progress s) := .runIns h fun _ => .insHbeat h

/-! ### Machine/Vector.lean -/

theorem InsOk.faultV {r code} : InsOk (faultV s r code) := .insFault

theorem InsOk.vUnit {r occ} {go : State → InsRes} (h : UnitsOk s) (hgo : ∀ {t}, UnitsOk t → InsOk (go t)) :
    InsOk (vUnit s r occ go) := .ite trivial (hgo h.updCore)

theorem InsOk.writeV {r lat vd bits poison} (h : UnitsOk s) : InsOk (writeV s r lat vd bits poison) := h.delay
theorem InsOk.insVld {vd rs part r} (h : UnitsOk s) : InsOk (insVld vd rs part s r) :=
  .vUnit h fun h => .ite .faultV (.checkReadWith h.delay.countReads)
theorem InsOk.insVst {va rs part r} (h : UnitsOk s) : InsOk (insVst va rs part s r) :=
  .vUnit h fun h => .ite .faultV (.ite .faultV (.checkWrite (h.foldl fun h => h.delay)))
theorem InsOk.insVarith {op vd va vb ty r} (h : UnitsOk s) : InsOk (insVarith op vd va vb ty s r) :=
  .vUnit h fun h => .ite .faultV (.writeV h)
theorem InsOk.insVfma {vd va vb vc ty r} (h : UnitsOk s) : InsOk (insVfma vd va vb vc ty s r) :=
  .vUnit h fun h => .ite .faultV (.writeV h)
theorem InsOk.insVcmp {vd va vb ty cond r} (h : UnitsOk s) : InsOk (insVcmp vd va vb ty cond s r) :=
  .vUnit h fun h => .ite .faultV (.writeV h)
theorem InsOk.insVsel {vd va vb vc r} (h : UnitsOk s) : InsOk (insVsel vd va vb vc s r) := .vUnit h fun h => .writeV h
theorem InsOk.insVlogic {op vd va vb ty r} (h : UnitsOk s) : InsOk (insVlogic op vd va vb ty s r) :=
  .vUnit h fun h => .ite .faultV (.writeV h)
theorem InsOk.insVperm {vd va vb r} (h : UnitsOk s) : InsOk (insVperm vd va vb s r) := .vUnit h fun h => .writeV h
theorem InsOk.insVcvt {vd va src tgt sr mr clr ri rsm r} (h : UnitsOk s) :
    InsOk (insVcvt vd va src tgt sr mr clr ri rsm s r) :=
  .vUnit h fun h => .ite .faultV (.ite .faultV (.writeV (h.delay.ite h).delay))
theorem InsOk.insVfn {vd va fn d r} (h : UnitsOk s) : InsOk (insVfn vd va fn d s r) :=
  .vUnit h fun h => .ite .faultV (.writeV h)
theorem InsOk.vaxsumAdd {m vd a psn b n r} (h : UnitsOk s) : InsOk (vaxsumAdd m vd a psn b n s r) :=
  .ite .faultV (.writeV (h.setCore.countLoss.delay.ite h.setCore.countLoss))
theorem InsOk.vaxsumOut {m vd a psn r} (h : UnitsOk s) : InsOk (vaxsumOut m vd a psn s r) := .writeV h

theorem InsOk.insVaxsum {m vd va vb clr ra n1 r} (h : UnitsOk s) : InsOk (insVaxsum m vd va vb clr ra n1 s r) := by
  dsimp only [Machine.insVaxsum]
  refine .vUnit ?_ ?_
  · exact h
  · intro s h
    split
    · exact .faultV
    · split
      · split
        · exact .faultV
        · split
          · exact .vaxsumOut h
          · exact .vaxsumOut h
          · exact .vaxsumAdd h
      · split
        · exact .faultV
        · split
          · exact .vaxsumOut h
          · exact .vaxsumOut h
          · exact .vaxsumAdd h

theorem InsOk.insVleav {vd ri rsm u r} (h : UnitsOk s) : InsOk (insVleav vd ri rsm u s r) := .vUnit h fun h => .writeV h
theorem InsOk.insVcrumb {va ca width count ri rk r} (h : UnitsOk s) : InsOk (insVcrumb va ca width count ri rk s r) :=
  .vUnit h fun h => .ite .faultV (.ite .faultV h.delay)
theorem InsOk.insVopt {vd va vb vc sel r} (h : UnitsOk s) : InsOk (insVopt vd va vb vc sel s r) :=
  .vUnit h fun h => .ite .faultV (.ite (.writeV h) (.writeV h))
theorem OutOk.execVld {pt c vd rs part} (h : UnitsOk s) : OutOk (execVld pt c vd rs part s) := .runIns h fun _ => .insVld h
theorem OutOk.execVst {pt c va rs part} (h : UnitsOk s) : OutOk (execVst pt c va rs part s) := .runIns h fun _ => .insVst h
theorem OutOk.execVadd {pt c vd va vb ty} (h : UnitsOk s) : OutOk (execVadd pt c vd va vb ty s) :=
  .runIns h fun _ => .insVarith h
theorem OutOk.execVsub {pt c vd va vb ty} (h : UnitsOk s) : OutOk (execVsub pt c vd va vb ty s) :=
  .runIns h fun _ => .insVarith h
theorem OutOk.execVmul {pt c vd va vb ty} (h : UnitsOk s) : OutOk (execVmul pt c vd va vb ty s) :=
  .runIns h fun _ => .insVarith h
theorem OutOk.execVfma {pt c vd va vb vc ty} (h : UnitsOk s) : OutOk (execVfma pt c vd va vb vc ty s) :=
  .runIns h fun _ => .insVfma h
theorem OutOk.execVmax {pt c vd va vb ty} (h : UnitsOk s) : OutOk (execVmax pt c vd va vb ty s) :=
  .runIns h fun _ => .insVarith h
theorem OutOk.execVmin {pt c vd va vb ty} (h : UnitsOk s) : OutOk (execVmin pt c vd va vb ty s) :=
  .runIns h fun _ => .insVarith h
theorem OutOk.execVcmp {pt c vd va vb ty cond} (h : UnitsOk s) : OutOk (execVcmp pt c vd va vb ty cond s) :=
  .runIns h fun _ => .insVcmp h
theorem OutOk.execVsel {pt c vd va vb vc} (h : UnitsOk s) : OutOk (execVsel pt c vd va vb vc s) :=
  .runIns h fun _ => .insVsel h
theorem OutOk.execVand {pt c vd va vb ty} (h : UnitsOk s) : OutOk (execVand pt c vd va vb ty s) :=
  .runIns h fun _ => .insVlogic h
theorem OutOk.execVor {pt c vd va vb ty} (h : UnitsOk s) : OutOk (execVor pt c vd va vb ty s) :=
  .runIns h fun _ => .insVlogic h
theorem OutOk.execVxor {pt c vd va vb ty} (h : UnitsOk s) : OutOk (execVxor pt c vd va vb ty s) :=
  .runIns h fun _ => .insVlogic h
theorem OutOk.execVshl {pt c vd va vb ty} (h : UnitsOk s) : OutOk (execVshl pt c vd va vb ty s) :=
  .runIns h fun _ => .insVlogic h
theorem OutOk.execVshr {pt c vd va vb ty} (h : UnitsOk s) : OutOk (execVshr pt c vd va vb ty s) :=
  .runIns h fun _ => .insVlogic h
theorem OutOk.execVshrA {pt c vd va vb ty} (h : UnitsOk s) : OutOk (execVshrA pt c vd va vb ty s) :=
  .runIns h fun _ => .insVlogic h
theorem OutOk.execVperm {pt c vd va vb} (h : UnitsOk s) : OutOk (execVperm pt c vd va vb s) := .runIns h fun _ => .insVperm h
theorem OutOk.execVcvt {pt c vd va src tgt sr mr clr ri rsm} (h : UnitsOk s) :
    OutOk (execVcvt pt c vd va src tgt sr mr clr ri rsm s) :=
  .runIns h fun _ => .insVcvt h
theorem OutOk.execVfn {pt c vd va fn d} (h : UnitsOk s) : OutOk (execVfn pt c vd va fn d s) := .runIns h fun _ => .insVfn h
theorem OutOk.execVaxsumF32 {pt c vd va vb clr ra n1} (h : UnitsOk s) : OutOk (execVaxsumF32 pt c vd va vb clr ra n1 s) :=
  .runIns h fun _ => .insVaxsum h
theorem OutOk.execVaxsumF64 {pt c vd va vb clr ra n1} (h : UnitsOk s) : OutOk (execVaxsumF64 pt c vd va vb clr ra n1 s) :=
  .runIns h fun _ => .insVaxsum h
theorem OutOk.execVaxsumW80 {pt c vd va vb clr ra n1} (h : UnitsOk s) : OutOk (execVaxsumW80 pt c vd va vb clr ra n1 s) :=
  .runIns h fun _ => .insVaxsum h
theorem OutOk.execVaxsumW128 {pt c vd va vb clr ra n1} (h : UnitsOk s) : OutOk (execVaxsumW128 pt c vd va vb clr ra n1 s) :=
  .runIns h fun _ => .insVaxsum h
theorem OutOk.execVaxsumTap {pt c vd va vb clr ra n1} (h : UnitsOk s) : OutOk (execVaxsumTap pt c vd va vb clr ra n1 s) :=
  .runIns h fun _ => .insVaxsum h
theorem OutOk.execVaxsumOut32 {pt c vd va vb clr ra n1} (h : UnitsOk s) :
    OutOk (execVaxsumOut32 pt c vd va vb clr ra n1 s) :=
  .runIns h fun _ => .insVaxsum h
theorem OutOk.execVaxsumOut64 {pt c vd va vb clr ra n1} (h : UnitsOk s) :
    OutOk (execVaxsumOut64 pt c vd va vb clr ra n1 s) :=
  .runIns h fun _ => .insVaxsum h
theorem OutOk.execVleav {pt c vd ri rsm u} (h : UnitsOk s) : OutOk (execVleav pt c vd ri rsm u s) :=
  .runIns h fun _ => .insVleav h
theorem OutOk.execVcrumb {pt c va ca width count ri rk} (h : UnitsOk s) :
    OutOk (execVcrumb pt c va ca width count ri rk s) :=
  .runIns h fun _ => .insVcrumb h
theorem OutOk.execVopt {pt c vd va vb vc sel} (h : UnitsOk s) : OutOk (execVopt pt c vd va vb vc sel s) :=
  .runIns h fun _ => .insVopt h

/-! ### Machine/Issue.lean -/

theorem DecodedOk.decodeStep {x} : DecodedOk (decodeStep x) := by
  dsimp only [Machine.decodeStep]
  split
  · exact .some (fun h => .insSteprR h)
  · exact .some (fun h => .insSteprW h)
  · exact .some (fun h => .insSteprInc h)
  · exact .none

theorem DecodedOk.decodeSeed {x} : DecodedOk (decodeSeed x) := by
  dsimp only [Machine.decodeSeed]
  split
  · exact .some (fun h => .insSeedrR h)
  · exact .some (fun h => .insSeedrW h)
  · exact .none

theorem DecodedOk.decodeAlu {op x} : DecodedOk (decodeAlu op x) := .some (fun h => .insAlu h)

theorem DecodedOk.decodeC {x} : DecodedOk (decodeC x) := by
  dsimp only [Machine.decodeC]
  split
  · exact .some (fun h => h)
  · exact .some (fun h => .insLi h)
  · exact .decodeAlu
  · exact .decodeAlu
  · exact .decodeAlu
  · exact .decodeAlu
  · exact .decodeAlu
  · exact .decodeAlu
  · exact .decodeAlu
  · exact .decodeAlu
  · exact .decodeAlu
  · exact .some (fun h => .insCmp h)
  · exact .some (fun h => .insBrp h)
  · exact .some (fun h => .insLoop h)
  · exact .some (fun h => .insTile h)
  · exact .some (fun h => .insHalt h)
  · exact .some (fun h => .insTrap h)
  · exact .some (fun h => .insAnc h)
  · exact .decodeStep
  · exact .decodeSeed
  · exact .some (fun h => .insGtbr h)
  · exact .some (fun h => .insHbeat h)
  · exact .none

theorem DecodedOk.decodeM {x} : DecodedOk (decodeM x) := by
  unfold Machine.decodeM
  split
  · exact .some fun h => .insWld h
  · exact .some fun h => .insWswap h
  · exact .some fun h => .insMma h
  · exact .some fun h => .insDrain h
  · exact .some fun h => .insPbdrain h
  · exact .some fun h => .insFold h
  · exact .some fun h => .insZoa h
  · exact .some fun h => .insPbzero h
  · split
    · exact .some fun h => .insPbspillA h
    · exact .some fun h => .insPbspillW h
  · exact .some fun h => .insPbload h
  · exact .some fun h => .insIdle h
  · exact .none

theorem DecodedOk.decodeV {x} : DecodedOk (decodeV x) := by
  unfold Machine.decodeV
  dsimp only
  split
  · exact .some fun h => .insVld h
  · exact .some fun h => .insVst h
  · exact .some fun h => .insVarith h
  · exact .some fun h => .insVarith h
  · exact .some fun h => .insVarith h
  · exact .some fun h => .insVfma h
  · exact .some fun h => .insVarith h
  · exact .some fun h => .insVarith h
  · exact .some fun h => .insVcmp h
  · exact .some fun h => .insVsel h
  · exact .some fun h => .insVlogic h
  · exact .some fun h => .insVlogic h
  · exact .some fun h => .insVlogic h
  · exact .some fun h => .insVlogic h
  · exact .some fun h => .insVlogic h
  · exact .some fun h => .insVlogic h
  · exact .some fun h => .insVperm h
  · exact .some fun h => .insVcvt h
  · exact .some fun h => .insVfn h
  · cases axMode (x / 2 ^ 29 % 8) with
    | none => exact .none
    | some m => exact .some fun h => .insVaxsum h
  · exact .some fun h => .insVleav h
  · exact .some fun h => .insVcrumb h
  · exact .some fun h => .insVopt h
  · exact .none

theorem DecodedOk.decodeD {x} : DecodedOk (decodeD x) := by
  dsimp only [Machine.decodeD]
  split
  · exact .some (fun h => .insAct h)
  · exact .some (fun h => .insPeel h)
  · exact .some (fun h => .insBcopy h)
  · exact .some (fun h => .insDssld h)
  · exact .some (fun h => .insDssst h)
  · exact .none

theorem DecodedOk.decodeXred {x} : DecodedOk (decodeXred x) := by
  dsimp only [Machine.decodeXred]
  split
  · exact .some (fun h => .insXred h)
  · exact .some (fun h => .insXred h)
  · exact .some (fun h => .insXredMax h)
  · exact .some (fun h => .insXred h)
  · exact .some (fun h => .insXred h)
  · exact .none

theorem DecodedOk.decodeX {before x} : DecodedOk (decodeX before x) := by
  dsimp only [Machine.decodeX]
  split
  · exact .some (fun h => .insXsend h)
  · exact .some (fun h => .insXrecv h)
  · exact .decodeXred
  · exact .some (fun h => .insXbar h)
  · exact .some (fun h => .insXtime h)
  · exact .some (fun h => .insXfenceFrom h)
  · exact .none

theorem InsOk.slotRun {slot d x r} (h : UnitsOk s) (hd : ∀ {v}, DecodedOk (d v)) : InsOk (slotRun slot d x s r) := by
  unfold Machine.slotRun
  split
  · exact h
  · split
    · next hf => exact hd _ hf h
    · trivial

theorem UnitsOk.join {b : BundleRes} {f r} (hb : UnitsOk b.st) (hf : InsOk (f b.st r)) : UnitsOk (b.join f r).st := by
  unfold BundleRes.join
  split
  · exact hb
  · exact hb
  · exact hb
  · next heq => rw [heq] at hf; exact hf
  · next heq => rw [heq] at hf; exact hf

theorem UnitsOk.joinSlot {p : BundleRes} {n d x r} (hp : UnitsOk p.st) (hd : ∀ v, DecodedOk (d v)) :
    UnitsOk (p.join (slotRun n d x) r).st := hp.join (.slotRun hp (hd _))

theorem UnitsOk.runSlots {b r} (h : UnitsOk s) : UnitsOk (Machine.runSlots b s r).st := by
  have early : UnitsOk (if slotMoves (slotOf b 255 192 56) then BundleRes.mk [] false [] [] s
      else (BundleRes.mk [] false [] [] s).join (slotRun 0 decodeC (slotOf b 255 192 56)) r).st := by
    split
    · exact h
    · exact h.joinSlot (p := BundleRes.mk [] false [] [] s) fun _ => .decodeC
  unfold Machine.runSlots
  dsimp only
  generalize (if slotMoves (slotOf b 255 192 56) then BundleRes.mk [] false [] [] s else _) = p at early ⊢
  have moves := (((early.joinSlot (d := decodeM) (n := 1) (x := slotOf b 254 136 56) (r := r) fun _ => .decodeM).joinSlot
    (d := decodeV) (n := 2) (x := slotOf b 253 72 64) (r := r) fun _ => .decodeV).joinSlot (d := decodeD) (n := 3)
    (x := slotOf b 252 24 48) (r := r) fun _ => .decodeD).joinSlot (d := decodeX (s.core r.k).nextId) (n := 4)
    (x := slotOf b 251 0 24) (r := r) fun _ => .decodeX
  split
  · exact moves.joinSlot fun _ => .decodeC
  · exact moves

theorem UnitsOk.issueBundle {b r} {also : State → State} (h : UnitsOk s) (ha : ∀ {t}, UnitsOk t → UnitsOk (also t)) :
    UnitsOk (issueBundle b also s r) :=
  h.waitFor.ite (h.holdCycle.ite ((ha h.raiseAll).ite (h.runSlots.updCore.ite (ha h.runSlots.updCore.raiseAll))))

theorem UnitsOk.issued {r} (h : UnitsOk s) : UnitsOk (s.issued r) := h.updPart
theorem UnitsOk.raiseOthers {s0 r} (h : UnitsOk s) : UnitsOk (raiseOthers s0 r s) := h.foldl fun h => h.raiseAll

theorem UnitsOk.bundleIssue {r} (h : UnitsOk s) : UnitsOk (bundleIssue s r) := by
  refine h.ite ((h.foldl fun h => h.waitFor).ite (h.holdCycle.ite ?_))
  split
  · exact h.raise.raiseOthers
  · exact h.issued.issueBundle fun h => h.raiseOthers

theorem OutOk.execBundleIssue {pt c} (h : UnitsOk s) : OutOk (execBundleIssue pt c s) := .onCore fun _ => h.bundleIssue

/-! ### Machine/Freeze.lean -/

theorem UnitsOk.producerNotice {cause r} (h : UnitsOk s) : UnitsOk (producerNotice cause s r) := h.updPart
theorem UnitsOk.freezeBegin {r} (h : UnitsOk s) : UnitsOk (freezeBegin s r) := h.ite (h.ite h.waitFor)
theorem UnitsOk.freezeEnd {n} (h : UnitsOk s) : UnitsOk (freezeEnd n s) := h.noteEnded.setPart.beginCycle.ite h.noteEnded

theorem UnitsOk.actFreezeDeliver {r} (h : UnitsOk s) : UnitsOk (actFreezeDeliver s r) := by
  dsimp only [Machine.actFreezeDeliver]
  split
  · exact h
  · split
    · exact h.setCore
    · split
      · exact h.raiseAll
      · exact h.settleIns (.checkRead h.setCore)

theorem OutOk.execProducerNotice {pt c cause} (h : UnitsOk s) : OutOk (execProducerNotice pt c cause s) :=
  .onCore fun _ => h.producerNotice
theorem OutOk.execFreezeBegin {pt c} (h : UnitsOk s) : OutOk (execFreezeBegin pt c s) := .onCore fun _ => h.freezeBegin
theorem OutOk.execFreezeEnd {pt} (h : UnitsOk s) : OutOk (execFreezeEnd pt s) := h.freezeEnd
theorem OutOk.execActRowFreezeDeliver {pt c} (h : UnitsOk s) : OutOk (execActRowFreezeDeliver pt c s) :=
  .onCore fun _ => h.actFreezeDeliver

/-! ### Machine/Tiles.lean -/

theorem UnitsOk.settleMeet {r} (h : UnitsOk s) : UnitsOk (settleMeet s r) := by
  dsimp only [Machine.settleMeet]
  split
  · exact h.ite h.setCore
  · exact h

theorem UnitsOk.budgetExpire {n} (h : UnitsOk s) : UnitsOk (budgetExpire n s) := by
  dsimp only [Machine.budgetExpire]
  split
  · split
    · split
      · exact h.updPart.detectHang
      · exact h.raisePart
    · exact h
  · exact h

theorem UnitsOk.tileCommit {n} (h : UnitsOk s) : UnitsOk (tileCommit n s) := by
  dsimp only [Machine.tileCommit]
  split
  · exact h
  · split
    · exact h.budgetExpire
    · split
      · exact h.raise
      · exact h.updCoresOf.setPart

theorem OutOk.execTileSettleMeet {pt c} (h : UnitsOk s) : OutOk (execTileSettleMeet pt c s) := .onCore fun _ => h.settleMeet
theorem OutOk.execTileCommit {pt} (h : UnitsOk s) : OutOk (execTileCommit pt s) := h.tileCommit
theorem OutOk.execTileBudgetExpire {pt} (h : UnitsOk s) : OutOk (execTileBudgetExpire pt s) := h.budgetExpire

/-! ### Machine/Contexts.lean -/

theorem UnitsOk.writeOpen {base len} (h : UnitsOk s) : UnitsOk (s.writeOpen base len) := h.same
theorem UnitsOk.loadCores {n m} (h : UnitsOk s) : UnitsOk (s.loadCores n m) := h.foldl fun h => h.updCore
theorem UnitsOk.loadProgs {n k} (h : UnitsOk s) : UnitsOk (s.loadProgs n k) := h.foldl fun h => h.updCore

theorem UnitsOk.switchOut {n} (h : UnitsOk s) : UnitsOk (s.switchOut n) := by
  dsimp only [State.switchOut]
  split
  · exact h
  · refine .updPart ?_
    refine .endRun ?_
    split
    · exact (h.setCtx.writeOpen.ite h).updEntry
    · exact h.setCtx.writeOpen.ite h

theorem UnitsOk.resumeRun {n a i} (h : UnitsOk s) : UnitsOk (s.resumeRun n a i) := by
  dsimp only [State.resumeRun]
  refine .setCtx ?_
  refine .updEntry ?_
  refine .updPart ?_
  refine .updCoresOf ?_
  refine .foldl ?_ ?_
  · split
    · exact h.loadProgs
    · exact h
  · exact fun h => h.updCore

theorem UnitsOk.takeCores {n cn} (h : UnitsOk s) : UnitsOk (s.takeCores n cn) := h.switchOut.loadCores.updPart.setCtx

theorem UnitsOk.switchTo {n cn} (h : UnitsOk s) : UnitsOk (s.switchTo n cn) := by
  dsimp only [State.switchTo]
  split
  · exact h
  · split
    · split
      · exact h.ite h.takeCores
      · exact (h.ite h.takeCores).resumeRun
    · exact h.ite h.takeCores

theorem UnitsOk.applyMaps {n} (h : UnitsOk s) : UnitsOk (s.applyMaps n) := h.same

theorem UnitsOk.checkpoint {n} (h : UnitsOk s) : UnitsOk (s.checkpoint n) := by
  dsimp only [State.checkpoint]
  split
  · exact h
  · exact h.ite h.setCtx.updCoresOf.writeOpen

theorem UnitsOk.tileYield {n a} (h : UnitsOk s) : UnitsOk (tileYield n a s) := by
  dsimp only [Machine.tileYield]
  split
  · exact h
  · split
    · exact h.switchOut.ite h.updPart
    · exact h.switchTo
    · exact h.applyMaps
    · exact h.checkpoint

theorem UnitsOk.ctxCfgWrite {v} (h : UnitsOk s) : UnitsOk (ctxCfgWrite v s) := by
  unfold Machine.ctxCfgWrite
  dsimp only
  generalize hs0 : (List.range 16).foldl _ s = s0
  have h0 : UnitsOk s0 := hs0 ▸ h.foldl fun h => h.updPart.ite h
  exact (h0.setCtx.ite (h0.setCtx.ite h0.setCtx)).ite (h0.setCtx.ite h)

theorem UnitsOk.loafLoad (h : UnitsOk s) : UnitsOk (loafLoad s) := h.setLoaf.ite h
theorem UnitsOk.loafVerifyDone {i hd} (h : UnitsOk s) : UnitsOk (loafVerifyDone i hd s) := h.ite (h.setLoaf.ite h.setLoaf)
theorem UnitsOk.loafUnload (h : UnitsOk s) : UnitsOk (loafUnload s) := h.ite h.setLoaf
theorem OutOk.execTileYield {pt a} (h : UnitsOk s) : OutOk (execTileYield pt a s) := h.tileYield
theorem OutOk.execContextSwitch {pt ctx} (h : UnitsOk s) : OutOk (execContextSwitch pt ctx s) := h.switchTo
theorem OutOk.execCheckpoint {pt} (h : UnitsOk s) : OutOk (execCheckpoint pt s) := h.checkpoint
theorem OutOk.execCtxCfgWrite {v} (h : UnitsOk s) : OutOk (execCtxCfgWrite v s) := h.hostReg h.ctxCfgWrite
theorem OutOk.execLoafLoad (h : UnitsOk s) : OutOk (execLoafLoad s) := h.hostReg h.loafLoad
theorem OutOk.execLoafVerifyDone {slot head} (h : UnitsOk s) : OutOk (execLoafVerifyDone slot head s) := h.loafVerifyDone
theorem OutOk.execLoafUnload (h : UnitsOk s) : OutOk (execLoafUnload s) := h.hostReg h.loafUnload

/-! ### Machine/Serving.lean -/

theorem UnitsOk.genRelease {i} (h : UnitsOk s) : UnitsOk (s.genRelease i) := h.setModel

theorem UnitsOk.writeCompletion {c} (h : UnitsOk s) : UnitsOk (s.writeCompletion c) := by
  dsimp only [State.writeCompletion]
  refine .genRelease ?_
  split
  · refine .sendMsix ?_
    split
    · exact h.memPut.memPut.same.sendMsix
    · exact h.memPut.memPut.same
  · split
    · exact h.memPut.memPut.same.sendMsix
    · exact h.memPut.memPut.same

theorem UnitsOk.completionWrite (h : UnitsOk s) : UnitsOk (completionWrite s) := by
  dsimp only [Machine.completionWrite]
  split
  · exact h
  · exact h.same.writeCompletion

theorem UnitsOk.setEntryState {idx st} (h : UnitsOk s) : UnitsOk (s.setEntryState idx st) := h.memPut

theorem UnitsOk.applyDecision {idx was a3} (h : UnitsOk s) : UnitsOk (s.applyDecision idx was a3) := by
  dsimp only [State.applyDecision]
  split
  · exact h.ite h.setEntryState.same
  · exact h.memPut.same.writeCompletion
  · exact h.setEntryState.same

theorem UnitsOk.genTick {i} (h : UnitsOk s) : UnitsOk (s.genTick i) := h.setModel.genRelease

theorem UnitsOk.scan {g k} (h : UnitsOk s) : UnitsOk (State.scan s g k) := by
  induction k generalizing s with
  | zero => exact h
  | succ k ih => exact h.ite (ih h.same.applyDecision)

theorem UnitsOk.admissionTick (h : UnitsOk s) : UnitsOk (admissionTick s) := by
  refine h.ite ?_
  dsimp only
  generalize hs1 : (List.range 16).foldl State.genTick _ = s1
  have h1 : UnitsOk s1 := hs1 ▸ UnitsOk.foldl h.same fun h => h.genTick
  refine h1.ite ?_
  split
  · exact h1.ite (h1.foldl fun h => h.applyDecision).scan
  · exact h1.same.ite h1
  · exact h1.same.ite h1
  · exact h1.same.ite h1
  · exact h1

theorem UnitsOk.kernelStart {n} (h : UnitsOk s) : UnitsOk (kernelStart n s) := by
  dsimp only [Machine.kernelStart]
  split
  · exact h
  · split
    · exact h
    · split
      · exact h.complete
      · split
        · exact h
        · split
          · exact h
          · exact (h.foldl fun h => h.updCore).setPart.same.setCtx

theorem UnitsOk.crumbWrite {bytes} (h : UnitsOk s) : UnitsOk (s.crumbWrite bytes) := h.ite (h.same.ite h.memPut.same)
theorem UnitsOk.clearCrumbs {n} (h : UnitsOk s) : UnitsOk (s.clearCrumbs n) := h.updCoresOf
theorem UnitsOk.logCrumbs {n kernel ctx} (h : UnitsOk s) : UnitsOk (s.logCrumbs n kernel ctx) :=
  (h.foldl fun h => h.crumbWrite).clearCrumbs

theorem UnitsOk.kernelComplete {n} (h : UnitsOk s) : UnitsOk (kernelComplete n s) := by
  dsimp only [Machine.kernelComplete]
  split
  · exact h
  · split
    · exact h
    · split
      · exact h.clearCrumbs.endRun.updCoresOf.setCtx
      · exact h.logCrumbs.updEntry.raisePart.ite (h.logCrumbs.updEntry.endRun.updCoresOf.setCtx.updEntry.ite
          h.logCrumbs.updEntry.endRun.updCoresOf.setCtx.complete)

theorem UnitsOk.expressCompare {idx} (h : UnitsOk s) : UnitsOk (expressCompare idx s) := by
  dsimp only [Machine.expressCompare]
  split
  · exact h
  · exact h.ite (h.setCtx.complete.ite h.setCtx.complete)

theorem UnitsOk.expressRepair {cn n} (h : UnitsOk s) : UnitsOk (expressRepair cn n s) := h.ite (h.updPart.ite h).setCtx
theorem UnitsOk.backgroundYield {n} (h : UnitsOk s) : UnitsOk (backgroundYield n s) := h.switchOut.ite h

theorem UnitsOk.bsAbort {idx} (h : UnitsOk s) : UnitsOk (bsAbort idx s) := by
  dsimp only [Machine.bsAbort]
  split
  · exact h
  · exact h.complete.ite (h.complete.foldl fun h => h.abortPart.ite h).setCtx.same

theorem UnitsOk.bsCfgWrite {v} (h : UnitsOk s) : UnitsOk (bsCfgWrite v s) := h.same.ite (h.same.hwSet.ite h.same)
theorem OutOk.execAdmissionTick (h : UnitsOk s) : OutOk (execAdmissionTick s) := h.admissionTick
theorem OutOk.execKernelStart {pt} (h : UnitsOk s) : OutOk (execKernelStart pt s) := h.kernelStart
theorem OutOk.execKernelComplete {pt} (h : UnitsOk s) : OutOk (execKernelComplete pt s) := h.kernelComplete
theorem OutOk.execCompletionWrite (h : UnitsOk s) : OutOk (execCompletionWrite s) := h.completionWrite
theorem OutOk.execExpressCompare {idx} (h : UnitsOk s) : OutOk (execExpressCompare idx s) := h.expressCompare
theorem OutOk.execExpressRepair {ctx pt} (h : UnitsOk s) : OutOk (execExpressRepair ctx pt s) := h.expressRepair
theorem OutOk.execBackgroundYield {pt} (h : UnitsOk s) : OutOk (execBackgroundYield pt s) := h.backgroundYield
theorem OutOk.execBsAbort {entry} (h : UnitsOk s) : OutOk (execBsAbort entry s) := h.hostReg h.bsAbort
theorem OutOk.execBsCfgWrite {v} (h : UnitsOk s) : OutOk (execBsCfgWrite v s) := h.hostReg h.bsCfgWrite

/-! ### Machine/Generations.lean -/

theorem UnitsOk.genLoad (h : UnitsOk s) : UnitsOk (genLoad s) := h.ite (h.setModel.ite h.setModel)

theorem UnitsOk.genShardArrive {i k f} (h : UnitsOk s) : UnitsOk (genShardArrive i k f s) := by
  dsimp only [Machine.genShardArrive]
  split
  · split
    · exact h
    · split
      · split
        · exact h.memPut.setModel
        · split
          · exact h.memPut.setModel
          · exact h.memPut.setModel
      · split
        · exact h.setModel
        · split
          · exact h.setModel
          · exact h.setModel
      · exact h.setModel
  · exact h

theorem UnitsOk.genTimeoutExpire {i} (h : UnitsOk s) : UnitsOk (genTimeoutExpire i s) := h.setModel.ite h
theorem UnitsOk.genActivate (h : UnitsOk s) : UnitsOk (genActivate s) := h.setModel.ite h
theorem UnitsOk.genClose (h : UnitsOk s) : UnitsOk (genClose s) := h.setModel.ite h
theorem UnitsOk.genCancel (h : UnitsOk s) : UnitsOk (genCancel s) :=
  (h.foldl fun h => h.writeOpen).setModel.ite (h.setModel.ite h)
theorem OutOk.execGenLoad (h : UnitsOk s) : OutOk (execGenLoad s) := h.hostReg h.genLoad
theorem OutOk.execGenShardArrive {slot shard f} (h : UnitsOk s) : OutOk (execGenShardArrive slot shard f s) :=
  h.genShardArrive
theorem OutOk.execGenTimeoutExpire {slot} (h : UnitsOk s) : OutOk (execGenTimeoutExpire slot s) := h.genTimeoutExpire
theorem OutOk.execGenActivate (h : UnitsOk s) : OutOk (execGenActivate s) := h.hostReg h.genActivate
theorem OutOk.execGenClose (h : UnitsOk s) : OutOk (execGenClose s) := h.hostReg h.genClose
theorem OutOk.execGenCancel (h : UnitsOk s) : OutOk (execGenCancel s) := h.hostReg h.genCancel

/-! ### Machine/Faults.lean -/

theorem UnitsOk.crustPut {off w} (h : UnitsOk s) : UnitsOk (s.crustPut off w) := h.same.ite h.same
theorem UnitsOk.mapRecord {off w} (h : UnitsOk s) : UnitsOk (s.mapRecord off w) := h.ledgerAppend.ite h
theorem UnitsOk.crustTake {e} (h : UnitsOk s) : UnitsOk (s.crustTake e) := h.mapRecord.same.ite h.mapRecord.crustPut
theorem UnitsOk.stage {es crc} (h : UnitsOk s) : UnitsOk (s.stage es crc) := h.same
theorem UnitsOk.commitStaged (h : UnitsOk s) : UnitsOk s.commitStaged := (h.foldl fun h => h.crustTake).same
theorem UnitsOk.commitWords {es} (h : UnitsOk s) : UnitsOk (s.commitWords es) := h.stage.commitStaged
theorem UnitsOk.crustCommit {es crc} (h : UnitsOk s) : UnitsOk (crustCommit es crc s) :=
  h.ite (h.stage.same.hwSet.ite (h.stage.same.ite h.stage.commitStaged))
theorem UnitsOk.scrubReg {e} (h : UnitsOk s) : UnitsOk (s.scrubReg e) := h.same.life.event
theorem UnitsOk.scrubGroup {g} (h : UnitsOk s) : UnitsOk (s.scrubGroup g) := h.ite h.commitWords
theorem UnitsOk.crustScrub (h : UnitsOk s) : UnitsOk (crustScrub s) :=
  (h.foldl fun h => h.scrubReg).foldl fun h => h.scrubGroup

theorem UnitsOk.eccEffect {src e} (h : UnitsOk s) : UnitsOk (s.eccEffect src e) := by
  unfold State.eccEffect
  split
  · split
    · exact h.ite h.updCore
    · exact h
  · exact h.setDssLine
  · split
    · exact h.updCore
    · exact h
  · split
    · exact h.updCore
    · exact h
  · exact h.abandonTile
  · exact h.abandonTile
  · exact h
  · next n i =>
    exact h.setPort (n := n.toNat) (p := { s.port n.toNat with
      queue := (s.port n.toNat).queue.zipIdx.map fun e => if e.2 = i then { e.1 with poison := true } else e.1 })
  · exact h.same
  · split
    · exact h.same
    · exact h

theorem UnitsOk.sramEccError {e uncorrectable} (h : UnitsOk s) : UnitsOk (sramEccError e uncorrectable s) :=
  h.ite ((h.ite h.life.eventAgg).ite h.life.event.eccEffect)
theorem UnitsOk.stopMembers {n} (h : UnitsOk s) : UnitsOk (s.stopMembers n) := h.same.foldl fun h => h.updCore
theorem UnitsOk.finishWrites {n} (h : UnitsOk s) : UnitsOk (s.finishWrites n) :=
  h.foldl fun h => h.foldl fun h => h.sendWrites

theorem UnitsOk.stopForRewind {n} (h : UnitsOk s) : UnitsOk (s.stopForRewind n) := by
  unfold State.stopForRewind
  split
  · exact h
  · have stopped : UnitsOk (((((s.finishWrites n).stopMembers n).filterDescs (s.part n).die.toNat
        fun d => d.pt != n).updCoresOf n Core.stopCore).endRun n) := h.finishWrites.stopMembers.filterDescs.updCoresOf.endRun
    exact stopped.same.setCtx.updPart

theorem UnitsOk.resetPartition {n} (h : UnitsOk s) : UnitsOk (s.resetPartition n) :=
  (h.stopForRewind.ite (h.killContext.withdraw.ite h.withdraw)).updCoresOf.setPart
theorem UnitsOk.startPartReset {n} (h : UnitsOk s) : UnitsOk (s.startPartReset n) := h.resetPartition.beginStep
theorem UnitsOk.endEntries {cn code} (h : UnitsOk s) : UnitsOk (s.endEntries cn code) := h.foldl fun h => h.complete
theorem UnitsOk.endBound {n} (h : UnitsOk s) : UnitsOk (s.endBound n) :=
  h.foldl fun h => h.ite (h.loseCopy.ite h.setCtx.endEntries)
theorem UnitsOk.retireCore {d p uses} (h : UnitsOk s) : UnitsOk (s.retireCore d p uses) := h.updCore.setDie.spare.otp
theorem UnitsOk.noSpare {n d p} (h : UnitsOk s) : UnitsOk (s.noSpare n d p) :=
  h.endBound.startPartReset.updPart.retireCore.setDie

theorem UnitsOk.coreFail {d p} (h : UnitsOk s) : UnitsOk (s.coreFail d p) := by
  dsimp only [State.coreFail]
  split
  · exact h
  · split
    · exact h.updCore.retireCore.ite h.updCore
    · split
      · exact h.updCore.noSpare
      · split
        · exact h.updCore
        · exact h.updCore.stopForRewind.ite h.updCore.killContext.withdraw

theorem OutOk.execCoreFail {die p} (h : UnitsOk s) : OutOk (execCoreFail die p s) := h.coreFail
theorem UnitsOk.updTaste {x f} (h : UnitsOk s) : UnitsOk (s.updTaste x f) := h.setDie
theorem UnitsOk.nextRound {x} (h : UnitsOk s) : UnitsOk (s.nextRound x) := h.updTaste

theorem UnitsOk.tasteRecord {round decision xs} (h : UnitsOk s) : UnitsOk (s.tasteRecord round decision xs) := by
  dsimp only [State.tasteRecord]
  split
  · exact h
  · exact h.ledgerAppend

theorem UnitsOk.tasteLife {x pass} (h : UnitsOk s) : UnitsOk (s.tasteLife x pass) := h.life
theorem UnitsOk.repairColumn {x w e} (h : UnitsOk s) : UnitsOk (s.repairColumn x w e) := h.setDie.spare.otp.event.commitWords

theorem UnitsOk.repairColumns {x w es} (h : UnitsOk s) : UnitsOk (s.repairColumns x w es) := by
  induction es generalizing s w with
  | nil => exact h
  | cons e es ih => exact ih h.repairColumn

theorem UnitsOk.convict {x z spares} (h : UnitsOk s) : UnitsOk (s.convict x z spares) :=
  h.tasteRecord.tasteLife.nextRound.repairColumns.ite h.tasteRecord.tasteLife.nextRound.event.coreFail

theorem UnitsOk.convictAll {z xs vs} (h : UnitsOk s) : UnitsOk (s.convictAll z xs vs) := by
  induction xs generalizing s vs with
  | nil => exact h.nextRound
  | cons x xs ih => exact (ih h).nextRound.ite (ih h.convict)

theorem UnitsOk.unresolved {xs} (h : UnitsOk s) : UnitsOk (s.unresolved xs) :=
  (h.tasteRecord.foldl fun h => h.tasteLife.nextRound.updTaste).same.hwSet
theorem UnitsOk.toReferee {x y} (h : UnitsOk s) : UnitsOk (s.toReferee x y) := h.tasteRecord.event.same

theorem UnitsOk.tastingRoundComplete {r} (h : UnitsOk s) : UnitsOk (tastingRoundComplete r s) := by
  cases r with
  | pair x y => exact h.ite (h.nextRound.nextRound.tasteLife.tasteLife.same.ite h.toReferee)
  | referee x y z spares => exact h.ite h.convictAll
  | fourth x y z w spares => exact h.ite (h.unresolved.ite (h.convictAll.ite h))

theorem UnitsOk.tastingPeriodEnd (h : UnitsOk s) : UnitsOk (tastingPeriodEnd s) := (h.foldl fun h => h.setDie).same
theorem UnitsOk.partitionQuarantine {n} (h : UnitsOk s) : UnitsOk (partitionQuarantine n s) :=
  h.ite (h.setPart.hwSetIf.ite h.setPart.hwSetIf.startPartReset)

theorem UnitsOk.quarantineTestsDone {n convicted} (h : UnitsOk s) : UnitsOk (quarantineTestsDone n convicted s) := by
  dsimp only [Machine.quarantineTestsDone]
  split
  · exact h
  · split
    · exact h.ledgerAppend.updPart
    · split
      · exact h.ledgerAppend.event.coreFail
      · exact h.ledgerAppend

theorem OutOk.execTileAbandon {pt src} (h : UnitsOk s) : OutOk (execTileAbandon pt src s) := h.abandonTile.ite h
theorem OutOk.execSramEccError {e uncorrectable} (h : UnitsOk s) : OutOk (execSramEccError e uncorrectable s) :=
  h.sramEccError
theorem OutOk.execSramScrub (h : UnitsOk s) : OutOk (execSramScrub s) := h
theorem OutOk.execCrustCommit {entries crc} (h : UnitsOk s) : OutOk (execCrustCommit entries crc s) := h.crustCommit
theorem OutOk.execCrustScrub (h : UnitsOk s) : OutOk (execCrustScrub s) := h.crustScrub
theorem OutOk.execTastingRoundComplete {r} (h : UnitsOk s) : OutOk (execTastingRoundComplete r s) := h.tastingRoundComplete
theorem OutOk.execTastingPeriodEnd (h : UnitsOk s) : OutOk (execTastingPeriodEnd s) := h.tastingPeriodEnd
theorem OutOk.execPartitionQuarantine {pt} (h : UnitsOk s) : OutOk (execPartitionQuarantine pt s) := h.partitionQuarantine
theorem OutOk.execQuarantineTestsDone {pt convicted} (h : UnitsOk s) : OutOk (execQuarantineTestsDone pt convicted s) :=
  h.quarantineTestsDone

/-! ### Machine/Ports.lean -/

theorem UnitsOk.updPort {n f} (h : UnitsOk s) : UnitsOk (s.updPort n f) := h.setPort
theorem UnitsOk.sendAll {n r} (h : UnitsOk s) : UnitsOk (s.sendAll n r) := h.setPort.foldl fun h => h.emit
theorem UnitsOk.pumpPort {n} (h : UnitsOk s) : UnitsOk (s.pumpPort n) := h.ite h.sendAll
theorem UnitsOk.portSend {n k} (h : UnitsOk s) : UnitsOk (s.portSend n k) := h.updPort.pumpPort
theorem UnitsOk.countDiscard {n} (h : UnitsOk s) : UnitsOk (s.countDiscard n) := h.updPort.ite h

theorem UnitsOk.unroutable {port p} (h : UnitsOk s) : UnitsOk (s.unroutable port p) := by
  dsimp only [State.unroutable]
  split
  · split
    · exact h
    · split
      · exact h.failReq.ite h.failColl
      · exact h.failColl.ite h
  · exact h.countDiscard.ite h.countDiscard.toRouter

theorem UnitsOk.sendVia {port p} (h : UnitsOk s) : UnitsOk (s.sendVia port p) := by
  dsimp only [State.sendVia]
  split
  · exact h.portSend
  · exact h.unroutable

theorem UnitsOk.setHoldover {b} (h : UnitsOk s) : UnitsOk (s.setHoldover b) := h.ite h.same.event
theorem UnitsOk.elect (h : UnitsOk s) : UnitsOk s.elect := h.same.setHoldover.ite (h.same.setHoldover.ite h.same)
theorem UnitsOk.linkLoss {n cause} (h : UnitsOk s) : UnitsOk (s.linkLoss n cause) :=
  h.ite (h.setPort.hwSet.event.foldl fun h => h.sendVia).elect
theorem UnitsOk.atPort {n} {f : State → State} (h : UnitsOk s) (hf : UnitsOk (f s)) : UnitsOk (s.atPort n f) := hf.ite h
theorem UnitsOk.linkLost {n} (h : UnitsOk s) : UnitsOk (linkLost n s) := h.atPort h.linkLoss
theorem UnitsOk.portSignalDetect {n} (h : UnitsOk s) : UnitsOk (portSignalDetect n s) := h.atPort h.updPort

theorem UnitsOk.portTrainComplete {n lanes fast} (h : UnitsOk s) : UnitsOk (portTrainComplete n lanes fast s) := by
  dsimp only [Machine.portTrainComplete]
  refine .atPort ?_ ?_
  · exact h
  · split
    · exact h
    · exact h.ite (h.setPort.ite h.setPort.commitWords).pumpPort

theorem UnitsOk.portTrainTimeout {n} (h : UnitsOk s) : UnitsOk (portTrainTimeout n s) := h.atPort (h.ite h.setPort)

theorem UnitsOk.trainBackoffEnd {n} (h : UnitsOk s) : UnitsOk (trainBackoffEnd n s) := by
  dsimp only [Machine.trainBackoffEnd]
  refine .atPort ?_ ?_
  · exact h
  · split
    · exact h
    · exact h.ite h.setPort

theorem UnitsOk.countLinks {src retries lanes} (h : UnitsOk s) : UnitsOk (s.countLinks src retries lanes) := h.same

theorem UnitsOk.laneRetire {n l} (h : UnitsOk s) : UnitsOk (laneRetire n l s) := by
  dsimp only [Machine.laneRetire]
  refine .atPort ?_ ?_
  · exact h
  · split
    · exact h
    · split
      · exact h.setPort.countLinks.spare.commitWords.linkLoss
      · exact h.setPort.countLinks.spare.commitWords.ite h.setPort.countLinks.spare.commitWords.updPort.hwSet.event

theorem UnitsOk.requestReplay {n} (h : UnitsOk s) : UnitsOk (s.requestReplay n) := h.updPort.countLinks.eventAgg.sendAll
theorem UnitsOk.replay {n} (h : UnitsOk s) : UnitsOk (s.replay n) := h.sendAll
theorem UnitsOk.flitReceive {n f} (h : UnitsOk s) : UnitsOk (flitReceive n f s) :=
  h.atPort (h.ite (h.requestReplay.ite (h.setPort.pumpPort.ite (h.setPort.linkLoss.ite h.setPort.replay.pumpPort))))
theorem UnitsOk.hello {n down} (h : UnitsOk s) : UnitsOk (s.hello n down) := h.portSend
theorem UnitsOk.helloSend (h : UnitsOk s) : UnitsOk (helloSend s) := h.ite (h.foldl fun h => h.hello.ite h)
theorem UnitsOk.dupCheck {hd} (h : UnitsOk s) : UnitsOk (s.dupCheck hd) := h.ite (h.same.hwSet.alert.ite h.same.hwSet)
theorem UnitsOk.helloReceive {n hd} (h : UnitsOk s) : UnitsOk (helloReceive n hd s) :=
  h.atPort (h.ite (h.linkLoss.updPort.ite (h.setPort.ite (h.linkLoss.ite h.same.setPort.dupCheck.elect.pumpPort))))
theorem UnitsOk.helloTimeout {n} (h : UnitsOk s) : UnitsOk (helloTimeout n s) := h.atPort (h.ite h.linkLoss)
theorem OutOk.execHelloSend (h : UnitsOk s) : OutOk (execHelloSend s) := h.helloSend
theorem OutOk.execHello {port hd} (h : UnitsOk s) : OutOk (execHello port hd s) := h.helloReceive
theorem OutOk.execHelloTimeout {port} (h : UnitsOk s) : OutOk (execHelloTimeout port s) := h.helloTimeout
theorem OutOk.execPortSignalDetect {port} (h : UnitsOk s) : OutOk (execPortSignalDetect port s) := h.portSignalDetect
theorem OutOk.execPortTrainComplete {port lanes fast} (h : UnitsOk s) : OutOk (execPortTrainComplete port lanes fast s) :=
  h.portTrainComplete
theorem OutOk.execPortTrainTimeout {port} (h : UnitsOk s) : OutOk (execPortTrainTimeout port s) := h.portTrainTimeout
theorem OutOk.execTrainBackoffEnd {port} (h : UnitsOk s) : OutOk (execTrainBackoffEnd port s) := h.trainBackoffEnd
theorem OutOk.execFlitReceive {port flit} (h : UnitsOk s) : OutOk (execFlitReceive port flit s) := h.flitReceive
theorem OutOk.execLaneRetire {port lane} (h : UnitsOk s) : OutOk (execLaneRetire port lane s) := h.laneRetire
theorem OutOk.execLinkLoss {port} (h : UnitsOk s) : OutOk (execLinkLoss port s) := h.linkLost

/-! ### Machine/Router.lean -/

theorem UnitsOk.putLocal {p bs poison} (h : UnitsOk s) : UnitsOk (s.putLocal p bs poison) := by
  dsimp only [State.putLocal]
  split
  · exact h.memWrite
  · exact h.dssPut
  · exact h

theorem UnitsOk.addWord {p w poison} (h : UnitsOk s) : UnitsOk (s.addWord p w poison) := h.putLocal
theorem UnitsOk.atomicAdd {p bs poison} (h : UnitsOk s) : UnitsOk (s.atomicAdd p bs poison) := h.foldl fun h => h.addWord
theorem UnitsOk.tellRefuse {p reason} (h : UnitsOk s) : UnitsOk (s.tellRefuse p reason) := h.same.hwSet.sendAnswer
theorem UnitsOk.answerRead {p} (h : UnitsOk s) : UnitsOk (s.answerRead p) := h.sendAnswer
theorem UnitsOk.answerAck {p} (h : UnitsOk s) : UnitsOk (s.answerAck p) := h.sendAnswer

theorem UnitsOk.oneSided {p} (h : UnitsOk s) : UnitsOk (s.oneSided p) := by
  dsimp only [State.oneSided]
  split
  · exact h.tellRefuse
  · split
    · exact h.answerRead
    · exact h.putLocal.answerAck
    · exact h.atomicAdd.answerAck

theorem UnitsOk.takeMessage {p} (h : UnitsOk s) : UnitsOk (s.takeMessage p) := by
  dsimp only [State.takeMessage]
  split
  · exact h.tellRefuse
  · split
    · exact h.tellRefuse
    · split
      · exact h.tellRefuse
      · split
        · exact h.tellRefuse
        · exact h.same.sendAnswer.ite h.deliver.answerAck

theorem UnitsOk.tellFree (h : UnitsOk s) : UnitsOk s.tellFree := h.ite (h.same.foldl fun h => h.sendAnswer)
theorem UnitsOk.runRequest {p} (h : UnitsOk s) : UnitsOk (s.runRequest p) := h.same.takeMessage.ite h.same.oneSided

theorem UnitsOk.runEarly {src n} (h : UnitsOk s) : UnitsOk (s.runEarly src n) := by
  induction n generalizing s with
  | zero => exact h
  | succ n ih =>
    unfold State.runEarly
    split
    · exact h
    · exact ih h.same.runRequest

theorem UnitsOk.answerAgain {p} (h : UnitsOk s) : UnitsOk (s.answerAgain p) := by
  dsimp only [State.answerAgain]
  split
  · exact h.sendAnswer
  · exact h.answerAck.ite (h.answerRead.ite h.tellRefuse)

theorem UnitsOk.arriveRequest {p} (h : UnitsOk s) : UnitsOk (s.arriveRequest p) :=
  h.ite (h.runRequest.runEarly.ite (h.answerAgain.ite (h.ite h.same)))

theorem UnitsOk.takeCollective {group idx node a4} (h : UnitsOk s) : UnitsOk (s.takeCollective group idx node a4) := by
  dsimp only [State.takeCollective]
  split
  · split
    · exact h.failRun
    · exact h.endRunOf
  · exact h.addToRun.advanceRun
  · exact h.addToRun.advanceRun
  · exact h.addToRun.advanceRun

theorem UnitsOk.collectiveArrive {group k node m} (h : UnitsOk s) : UnitsOk (collectiveArrive group k node m s) := by
  dsimp only [Machine.collectiveArrive]
  split
  · exact h
  · split
    · exact h.same.hwSet.sendAnswer
    · split
      · split
        · split
          · split
            · exact h.failRun
            · exact h
          · refine .collTell ?_
            split
            · exact h.failRun
            · exact h
        · exact h.ite h.takeCollective
      · split
        · split
          · split
            · exact h.failRun
            · exact h
          · refine .collTell ?_
            split
            · exact h.failRun
            · exact h
        · exact h.ite h.takeCollective

theorem UnitsOk.takePacket {p} (h : UnitsOk s) : UnitsOk (s.takePacket p) := by
  dsimp only [State.takePacket]
  split
  · exact h.arriveRequest
  · exact h.arriveRequest
  · exact h.arriveRequest
  · exact h.arriveRequest
  · exact h.readData
  · exact h.ackReceive
  · exact h.notReadyReceive
  · exact h.xqFreeReceive
  · exact h.refuseReceive
  · exact h

theorem UnitsOk.packetForward {port p} (h : UnitsOk s) : UnitsOk (packetForward port p s) :=
  h.ite (h.countDiscard.ite (h.takePacket.ite (h.countDiscard.ite (h.same.hwSet.countDiscard.ite h.sendVia))))
theorem UnitsOk.routeOwn {p} (h : UnitsOk s) : UnitsOk (s.routeOwn p) := h.ite (h.takePacket.ite h.sendVia)
theorem UnitsOk.routeOutbox (h : UnitsOk s) : UnitsOk s.routeOutbox := h.ite (h.same.foldl fun h => h.routeOwn)

theorem UnitsOk.localOp {a len bytes poison} (h : UnitsOk s) : UnitsOk (s.localOp a len bytes poison) := by
  dsimp only [State.localOp]
  split
  · exact h.finishFabOp.ite h.memWrite.finishFabOp
  · exact h.finishFabOp.ite h.putLocal.finishFabOp
  · exact h.finishFabOp.ite h.atomicAdd.finishFabOp

theorem UnitsOk.fabOpGo {v} (h : UnitsOk s) : UnitsOk (fabOpGo v s) :=
  h.ite (h.same.ite (h.same.finishFabOp.ite (h.same.localOp.ite (h.same.finishFabOp.ite h.same.sendReq))))
theorem UnitsOk.fabRtDataWrite {v} (h : UnitsOk s) : UnitsOk (fabRtDataWrite v s) := h.same
theorem UnitsOk.fabNodeIdWrite {v} (h : UnitsOk s) : UnitsOk (fabNodeIdWrite v s) := h.same.elect.ite h.same.hwSet
theorem UnitsOk.collGroupEntryWrite {f v} (h : UnitsOk s) : UnitsOk (collGroupEntryWrite f v s) := h.ite h.same
theorem OutOk.execPacketForward {port p} (h : UnitsOk s) : OutOk (execPacketForward port p s) := h.packetForward
theorem OutOk.execRead {p} (h : UnitsOk s) : OutOk (execRead p s) := h.arriveRequest.ite h
theorem OutOk.execWrite {p} (h : UnitsOk s) : OutOk (execWrite p s) := h.arriveRequest.ite h
theorem OutOk.execAtomicAdd {p} (h : UnitsOk s) : OutOk (execAtomicAdd p s) := h.arriveRequest.ite h
theorem OutOk.execMessage {p} (h : UnitsOk s) : OutOk (execMessage p s) := h.arriveRequest.ite h
theorem OutOk.execCollective {group k node m} (h : UnitsOk s) : OutOk (execCollective group k node m s) := h.collectiveArrive
theorem OutOk.execFabOpGo {v} (h : UnitsOk s) : OutOk (execFabOpGo v s) := h.fabReg h.fabOpGo
theorem OutOk.execFabRtDataWrite {v} (h : UnitsOk s) : OutOk (execFabRtDataWrite v s) := h.fabReg h.fabRtDataWrite
theorem OutOk.execFabNodeIdWrite {v} (h : UnitsOk s) : OutOk (execFabNodeIdWrite v s) := h.fabReg h.fabNodeIdWrite
theorem OutOk.execCollGroupEntryWrite {f v} (h : UnitsOk s) : OutOk (execCollGroupEntryWrite f v s) :=
  h.fabReg h.collGroupEntryWrite

/-! ### Machine/Clock.lean -/

theorem UnitsOk.aclkCycle {d} (h : UnitsOk s) : UnitsOk (s.aclkCycle d) := (h.foldl fun h => h.partCycle.ite h).setDie
theorem UnitsOk.tickDie {d} (h : UnitsOk s) : UnitsOk (s.tickDie d) := h.setDie.hwSetIf.foldl fun h => h.aclkCycle
theorem UnitsOk.trackIdle (h : UnitsOk s) : UnitsOk s.trackIdle := h.same
theorem UnitsOk.tick (h : UnitsOk s) : UnitsOk s.tick :=
  h.ite ((h.same.trackIdle.foldl fun h => h.tickDie).ite h.same.trackIdle).tellFree.routeOutbox

/-! ### Machine/Dram.lean -/

theorem UnitsOk.groupChanged {g old} (h : UnitsOk s) : UnitsOk (s.groupChanged g old) := by
  unfold State.groupChanged
  refine h.ite ?_
  dsimp only
  generalize hs2 : (if (s.mem.group g).state = 2 then (_ : State) else _) = s2
  have h2 : UnitsOk s2 := hs2 ▸ h.same.hwSet.event.ledgerFlag.ite h.same.hwSet.event
  exact h2.alert.ite h2

theorem UnitsOk.positionFail {g p} (h : UnitsOk s) : UnitsOk (s.positionFail g p) :=
  h.ite h.otp.spare.event.commitWords.groupChanged
theorem UnitsOk.countErasures {g flagged} (h : UnitsOk s) : UnitsOk (s.countErasures g flagged) := h.same
theorem UnitsOk.failWorn {g} (h : UnitsOk s) : UnitsOk (s.failWorn g) := h.foldl fun h => h.positionFail

theorem UnitsOk.logDecoded {line flagged v} (h : UnitsOk s) : UnitsOk (s.logDecoded line flagged v) := by
  dsimp only [State.logDecoded]
  split
  · exact h.countErasures.eventAgg.failWorn
  · exact h.ite h.event
  · exact h

theorem UnitsOk.settleDecode {line flagged v} (h : UnitsOk s) : UnitsOk (s.settleDecode line flagged v).2 := by
  unfold State.settleDecode
  split
  · exact h
  · dsimp only
    split
    · exact h.draw (w := 1)
    · exact h.draw (w := 1)
  · exact h

theorem UnitsOk.codecRead {line flagged unflagged} (h : UnitsOk s) : UnitsOk (s.codecRead line flagged unflagged).2 :=
  UnitsOk.same (h.settleDecode (line := line) (flagged := flagged)).logDecoded

theorem UnitsOk.memLineRead {line flagged unflagged} (h : UnitsOk s) : UnitsOk (memLineRead line flagged unflagged s) :=
  h.ite h.codecRead.same
theorem UnitsOk.memLineWrite {line data mask poisoned} (h : UnitsOk s) : UnitsOk (memLineWrite line data mask poisoned s) :=
  h.ite h.memWrite

theorem UnitsOk.patrolScrubLine {line flagged unflagged} (h : UnitsOk s) :
    UnitsOk (patrolScrubLine line flagged unflagged s) :=
  by
  dsimp only [Machine.patrolScrubLine]
  split
  · exact h
  · split
    · exact h.codecRead.same
    · exact h.codecRead.ite h.codecRead.same.logPoison
    · exact h.codecRead

theorem UnitsOk.packageFail {g p} (h : UnitsOk s) : UnitsOk (s.packageFail g p) := h.foldl fun h => h.positionFail
theorem UnitsOk.memPositionFail {g p package} (h : UnitsOk s) : UnitsOk (memPositionFail g p package s) :=
  h.packageFail.ite h.positionFail
theorem UnitsOk.memChanFail {g p} (h : UnitsOk s) : UnitsOk (memChanFail g p s) := h.positionFail
theorem UnitsOk.hotRefresh {ch} (h : UnitsOk s) : UnitsOk (hotRefresh ch s) := h.ite h.same.event
theorem UnitsOk.memReformStart (h : UnitsOk s) : UnitsOk (memReformStart s) :=
  h.ite (h.same.hwSet.ite (h.foldl fun h => h.otp.spare).same)
theorem UnitsOk.retireGroups {gs} (h : UnitsOk s) : UnitsOk (s.retireGroups gs) := h.commitWords

theorem UnitsOk.memReformDone (h : UnitsOk s) : UnitsOk (memReformDone s) := by
  unfold Machine.memReformDone
  split
  · exact h
  · next mask _ =>
    have settled : UnitsOk { s with mem := s.mem.settleErrs } := h.same
    have retired := settled.retireGroups (gs := maskGroups mask)
    refine UnitsOk.foldl ?_ fun h => h.logPoison
    exact retired.same.hwSet

theorem UnitsOk.cutReform (h : UnitsOk s) : UnitsOk s.cutReform := by
  dsimp only [State.cutReform]
  split
  · exact h
  · exact h.retireGroups

theorem OutOk.execMemLineRead {line flagged unflagged} (h : UnitsOk s) : OutOk (execMemLineRead line flagged unflagged s) :=
  h.memLineRead
theorem OutOk.execMemLineWrite {line data mask poisoned} (h : UnitsOk s) :
    OutOk (execMemLineWrite line data mask poisoned s) :=
  h.memLineWrite
theorem OutOk.execMemPositionFail {group pos package} (h : UnitsOk s) : OutOk (execMemPositionFail group pos package s) :=
  h.memPositionFail
theorem OutOk.execMemChanFail {group pos} (h : UnitsOk s) : OutOk (execMemChanFail group pos s) := h.hostReg h.memChanFail
theorem OutOk.execPatrolScrubLine {line flagged unflagged} (h : UnitsOk s) :
    OutOk (execPatrolScrubLine line flagged unflagged s) :=
  h.patrolScrubLine
theorem OutOk.execRefresh {channel} (h : UnitsOk s) : OutOk (execRefresh channel s) := h
theorem OutOk.execHotRefresh {device} (h : UnitsOk s) : OutOk (execHotRefresh device s) := h.hotRefresh
theorem OutOk.execHotRefreshEnd (h : UnitsOk s) : OutOk (execHotRefreshEnd s) := h.same
theorem OutOk.execMemReformStart (h : UnitsOk s) : OutOk (execMemReformStart s) := h.hostReg h.memReformStart
theorem OutOk.execMemReformDone (h : UnitsOk s) : OutOk (execMemReformDone s) := h.memReformDone

/-! ### Machine/Rewind.lean -/

theorem UnitsOk.journalAppend {n e full} (h : UnitsOk s) : UnitsOk (journalAppend n e full s) := by
  dsimp only [Machine.journalAppend]
  split
  · exact h
  · split
    · exact h
    · split
      · exact h.setCtx.hwSet
      · split
        · exact h
        · exact h.setCtx.writeOpen.ite h.setCtx

theorem UnitsOk.applyUndo {n a2} (h : UnitsOk s) : UnitsOk (s.applyUndo n a2) := by
  dsimp only [State.applyUndo]
  split
  · exact h.memPut.ite h.dssPut
  · exact h

theorem UnitsOk.moveCore {d l old new} (h : UnitsOk s) : UnitsOk (s.moveCore d l old new) :=
  h.updCore.updCore.same.commitWords

theorem UnitsOk.takeSpare {d l p vs tests t} (h : UnitsOk s) (ht : s.takeSpare d l p vs tests = some t) : UnitsOk t := by
  induction vs generalizing s tests with
  | nil => cases ht
  | cons v vs ih =>
    cases tests with
    | nil => cases ht
    | cons ok tests =>
      unfold State.takeSpare at ht
      split at ht
      · cases ht
        exact h.retireCore.moveCore
      · exact ih h.retireCore ht

theorem UnitsOk.restoreCtx {n cn m} (h : UnitsOk s) : UnitsOk (s.restoreCtx n cn m) := by
  dsimp only [State.restoreCtx]
  split
  · exact ((h.foldl fun h => h.applyUndo).foldl fun h => h.updCore).setCtx.updPart.updEntry.resumeRun
  · exact ((h.foldl fun h => h.applyUndo).foldl fun h => h.updCore).setCtx.updPart

theorem UnitsOk.rewind {n tests} (h : UnitsOk s) : UnitsOk (rewind n tests s) := by
  unfold Machine.rewind
  dsimp only
  refine h.ite ?_
  split
  · split
    · exact h.noSpare
    · exact h
  · next s1 hs =>
    have h1 : UnitsOk s1 := by
      split at hs
      · cases hs
        exact h
      · exact h.takeSpare hs
    split
    · exact h1
    · split
      · exact h1.same.restoreCtx
      · exact h1

theorem UnitsOk.replayEnd {r} (h : UnitsOk s) : UnitsOk (replayEnd s r) := by
  dsimp only [Machine.replayEnd]
  split
  · exact h
  · split
    · exact h.updPart
    · exact h.ite h.setCtx.updCore.updPart

theorem OutOk.execRewind {pt tests} (h : UnitsOk s) : OutOk (execRewind pt tests s) := h.rewind
theorem OutOk.execReplayEnd {pt c} (h : UnitsOk s) : OutOk (execReplayEnd pt c s) := .onCore fun _ => h.replayEnd
theorem OutOk.execJournalAppend {pt r full} (h : UnitsOk s) : OutOk (execJournalAppend pt r full s) := h.journalAppend

/-! ### Machine/Reset.lean -/

theorem UnitsOk.dropSuspect {cn} (h : UnitsOk s) : UnitsOk (s.dropSuspect cn) := h.same
theorem UnitsOk.setVerdict {v} (h : UnitsOk s) : UnitsOk (s.setVerdict v) := h.same
theorem UnitsOk.abortSuspect {x} (h : UnitsOk s) : UnitsOk (s.abortSuspect x) :=
  ((h.foldl fun h => h.killContext.withdraw).setCtx.dropSuspect.setVerdict.ite
    (h.foldl fun h => h.killContext.withdraw)).ite
    ((h.foldl fun h => h.stopForRewind).ite (h.foldl fun h => h.killContext.withdraw).dropSuspect.setVerdict)

theorem UnitsOk.contextAbort {cn} (h : UnitsOk s) : UnitsOk (contextAbort cn s) := by
  dsimp only [Machine.contextAbort]
  refine .beginStep ?_
  split
  · exact h.abortSuspect
  · exact h.foldl fun h => h.abortPart

/-- Changing the values of a map leaves its keys in their order. -/
theorem smapMap_sorted {α β : Type} {m : SMap α} (f : Nat × α → β) (h : smapSorted m = true) :
    smapSorted (m.map fun e => (e.1, f e)) = true := by
  induction m with
  | nil => rfl
  | cons e m ih =>
    obtain ⟨above, sorted⟩ := smapSorted_cons h
    refine smapSorted_of (fun x hx => ?_) (ih sorted)
    obtain ⟨y, hy, rfl⟩ := List.mem_map.1 hx
    exact above y hy

theorem UnitsOk.updAllCores {f} (h : UnitsOk s) : UnitsOk (s.updAllCores f) := by
  obtain ⟨cores, h⟩ := h
  exact ⟨smapFilter_sorted _ (smapMap_sorted _ cores), h⟩

theorem UnitsOk.abortSuspects {u} (h : UnitsOk s) : UnitsOk (s.abortSuspects u) := by
  dsimp only [State.abortSuspects]
  refine .foldl ?_ ?_
  · exact h
  · intro s _ h
    split
    · exact h
    · split
      · exact h.addSuspect.abortSuspect
      · exact h.addSuspect

theorem UnitsOk.loseEngine {u} (h : UnitsOk s) : UnitsOk (s.loseEngine u) := by
  unfold State.loseEngine
  split
  · exact h.updCore.dropRequests
  · exact (h.setEngine.foldl fun h => h.updCore).same
  · exact h.updAllCores.same
  · next p => exact h.setPort (n := p) (p := (s.port p).retrain s.now)
  · exact h

theorem UnitsOk.resetEngine {u} (h : UnitsOk s) : UnitsOk (s.resetEngine u) := h.abortSuspects.loseEngine
theorem UnitsOk.engineReset {u} (h : UnitsOk s) : UnitsOk (engineReset u s) := h.resetEngine.beginStep
theorem UnitsOk.endAllEntries (h : UnitsOk s) : UnitsOk s.endAllEntries :=
  (h.foldl fun h => h.complete).same.foldl fun h => h.writeCompletion
theorem UnitsOk.flushMaps (h : UnitsOk s) : UnitsOk s.flushMaps := (h.foldl fun h => h.crustPut).same

theorem UnitsOk.moduleCleared (h : UnitsOk s) : UnitsOk s.moduleCleared := by
  obtain ⟨cores, dies, -, -, -, -, links, bays, -, ports⟩ := h
  exact ⟨smapFilter_sorted _ (smapMap_sorted _ cores), smapFilter_sorted _ (smapMap_sorted _ dies), rfl, rfl, rfl, rfl,
    smapMap_sorted _ links, bays, rfl, ports⟩

theorem UnitsOk.startModuleReset (h : UnitsOk s) : UnitsOk s.startModuleReset :=
  h.endAllEntries.flushMaps.cutReform.moduleCleared.settleAlert.beginStep

theorem UnitsOk.requestPowerCycle (h : UnitsOk s) : UnitsOk s.requestPowerCycle := by
  have written : UnitsOk ((List.range 20).foldl State.writeCounters s) := h.foldl fun h => h.writeCounters
  exact h.ite written.same.emit

theorem UnitsOk.powerCycled (h : UnitsOk s) : UnitsOk s.powerCycled := by
  obtain ⟨cores, dies, -, -, -, -, -, bays, -, ports⟩ := h
  exact UnitsOk.settleAlert ⟨smapFilter_sorted _ (smapMap_sorted _ cores), smapFilter_sorted _ (smapMap_sorted _ dies), rfl,
    rfl, rfl, rfl, rfl, bays, rfl, smapFilter_sorted _ (smapMap_sorted _ ports)⟩

theorem UnitsOk.powerCycle (h : UnitsOk s) : UnitsOk (powerCycle s) := h.ite h.flushMaps.cutReform.powerCycled.emit

theorem UnitsOk.stepDone {u} (h : UnitsOk s) : UnitsOk (s.stepDone u) := by
  dsimp only [State.stepDone]
  split
  · exact h.updPart
  · exact h.same
  · exact h

theorem UnitsOk.dropStep {i} (h : UnitsOk s) : UnitsOk (s.dropStep i) := h.same

theorem UnitsOk.ladderStepComplete {i} (h : UnitsOk s) : UnitsOk (ladderStepComplete i s) := by
  dsimp only [Machine.ladderStepComplete]
  split
  · exact h
  · exact h.dropStep.stepDone.ladderEvent

theorem UnitsOk.escalate {u} (h : UnitsOk s) : UnitsOk (s.escalate u) := by
  dsimp only [State.escalate]
  split
  · split
    · exact h.resetEngine.beginStep
    · exact h
  · split
    · exact h.startPartReset
    · exact h
  · exact h.foldl fun h => h.startPartReset.ite h
  · exact h.requestPowerCycle
  · exact h.startModuleReset

theorem UnitsOk.ladderStepTimeout {i} (h : UnitsOk s) : UnitsOk (ladderStepTimeout i s) := by
  dsimp only [Machine.ladderStepTimeout]
  split
  · exact h
  · exact h.ite h.dropStep.ladderEvent.same.hwSet.escalate

theorem UnitsOk.partitionReset {n} (h : UnitsOk s) : UnitsOk (partitionReset n s) := h.ite h.startPartReset
theorem UnitsOk.rstReqPartition {n} (h : UnitsOk s) : UnitsOk (rstReqPartition n s) := h.same.hwSet.ite h.startPartReset

theorem UnitsOk.failUnit {u} (h : UnitsOk s) : UnitsOk (s.failUnit u) := by
  unfold State.failUnit
  split
  · exact h.coreFail
  · split
    · exact h
    · refine UnitsOk.otp (.spare (.updEngine (h.foldl fun h => ?_)))
      exact h.updEngine.ite h
  · refine UnitsOk.ite ?_ h.same.startModuleReset
    exact UnitsOk.same (.startModuleReset (.ledgerFlag h.otp))

theorem UnitsOk.guilty {x} (h : UnitsOk s) : UnitsOk (s.guilty x) :=
  ((h.foldl fun h => h.killContext.withdraw).same.ite
    (((h.foldl fun h => h.withdraw.updPart).foldl fun h => h.endRun).foldl
    fun h => h.complete).setCtx).dropSuspect.same.hwSet

theorem UnitsOk.hangVerdict {v} (h : UnitsOk s) : UnitsOk (hangVerdict v s) := by
  dsimp only [Machine.hangVerdict]
  split
  · exact h
  · split
    · exact h.dropSuspect.setVerdict.ite h.dropSuspect
    · exact h.same.failUnit.ite h.guilty

theorem UnitsOk.managementReset (h : UnitsOk s) : UnitsOk s.managementReset := h.endDebug.same
theorem UnitsOk.ovenTimerRestart (h : UnitsOk s) : UnitsOk (ovenTimerRestart s) := h.same

theorem UnitsOk.ovenTimerExpire (h : UnitsOk s) : UnitsOk (ovenTimerExpire s) := by
  dsimp only [Machine.ovenTimerExpire]
  split
  · exact h.requestPowerCycle.ite h
  · exact h.ite (h.same.event.requestPowerCycle.ite h.same.event.managementReset)

theorem UnitsOk.densify {d} (h : UnitsOk s) : UnitsOk (s.densify d) := h.commitWords.ite h
theorem UnitsOk.ptCfgWrite {n vf v} (h : UnitsOk s) : UnitsOk (ptCfgWrite n vf v s) :=
  h.ite (h.setPart.hwSet.ite (h.setPart.densify.ite h.setPart))
theorem UnitsOk.ptRstHoldWrite {n vf hold} (h : UnitsOk s) : UnitsOk (ptRstHoldWrite n vf hold s) :=
  h.ite ((h.setPart.hwSet.ite h.setPart).ite (h.setPart.ite (h.same.setPart.hwSet.hwSet.ite h.setPart.startPartReset)))
theorem OutOk.execContextAbort {ctx} (h : UnitsOk s) : OutOk (execContextAbort ctx s) := h.contextAbort
theorem OutOk.execEngineReset {e} (h : UnitsOk s) : OutOk (execEngineReset e s) := h.engineReset
theorem OutOk.execPartitionReset {pt} (h : UnitsOk s) : OutOk (execPartitionReset pt s) := h.partitionReset
theorem OutOk.execModuleReset (h : UnitsOk s) : OutOk (execModuleReset s) := h.startModuleReset
theorem OutOk.execPowerCycle (h : UnitsOk s) : OutOk (execPowerCycle s) := h.powerCycle
theorem OutOk.execLadderStepComplete {idx} (h : UnitsOk s) : OutOk (execLadderStepComplete idx s) := h.ladderStepComplete
theorem OutOk.execLadderStepTimeout {idx} (h : UnitsOk s) : OutOk (execLadderStepTimeout idx s) := h.ladderStepTimeout
theorem OutOk.execHangVerdict {v} (h : UnitsOk s) : OutOk (execHangVerdict v s) := h.hangVerdict
theorem OutOk.execRstReqPartition {pt} (h : UnitsOk s) : OutOk (execRstReqPartition pt s) := h.hostReg h.rstReqPartition
theorem OutOk.execRstReqModule (h : UnitsOk s) : OutOk (execRstReqModule s) := h.hostReg h.startModuleReset
theorem OutOk.execRstReqPowerCycle (h : UnitsOk s) : OutOk (execRstReqPowerCycle s) := h.hostReg h.requestPowerCycle
theorem OutOk.execOvenTimerRestart (h : UnitsOk s) : OutOk (execOvenTimerRestart s) := h.ovenTimerRestart
theorem OutOk.execOvenTimerExpire (h : UnitsOk s) : OutOk (execOvenTimerExpire s) := h.ovenTimerExpire
theorem OutOk.execPtCfgWrite {pt vf v} (h : UnitsOk s) : OutOk (execPtCfgWrite pt vf v s) := h.hostReg h.ptCfgWrite
theorem OutOk.execPtRstHoldWrite {pt vf hold} (h : UnitsOk s) : OutOk (execPtRstHoldWrite pt vf hold s) :=
  h.hostReg h.ptRstHoldWrite

/-! ### Machine/Dump.lean -/

theorem UnitsOk.startDump {trigger scope} (h : UnitsOk s) : UnitsOk (s.startDump trigger scope) :=
  h.ite (h.same.ite h.same.wake)

theorem UnitsOk.dumpStart {pt cycle} (h : UnitsOk s) : UnitsOk (dumpStart pt cycle s) := by
  dsimp only [Machine.dumpStart]
  split
  · exact h
  · split
    · exact h.startDump
    · exact h.startDump

theorem UnitsOk.dumpGo (h : UnitsOk s) : UnitsOk (dumpGo s) := by
  dsimp only [Machine.dumpGo]
  split
  · exact h.startDump
  · exact h

theorem UnitsOk.dumpUnitTimeout {src} (h : UnitsOk s) : UnitsOk (dumpUnitTimeout src s) := by
  dsimp only [Machine.dumpUnitTimeout]
  split
  · exact h
  · exact h.same

theorem UnitsOk.storeDump {r xs bytes} (h : UnitsOk s) : UnitsOk (s.storeDump r xs bytes) :=
  h.same.ite (h.same.foldl fun h => h.memPut)
theorem UnitsOk.copyDump {bytes} (h : UnitsOk s) : UnitsOk (s.copyDump bytes) := h.ite (h.foldl fun h => h.emit)

theorem UnitsOk.dumpEnd {xs} (h : UnitsOk s) : UnitsOk (dumpEnd xs s) := by
  dsimp only [Machine.dumpEnd]
  split
  · exact h
  · exact h.ite (h.storeDump.same.copyDump.ite h.storeDump.same).hwSet

theorem UnitsOk.dumpPortDataRead (h : UnitsOk s) : UnitsOk (dumpPortDataRead s) := h.same
theorem OutOk.execDumpStart {pt cycle} (h : UnitsOk s) : OutOk (execDumpStart pt cycle s) := h.dumpStart
theorem OutOk.execDumpGo (h : UnitsOk s) : OutOk (execDumpGo s) := h.hostReg h.dumpGo
theorem OutOk.execDumpUnitTimeout {src} (h : UnitsOk s) : OutOk (execDumpUnitTimeout src s) := h.dumpUnitTimeout
theorem OutOk.execDumpEnd {recs} (h : UnitsOk s) : OutOk (execDumpEnd recs s) := h.dumpEnd
theorem OutOk.execDumpPortDataRead (h : UnitsOk s) : OutOk (execDumpPortDataRead s) := h.dumpPortDataRead.ite h

/-! ### Machine/TimeSync.lean -/

theorem UnitsOk.delayReqSend (h : UnitsOk s) : UnitsOk (delayReqSend s) := h.ite (h.foldl fun h => h.updPort.portSend.ite h)
theorem UnitsOk.delayReq {n} (h : UnitsOk s) : UnitsOk (delayReq n s) := h.atPort (h.ite h.portSend)

theorem UnitsOk.delayRsp {n t2 t3} (h : UnitsOk s) : UnitsOk (delayRsp n t2 t3 s) := by
  dsimp only [Machine.delayRsp]
  refine .atPort ?_ ?_
  · exact h
  · split
    · exact h
    · exact h.ite h.setPort

theorem UnitsOk.moveUnits {d} (h : UnitsOk s) : UnitsOk (s.moveUnits d) := by
  obtain ⟨cores, dies, parts, h⟩ := h
  exact ⟨smapFilter_sorted _ (smapMap_sorted _ cores), smapFilter_sorted _ (smapMap_sorted _ dies), smapMap_sorted _ parts,
    h⟩

theorem UnitsOk.moveEntries {d} (h : UnitsOk s) : UnitsOk (s.moveEntries d) := by
  obtain ⟨cores, dies, parts, ctxs, loafs, models, h⟩ := h
  exact ⟨cores, dies, parts, smapMap_sorted _ ctxs, loafs, smapMap_sorted _ models, h⟩

theorem UnitsOk.moveTimers {d} (h : UnitsOk s) : UnitsOk (s.moveTimers d) := by
  obtain ⟨cores, dies, parts, ctxs, loafs, models, links, bays, fns, ports⟩ := h
  exact ⟨cores, dies, parts, ctxs, loafs, models, links, bays, fns, smapFilter_sorted _ (smapMap_sorted _ ports)⟩

theorem UnitsOk.newGrids {old} (h : UnitsOk s) : UnitsOk (s.newGrids old) := by
  obtain ⟨cores, dies, parts, h⟩ := h
  exact ⟨cores, dies, smapMap_sorted _ parts, h⟩

theorem UnitsOk.enableScanner (h : UnitsOk s) : UnitsOk s.enableScanner := h.same.ite h
theorem UnitsOk.stepTime {theta} (h : UnitsOk s) : UnitsOk (s.stepTime theta) :=
  h.flushEvents.same.moveUnits.moveEntries.moveTimers.newGrids.same.hwSet.commitEvent.enableScanner
theorem UnitsOk.syncCheck {theta} (h : UnitsOk s) : UnitsOk (s.syncCheck theta) :=
  h.ite (h.same.hwSet.event.alert.ite h.same.hwSet.event)
theorem UnitsOk.syncReceive {n ts} (h : UnitsOk s) : UnitsOk (syncReceive n ts s) :=
  h.atPort (h.ite (h.same.stepTime.setHoldover.same.ite h.same.setHoldover.syncCheck))
theorem UnitsOk.syncSend (h : UnitsOk s) : UnitsOk (syncSend s) := h.ite (h.foldl fun h => h.portSend.ite h)

theorem UnitsOk.syncTimeout (h : UnitsOk s) : UnitsOk (syncTimeout s) := by
  dsimp only [Machine.syncTimeout]
  split
  · exact h
  · exact h.ite h.updPort.same.setHoldover

theorem UnitsOk.timeSyncTimeout (h : UnitsOk s) : UnitsOk (timeSyncTimeout s) := h.ite h.same.setHoldover.elect.enableScanner
theorem OutOk.execDelayReqSend (h : UnitsOk s) : OutOk (execDelayReqSend s) := h.delayReqSend
theorem OutOk.execDelayReq {port t1} (h : UnitsOk s) : OutOk (execDelayReq port t1 s) := h.delayReq
theorem OutOk.execDelayRsp {port t2 t3} (h : UnitsOk s) : OutOk (execDelayRsp port t2 t3 s) := h.delayRsp
theorem OutOk.execSyncSend (h : UnitsOk s) : OutOk (execSyncSend s) := h.syncSend
theorem OutOk.execSync {port ts} (h : UnitsOk s) : OutOk (execSync port ts s) := h.syncReceive
theorem OutOk.execSyncTimeout (h : UnitsOk s) : OutOk (execSyncTimeout s) := h.syncTimeout
theorem OutOk.execTimeSyncTimeout (h : UnitsOk s) : OutOk (execTimeSyncTimeout s) := h.timeSyncTimeout

/-! ### Machine/Power.lean -/

theorem UnitsOk.setPwrGood {b} (h : UnitsOk s) : UnitsOk (s.setPwrGood b) := h.ite h.updPower.emit
theorem UnitsOk.sendLtr (h : UnitsOk s) : UnitsOk s.sendLtr := h.ite h.emit
theorem UnitsOk.setW {w} (h : UnitsOk s) : UnitsOk (s.setW w) := h.updPower.ite h.updPower.sendLtr

theorem UnitsOk.railsLost (h : UnitsOk s) : UnitsOk s.railsLost := by
  obtain ⟨cores, dies, parts, ctxs, loafs, models, links, bays, -, ports⟩ := h.flushMaps.cutReform.moduleCleared
  obtain ⟨-, -, -, -, -, -, -, -, fns, -⟩ := h
  exact ⟨cores, smapFilter_sorted _ (smapMap_sorted _ dies), parts, ctxs, loafs, models, links, bays, fns, ports⟩

theorem UnitsOk.enterW5 (h : UnitsOk s) : UnitsOk s.enterW5 := h.railsLost.settleAlert.setPwrGood.setW

theorem UnitsOk.darkened (h : UnitsOk s) : UnitsOk s.darkened := by
  obtain ⟨cores, dies, parts, ctxs, loafs, models, links, bays, fns, -⟩ := h.flushMaps.cutReform.powerCycled
  exact ⟨cores, dies, parts, ctxs, loafs, models, links, bays, fns, rfl⟩

/-- A pin that is let go where it is asserted. -/
theorem UnitsOk.released {c : Prop} [Decidable c] {o} (h : UnitsOk s) : UnitsOk (if c then s.emit o else s) := h.emit.ite h

theorem UnitsOk.inputUndervoltage (h : UnitsOk s) : UnitsOk (inputUndervoltage s) :=
  h.ite (UnitsOk.darkened (.released (.released (.released (.released h.setPwrGood)))))

theorem UnitsOk.powerOn {slotId} (h : UnitsOk s) : UnitsOk (powerOn slotId s) := h.ite h.updPower
theorem UnitsOk.overvoltageCutoff (h : UnitsOk s) : UnitsOk (overvoltageCutoff s) :=
  h.ite (h.updPower.ite h.updPower.enterW5).hwSet
theorem UnitsOk.overvoltageRecover (h : UnitsOk s) : UnitsOk (overvoltageRecover s) := h.ite h.updPower.wake
theorem UnitsOk.pwrEnRise {cool} (h : UnitsOk s) : UnitsOk (pwrEnRise cool s) := h.ite h.updPower.wake
theorem UnitsOk.pwrEnFall (h : UnitsOk s) : UnitsOk (pwrEnFall s) := h.ite (h.updPower.ite h.updPower.endAllEntries.enterW5)
theorem UnitsOk.mainRailsInRegulation (h : UnitsOk s) : UnitsOk (mainRailsInRegulation s) :=
  h.setPwrGood.ite (h.updPower.setPwrGood.ite h)
theorem UnitsOk.mainRailOut (h : UnitsOk s) : UnitsOk (mainRailOut s) := h.setPwrGood

theorem UnitsOk.thermalTrip {die} (h : UnitsOk s) : UnitsOk (thermalTrip die s) := by
  refine h.ite (.hwSet (.emit (.emit (.elect ?_))))
  obtain ⟨cores, dies, parts, ctxs, loafs, models, links, bays, -, -⟩ := (h.updPower (f := fun p =>
    { p with tripSeen := true, tripDie := die, tripped := true, tripPin := true })).enterW5
  exact ⟨cores, dies, parts, ctxs, loafs, models, links, bays, rfl, rfl⟩

theorem UnitsOk.thermTripRelease (h : UnitsOk s) : UnitsOk (thermTripRelease s) := h.ite h.updPower.emit
theorem UnitsOk.powerAlert {b} (h : UnitsOk s) : UnitsOk (s.powerAlert b) := h.alert.ite h
theorem UnitsOk.lowerAclk {steps} (h : UnitsOk s) : UnitsOk (s.lowerAclk steps) := h.foldl fun h => h.setDie
theorem UnitsOk.binAclk {steps limit} (h : UnitsOk s) : UnitsOk (s.binAclk steps limit) :=
  h.foldl fun h => h.setDie.ite h.setDie
theorem UnitsOk.supplyDroop {d} (h : UnitsOk s) : UnitsOk (supplyDroop d s) := h.ite (h.setDie.ite h.setDie.hwSet)
theorem UnitsOk.droopClear {d} (h : UnitsOk s) : UnitsOk (droopClear d s) := h.setDie
theorem UnitsOk.thermalStepDown {d} (h : UnitsOk s) : UnitsOk (thermalStepDown d s) :=
  h.ite h.setDie.updPower.hwSetIf.powerAlert
theorem UnitsOk.vinBelowMin {mv current steps} (h : UnitsOk s) : UnitsOk (vinBelowMin mv current steps s) :=
  h.ite (h.updPower.lowerAclk.ite h.updPower).hwSet.powerAlert
theorem UnitsOk.applyBand {force} (h : UnitsOk s) : UnitsOk (s.applyBand force) := h.ite (h.updPower.hwSet.ite h.updPower)
theorem UnitsOk.takeBand {b force} (h : UnitsOk s) : UnitsOk (s.takeBand b force) := h.hwSetIf.updPower

theorem UnitsOk.beginBin {steps} (h : UnitsOk s) : UnitsOk (s.beginBin steps) := by
  dsimp only [State.beginBin]
  refine .updPower ?_
  split
  · exact h.takeBand.binAclk.ite h.takeBand
  · exact h.binAclk.ite h

theorem UnitsOk.powerBinEnd {draw ballast steps} (h : UnitsOk s) : UnitsOk (powerBinEnd draw ballast steps s) :=
  h.ite (h.updPower.hwSet.powerAlert.updPower.ite h.updPower.hwSet.powerAlert.beginBin)
theorem UnitsOk.forecastPublish {bins} (h : UnitsOk s) : UnitsOk (forecastPublish bins s) :=
  h.ite (h.updPower.emit.ite h.updPower)
theorem UnitsOk.saveDss (h : UnitsOk s) : UnitsOk s.saveDss := h.same.foldl fun h => h.foldl fun h => h.memWrite
theorem UnitsOk.loadDss (h : UnitsOk s) : UnitsOk s.loadDss := h.foldl fun h => h.setDie

theorem UnitsOk.enterW3 (h : UnitsOk s) : UnitsOk s.enterW3 := by
  unfold State.enterW3
  dsimp only
  generalize hs1 : (List.foldl _ s _).saveDss = s1
  have h1 : UnitsOk s1 := hs1 ▸ (UnitsOk.foldl h fun h => h.switchOut).saveDss
  obtain ⟨cores, dies, h1⟩ := h1
  exact ⟨smapFilter_sorted _ (smapMap_sorted _ cores), smapFilter_sorted _ (smapMap_sorted _ dies), h1⟩

theorem UnitsOk.wStateEnter (h : UnitsOk s) : UnitsOk (wStateEnter s) := by
  dsimp only [Machine.wStateEnter]
  split
  · exact h
  · split
    · exact h
    · exact h.ite (h.enterW5.ite ((h.updAllCores.ite h).enterW3.ite (h.updAllCores.ite h)).setW)

theorem UnitsOk.leaveW3 (h : UnitsOk s) : UnitsOk s.leaveW3 := (h.loadDss.same.foldl fun h => h.ite h.switchTo).same
theorem UnitsOk.leaveW5 (h : UnitsOk s) : UnitsOk s.leaveW5 := h.same.settleAlert

theorem UnitsOk.wStateExitDone (h : UnitsOk s) : UnitsOk (wStateExitDone s) := by
  dsimp only [Machine.wStateExitDone]
  split
  · exact h
  · split
    · exact h.leaveW5.setW.enableScanner.ite h
    · exact h.leaveW3.setW
    · exact h.leaveW3.setW
    · exact h.setW

theorem UnitsOk.pwrWakeTolWrite {v} (h : UnitsOk s) : UnitsOk (pwrWakeTolWrite v s) := h.ite (h.updPower.wake.ite h.updPower)
theorem UnitsOk.laserBayOpen {e} (h : UnitsOk s) : UnitsOk (laserBayOpen e s) :=
  h.ite (h.setBay.foldl fun h => h.atPort h.linkLoss)
theorem UnitsOk.laserSourceInsert {e spares} (h : UnitsOk s) : UnitsOk (laserSourceInsert e spares s) := h.ite h.setBay

theorem UnitsOk.laserFail {e l} (h : UnitsOk s) : UnitsOk (laserFail e l s) := by
  dsimp only [Machine.laserFail]
  split
  · exact h
  · split
    · exact h
    · split
      · exact (h.foldl fun h => h.laneRetire).setBay.spare.otp.commitWords
      · exact (h.foldl fun h => h.laneRetire).setBay.spare.otp

theorem UnitsOk.dieLinkRetry {src} (h : UnitsOk s) : UnitsOk (dieLinkRetry src s) := h.ite h.updLink.countLinks.eventAgg
theorem UnitsOk.dieLinkLaneRepair {src} (h : UnitsOk s) : UnitsOk (dieLinkLaneRepair src s) :=
  h.ite h.updLink.countLinks.spare
theorem UnitsOk.dieOut {d} (h : UnitsOk s) : UnitsOk (s.dieOut d) :=
  h.setDie.foldl fun h => h.ite h.endBound.startPartReset.updPart
theorem UnitsOk.portsOff {first n} (h : UnitsOk s) : UnitsOk (s.portsOff first n) :=
  h.foldl fun h => h.atPort h.linkLoss.updPort
theorem UnitsOk.linkGone {src peer} (h : UnitsOk s) : UnitsOk (s.linkGone src peer) :=
  h.dieOut.ite (h.dieOut.ite (h.startModuleReset.ite (h.portsOff.ite h.portsOff)))

theorem UnitsOk.dieLinkLost {src} (h : UnitsOk s) : UnitsOk (dieLinkLost src s) := by
  dsimp only [Machine.dieLinkLost]
  split
  · exact h
  · exact h.updLink.spare.updLink.spare.linkGone

theorem OutOk.execPowerOn {slotId} (h : UnitsOk s) : OutOk (execPowerOn slotId s) := h.powerOn
theorem OutOk.execInputUndervoltage (h : UnitsOk s) : OutOk (execInputUndervoltage s) := h.inputUndervoltage
theorem OutOk.execOvervoltageCutoff (h : UnitsOk s) : OutOk (execOvervoltageCutoff s) := h.overvoltageCutoff
theorem OutOk.execOvervoltageRecover (h : UnitsOk s) : OutOk (execOvervoltageRecover s) := h.overvoltageRecover
theorem OutOk.execPwrEnRise {cool} (h : UnitsOk s) : OutOk (execPwrEnRise cool s) := h.pwrEnRise
theorem OutOk.execPwrEnFall (h : UnitsOk s) : OutOk (execPwrEnFall s) := h.pwrEnFall
theorem OutOk.execMainRailsInRegulation (h : UnitsOk s) : OutOk (execMainRailsInRegulation s) := h.mainRailsInRegulation
theorem OutOk.execMainRailOutOfRegulation (h : UnitsOk s) : OutOk (execMainRailOutOfRegulation s) := h.mainRailOut
theorem OutOk.execThermalTrip {die} (h : UnitsOk s) : OutOk (execThermalTrip die s) := h.thermalTrip
theorem OutOk.execThermTripNRelease (h : UnitsOk s) : OutOk (execThermTripNRelease s) := h.thermTripRelease
theorem OutOk.execLaserBayOpen {bay} (h : UnitsOk s) : OutOk (execLaserBayOpen bay s) := h.laserBayOpen
theorem OutOk.execLaserSourceInsert {bay spares} (h : UnitsOk s) : OutOk (execLaserSourceInsert bay spares s) :=
  h.laserSourceInsert
theorem OutOk.execLaserFail {bay laser} (h : UnitsOk s) : OutOk (execLaserFail bay laser s) := h.laserFail
theorem OutOk.execSupplyDroop {die} (h : UnitsOk s) : OutOk (execSupplyDroop die s) := h.supplyDroop
theorem OutOk.execDroopClear {die} (h : UnitsOk s) : OutOk (execDroopClear die s) := h.droopClear
theorem OutOk.execThermalStepDown {die} (h : UnitsOk s) : OutOk (execThermalStepDown die s) := h.thermalStepDown
theorem OutOk.execVinBelowMin {mv current steps} (h : UnitsOk s) : OutOk (execVinBelowMin mv current steps s) :=
  h.vinBelowMin
theorem OutOk.execDieLinkRetry {src} (h : UnitsOk s) : OutOk (execDieLinkRetry src s) := h.dieLinkRetry
theorem OutOk.execDieLinkLaneRepair {src} (h : UnitsOk s) : OutOk (execDieLinkLaneRepair src s) := h.dieLinkLaneRepair
theorem OutOk.execDieLinkRetrainTimeout {src} (h : UnitsOk s) : OutOk (execDieLinkRetrainTimeout src s) := h.dieLinkLost
theorem OutOk.execPowerBinEnd {draw ballast steps} (h : UnitsOk s) : OutOk (execPowerBinEnd draw ballast steps s) :=
  h.powerBinEnd
theorem OutOk.execPwrBandApply (h : UnitsOk s) : OutOk (execPwrBandApply s) := h.applyBand.ite h
theorem OutOk.execPwrBandForce (h : UnitsOk s) : OutOk (execPwrBandForce s) := h.applyBand.ite h
theorem OutOk.execForecastPublish {bins} (h : UnitsOk s) : OutOk (execForecastPublish bins s) := h.forecastPublish
theorem OutOk.execWStateEnter (h : UnitsOk s) : OutOk (execWStateEnter s) := h.wStateEnter
theorem OutOk.execPwrCtrlWake (h : UnitsOk s) : OutOk (execPwrCtrlWake s) := h.hostReg h.wake
theorem OutOk.execPwrWakeTolWrite {v} (h : UnitsOk s) : OutOk (execPwrWakeTolWrite v s) := h.hostReg h.pwrWakeTolWrite
theorem OutOk.execWakeEvent (h : UnitsOk s) : OutOk (execWakeEvent s) := h.wake
theorem OutOk.execWStateExitDone (h : UnitsOk s) : OutOk (execWStateExitDone s) := h.wStateExitDone

/-! ### Machine/HostLink.lean -/

theorem UnitsOk.updHost {f} (h : UnitsOk s) (hf : (f s.host).fns = s.host.fns := by with_reducible rfl) :
    UnitsOk (s.updHost f) :=
  h.same (fns := hf)

theorem UnitsOk.aer {fn e} (h : UnitsOk s) : UnitsOk (s.aer fn e) := h.updHost

theorem UnitsOk.failRead {r e} (h : UnitsOk s) : UnitsOk (s.failRead r e) := by
  dsimp only [State.failRead]
  split
  · exact h.updHost.aer.bringData
  · exact h.updHost.aer

theorem UnitsOk.failReads {e} (h : UnitsOk s) : UnitsOk (s.failReads e) := h.foldl fun h => h.failRead

theorem UnitsOk.hostCompletion {tag c} (h : UnitsOk s) : UnitsOk (hostCompletion tag c s) := by
  dsimp only [Machine.hostCompletion]
  split
  · exact h
  · split
    · exact h.failRead
    · exact h.failRead
    · split
      · exact h
      · split
        · exact (h.updHost.aer.ite h.updHost).bringData
        · exact h.updHost.aer.ite h.updHost

theorem UnitsOk.pcieCplTimeout {tag} (h : UnitsOk s) : UnitsOk (pcieCplTimeout tag s) := by
  dsimp only [Machine.pcieCplTimeout]
  split
  · exact h
  · exact h.ite h.failRead

theorem UnitsOk.pcieTrainRetry {lanes} (h : UnitsOk s) : UnitsOk (pcieTrainRetry lanes s) := h.ite h.event
theorem UnitsOk.pcieLinkUp {gen width flit} (h : UnitsOk s) : UnitsOk (pcieLinkUp gen width flit s) := h.ite h.updHost
theorem UnitsOk.pcieLinkDown (h : UnitsOk s) : UnitsOk (pcieLinkDown s) := h.ite (h.failReads.updHost rfl).aer
theorem UnitsOk.pcieReplay (h : UnitsOk s) : UnitsOk (pcieReplay s) := h.ite h.updHost.aer
theorem UnitsOk.l0pRequest {reduced} (h : UnitsOk s) : UnitsOk (l0pRequest reduced s) := h.ite h.updHost
theorem UnitsOk.releaseWake (h : UnitsOk s) : UnitsOk s.releaseWake := h.updPower.emit.ite h

theorem UnitsOk.resumeHost (h : UnitsOk s) : UnitsOk s.resumeHost := by
  refine h.ite ?_
  obtain ⟨cores, dies, parts, h⟩ := h
  exact ⟨cores, dies, smapMap_sorted _ parts, h⟩

theorem UnitsOk.updFns {f} (h : UnitsOk s) (hf : smapSorted (f s.host).fns = true) : UnitsOk (s.updHost f) := by
  obtain ⟨cores, dies, parts, ctxs, loafs, models, links, bays, -, ports⟩ := h
  exact ⟨cores, dies, parts, ctxs, loafs, models, links, bays, hf, ports⟩

theorem UnitsOk.pcieConfigWrite {fn c} (h : UnitsOk s) : UnitsOk (pcieConfigWrite fn c s) := by
  refine h.ite ?_
  cases c with
  | bme b => exact h.setFn.resumeHost.releaseWake.ite h.setFn
  | mse b => exact h.setFn
  | msixEnable b => exact h.setFn
  | d3hot b => exact h.setFn.releaseWake
  | vfEnable b =>
    refine h.ite (h.updFns ?_)
    obtain ⟨-, -, -, -, -, -, -, -, fns, -⟩ := h
    dsimp only
    split
    · exact fns
    · exact smapFilter_sorted _ fns
  | barSize n => exact h.updHost.ite h
  | maxPayload n => exact h.updHost.ite h
  | relaxed b => exact h.updHost.ite h
  | vfBarSize n => exact h.updHost.ite h

theorem UnitsOk.perstAssert (h : UnitsOk s) : UnitsOk (perstAssert s) := h.ite (h.failReads.updFns rfl)
theorem UnitsOk.perstDeassert (h : UnitsOk s) : UnitsOk (perstDeassert s) := h.ite h.updHost.same
theorem UnitsOk.vfFlr {vf} (h : UnitsOk s) : UnitsOk (vfFlr vf s) := h.ite h.setFn.partitionReset
theorem UnitsOk.pfFlr (h : UnitsOk s) : UnitsOk (pfFlr s) := h.ite (h.updFns rfl).same
theorem UnitsOk.bar2Read {fn off len} (h : UnitsOk s) : UnitsOk (bar2Read fn off len s) :=
  h.ite ((h.wake.ite h).same.ite (h.wake.ite h).aer.same)

theorem UnitsOk.bar2Write {fn off bytes poisoned} (h : UnitsOk s) : UnitsOk (bar2Write fn off bytes poisoned s) := by
  have h0 := (h.aer (fn := fn) (e := .poisoned)).ite (c := poisoned = true) h
  have h1 := h0.wake.ite (c := s.power.st = .w4) h0
  exact h.ite (h1.memWrite.ite h1.aer)

theorem UnitsOk.msixDeliverable {fn v} (h : UnitsOk s) : UnitsOk (msixDeliverable fn v s) := h.ite h.setFn.emit
theorem UnitsOk.doeAbort (h : UnitsOk s) : UnitsOk (doeAbort s) := h.ite h.updHost
theorem OutOk.execPerstNAssert (h : UnitsOk s) : OutOk (execPerstNAssert s) := h.perstAssert
theorem OutOk.execPerstNDeassert (h : UnitsOk s) : OutOk (execPerstNDeassert s) := h.perstDeassert
theorem OutOk.execPcieTrainRetry {lanes} (h : UnitsOk s) : OutOk (execPcieTrainRetry lanes s) := h.pcieTrainRetry
theorem OutOk.execPcieLinkUp {gen width flit} (h : UnitsOk s) : OutOk (execPcieLinkUp gen width flit s) := h.pcieLinkUp
theorem OutOk.execPcieLinkDown (h : UnitsOk s) : OutOk (execPcieLinkDown s) := h.pcieLinkDown
theorem OutOk.execPcieReplay (h : UnitsOk s) : OutOk (execPcieReplay s) := h.pcieReplay
theorem OutOk.execPcieConfigWrite {fn c} (h : UnitsOk s) : OutOk (execPcieConfigWrite fn c s) := h.pcieConfigWrite
theorem OutOk.execL0pRequest {reduced} (h : UnitsOk s) : OutOk (execL0pRequest reduced s) := h.l0pRequest
theorem OutOk.execVfFlr {vf} (h : UnitsOk s) : OutOk (execVfFlr vf s) := h.vfFlr
theorem OutOk.execPfFlr (h : UnitsOk s) : OutOk (execPfFlr s) := h.pfFlr
theorem OutOk.execBar2Read {fn off len} (h : UnitsOk s) : OutOk (execBar2Read fn off len s) := h.bar2Read
theorem OutOk.execBar2Write {fn off bytes poisoned} (h : UnitsOk s) : OutOk (execBar2Write fn off bytes poisoned s) :=
  h.bar2Write
theorem OutOk.execHostCompletionReceive {tag r} (h : UnitsOk s) : OutOk (execHostCompletionReceive tag r s) :=
  h.hostCompletion
theorem OutOk.execPcieCplTimeout {tag} (h : UnitsOk s) : OutOk (execPcieCplTimeout tag s) := h.pcieCplTimeout
theorem OutOk.execMsixDeliverable {fn v} (h : UnitsOk s) : OutOk (execMsixDeliverable fn v s) := h.msixDeliverable
theorem OutOk.execDoeAbort (h : UnitsOk s) : OutOk (execDoeAbort s) := h.doeAbort

/-! ### Machine/LedgerScan.lean -/

theorem UnitsOk.otpGroups (h : UnitsOk s) : UnitsOk s.otpGroups := h.foldl fun h => h.ite h.same
theorem UnitsOk.showGroups (h : UnitsOk s) : UnitsOk s.showGroups := h.foldl fun h => h.same

theorem UnitsOk.rebuildMaps (h : UnitsOk s) : UnitsOk s.rebuildMaps := by
  unfold State.rebuildMaps
  dsimp only
  generalize hs1 : List.foldl _ s s.bootOffsets = s1
  have h1 : UnitsOk s1 := hs1 ▸ UnitsOk.foldl h fun h => h.crustPut
  exact h1.otpGroups.ite h1.otpGroups.showGroups

theorem UnitsOk.noteInconsistent {e} (h : UnitsOk s) : UnitsOk (s.noteInconsistent e) := h.same.ledgerFlag.event
theorem UnitsOk.largerCounts {m} (h : UnitsOk s) : UnitsOk (s.largerCounts m) := h.foldl fun h => h.ite h.setDie
theorem UnitsOk.readLedger (h : UnitsOk s) : UnitsOk s.readLedger :=
  h.same.rebuildMaps.largerCounts.foldl fun h => h.noteInconsistent
theorem UnitsOk.ledgerBoot (h : UnitsOk s) : UnitsOk s.ledgerBoot := h.ite h.readLedger

/-! ### Machine/Security.lean -/

theorem UnitsOk.updSec {f} (h : UnitsOk s) : UnitsOk (s.updSec f) := h.same
theorem UnitsOk.mbxEnd {cmd e} (h : UnitsOk s) : UnitsOk (s.mbxEnd cmd e) := h.updSec.hwSet

theorem UnitsOk.startImage {rd} (h : UnitsOk s) : UnitsOk (s.startImage rd) := by
  unfold State.startImage
  have loaded {f l} : UnitsOk { (s.ledgerBoot.draw 24).2.updSec f with ladder := l } := h.ledgerBoot.draw.updSec.same
  exact (loaded.wake.ite loaded).enableScanner

theorem UnitsOk.runRom (h : UnitsOk s) : UnitsOk s.runRom.1 := by
  unfold State.runRom
  dsimp only
  split
  · exact h.startImage
  · exact h.updSec

theorem UnitsOk.starterRomBoot (h : UnitsOk s) : UnitsOk (starterRomBoot s) := h.ite h.runRom

theorem UnitsOk.mailbox {cmd} {f : State → State} (h : UnitsOk s) (hf : UnitsOk (f s)) : UnitsOk (s.mailbox cmd f) :=
  h.ite (hf.ite h.mbxEnd)

theorem UnitsOk.recovery {cmd} {f : State → State} (h : UnitsOk s) (hf : UnitsOk (f s)) : UnitsOk (s.recovery cmd f) :=
  h.ite (hf.ite h.mbxEnd)

theorem UnitsOk.flashWrite {a bs} (h : UnitsOk s) : UnitsOk (s.flashWrite a bs) := h.updSec
theorem UnitsOk.fwUpdate (h : UnitsOk s) : UnitsOk (fwUpdate s) :=
  h.mailbox (h.mbxEnd.ite (h.mbxEnd.ite h.flashWrite.mbxEnd))
theorem UnitsOk.recoveryChunk (h : UnitsOk s) : UnitsOk (recoveryChunk s) := h.recovery (h.mbxEnd.ite h.flashWrite.mbxEnd)
theorem UnitsOk.recoveryDone (h : UnitsOk s) : UnitsOk (recoveryDone s) := h.recovery h.runRom.mbxEnd
theorem UnitsOk.pubWrite {cmd slot set} (h : UnitsOk s) : UnitsOk (s.pubWrite cmd slot set) :=
  h.mailbox (h.updSec.mbxEnd.ite (h.updSec.mbxEnd.ite h.updSec.updSec.mbxEnd))

theorem UnitsOk.dbgNonce (h : UnitsOk s) : UnitsOk (dbgNonce s) := by
  dsimp only [Machine.dbgNonce]
  exact h.mailbox h.draw.updSec.mbxEnd

theorem UnitsOk.dbgUnlock (h : UnitsOk s) : UnitsOk (dbgUnlock s) := h.mailbox (h.updSec.mbxEnd.ite h.updSec.updSec.mbxEnd)
theorem UnitsOk.svnCommit (h : UnitsOk s) : UnitsOk (svnCommit s) := h.ite h.same
theorem UnitsOk.pubLock (h : UnitsOk s) : UnitsOk (pubLock s) := h.ite h.updSec
theorem UnitsOk.fwActivate (h : UnitsOk s) : UnitsOk (fwActivate s) := h.ite h.managementReset
theorem UnitsOk.dbgRelock (h : UnitsOk s) : UnitsOk (dbgRelock s) := h.ite h.endDebug
theorem OutOk.execStarterRomBoot (h : UnitsOk s) : OutOk (execStarterRomBoot s) := h.starterRomBoot
theorem OutOk.execFwUpdate (h : UnitsOk s) : OutOk (execFwUpdate s) := h.hostReg h.fwUpdate
theorem OutOk.execRecoveryChunk (h : UnitsOk s) : OutOk (execRecoveryChunk s) := h.hostReg h.recoveryChunk
theorem OutOk.execRecoveryDone (h : UnitsOk s) : OutOk (execRecoveryDone s) := h.hostReg h.recoveryDone
theorem OutOk.execPubSet {slot} (h : UnitsOk s) : OutOk (execPubSet slot s) := h.hostReg h.pubWrite
theorem OutOk.execPubClear {slot} (h : UnitsOk s) : OutOk (execPubClear slot s) := h.hostReg h.pubWrite
theorem OutOk.execDbgNonce (h : UnitsOk s) : OutOk (execDbgNonce s) := h.hostReg h.dbgNonce
theorem OutOk.execDbgUnlock (h : UnitsOk s) : OutOk (execDbgUnlock s) := h.hostReg h.dbgUnlock
theorem OutOk.execSvnCommit (h : UnitsOk s) : OutOk (execSvnCommit s) := h.hostReg h.svnCommit
theorem OutOk.execPubLock (h : UnitsOk s) : OutOk (execPubLock s) := h.hostReg h.pubLock
theorem OutOk.execFwActivate (h : UnitsOk s) : OutOk (execFwActivate s) := h.hostReg h.fwActivate
theorem OutOk.execDbgRelock (h : UnitsOk s) : OutOk (execDbgRelock s) := h.hostReg h.dbgRelock

/-! ### Machine/Attest.lean -/

theorem UnitsOk.doeAnswer {code body} (h : UnitsOk s) : UnitsOk (s.doeAnswer code body) := h.updHost.emit

theorem UnitsOk.spdmRequest {code body} (h : UnitsOk s) : UnitsOk (spdmRequest code body s) := by
  dsimp only [Machine.spdmRequest]
  split
  · exact h
  · split
    · exact h.doeAnswer
    · split
      · exact h.doeAnswer
      · exact (h.updSec.ite (h.updSec.ite h)).doeAnswer

theorem UnitsOk.spdmVendorReport {nonce} (h : UnitsOk s) : UnitsOk (spdmVendorReport nonce s) :=
  h.ite (h.doeAnswer.ite h.doeAnswer)
theorem OutOk.execSpdmRequest {code body} (h : UnitsOk s) : OutOk (execSpdmRequest code body s) := h.spdmRequest
theorem OutOk.execSpdmVendorReport {nonce} (h : UnitsOk s) : OutOk (execSpdmVendorReport nonce s) := h.spdmVendorReport

/-! ### Machine/RegWrite.lean -/

theorem UnitsOk.writeBar2Off {hi v} (h : UnitsOk s) : UnitsOk (writeBar2Off hi v s) := h.updHost.ite h
theorem UnitsOk.writeVfWindow {o v} (h : UnitsOk s) : UnitsOk (writeVfWindow o v s) := h.ite (h.updHost.ite h.updHost)

theorem UnitsOk.writeIdentity {o v} (h : UnitsOk s) : UnitsOk (writeIdentity o v s) := by
  dsimp only [Machine.writeIdentity]
  split
  · exact h.writeVfWindow
  · split
    · exact h.same
    · exact h.updHost
    · exact h.updHost
    · exact h.updHost
    · exact h.writeBar2Off
    · exact h.writeBar2Off
    · exact h.updHost
    · exact h

theorem UnitsOk.writePwrCtrl {v} (h : UnitsOk s) : UnitsOk (writePwrCtrl v s) := h.updPower.wake.ite h.updPower

theorem UnitsOk.writeBand {o v} (h : UnitsOk s) : UnitsOk (writeBand o v s) := by
  dsimp only [Machine.writeBand]
  split
  · exact h.updPower
  · exact h.updPower
  · exact h.updPower
  · exact h.updPower
  · exact h.applyBand.ite h
  · exact h

theorem UnitsOk.writePwrStat {v} (h : UnitsOk s) : UnitsOk (writePwrStat v s) := h.updPower

theorem UnitsOk.writePower {o v} (h : UnitsOk s) : UnitsOk (writePower o v s) := by
  dsimp only [Machine.writePower]
  split
  · exact h.setDie
  · split
    · exact h.pwrWakeTolWrite
    · exact h.writePwrCtrl
    · exact h.updPower
    · exact h.updPower
    · exact h.updPower
    · exact h.writePwrStat
    · exact h.updPower
    · exact h.updPower
    · exact h

theorem UnitsOk.updTime {f} (h : UnitsOk s) : UnitsOk (s.updTime f) := h.same
theorem UnitsOk.updLog {f} (h : UnitsOk s) : UnitsOk (s.updLog f) := h.same

theorem UnitsOk.writeGtb {i3c o v} (h : UnitsOk s) : UnitsOk (writeGtb i3c o v s) := by
  dsimp only [Machine.writeGtb]
  split
  · exact h.updTime
  · exact h.updTime.ite h.updTime.elect
  · exact h.evtPortSeqWrite
  · exact h.updLog
  · exact h.updLog
  · exact h.updLog
  · exact h.updLog
  · exact h

theorem UnitsOk.updLadder {f} (h : UnitsOk s) : UnitsOk (s.updLadder f) := h.same

theorem UnitsOk.writeRstReq {v} (h : UnitsOk s) : UnitsOk (writeRstReq v s) := by
  dsimp only [Machine.writeRstReq]
  split
  · exact h
  · split
    · exact h.rstReqPartition
    · exact h.startModuleReset
    · exact h.requestPowerCycle
    · exact h.updLadder.hwSet

theorem UnitsOk.writeDumpCtrl {v} (h : UnitsOk s) : UnitsOk (writeDumpCtrl v s) := h.updLadder.dumpGo.ite h.updLadder

theorem UnitsOk.writeLadder {o v} (h : UnitsOk s) : UnitsOk (writeLadder o v s) := by
  dsimp only [Machine.writeLadder]
  split
  · exact h.writeRstReq
  · exact h.updLadder
  · exact h.updLadder
  · exact h.updLadder
  · exact h.updLadder
  · exact h.updLadder
  · exact h.writeDumpCtrl
  · exact h.updLadder
  · exact h.updLadder
  · exact h.updLadder
  · exact h.updLadder
  · exact h

theorem UnitsOk.writeSecCtrl {v} (h : UnitsOk s) : UnitsOk (writeSecCtrl v s) := by
  have h1 := h.svnCommit.ite (c := v.getLsbD 0 = true) h
  have h2 := h1.pubLock.ite (c := v.getLsbD 1 = true) h1
  have h3 := h2.fwActivate.ite (c := v.getLsbD 2 = true) h2
  exact h3.dbgRelock.ite h3

theorem UnitsOk.mailboxGo (h : UnitsOk s) : UnitsOk (mailboxGo s) := by
  dsimp only [Machine.mailboxGo]
  split
  · exact h.fwUpdate
  · exact h.recoveryChunk
  · exact h.recoveryDone
  · exact h.pubWrite
  · exact h.pubWrite
  · exact h.dbgNonce
  · exact h.dbgUnlock
  · exact h.draw.mbxEnd

theorem UnitsOk.writeMbxCmd {v} (h : UnitsOk s) : UnitsOk (writeMbxCmd v s) := h.ite (h.updSec.mailboxGo.ite h.updSec)

theorem UnitsOk.writeSec {o v} (h : UnitsOk s) : UnitsOk (writeSec o v s) := by
  dsimp only [Machine.writeSec]
  split
  · exact h.updSec
  · split
    · exact h.writeSecCtrl
    · exact h.writeMbxCmd
    · exact h.updSec
    · exact h.updSec
    · exact h.updSec
    · exact h.updSec
    · exact h

theorem UnitsOk.writePtRst {n vf v} (h : UnitsOk s) : UnitsOk (writePtRst n vf v s) := h.ite h.updPart.ptRstHoldWrite

theorem UnitsOk.writePart {n vf o v} (h : UnitsOk s) : UnitsOk (writePart n vf o v s) := by
  dsimp only [Machine.writePart]
  split
  · exact h.writePtRst
  · exact h.ptCfgWrite
  · exact h.updPart
  · exact h.updPart

theorem UnitsOk.updMem {f} (h : UnitsOk s) : UnitsOk (s.updMem f) := h.same

theorem UnitsOk.writeMem {o v} (h : UnitsOk s) : UnitsOk (writeMem o v s) := by
  dsimp only [Machine.writeMem]
  split
  · exact h.updMem.ite h
  · split
    · exact h.memReformStart.ite h
    · exact h.updMem
    · exact h.updMem
    · exact h.updMem
    · exact h.memChanFail
    · exact h.updMem
    · exact h.updMem
    · exact h.updMem.ite h
    · exact h

theorem UnitsOk.updFab {f} (h : UnitsOk s) (hf : (f s.fab).ports = s.fab.ports := by with_reducible rfl) :
    UnitsOk (s.updFab f) :=
  h.same (ports := hf)

theorem UnitsOk.writePortCtrl {n v} (h : UnitsOk s) : UnitsOk (writePortCtrl n v s) := by
  unfold Machine.writePortCtrl
  dsimp only
  generalize hs2 : (if (!v.getLsbD 0) = true then (_ : State) else _) = s2
  have h2 : UnitsOk s2 := hs2 ▸ (h.setPort.hello.linkLoss.ite h.setPort.updPort).ite (h.setPort.updPort.ite h.setPort)
  exact h2.ite h2.elect

theorem UnitsOk.writePort {kind n v} (h : UnitsOk s) : UnitsOk (writePort kind n v s) := by
  dsimp only [Machine.writePort]
  split
  · exact h.writePortCtrl
  · exact h.updPort
  · exact h.updPort
  · exact h

theorem UnitsOk.writeFab {o v} (h : UnitsOk s) : UnitsOk (writeFab o v s) := by
  dsimp only [Machine.writeFab]
  split
  · exact h.writePort.ite h
  · split
    · exact h.updFab
    · split
      · exact h.updFab
      · split
        · exact h.fabNodeIdWrite
        · exact h.updFab
        · exact h.updFab
        · exact h.updFab
        · exact h.fabRtDataWrite
        · exact h.updFab
        · exact h.updFab
        · exact h.updFab
        · exact h.updFab
        · exact h.fabOpGo
        · exact h.updFab
        · exact h

theorem UnitsOk.writeColl {o v} (h : UnitsOk s) : UnitsOk (writeColl o v s) := by
  dsimp only [Machine.writeColl]
  split
  · exact h.updFab
  · exact h.collGroupEntryWrite
  · exact h.collGroupEntryWrite
  · exact h.collGroupEntryWrite
  · exact h.updFab
  · exact h.updFab
  · exact h

theorem UnitsOk.updLedger {f} (h : UnitsOk s) : UnitsOk (s.updLedger f) := h.same
theorem UnitsOk.updTele {f} (h : UnitsOk s) : UnitsOk (s.updTele f) := h.same
theorem UnitsOk.emptyCrumbLog (h : UnitsOk s) : UnitsOk s.emptyCrumbLog := h.same
theorem UnitsOk.writeCrumbCtrl {v} (h : UnitsOk s) : UnitsOk (writeCrumbCtrl v s) := h.same.emptyCrumbLog.ite h.same
theorem UnitsOk.writeWinSel {i3c v} (h : UnitsOk s) : UnitsOk (writeWinSel i3c v s) := h.updLog.ite h.updLog

theorem UnitsOk.writeHealth {i3c o v} (h : UnitsOk s) : UnitsOk (writeHealth i3c o v s) := by
  dsimp only [Machine.writeHealth]
  split
  · exact h.updTele
  · split
    · exact h.updLedger
    · exact h.updLedger
    · exact h.updLedger
    · exact h.writeWinSel
    · exact h.updTele
    · exact h.updTele
    · exact h.updTele
    · exact h.updTele
    · exact h.writeCrumbCtrl
    · exact h.same
    · exact h.updTele
    · exact h

theorem UnitsOk.writeCrust {o v} (h : UnitsOk s) : UnitsOk (writeCrust o v s) := h.same.ite h
theorem UnitsOk.updBs {f} (h : UnitsOk s) : UnitsOk (s.updBs f) := h.same
theorem UnitsOk.updBsOff {f} (h : UnitsOk s) : UnitsOk (s.updBsOff f) := h.ite h.updBs

theorem UnitsOk.writeCtx {o v} (h : UnitsOk s) : UnitsOk (writeCtx o v s) := by
  dsimp only [Machine.writeCtx]
  split
  · exact h.ctxCfgWrite
  · exact h.setCtx
  · exact h.setCtx
  · exact h.setCtx
  · exact h.setCtx
  · exact h.setCtx
  · exact h.setCtx
  · exact h.setCtx
  · exact h.setCtx
  · exact h.setCtx
  · exact h

theorem UnitsOk.writeLoaf {o v} (h : UnitsOk s) : UnitsOk (writeLoaf o v s) := by
  dsimp only [Machine.writeLoaf]
  split
  · exact h.setLoaf
  · exact h.setLoaf
  · exact (h.loafLoad.ite h).loafUnload.ite (h.loafLoad.ite h)
  · exact h

theorem UnitsOk.writeGenCtrl {v} (h : UnitsOk s) : UnitsOk (writeGenCtrl v s) := by
  have h1 := h.genLoad.ite (c := v.getLsbD 0 = true) h
  have h2 := h1.genActivate.ite (c := v.getLsbD 1 = true) h1
  have h3 := h2.genClose.ite (c := v.getLsbD 2 = true) h2
  exact h3.genCancel.ite h3

theorem UnitsOk.writeGen {o v} (h : UnitsOk s) : UnitsOk (writeGen o v s) := by
  dsimp only [Machine.writeGen]
  split
  · exact h.setModel
  · exact h.setModel
  · exact h.setModel
  · exact h.setModel
  · exact h.setModel
  · exact h.writeGenCtrl
  · exact h

theorem UnitsOk.writeBatch {o v} (h : UnitsOk s) : UnitsOk (writeBatch o v s) := by
  dsimp only [Machine.writeBatch]
  split
  · exact h.updBs.ite h
  · split
    · exact h.writeCtx
    · split
      · exact h.writeLoaf
      · split
        · exact h.writeGen
        · split
          · exact h.updBsOff
          · exact h.updBsOff
          · exact h.bsCfgWrite
          · exact h.updBs
          · exact h.updBsOff
          · exact h.updBsOff
          · exact h.updBsOff
          · exact h.updBs
          · exact h.bsAbort.ite h
          · exact h.updBs
          · exact h.updBs
          · exact h.updBsOff
          · exact h.updBsOff
          · exact h.updBs
          · exact h.updBs
          · exact h.updBs
          · exact h

theorem UnitsOk.writeTable {fn o v} (h : UnitsOk s) : UnitsOk (writeTable fn o v s) := h.setFn
theorem UnitsOk.dbgHaltGo {n} (h : UnitsOk s) : UnitsOk (dbgHaltGo n s) := h.updPart.ite h
theorem UnitsOk.dbgResumeGo {n} (h : UnitsOk s) : UnitsOk (dbgResumeGo n s) := h.resumeDebug.ite h
theorem UnitsOk.writeDbgHalt {v} (h : UnitsOk s) : UnitsOk (writeDbgHalt v s) :=
  h.ite (h.same.dbgHaltGo.ite (h.same.dbgResumeGo.ite h.same))

theorem UnitsOk.writeDebug {o v} (h : UnitsOk s) : UnitsOk (writeDebug o v s) := by
  dsimp only [Machine.writeDebug]
  split
  · exact h.same.ite h
  · exact h.writeDbgHalt.ite h
  · exact h

theorem UnitsOk.writeBlock {i3c vf off v} (h : UnitsOk s) : UnitsOk (writeBlock i3c vf off v s) := by
  unfold Machine.writeBlock
  refine h.writeIdentity.ite (.ite ?_ (h.writeGtb.ite
    (h.writeLadder.ite (h.writeSec.ite (h.ite (h.writePart.ite (h.writeMem.ite
    (h.writeFab.ite (h.writeColl.ite (h.writeHealth.ite (h.writeCrust.ite (h.ite (h.writeBatch.ite (h.ite
    (h.writeTable.ite (h.ite h.writeDebug))))))))))))))))
  split
  · exact h.writeBand
  · exact h.writePower

theorem UnitsOk.writeReg {i3c vf off v} (h : UnitsOk s) : UnitsOk (s.writeReg i3c vf off v) := h.writeBlock.ite h

/-! ### Machine/Manage.lean -/

theorem UnitsOk.sendDirected {n p} (h : UnitsOk s) : UnitsOk (s.sendDirected n p) := h.portSend.ite h
theorem UnitsOk.manageReply {port p reason value} (h : UnitsOk s) : UnitsOk (s.manageReply port p reason value) :=
  h.sendDirected
theorem UnitsOk.manageHere {port p} (h : UnitsOk s) : UnitsOk (s.manageHere port p) :=
  h.ite (h.manageReply.ite (h.manageReply.ite (h.ite h.writeBlock).settleAlert.manageReply))
theorem UnitsOk.manage {port p} (h : UnitsOk s) : UnitsOk (manage port p s) := h.ite (h.manageHere.ite h.sendDirected)
theorem OutOk.execManage {port p} (h : UnitsOk s) : OutOk (execManage port p s) := h.manage

/-! ### Machine/Registers.lean -/

theorem UnitsOk.answer {w} (h : UnitsOk s) : UnitsOk (s.answer w) := h.same
theorem UnitsOk.refuseAccess {fn} (h : UnitsOk s) : UnitsOk (s.refuseAccess fn) := h.aer.same
theorem UnitsOk.nextPortWord {i3c} (h : UnitsOk s) : UnitsOk (s.nextPortWord i3c) := h.same.ite (h.updLog.ite h.updLog)
theorem UnitsOk.readPlain {i3c off} (h : UnitsOk s) : UnitsOk (s.readPlain i3c off) :=
  h.answer.ite (h.answer.nextPortWord.ite (h.dumpPortDataRead.ite h.answer))
theorem UnitsOk.readLo {i3c off} (h : UnitsOk s) : UnitsOk (s.readLo i3c off) := h.answer.same

theorem UnitsOk.readHi {i3c off} (h : UnitsOk s) : UnitsOk (s.readHi i3c off) := by
  dsimp only [State.readHi]
  split
  · exact h.answer.same
  · exact h.answer

theorem UnitsOk.readAny {i3c off} (h : UnitsOk s) : UnitsOk (s.readAny i3c off) := h.readLo.ite (h.readHi.ite h.readPlain)

theorem UnitsOk.startBurst {src off} (h : UnitsOk s) : UnitsOk (s.startBurst src off) := by
  dsimp only [State.startBurst]
  split
  · exact h.same
  · exact h

theorem UnitsOk.readConfig {fn o} (h : UnitsOk s) : UnitsOk (s.readConfig fn o) := by
  dsimp only [State.readConfig]
  split
  · exact h.answer
  · exact h.draw.answer

theorem UnitsOk.readAccess {src width off} (h : UnitsOk s) : UnitsOk (readAccess src width off s) := by
  dsimp only [Machine.readAccess]
  split
  · exact h
  · split
    · exact h.startBurst.readAny
    · exact h.readConfig
    · exact h.answer
    · exact h.answer
    · exact h.answer
    · exact h.refuseAccess

theorem UnitsOk.registerWrite {src width off v poisoned} (h : UnitsOk s) :
    UnitsOk (registerWrite src width off v poisoned s) :=
  by
  dsimp only [Machine.registerWrite]
  split
  · exact h
  · split
    · exact h.aer
    · split
      · exact h.writeReg.settleAlert
      · exact h.ite h.writeTable
      · exact h
      · exact h
      · exact h
      · exact h.aer

theorem UnitsOk.counterClear {n o} (h : UnitsOk s) : UnitsOk (counterClear n o s) := h.hostReg h.updPart

theorem UnitsOk.telemetryBinEnd {t} (h : UnitsOk s) : UnitsOk (telemetryBinEnd t s) := by
  dsimp only [Machine.telemetryBinEnd]
  split
  · exact h
  · split
    · exact h.updTele
    · exact h.ite (h.updTele.foldl fun h => h.updPart)

theorem UnitsOk.accWindowRead {off bad} (h : UnitsOk s) : UnitsOk (accWindowRead off bad s) := h.answer.event.ite h.answer
theorem OutOk.execDbgHaltGo {pt} (h : UnitsOk s) : OutOk (execDbgHaltGo pt s) := h.hostReg h.dbgHaltGo
theorem OutOk.execDbgResumeGo {pt} (h : UnitsOk s) : OutOk (execDbgResumeGo pt s) := h.hostReg h.dbgResumeGo
theorem OutOk.execDbgAccWindowRead {off bad} (h : UnitsOk s) : OutOk (execDbgAccWindowRead off bad s) :=
  h.hostReg h.accWindowRead
theorem OutOk.execCrumbLogEmpty (h : UnitsOk s) : OutOk (execCrumbLogEmpty s) := h.hostReg h.emptyCrumbLog
theorem OutOk.execTelemetryBinEnd {t} (h : UnitsOk s) : OutOk (execTelemetryBinEnd t s) := h.telemetryBinEnd
theorem OutOk.execRegPairLoRead {src width off} (h : UnitsOk s) : OutOk (execRegPairLoRead src width off s) := h.readAccess
theorem OutOk.execRegPairHiRead {src width off} (h : UnitsOk s) : OutOk (execRegPairHiRead src width off s) := h.readAccess
theorem OutOk.execCounterLoWriteClear {pt off} (h : UnitsOk s) : OutOk (execCounterLoWriteClear pt off s) := h.counterClear
theorem OutOk.execI3cDynamicAddress {a} (h : UnitsOk s) : OutOk (execI3cDynamicAddress a s) := h.same.ite h
theorem OutOk.execRegisterWrite {src width off v poisoned} (h : UnitsOk s) :
    OutOk (execRegisterWrite src width off v poisoned s) :=
  h.registerWrite

/-! ### Machine/Dispatch.lean -/

theorem OutOk.exec {i} (h : UnitsOk s) : OutOk (exec i s) := by
  cases i with
  | bundleIssue => exact .execBundleIssue h
  | nop => exact .execNop h
  | li => exact .execLi h
  | add => exact .execAdd h
  | sub => exact .execSub h
  | and => exact .execAnd h
  | or => exact .execOr h
  | xor => exact .execXor h
  | shl => exact .execShl h
  | shr => exact .execShr h
  | shrA => exact .execShrA h
  | mul => exact .execMul h
  | cmp => exact .execCmp h
  | brp => exact .execBrp h
  | loop => exact .execLoop h
  | tile => exact .execTile h
  | halt => exact .execHalt h
  | trap => exact .execTrap h
  | anc => exact .execAnc h
  | steprR => exact .execSteprR h
  | steprW => exact .execSteprW h
  | steprInc => exact .execSteprInc h
  | seedrR => exact .execSeedrR h
  | seedrW => exact .execSeedrW h
  | gtbr => exact .execGtbr h
  | hbeat => exact .execHbeat h
  | wld => exact .execWld h
  | wldLoaded => exact .execWldLoaded h
  | wswap => exact .execWswap h
  | mma => exact .execMma h
  | aqRowPop => exact .execAqRowPop h
  | arrayRowLand => exact .execArrayRowLand h
  | drain => exact .execDrain h
  | drainRowRead => exact .execDrainRowRead h
  | drainRowWrite => exact .execDrainRowWrite h
  | pbdrain => exact .execPbdrain h
  | fold => exact .execFold h
  | foldRowAdd => exact .execFoldRowAdd h
  | zoa => exact .execZoa h
  | pbzero => exact .execPbzero h
  | pbspillW => exact .execPbspillW h
  | pbspillA => exact .execPbspillA h
  | pbload => exact .execPbload h
  | pbImageHeaderArrive => exact .execPbImageHeaderArrive h
  | pbSlotRowTransfer => exact .execPbSlotRowTransfer h
  | idle => exact .execIdle h
  | tastingRowInject => exact .execTastingRowInject h
  | vld => exact .execVld h
  | vst => exact .execVst h
  | vadd => exact .execVadd h
  | vsub => exact .execVsub h
  | vmul => exact .execVmul h
  | vfma => exact .execVfma h
  | vmax => exact .execVmax h
  | vmin => exact .execVmin h
  | vcmp => exact .execVcmp h
  | vsel => exact .execVsel h
  | vand => exact .execVand h
  | vor => exact .execVor h
  | vxor => exact .execVxor h
  | vshl => exact .execVshl h
  | vshr => exact .execVshr h
  | vshrA => exact .execVshrA h
  | vperm => exact .execVperm h
  | vcvt => exact .execVcvt h
  | vfn => exact .execVfn h
  | vaxsumF32 => exact .execVaxsumF32 h
  | vaxsumF64 => exact .execVaxsumF64 h
  | vaxsumW80 => exact .execVaxsumW80 h
  | vaxsumW128 => exact .execVaxsumW128 h
  | vaxsumTap => exact .execVaxsumTap h
  | vaxsumOut32 => exact .execVaxsumOut32 h
  | vaxsumOut64 => exact .execVaxsumOut64 h
  | vleav => exact .execVleav h
  | vcrumb => exact .execVcrumb h
  | vopt => exact .execVopt h
  | act => exact .execAct h
  | actRowDeliver => exact .execActRowDeliver h
  | peel => exact .execPeel h
  | peelDescriptorStart => exact .execPeelDescriptorStart h
  | peelLineArrive => exact .execPeelLineArrive h
  | engineSourceLineRead => exact .execEngineSourceLineRead h
  | peelTransferComplete => exact .execPeelTransferComplete h
  | bcopy => exact .execBcopy h
  | dssld => exact .execDssld h
  | dssst => exact .execDssst h
  | xsend => exact .execXsend h
  | messageAccept => exact .execMessageAccept h
  | xrecv => exact .execXrecv h
  | xredSumExact => exact .execXredSumExact h
  | xredSumTree => exact .execXredSumTree h
  | xredMax => exact .execXredMax h
  | xredGather => exact .execXredGather h
  | xredScatter => exact .execXredScatter h
  | collectiveResultWrite => exact .execCollectiveResultWrite h
  | xbar => exact .execXbar h
  | xbarRelease => exact .execXbarRelease h
  | xtime => exact .execXtime h
  | xtimeRelease => exact .execXtimeRelease h
  | xfence => exact .execXfence h
  | producerNotice => exact .execProducerNotice h
  | freezeBegin => exact .execFreezeBegin h
  | freezeEnd => exact .execFreezeEnd h
  | actRowFreezeDeliver => exact .execActRowFreezeDeliver h
  | tileSettleMeet => exact .execTileSettleMeet h
  | tileCommit => exact .execTileCommit h
  | tileYield => exact .execTileYield h
  | tileBudgetExpire => exact .execTileBudgetExpire h
  | admissionTick => exact .execAdmissionTick h
  | kernelStart => exact .execKernelStart h
  | kernelComplete => exact .execKernelComplete h
  | completionWrite => exact .execCompletionWrite h
  | expressCompare => exact .execExpressCompare h
  | expressRepair => exact .execExpressRepair h
  | contextSwitch => exact .execContextSwitch h
  | backgroundYield => exact .execBackgroundYield h
  | tileAbandon => exact .execTileAbandon h
  | sramEccError => exact .execSramEccError h
  | sramScrub => exact .execSramScrub h
  | crustCommit => exact .execCrustCommit h
  | crustScrub => exact .execCrustScrub h
  | tastingRoundComplete => exact .execTastingRoundComplete h
  | tastingPeriodEnd => exact .execTastingPeriodEnd h
  | partitionQuarantine => exact .execPartitionQuarantine h
  | quarantineTestsDone => exact .execQuarantineTestsDone h
  | coreFail => exact .execCoreFail h
  | rewind => exact .execRewind h
  | replayEnd => exact .execReplayEnd h
  | checkpoint => exact .execCheckpoint h
  | journalAppend => exact .execJournalAppend h
  | coreHangDetect => exact .execCoreHangDetect h
  | engineHangDetect => exact .execEngineHangDetect h
  | contextAbort => exact .execContextAbort h
  | engineReset => exact .execEngineReset h
  | partitionReset => exact .execPartitionReset h
  | moduleReset => exact .execModuleReset h
  | powerCycle => exact .execPowerCycle h
  | ladderStepComplete => exact .execLadderStepComplete h
  | ladderStepTimeout => exact .execLadderStepTimeout h
  | hangVerdict => exact .execHangVerdict h
  | rstReqPartition => exact .execRstReqPartition h
  | rstReqModule => exact .execRstReqModule h
  | rstReqPowerCycle => exact .execRstReqPowerCycle h
  | ovenTimerRestart => exact .execOvenTimerRestart h
  | ovenTimerExpire => exact .execOvenTimerExpire h
  | dumpStart => exact .execDumpStart h
  | dumpGo => exact .execDumpGo h
  | dumpUnitTimeout => exact .execDumpUnitTimeout h
  | dumpEnd => exact .execDumpEnd h
  | dumpPortDataRead => exact .execDumpPortDataRead h
  | ctxCfgWrite => exact .execCtxCfgWrite h
  | loafLoad => exact .execLoafLoad h
  | loafVerifyDone => exact .execLoafVerifyDone h
  | loafUnload => exact .execLoafUnload h
  | bsAbort => exact .execBsAbort h
  | bsCfgWrite => exact .execBsCfgWrite h
  | genLoad => exact .execGenLoad h
  | genShardArrive => exact .execGenShardArrive h
  | genTimeoutExpire => exact .execGenTimeoutExpire h
  | genActivate => exact .execGenActivate h
  | genClose => exact .execGenClose h
  | genCancel => exact .execGenCancel h
  | ptCfgWrite => exact .execPtCfgWrite h
  | ptRstHoldWrite => exact .execPtRstHoldWrite h
  | powerOn => exact .execPowerOn h
  | inputUndervoltage => exact .execInputUndervoltage h
  | overvoltageCutoff => exact .execOvervoltageCutoff h
  | overvoltageRecover => exact .execOvervoltageRecover h
  | starterRomBoot => exact .execStarterRomBoot h
  | pwrEnRise => exact .execPwrEnRise h
  | pwrEnFall => exact .execPwrEnFall h
  | mainRailsInRegulation => exact .execMainRailsInRegulation h
  | mainRailOutOfRegulation => exact .execMainRailOutOfRegulation h
  | thermalTrip => exact .execThermalTrip h
  | thermTripNRelease => exact .execThermTripNRelease h
  | laserBayOpen => exact .execLaserBayOpen h
  | laserSourceInsert => exact .execLaserSourceInsert h
  | laserFail => exact .execLaserFail h
  | supplyDroop => exact .execSupplyDroop h
  | droopClear => exact .execDroopClear h
  | thermalStepDown => exact .execThermalStepDown h
  | vinBelowMin => exact .execVinBelowMin h
  | dieLinkRetry => exact .execDieLinkRetry h
  | dieLinkLaneRepair => exact .execDieLinkLaneRepair h
  | dieLinkRetrainTimeout => exact .execDieLinkRetrainTimeout h
  | timeSyncTimeout => exact .execTimeSyncTimeout h
  | powerBinEnd => exact .execPowerBinEnd h
  | pwrBandApply => exact .execPwrBandApply h
  | pwrBandForce => exact .execPwrBandForce h
  | forecastPublish => exact .execForecastPublish h
  | wStateEnter => exact .execWStateEnter h
  | pwrCtrlWake => exact .execPwrCtrlWake h
  | pwrWakeTolWrite => exact .execPwrWakeTolWrite h
  | wakeEvent => exact .execWakeEvent h
  | wStateExitDone => exact .execWStateExitDone h
  | perstNAssert => exact .execPerstNAssert h
  | perstNDeassert => exact .execPerstNDeassert h
  | pcieTrainRetry => exact .execPcieTrainRetry h
  | pcieLinkUp => exact .execPcieLinkUp h
  | pcieLinkDown => exact .execPcieLinkDown h
  | pcieReplay => exact .execPcieReplay h
  | pcieConfigWrite => exact .execPcieConfigWrite h
  | l0pRequest => exact .execL0pRequest h
  | vfFlr => exact .execVfFlr h
  | pfFlr => exact .execPfFlr h
  | bar2Read => exact .execBar2Read h
  | bar2Write => exact .execBar2Write h
  | hostCompletionReceive => exact .execHostCompletionReceive h
  | pcieCplTimeout => exact .execPcieCplTimeout h
  | msixDeliverable => exact .execMsixDeliverable h
  | spdmRequest => exact .execSpdmRequest h
  | spdmVendorReport => exact .execSpdmVendorReport h
  | doeAbort => exact .execDoeAbort h
  | fwUpdate => exact .execFwUpdate h
  | recoveryChunk => exact .execRecoveryChunk h
  | recoveryDone => exact .execRecoveryDone h
  | pubSet => exact .execPubSet h
  | pubClear => exact .execPubClear h
  | dbgNonce => exact .execDbgNonce h
  | dbgUnlock => exact .execDbgUnlock h
  | svnCommit => exact .execSvnCommit h
  | pubLock => exact .execPubLock h
  | fwActivate => exact .execFwActivate h
  | dbgRelock => exact .execDbgRelock h
  | helloSend => exact .execHelloSend h
  | hello => exact .execHello h
  | helloTimeout => exact .execHelloTimeout h
  | portSignalDetect => exact .execPortSignalDetect h
  | portTrainComplete => exact .execPortTrainComplete h
  | portTrainTimeout => exact .execPortTrainTimeout h
  | trainBackoffEnd => exact .execTrainBackoffEnd h
  | flitReceive => exact .execFlitReceive h
  | laneRetire => exact .execLaneRetire h
  | linkLoss => exact .execLinkLoss h
  | packetForward => exact .execPacketForward h
  | read => exact .execRead h
  | write => exact .execWrite h
  | atomicAdd => exact .execAtomicAdd h
  | readData => exact .execReadData h
  | ack => exact .execAck h
  | message => exact .execMessage h
  | notReady => exact .execNotReady h
  | xqFree => exact .execXqFree h
  | refuse => exact .execRefuse h
  | requestResend => exact .execRequestResend h
  | requestTimeout => exact .execRequestTimeout h
  | collective => exact .execCollective h
  | manage => exact .execManage h
  | syncSend => exact .execSyncSend h
  | sync => exact .execSync h
  | syncTimeout => exact .execSyncTimeout h
  | delayReqSend => exact .execDelayReqSend h
  | delayReq port t1 => exact .execDelayReq (t1 := t1) h
  | delayRsp => exact .execDelayRsp h
  | fabOpGo => exact .execFabOpGo h
  | fabRtDataWrite => exact .execFabRtDataWrite h
  | fabNodeIdWrite => exact .execFabNodeIdWrite h
  | collGroupEntryWrite => exact .execCollGroupEntryWrite h
  | memLineRead => exact .execMemLineRead h
  | memLineWrite => exact .execMemLineWrite h
  | memPositionFail => exact .execMemPositionFail h
  | memChanFail => exact .execMemChanFail h
  | patrolScrubLine => exact .execPatrolScrubLine h
  | refresh channel => exact .execRefresh (channel := channel) h
  | hotRefresh => exact .execHotRefresh h
  | hotRefreshEnd => exact .execHotRefreshEnd h
  | memReformStart => exact .execMemReformStart h
  | memReformDone => exact .execMemReformDone h
  | dbgHaltGo => exact .execDbgHaltGo h
  | dbgResumeGo => exact .execDbgResumeGo h
  | dbgAccWindowRead => exact .execDbgAccWindowRead h
  | crumbLogEmpty => exact .execCrumbLogEmpty h
  | eventDeliver => exact .execEventDeliver h
  | eventCommit => exact .execEventCommit h
  | eventAggWindowEnd => exact .execEventAggWindowEnd h
  | evtPortSeqWrite => exact .execEvtPortSeqWrite h
  | ledgerRecordWrite => exact .execLedgerRecordWrite h
  | ledgerHourly => exact .execLedgerHourly h
  | marginSweep => exact .execMarginSweep h
  | telemetryBinEnd => exact .execTelemetryBinEnd h
  | regPairLoRead => exact .execRegPairLoRead h
  | regPairHiRead => exact .execRegPairHiRead h
  | counterLoWriteClear => exact .execCounterLoWriteClear h
  | i3cDynamicAddress => exact .execI3cDynamicAddress h
  | registerWrite => exact .execRegisterWrite h

/-! ### Machine/Step.lean -/

theorem OutOk.step (h : UnitsOk s) : OutOk (step s) := by
  dsimp only [Machine.step]
  split
  · exact h.tick
  · exact .exec h.same

end

/-- Settles O59: every instruction, and the tick of an idle cycle, changes the lists of units only through operations that keep
their keys in order. -/
theorem everyStepKeepsUnitsOnce : Obligations.EveryStepKeepsUnitsOnce := by
  intro s t h ht
  have ok : OutOk (step s) := .step h
  rw [ht] at ok
  exact ok

end Sys2Proof.Machine
end

section
namespace Sys2Proof.Machine
open Sys2Proof.Laws

/-! ## Accesses to registers (O56)

An access has a target (`regTarget`); for each kind of target one law says what a read or a write of it does, whichever port makes
the access. The clauses of O56 name a port and a shape, which fix the target, and follow by that law. Two of them are readings of the
model: a block that I3C does not read answers 0 (DEDUCED, log 33), and the identifiers stand in configuration space where
`State.configWord` puts them (PRESUMED, log 35). -/

section
variable {s : State} {src : AccessSrc} {w : AccessWidth} {off a : Nat} {v : Word} {p i3c vf : Bool}

/-! ### Where an access goes (R14, R535, R537, R593) -/

theorem regTarget_pf_word (ha : off % 4 = 0) : regTarget .pf .w32 off = .reg off := by
  simp [regTarget, wordAccess, ha]

theorem wordAccess_false (h : off % 4 ≠ 0 ∨ w ≠ .w32) : wordAccess w off = false := by
  simp only [wordAccess, Bool.and_eq_false_iff, beq_eq_false_iff_ne]
  exact h.symm

theorem regTarget_pf_misshaped (h : off % 4 ≠ 0 ∨ w ≠ .w32) : regTarget .pf w off = .unsupported := by
  simp [regTarget, wordAccess_false h]

theorem regTarget_vf_misshaped {n : BitVec 4} (h : off % 4 ≠ 0 ∨ w ≠ .w32 ∨ 0x2_0000 ≤ off) :
    regTarget (.vf n) w off = .unsupported := by
  rw [← or_assoc] at h
  rcases h with shape | past
  · simp [regTarget, wordAccess_false shape]
  · simp [regTarget, past]

theorem regTarget_vf_block {n : BitVec 4} (ha : off % 4 = 0) (hb : off < 0x1_0000) :
    regTarget (.vf n) .w32 off = .reg (0x010_0000 + 0x1_0000 * n.toNat + off) := by
  have inside : ¬ 0x2_0000 ≤ off := by omega
  simp [regTarget, wordAccess, ha, hb, inside]

theorem regTarget_i3c_closed {more : Bool} (hb : i3cBlock off = false) : regTarget (.i3c more) w off = .nothing := by
  simp [regTarget, hb]

theorem regTarget_i3c_open {more : Bool} (ha : off % 4 = 0) (hb : i3cBlock off = true) :
    regTarget (.i3c more) w off = .reg off := by
  simp [regTarget, ha, hb]

/-! ### Reads by target (R14, R15, R19) -/

theorem readAccess_unreached (h : s.reaches src = false) : readAccess src w off s = s := by
  simp [readAccess, h]

theorem readAccess_reg (h : s.reaches src = true) (ht : regTarget src w off = .reg a) :
    readAccess src w off s = (s.startBurst src a).readAny (overI3c src) a := by
  simp [readAccess, h, ht]

theorem readAccess_config {fn : Nat} (h : s.reaches src = true) (ht : regTarget src w off = .config fn a) :
    readAccess src w off s = s.readConfig fn a := by
  simp [readAccess, h, ht]

theorem readAccess_nothing (h : s.reaches src = true) (ht : regTarget src w off = .nothing) :
    readAccess src w off s = s.answer 0 := by
  simp [readAccess, h, ht]

theorem readAccess_unsupported (h : s.reaches src = true) (ht : regTarget src w off = .unsupported) :
    readAccess src w off s = s.refuseAccess (accessFn src) := by
  simp [readAccess, h, ht]

/-! ### Reads of a register by its place in a pair (R15) -/

theorem readAny_lo (h : pairLo off = true) : s.readAny i3c off = s.readLo i3c off := by
  simp [State.readAny, h]

theorem readAny_hi (h4 : 4 ≤ off) (hl : pairLo off = false) (hh : pairLo (off - 4) = true) :
    s.readAny i3c off = s.readHi i3c off := by
  simp [State.readAny, h4, hl, hh]

theorem readAny_plain (hl : pairLo off = false) (hh : pairLo (off - 4) = false) :
    s.readAny i3c off = s.readPlain i3c off := by
  simp [State.readAny, hl, hh]

theorem readHi_captured {x : Word} (h : smapGet none (s.captures.of i3c) off = some x) :
    s.readHi i3c off =
      { s.answer (x &&& s.served i3c off) with captures := s.captures.upd i3c fun m => smapErase m off } := by
  simp only [State.readHi, h]

theorem readHi_live (h : smapGet none (s.captures.of i3c) off = none) :
    s.readHi i3c off = s.answer (s.readReg i3c off) := by
  simp only [State.readHi, h]

/-- Only the two data ports change with a read that is not of a pair (R507, R590). -/
theorem readPlain_of_ne_port (he : off ≠ 0x002_0108) (hd : off ≠ 0x003_0114) :
    s.readPlain i3c off = s.answer (s.readReg i3c off) := by
  simp [State.readPlain, he, hd]

theorem readConfig_known {fn : Nat} {x : Word} (h : s.configWord fn off = some x) : s.readConfig fn off = s.answer x := by
  simp only [State.readConfig, h]

/-- The power block has one pair, PWR_W3_SAVE (R15). -/
theorem pairLo_power (lo : 0x001_0000 ≤ off) (hi : off < 0x002_0000) (hne : off % 0x1_0000 ≠ 0x00C) : pairLo off = false := by
  have above : ¬ off < 0x001_0000 := by omega
  simp only [pairLo, if_neg above, if_pos hi]
  exact beq_eq_false_iff_ne.2 hne

/-- No word of PWR_FCAST belongs to a pair (R15, R529). -/
theorem readAny_forecast (lo : 0x001_1000 ≤ off) (hi : off < 0x001_1330) :
    s.readAny i3c off = s.answer (s.readReg i3c off) := by
  have notLo : pairLo off = false := pairLo_power (by omega) (by omega) (by omega)
  have notHi : pairLo (off - 4) = false := pairLo_power (by omega) (by omega) (by omega)
  rw [readAny_plain notLo notHi, readPlain_of_ne_port (by omega) (by omega)]

theorem startBurst_forecast (lo : 0x001_1000 ≤ off) (hi : off < 0x001_1330) :
    s.startBurst (.i3c false) off = { s with burst := some s.power.fcCur } := by
  simp [State.startBurst, inForecast, lo, hi]

/-! ### Writes by target (R16, R535, R545) -/

theorem registerWrite_unreached (h : s.reaches src = false) : registerWrite src w off v p s = s := by
  simp [registerWrite, h]

theorem registerWrite_i3c_closed {more : Bool} (h : i3cWritable off = false) : registerWrite (.i3c more) w off v p s = s := by
  simp [registerWrite, overI3c, h]

theorem registerWrite_poisoned (h : s.reaches src = true) (hs : overI3c src = false) :
    registerWrite src w off v true s = s.aer (accessFn src) .poisoned := by
  simp [registerWrite, h, hs]

theorem registerWrite_unsupported (h : s.reaches src = true) (hs : overI3c src = false)
    (ht : regTarget src w off = .unsupported) :
    registerWrite src w off v false s = s.aer (accessFn src) .unsupported := by
  simp [registerWrite, h, hs, ht]

theorem registerWrite_reg (h : s.reaches src = true) (hs : overI3c src = false) (ht : regTarget src w off = .reg a) :
    registerWrite src w off v false s = (s.writeReg false (isVf src) a v).settleAlert := by
  simp [registerWrite, h, hs, ht]

theorem writeReg_unserved (h : s.served i3c off ≠ 0xFFFF_FFFF) : s.writeReg i3c vf off v = s := if_neg h

/-- A write of a served register, less the bits that hardware sets in the same cycle; CTX_RWD_STAT keeps those by context. -/
theorem writeReg_served (h : s.served i3c off = 0xFFFF_FFFF) (hk : off ≠ 0x080_0130) :
    s.writeReg i3c vf off v = writeBlock i3c vf off (v &&& ~~~(smapGet 0 s.sets off)) s := by
  simp [State.writeReg, State.clears, h, hk]

/-- ALERT_N moves only where its level has changed. -/
theorem settleAlert_settled (h : s.alertLevel = s.alertN) : s.settleAlert = s := by
  unfold State.settleAlert
  rw [h]
  split <;> rfl

/-! ### Which ports reach the module -/

theorem reaches_vf {n : BitVec 4} (hl : s.linkUp = true) (he : s.host.vfEnable = true) : s.reaches (.vf n) = true := by
  simp [State.reaches, hl, he]

theorem reaches_vf_down {n : BitVec 4} (hl : s.linkUp = false) : s.reaches (.vf n) = false := by
  simp [State.reaches, hl]

theorem reaches_config_pf (hl : s.linkUp = true) : s.reaches (.config 0) = true := by
  simp [State.reaches, hl]

/-! ### Single registers -/

/-- SCRATCH is written whole and nothing else changes (R594). -/
theorem writeReg_scratch (h : s.served false 8 = 0xFFFF_FFFF) (hk : smapGet 0 s.sets 8 = 0) :
    s.writeReg false vf 8 v = { s with scratch := v } := by
  have all : v &&& ~~~(0 : Word) = v := BitVec.and_allOnes
  rw [writeReg_served h (by decide), hk, all]
  rfl

theorem readReg_scratch (h : s.served false 8 = 0xFFFF_FFFF) : s.readReg false 8 = s.scratch := by
  have all : s.scratch &&& (0xFFFF_FFFF : Word) = s.scratch := BitVec.and_allOnes
  rw [State.readReg, h]
  exact all

theorem counterClear_served {n o : Nat} (h : HostReaches s (0x010_0000 + 0x1_0000 * n + o)) :
    counterClear n o s = s.setPart n ((s.part n).clearCounter o) :=
  hostReg_served _ h.1 h.2

end

/-! ### The commands -/

theorem exec_regPairLoRead {s : State} {src w} {off : BitVec 25} :
    exec (.regPairLoRead src w off) s = .next (readAccess src w off.toNat s) := rfl

theorem exec_regPairHiRead {s : State} {src w} {off : BitVec 25} :
    exec (.regPairHiRead src w off) s = .next (readAccess src w off.toNat s) := rfl

theorem exec_registerWrite {s : State} {src w v p} {off : BitVec 25} :
    exec (.registerWrite src w off v p) s = .next (registerWrite src w off.toNat v p s) := rfl

theorem exec_counterLoWriteClear {s : State} {pt : Pt} {off : BitVec 16} :
    exec (.counterLoWriteClear pt off) s = .next (counterClear pt.toNat off.toNat s) := rfl

/-! ### The clauses of O56 -/

section
variable {s : State} {w : AccessWidth} {off : BitVec 25} {v : Word} {p : Bool}

theorem exec_loRead (hl : s.linkUp = true) (ha : off.toNat % 4 = 0) (hp : pairLo off.toNat = true) :
    exec (.regPairLoRead .pf .w32 off) s = .next (s.readLo false off.toNat) := by
  rw [exec_regPairLoRead, readAccess_reg (src := .pf) hl (regTarget_pf_word ha)]
  exact congrArg Host.Outcome.next (readAny_lo hp)

theorem exec_hiRead (hl : s.linkUp = true) (ha : off.toNat % 4 = 0) (h4 : 4 ≤ off.toNat) (hp : pairLo off.toNat = false)
    (hh : pairLo (off.toNat - 4) = true) : exec (.regPairHiRead .pf .w32 off) s = .next (s.readHi false off.toNat) := by
  rw [exec_regPairHiRead, readAccess_reg (src := .pf) hl (regTarget_pf_word ha)]
  exact congrArg Host.Outcome.next (readAny_hi h4 hp hh)

/-- R549: with the link down no access of the host changes anything. -/
theorem exec_access_linkDown (down : s.linkUp = false) :
    exec (.regPairLoRead .pf w off) s = .next s ∧ exec (.regPairHiRead .pf w off) s = .next s ∧
      exec (.registerWrite .pf w off v p) s = .next s ∧ ∀ n, exec (.registerWrite (.vf n) w off v p) s = .next s := by
  refine ⟨?_, ?_, ?_, fun n => ?_⟩
  · rw [exec_regPairLoRead, readAccess_unreached (src := .pf) down]
  · rw [exec_regPairHiRead, readAccess_unreached (src := .pf) down]
  · rw [exec_registerWrite, registerWrite_unreached (src := .pf) down]
  · rw [exec_registerWrite, registerWrite_unreached (reaches_vf_down down)]

/-- R14, R535: a PF access of another width or alignment is an Unsupported Request. -/
theorem exec_access_pf_misshaped (up : s.linkUp = true) (bad : off.toNat % 4 ≠ 0 ∨ w ≠ .w32) :
    exec (.regPairLoRead .pf w off) s = .next (s.refuseAccess 0) ∧
      exec (.registerWrite .pf w off v false) s = .next (s.aer 0 .unsupported) := by
  have target := regTarget_pf_misshaped bad
  constructor
  · rw [exec_regPairLoRead, readAccess_unsupported (src := .pf) up target]
    rfl
  · rw [exec_registerWrite, registerWrite_unsupported (src := .pf) up rfl target]
    rfl

/-- R535, R537: so is a VF's, and one past the VF's BARs. -/
theorem exec_access_vf_misshaped {n : BitVec 4} (up : s.linkUp = true) (ve : s.host.vfEnable = true)
    (bad : off.toNat % 4 ≠ 0 ∨ w ≠ .w32 ∨ 0x2_0000 ≤ off.toNat) :
    exec (.registerWrite (.vf n) w off v false) s = .next (s.aer (n.toNat + 1) .unsupported) ∧
      exec (.regPairLoRead (.vf n) w off) s = .next (s.refuseAccess (n.toNat + 1)) := by
  have target := regTarget_vf_misshaped (n := n) bad
  constructor
  · rw [exec_registerWrite, registerWrite_unsupported (reaches_vf up ve) rfl target]
    rfl
  · rw [exec_regPairLoRead, readAccess_unsupported (reaches_vf up ve) target]
    rfl

/-- R620: a burst that starts in PWR_FCAST keeps to the half that is current. -/
theorem exec_i3cRead_forecast (on : s.power.alwaysOn = true) (ha : off.toNat % 4 = 0) (lo : 0x001_1000 ≤ off.toNat)
    (hi : off.toNat < 0x001_1330) :
    exec (.regPairLoRead (.i3c false) w off) s = .next
      (({ s with burst := some s.power.fcCur } : State).answer
        ({ s with burst := some s.power.fcCur }.readReg true off.toNat)) := by
  have opened : i3cBlock off.toNat = true := by
    have below : off.toNat < 0x004_0000 := by omega
    simp [i3cBlock, below]
  rw [exec_regPairLoRead, readAccess_reg (src := .i3c false) on (regTarget_i3c_open ha opened), startBurst_forecast lo hi,
    readAny_forecast lo hi]
  rfl

/-- R16, R594: SCRATCH reads back what is written. -/
theorem exec_registerWrite_scratch (reached : HostReaches s 0x8) (settled : s.alertLevel = s.alertN)
    (kept : smapGet 0 s.sets 8 = 0) :
    ∃ t, exec (.registerWrite .pf .w32 0x8 v false) s = .next t ∧ t = { s with scratch := v } ∧ t.readReg false 0x8 = v := by
  obtain ⟨up, served⟩ := reached
  have written : exec (.registerWrite .pf .w32 0x8 v false) s = .next { s with scratch := v } := by
    rw [exec_registerWrite, registerWrite_reg (src := .pf) up rfl (regTarget_pf_word (by decide))]
    have scratch : s.writeReg false false 8 v = { s with scratch := v } := writeReg_scratch served kept
    exact congrArg Host.Outcome.next ((congrArg State.settleAlert scratch).trans (settleAlert_settled settled))
  exact ⟨_, written, rfl, readReg_scratch (s := { s with scratch := v }) served⟩

end

/-- Settles O56: each access there has a target, and the law of that target says what it does. -/
theorem registersAreReadAndWritten : Obligations.RegistersAreReadAndWritten := by
  refine ⟨fun s off hl ha hp => exec_loRead hl ha hp, fun s off hl ha h4 hp hh => ⟨fun x hx => ?_, fun hx => ?_⟩, ?_,
    fun s v => exec_registerWrite_scratch, fun s pt => ⟨fun hr => ?_, fun hr => ?_⟩, fun s a => rfl⟩
  · rw [exec_hiRead hl ha h4 hp hh, readHi_captured (i3c := false) hx]
    rfl
  · rw [exec_hiRead hl ha h4 hp hh, readHi_live (i3c := false) hx]
    rfl
  · intro s w off v p ur
    refine ⟨exec_access_linkDown, exec_access_pf_misshaped, fun up => ?_, fun up ha => ?_,
      fun up ve n => ⟨?_, exec_access_vf_misshaped up ve, fun ha hb => ?_⟩, fun more hw => ?_, fun more on hb => ?_,
      exec_i3cRead_forecast, fun up x hx => ?_, writeReg_unserved, writeReg_served⟩
    · rw [exec_registerWrite, registerWrite_poisoned (src := .pf) up rfl]
      rfl
    · rw [exec_registerWrite, registerWrite_reg (src := .pf) up rfl (regTarget_pf_word ha)]
      rfl
    · rw [exec_registerWrite, registerWrite_poisoned (reaches_vf up ve) rfl]
      rfl
    · rw [exec_registerWrite, registerWrite_reg (reaches_vf up ve) rfl (regTarget_vf_block ha hb)]
      rfl
    · rw [exec_registerWrite, registerWrite_i3c_closed hw]
    · rw [exec_regPairLoRead, readAccess_nothing (src := .i3c more) on (regTarget_i3c_closed hb)]
      rfl
    · rw [exec_regPairLoRead, readAccess_config (reaches_config_pf up) rfl]
      exact congrArg Host.Outcome.next (readConfig_known hx)
  · rw [exec_counterLoWriteClear]
    exact congrArg Host.Outcome.next (counterClear_served hr)
  · rw [exec_counterLoWriteClear]
    exact congrArg Host.Outcome.next (counterClear_served hr)

end Sys2Proof.Machine
end

section
namespace Sys2Proof.Laws
open Sys2Proof.Machine

/-! ## What leaves the time base alone (O2, O53)

A law `<f>_time` says that the model's operation `<f>` changes nothing of `State.time`: an ACLK cycle with every fault that it can
raise, the router with every packet of its own that it takes in, and the commitment of events. -/

theorem foldl_time {α : Type} {f : State → α → State} (hf : ∀ s a, (f s a).time = s.time) (l : List α) (s : State) :
    (l.foldl f s).time = s.time :=
  foldl_keeps (fun s t => t.time = s.time) (fun _ => rfl) (fun _ _ _ h g => g.trans h) f hf l s

theorem OnlyFault.time {s t : State} (h : OnlyFault s t) : t.time = s.time := by
  obtain ⟨_, _, _, _, _, _, _, _, _, _, _, rfl⟩ := h
  rfl

section
variable (s : State)

@[simp] theorem updCoresOf_time (n : Nat) (f : Core → Core) : (s.updCoresOf n f).time = s.time :=
  (updCoresOf_only s n f).run.fault.time
@[simp] theorem filterDescs_time (d : Nat) (keep : PeelDesc → Bool) : (s.filterDescs d keep).time = s.time :=
  (filterDescs_run s d keep).fault.time
@[simp] theorem raise_time (n core k : Nat) (f : FaultInfo) : (s.raise n core k f).time = s.time := (raise_only s n core k f).time
@[simp] theorem raiseAll_time (r : CoreRef) (fs : List FaultInfo) : (s.raiseAll r fs).time = s.time := (raiseAll_only s r fs).time
@[simp] theorem raisePart_time (n code src core pc : Nat) : (s.raisePart n code src core pc).time = s.time :=
  (raisePart_only s n code src core pc).time

@[simp] theorem memWrite_time (a : Nat) (bs : List (Option Byte)) (p : Bool) : (s.memWrite a bs p).time = s.time := by
  obtain ⟨_, _, h⟩ := memWrite_only s a bs p
  rw [h]

@[simp] theorem dropRequests_time (ks : List Nat) : (s.dropRequests ks).time = s.time := rfl
@[simp] theorem withdraw_time (n : Nat) : (s.withdraw n).time = s.time := by simp [State.withdraw]
@[simp] theorem abortPart_time (n src : Nat) : (s.abortPart n src).time = s.time := by
  simp [State.abortPart, apply_ite State.time]
@[simp] theorem refuseAbort_time (n reason : Nat) : (s.refuseAbort n reason).time = s.time := by simp [State.refuseAbort]

@[simp] theorem freeze_time (n : Nat) (ws : List FreezeNeed) : (s.freeze n ws).time = s.time := rfl
@[simp] theorem noteEnded_time (n : Nat) : (s.noteEnded n).time = s.time := by
  rcases noteEnded_only s n with h | ⟨p, h⟩ <;> rw [h]
  rfl

/-! ### A partition's cycle (R280) -/

@[simp] theorem frozenCycle_time (n : Nat) : (s.frozenCycle n).time = s.time := by simp [State.frozenCycle]

@[simp] theorem beginCycle_time (n : Nat) : (s.beginCycle n).time = s.time := by
  simp [State.beginCycle, apply_ite State.time, foldl_time]

@[simp] theorem programCycle_time (n : Nat) : (s.programCycle n).time = s.time := by
  simp only [State.programCycle]
  rw [beginCycle_time, updPart_eq, setPart_time, foldl_time (fun s e => raiseAll_time s _ _), setPart_time,
    foldl_time (fun s x => setCore_time s _ _)]
  simp [apply_ite State.time]

@[simp] theorem partCycle_time (n : Nat) : (s.partCycle n).time = s.time := by
  simp [State.partCycle, apply_ite State.time]

@[simp] theorem aclkCycle_time (d : Nat) : (s.aclkCycle d).time = s.time := by
  simp [State.aclkCycle, apply_ite State.time, foldl_time]

@[simp] theorem tickDie_time (d : Nat) : (s.tickDie d).time = s.time := by
  simp [State.tickDie, foldl_time]

end
end Sys2Proof.Laws
end

section
namespace Sys2Proof.Laws
open Sys2Proof.Machine
variable (s : State)

/-! ### Requests, answers and transfers -/

@[simp] theorem dssPut_time (die o : Nat) (bs : List (Option Byte)) (p : Bool) : (s.dssPut die o bs p).time = s.time := by
  simp [State.dssPut, apply_ite State.time, foldl_time]
@[simp] theorem toRouter_time (p : Packet) : (s.toRouter p).time = s.time := rfl
@[simp] theorem sendReq_time (dst : NodeId) (kind flow : Byte) (tag : Word) (addr : DWord) (len : Nat) (bs : List Byte) (p : Bool)
    (who : Issuer) : (s.sendReq dst kind flow tag addr len bs p who).time = s.time := rfl
@[simp] theorem sendAnswer_time (dst : NodeId) (kind flow : Byte) (seq tag : Word) (addr : DWord) (reason : Word) (bs : List Byte)
    (p : Bool) : (s.sendAnswer dst kind flow seq tag addr reason bs p).time = s.time := by
  simp [State.sendAnswer, apply_ite State.time]

@[simp] theorem putPlace_time (n : Nat) (flow : Byte) (p : Place) (bs : List (Option Byte)) (poison : Nat → Bool) (who : Issuer) :
    (s.putPlace n flow p bs poison who).1.time = s.time := by
  cases p with
  | mem a => simp [State.putPlace]
  | dss d o => simp [State.putPlace]
  | remote node a => exact foldl_time (fun z _ => sendReq_time z _ _ _ _ _ _ _ _ _) _ s
  | host a =>
    simp only [State.putPlace]
    split
    · exact foldl_time (fun z _ => emit_time z _) _ s
    · exact refuseAbort_time s n 1
  | bad reason => simp [State.putPlace]

@[simp] theorem markPoisoned_time (n : Nat) : (s.markPoisoned n).time = s.time := by
  unfold State.markPoisoned
  split <;> rfl

@[simp] theorem endRunOf_time (group : Word) (idx : Nat) : (s.endRunOf group idx).time = s.time := rfl
@[simp] theorem updEngine_time (d e : Nat) (f : Engine → Engine) : (s.updEngine d e f).time = s.time := rfl
@[simp] theorem beatEngine_time (d e : Nat) : (s.beatEngine d e).time = s.time := rfl
@[simp] theorem updDesc_time (d e k x : Nat) (f : PeelDesc → PeelDesc) : (s.updDesc d e k x f).time = s.time := rfl

@[simp] theorem putRow_time (d : PeelDesc) (e base row : Nat) (cells : List (Byte × Bool)) :
    (s.putRow d e base row cells).1.time = s.time := by
  simp only [State.putRow]
  split <;> simp

@[simp] theorem putRows_time (d : PeelDesc) (e base : Nat) (rows : List (Nat × List (Byte × Bool))) :
    (s.putRows d e base rows).1.time = s.time := by
  induction rows generalizing s with
  | nil => rfl
  | cons x rows ih =>
    have row := putRow_time s d e base x.1 x.2
    unfold State.putRows
    split
    · next hs => rwa [hs] at row
    · next hs => rw [ih]; rwa [hs] at row

@[simp] theorem sendWrites_time (d : PeelDesc) (e : Nat) : (s.sendWrites d e).time = s.time := by
  simp only [State.sendWrites]
  split
  · rfl
  · split
    · rfl
    · next rows _ =>
      have put := putRows_time (s.updDesc (d.core / 26) e d.core d.xfer fun x => { x with sent := true }) d e d.dstBase rows
      split <;> next hs => simpa [hs, apply_ite State.time] using put

@[simp] theorem sendMessage_time (k : Nat) (m : SendMsg) : (s.sendMessage k m).time = s.time := rfl
@[simp] theorem offerMessages_time (k : Nat) : (s.offerMessages k).time = s.time := by
  simp [State.offerMessages, apply_ite State.time, foldl_time]
@[simp] theorem deliver_time (k : Nat) (m : Msg) : (s.deliver k m).time = s.time := rfl

@[simp] theorem dropReq_time (dst : NodeId) (seq : Word) : (s.dropReq dst seq).time = s.time := rfl
@[simp] theorem finishFabOp_time (reason : Nat) : (s.finishFabOp reason).time = s.time := rfl

@[simp] theorem bringData_time (d e k x off : Nat) (bs : List Byte) (p : Bool) : (s.bringData d e k x off bs p).time = s.time := by
  simp only [State.bringData]
  split <;> simp [apply_ite State.time]

@[simp] theorem failReq_time (q : FabReq) (reason : Nat) : (s.failReq q reason).time = s.time := by
  simp only [State.failReq]
  split <;> simp

@[simp] theorem failColl_time (group : Word) (idx reason : Nat) : (s.failColl group idx reason).time = s.time := by
  simp only [State.failColl]
  split <;> simp [foldl_time]

@[simp] theorem readData_time (p : Packet) : (readData p s).time = s.time := by
  simp only [readData]
  split
  · rfl
  · split
    · rfl
    · split <;> simp

@[simp] theorem ackReceive_time (p : Packet) : (ackReceive p s).time = s.time := by
  simp only [ackReceive]
  split
  · rfl
  · split
    · rfl
    · split <;> simp

@[simp] theorem notReadyReceive_time (p : Packet) : (notReadyReceive p s).time = s.time := by
  simp only [notReadyReceive]
  split <;> simp [apply_ite State.time]

@[simp] theorem xqFreeReceive_time (p : Packet) : (xqFreeReceive p s).time = s.time := by
  simp [xqFreeReceive, apply_ite State.time, foldl_time]

@[simp] theorem refuseReceive_time (p : Packet) : (refuseReceive p s).time = s.time := by
  simp only [refuseReceive]
  split
  · rfl
  · split <;> simp [apply_ite State.time]

/-! ### Ports and the router -/

@[simp] theorem sendAll_time (n : Nat) (r : List Output × Port) : (s.sendAll n r).time = s.time :=
  foldl_time emit_time r.1 _
@[simp] theorem pumpPort_time (n : Nat) : (s.pumpPort n).time = s.time := by simp [State.pumpPort, apply_ite State.time]
@[simp] theorem portSend_time (n : Nat) (p : Packet) : (s.portSend n p).time = s.time := by simp [State.portSend]
@[simp] theorem countDiscard_time (n : Nat) : (s.countDiscard n).time = s.time := by simp [State.countDiscard, apply_ite State.time]

@[simp] theorem unroutable_time (port : Nat) (p : Packet) : (s.unroutable port p).time = s.time := by
  simp only [State.unroutable]
  split
  · split
    · rfl
    · split <;> simp [apply_ite State.time]
  · simp [apply_ite State.time]

@[simp] theorem sendVia_time (port : Nat) (p : Packet) : (s.sendVia port p).time = s.time := by
  unfold State.sendVia
  split <;> simp

@[simp] theorem putLocal_time (p : Place) (bs : List Byte) (poison : Bool) : (s.putLocal p bs poison).time = s.time := by
  cases p <;> simp [State.putLocal]

@[simp] theorem addWord_time (p : Place) (w : List Byte) (poison : Bool) : (s.addWord p w poison).time = s.time := by simp [State.addWord]
@[simp] theorem atomicAdd_time (p : Place) (bs : List Byte) (poison : Bool) : (s.atomicAdd p bs poison).time = s.time := by
  simp [State.atomicAdd, foldl_time]
@[simp] theorem tellRefuse_time (p : Packet) (reason : Nat) : (s.tellRefuse p reason).time = s.time := by simp [State.tellRefuse]
@[simp] theorem answerRead_time (p : Packet) : (s.answerRead p).time = s.time := by simp [State.answerRead]
@[simp] theorem answerAck_time (p : Packet) : (s.answerAck p).time = s.time := by simp [State.answerAck]

@[simp] theorem oneSided_time (p : Packet) : (s.oneSided p).time = s.time := by
  simp only [State.oneSided]
  split
  · simp
  · split <;> simp

@[simp] theorem takeMessage_time (p : Packet) : (s.takeMessage p).time = s.time := by
  simp only [State.takeMessage]
  iterate 3
    split
    · exact tellRefuse_time s p _
  split
  · exact tellRefuse_time s p _
  · simp [apply_ite State.time]

@[simp] theorem runRequest_time (p : Packet) : (s.runRequest p).time = s.time := by
  simp [State.runRequest, apply_ite State.time]

@[simp] theorem runEarly_time (src : NodeId) (n : Nat) : (s.runEarly src n).time = s.time := by
  induction n generalizing s with
  | zero => rfl
  | succ n ih =>
    unfold State.runEarly
    split
    · rfl
    · simp [ih]

@[simp] theorem answerAgain_time (p : Packet) : (s.answerAgain p).time = s.time := by
  unfold State.answerAgain
  split <;> simp [apply_ite State.time]

@[simp] theorem arriveRequest_time (p : Packet) : (s.arriveRequest p).time = s.time := by
  simp [State.arriveRequest, apply_ite State.time]

@[simp] theorem takePacket_time (p : Packet) : (s.takePacket p).time = s.time := by
  unfold State.takePacket
  split <;> simp

@[simp] theorem tellFree_time : s.tellFree.time = s.time := by simp [State.tellFree, apply_ite State.time, foldl_time]
@[simp] theorem routeOwn_time (p : Packet) : (s.routeOwn p).time = s.time := by simp [State.routeOwn, apply_ite State.time]
@[simp] theorem routeOutbox_time : s.routeOutbox.time = s.time := by simp [State.routeOutbox, apply_ite State.time, foldl_time]

/-! ### The tick -/

theorem tick_dark (h : s.power.alwaysOn = false) : s.tick = s := by simp [State.tick, h]

/-- R38: one TCLK cycle adds the rate word, and nothing else of the time base moves. -/
theorem tick_time (h : s.power.alwaysOn = true) : s.tick.time = { s.time with gtb := s.time.gtb + s.time.rate } := by
  simp [State.tick, h, State.trackIdle, apply_ite State.time, foldl_time]

end Sys2Proof.Laws

namespace Sys2Proof.Machine
open Sys2Proof.Laws

theorem step_idle {s : State} (h : s.pending = []) : step s = .next s.tick := by simp [step, h]

/-- Settles O2: the tick adds the rate word first, and nothing that it runs afterwards moves the time base. That a step on an empty
queue is one TCLK cycle is the model's choice (log 2). -/
theorem emptyQueueRunsOneClock : Obligations.EmptyQueueRunsOneClock := by
  intro s h
  exact ⟨s.tick, step_idle h, fun on => by rw [tick_time s on], tick_dark s⟩

end Sys2Proof.Machine
end

section
namespace Sys2Proof.Laws
open Sys2Proof.Machine
variable (s : State)

/-! ### The one step of the GTB and what frames it (R39, R40, R586) -/

@[simp] theorem extWrite_time (e : Event) (n : Nat) : (s.extWrite e n).time = s.time := by
  simp [State.extWrite, State.memPut, apply_ite State.time]
@[simp] theorem commitEvent_time (e : Event) : (s.commitEvent e).time = s.time := by simp [State.commitEvent]

@[simp] theorem drainEvents_time (n : Nat) : (s.drainEvents n).time = s.time := by
  induction n generalizing s with
  | zero => rfl
  | succ n ih =>
    unfold State.drainEvents
    split
    · rfl
    · split <;> simp [ih]

@[simp] theorem flushEvents_time : s.flushEvents.time = s.time := by simp [State.flushEvents]
@[simp] theorem moveUnits_time (d : Int) : (s.moveUnits d).time = s.time := rfl
@[simp] theorem moveEntries_time (d : Int) : (s.moveEntries d).time = s.time := rfl
@[simp] theorem moveTimers_time (d : Int) : (s.moveTimers d).time = s.time := rfl
@[simp] theorem newGrids_time (old : Nat) : (s.newGrids old).time = s.time := rfl
@[simp] theorem enableScanner_time : s.enableScanner.time = s.time := by simp [State.enableScanner, apply_ite State.time]

/-- The GTB after a step by an offset in 1/16 ns (R39). -/
def steppedGtb (s : State) (theta : Int) : BitVec 96 := BitVec.ofInt 96 ((s.time.gtb.toNat : Int) - theta * 2 ^ 28)

theorem stepTime_time (theta : Int) : (s.stepTime theta).time =
    { s.time with
      gtb := steppedGtb s theta, stepped := true, stepOld := BitVec.ofNat 64 s.now
      stepNew := BitVec.ofNat 64 (steppedGtb s theta >>> 32).toNat, locked := true, lockedOnce := true } := by
  simp [State.stepTime, steppedGtb, State.now]

theorem setHoldover_same {b : Bool} (h : s.time.holdover = b) : s.setHoldover b = s := if_pos h

@[simp] theorem setHoldover_time (b : Bool) : (s.setHoldover b).time = { s.time with holdover := b } := by
  unfold State.setHoldover
  split
  · next h => rw [← h]
  · rfl

end Sys2Proof.Laws

namespace Sys2Proof.Machine
open Sys2Proof.Laws
variable {s : State}

/-! ## Time from the parent (O53) -/

theorem atPort_powered {n : Nat} (hn : n < 40) (up : s.power.routes = true) (f : State → State) : s.atPort n f = f s :=
  if_pos ⟨hn, up⟩

/-! ### Delays (R411) -/

theorem delayReqSend_mute (h : s.power.routes = false ∨ s.fab.node = 0) : delayReqSend s = s := by
  have : (!s.power.routes) = true ∨ s.fab.node = 0 := by simpa using h
  exact if_pos this

theorem delayReqSend_named (up : s.power.routes = true) (named : s.fab.node ≠ 0) : delayReqSend s =
    (List.range 40).foldl (fun z n =>
      if (z.port n).st = .up then (z.updPort n fun p => { p with t1 := some z.eighths }).portSend n
        (z.linkPacket (z.port n).peerNode 0x23 (natBytes 16 z.eighths)) else z) s :=
  if_neg (not_or.2 ⟨by simp [up], named⟩)

section
variable {n : Nat} (up : s.power.routes = true) (hn : n < 40)
include up hn

theorem delayReq_up (linked : (s.port n).st = .up) (named : s.fab.node ≠ 0) : delayReq n s =
    s.portSend n (s.linkPacket (s.port n).peerNode 0x24 (natBytes 8 s.eighths ++ natBytes 8 s.eighths)) := by
  rw [delayReq, atPort_powered hn up, if_neg (not_or.2 ⟨not_not.2 linked, named⟩)]

theorem delayReq_not_up (linked : (s.port n).st ≠ .up) : delayReq n s = s := by
  rw [delayReq, atPort_powered hn up, if_pos (.inl linked)]

theorem delayRsp_open {t1 t2 t3 : Nat} (asked : (s.port n).t1 = some t1) (linked : (s.port n).st = .up) (named : s.fab.node ≠ 0) :
    delayRsp n t2 t3 s = s.setPort n { s.port n with
      t1 := none, delay := ((s.eighths : Int) - t1) - ((t3 : Int) - t2) } := by
  rw [delayRsp, atPort_powered hn up]
  simp only [asked]
  exact if_neg (not_or.2 ⟨not_not.2 linked, named⟩)

theorem delayRsp_unasked {t2 t3 : Nat} (asked : (s.port n).t1 = none) : delayRsp n t2 t3 s = s := by
  simp [delayRsp, atPort_powered hn up, asked]

/-! ### SYNC (R39, R41, R43, R44) -/

theorem syncReceive_stranger {ts : Nat} (other : s.timeParent ≠ some n) : syncReceive n ts s = s := by
  rw [syncReceive, atPort_powered hn up, if_pos (.inl other)]

/-- The offset that a SYNC shows, in 1/16 ns (R411). -/
def syncOffset (s : State) (n ts : Nat) : Int := 2 * ((s.eighths : Int) - ts) - (s.port n).delay

/-- A state after a SYNC that slews (R41, R42, R53). -/
def slewing (s : State) (theta : Int) : State :=
  { s with time := { s.time with
      lastSync := s.now, offset := offsetWord theta, rate := rateWord (slewFor theta)
      ratePpb := BitVec.ofInt 32 (slewFor theta), locked := decide (theta.natAbs ≤ 64) } }

section
variable {ts : Nat} (parent : s.timeParent = some n) (named : s.fab.node ≠ 0)
include parent named

theorem syncReceive_slews (once : s.time.lockedOnce = true) : syncReceive n ts s =
    ((slewing s (syncOffset s n ts)).setHoldover false).syncCheck (syncOffset s n ts) := by
  rw [syncReceive, atPort_powered hn up, if_neg (not_or.2 ⟨not_not.2 parent, named⟩)]
  exact if_neg (by simp [once])

theorem syncReceive_steps_time (once : s.time.lockedOnce = false) :
    (syncReceive n ts s).time.lockedOnce = true ∧ (syncReceive n ts s).time.locked = true ∧
      (syncReceive n ts s).time.stepped = true ∧ (syncReceive n ts s).time.holdover = false ∧
      (syncReceive n ts s).time.gtb = steppedGtb s (syncOffset s n ts) := by
  rw [syncReceive, atPort_powered hn up, if_neg (not_or.2 ⟨not_not.2 parent, named⟩)]
  simp [once, stepTime_time, steppedGtb, syncOffset]

end
end

theorem syncSend_quiet (locked : s.time.locked = false) (master : s.time.master = false) : syncSend s = s :=
  if_pos (.inr (.inr (by simp [locked, master])))

theorem syncSend_mute (h : s.power.routes = false ∨ s.fab.node = 0) : syncSend s = s :=
  if_pos (h.elim (fun dark => .inl (by simp [dark])) fun nameless => .inr (.inl nameless))

theorem syncSend_synced (up : s.power.routes = true) (named : s.fab.node ≠ 0) (synced : (s.time.locked || s.time.master) = true) :
    syncSend s = (List.range 40).foldl (fun z n =>
      if z.childPort n then z.portSend n (z.linkPacket (z.port n).peerNode 0x22 (natBytes 16 z.eighths)) else z) s :=
  if_neg (not_or.2 ⟨by simp [up], not_or.2 ⟨named, by simp [synced]⟩⟩)

/-! ### OUT_OF_SYNC (R44) and the bound of the slew (R41) -/

theorem syncCheck_settled {theta : Int} (h : theta.natAbs ≤ 16000 ∨ s.time.outOfSync = true) : s.syncCheck theta = s := if_pos h

theorem syncCheck_sets {theta : Int} (far : 16000 < theta.natAbs) (first : s.time.outOfSync = false) (quiet : s.time.alertEn = false) :
    s.syncCheck theta = ({ s with time := { s.time with outOfSync := true } }.hwSet 0x002_0008 0x10).event (srcHub 0x300) 0x0102
      (detail3 (offsetWord theta).toNat 0 0) := by
  rw [State.syncCheck, if_neg (by simp [first]; omega)]
  exact if_neg (by simp [quiet])

theorem slewFor_bounded (theta : Int) : -500000 ≤ slewFor theta ∧ slewFor theta ≤ 500000 := by
  unfold slewFor
  omega

/-! ### Holdover (R43, R413) -/

theorem syncTimeout_orphan (orphan : s.timeParent = none) : syncTimeout s = s := by simp [syncTimeout, orphan]

section
variable {n : Nat} (parent : s.timeParent = some n)
include parent

theorem syncTimeout_early (early : s.now < s.time.lastSync + 375000) : syncTimeout s = s := by
  simp [syncTimeout, parent, early]

theorem syncTimeout_due (due : s.time.lastSync + 375000 ≤ s.now) : syncTimeout s =
    ({ s.setPort n { s.port n with advert := none } with time := { s.time with locked := false } }).setHoldover true := by
  simp only [syncTimeout, parent]
  exact if_neg (Nat.not_lt.2 due)

end

theorem timeSyncTimeout_early (h : s.time.lockedOnce = true ∨ s.now < s.syncLimit) : timeSyncTimeout s = s := if_pos h

theorem timeSyncTimeout_due (never : s.time.lockedOnce = false) (due : s.syncLimit ≤ s.now) : timeSyncTimeout s =
    ((({ s with time := { s.time with timedOut := s.time.timedOut || s.offers.isEmpty } }.setHoldover true).elect).enableScanner) :=
  if_neg (by simp [never, due])

theorem syncLimit_from_reset (h : s.time.upFirst = none) : s.syncLimit = s.time.resetLeft + 2000000000 := by
  simp [State.syncLimit, h]

theorem syncLimit_from_up {t : Nat} (h : s.time.upFirst = some t) : s.syncLimit = t + 500000000 := by
  simp [State.syncLimit, h]

/-! ### The commands -/

theorem exec_delayReqSend : exec .delayReqSend s = .next (delayReqSend s) := rfl
theorem exec_delayReq {port : BitVec 6} {t1 : BitVec 67} : exec (.delayReq port t1) s = .next (delayReq port.toNat s) := rfl
theorem exec_delayRsp {port : BitVec 6} {t2 t3 : BitVec 67} :
    exec (.delayRsp port t2 t3) s = .next (delayRsp port.toNat t2.toNat t3.toNat s) := rfl
theorem exec_syncSend : exec .syncSend s = .next (syncSend s) := rfl
theorem exec_sync {port : BitVec 6} {ts : BitVec 67} : exec (.sync port ts) s = .next (syncReceive port.toNat ts.toNat s) := rfl
theorem exec_syncTimeout : exec .syncTimeout s = .next (syncTimeout s) := rfl
theorem exec_timeSyncTimeout : exec .timeSyncTimeout s = .next (timeSyncTimeout s) := rfl

/-! ### The clauses of O53 -/

/-- A SYNC from the parent: after the first lock it slews, before it steps the GTB. -/
theorem exec_sync_parent {port : BitVec 6} {ts : BitVec 67} (up : s.power.routes = true) (hn : port.toNat < 40)
    (parent : s.timeParent = some port.toNat) (named : s.fab.node ≠ 0) :
    let theta := syncOffset s port.toNat ts.toNat
    (s.time.lockedOnce = true → s.time.holdover = false → theta.natAbs ≤ 16000 →
      exec (.sync port ts) s = .next (slewing s theta)) ∧
    (s.time.lockedOnce = true → exec (.sync port ts) s = .next (((slewing s theta).setHoldover false).syncCheck theta)) ∧
    (s.time.lockedOnce = false → ∃ t, exec (.sync port ts) s = .next t ∧ t.time.lockedOnce = true ∧ t.time.locked = true ∧
      t.time.stepped = true ∧ t.time.holdover = false ∧ t.time.gtb = steppedGtb s theta) := by
  intro theta
  refine ⟨fun once held near => ?_, fun once => ?_, fun once => ⟨_, exec_sync, syncReceive_steps_time up hn parent named once⟩⟩
  · have kept : (slewing s theta).setHoldover false = slewing s theta := setHoldover_same _ held
    rw [exec_sync, syncReceive_slews up hn parent named once, kept, syncCheck_settled (.inl near)]
  · rw [exec_sync, syncReceive_slews up hn parent named once]

/-- Settles O53: each row by the law of its case; the first lock steps the GTB alone, and nothing that it moves or logs moves the
time base again. The payloads of delay packets and the ports that carry SYNC are the model's choice (log 28). -/
theorem timeIsCarriedFromTheParent : Obligations.TimeIsCarriedFromTheParent := by
  refine ⟨fun s => ⟨fun h => ⟨?_, ?_⟩, fun up named => ?_⟩, fun s port t1 up hn => ⟨fun st named => ?_, fun st => ?_⟩,
    fun s port t2 t3 up hn => ⟨fun t1 asked st named => ?_, fun asked => ?_⟩, fun s locked master => ?_,
    fun s up named synced => ?_, fun s port ts up hn => ⟨fun other => ?_, exec_sync_parent up hn⟩,
    fun s theta => ⟨syncCheck_settled, syncCheck_sets⟩, slewFor_bounded,
    fun s => ⟨fun orphan => ?_, fun n parent => ⟨fun early => ?_, fun due => ?_⟩, fun h => ?_, fun never due => ?_, syncLimit_from_reset, fun t => syncLimit_from_up⟩⟩
  · rw [exec_delayReqSend, delayReqSend_mute h]
  · rw [exec_syncSend, syncSend_mute h]
  · rw [exec_delayReqSend, delayReqSend_named up named]
  · rw [exec_delayReq, delayReq_up up hn st named]
  · rw [exec_delayReq, delayReq_not_up up hn st]
  · rw [exec_delayRsp, delayRsp_open up hn asked st named]
  · rw [exec_delayRsp, delayRsp_unasked up hn asked]
  · rw [exec_syncSend, syncSend_quiet locked master]
  · rw [exec_syncSend, syncSend_synced up named synced]
  · rw [exec_sync, syncReceive_stranger up hn other]
  · rw [exec_syncTimeout, syncTimeout_orphan orphan]
  · rw [exec_syncTimeout, syncTimeout_early parent early]
  · rw [exec_syncTimeout, syncTimeout_due parent due]
  · rw [exec_timeSyncTimeout, timeSyncTimeout_early h]
  · rw [exec_timeSyncTimeout, timeSyncTimeout_due never due]

end Sys2Proof.Machine
end

section
namespace Sys2Proof.Machine
open Sys2Proof.Laws
variable {s : State}

/-! ## Droops, heat, the input and power bins (O45) -/

/-! ### Droops and thermal steps (R33, R518) -/

section
variable {d : Nat}

theorem supplyDroop_idle (h : (s.die d).droop = true ∨ s.power.rails = false) : supplyDroop d s = s :=
  if_pos (h.imp_right fun off => by simp [off])

theorem supplyDroop_stopped (new : (s.die d).droop = false) (rails : s.power.rails = true) (stopped : s.aclkRuns = false) :
    supplyDroop d s = s.setDie d { s.die d with droop := true } := by
  simp [supplyDroop, new, rails, stopped]

theorem supplyDroop_running (new : (s.die d).droop = false) (rails : s.power.rails = true) (runs : s.aclkRuns = true) :
    supplyDroop d s =
      (s.setDie d { s.die d with droop := true, stretching := true, stretchSeen := true }).hwSet (0x001_0100 + 4 * d) 0x2_0000 := by
  simp [supplyDroop, new, rails, runs]

theorem thermalStepDown_idle (h : s.aclkRuns = false ∨ (s.die d).nextMhz < 605) : thermalStepDown d s = s :=
  if_pos (h.imp_left fun stopped => by simp [stopped])

section
variable (runs : s.aclkRuns = true) (high : 605 ≤ (s.die d).nextMhz)
include runs high

theorem thermalStepDown_above (above : s.power.floorMhz ≤ (s.die d).nextMhz - 55) :
    thermalStepDown d s = s.setDie d { s.die d with nextMhz := (s.die d).nextMhz - 55, thermal := true } := by
  have step : ¬((!s.aclkRuns) = true ∨ (s.die d).nextMhz < 605) := by simp [runs, high]
  simp only [thermalStepDown, if_neg step, decide_eq_false (Nat.not_lt.2 above), Bool.or_false]
  rfl

theorem thermalStepDown_below (below : (s.die d).nextMhz - 55 < s.power.floorMhz) :
    let t := ({ s.setDie d { s.die d with nextMhz := (s.die d).nextMhz - 55, thermal := true } with
      power := { s.power with thermBelow := true } } : State).hwSet 0x001_0040 0x20
    thermalStepDown d s = if s.power.alertEn then t.alert else t := by
  have step : ¬((!s.aclkRuns) = true ∨ (s.die d).nextMhz < 605) := by simp [runs, high]
  simp only [thermalStepDown, if_neg step, decide_eq_true below, Bool.or_true]
  rfl

end
end

/-! ### The input (R509) -/

theorem powerAlert_quiet {b : Bool} (h : s.power.alertEn = false) : s.powerAlert b = s := if_neg (by simp [h])

section
variable {mv current : BitVec 16} {steps : AclkSteps}

theorem vinBelowMin_enough (h : s.power.band.vinMin ≤ mv) : vinBelowMin mv current steps s = s := if_pos (.inr h)

@[simp] theorem lowerAclk_power : (s.lowerAclk steps).power = s.power := by
  simp [State.lowerAclk, aclkList]

/-- The state that shows a low input (R509). -/
def withLowInput (s : State) (mv current : BitVec 16) : State :=
  { s with power := { s.power with vinMv := mv, current := current, vinLow := true } }

section
variable (on : s.power.alwaysOn = true) (low : mv < s.power.band.vinMin)
include on low

theorem vinBelowMin_low : vinBelowMin mv current steps s =
    ((if s.aclkRuns then (withLowInput s mv current).lowerAclk steps else withLowInput s mv current).hwSet
      0x001_0040 0x10).powerAlert true :=
  if_neg (by simp [on, low])

variable (quiet : s.power.alertEn = false)
include quiet

theorem vinBelowMin_stopped (stopped : s.aclkRuns = false) :
    vinBelowMin mv current steps s = (withLowInput s mv current).hwSet 0x001_0040 0x10 := by
  rw [vinBelowMin_low on low, if_neg (by simp [stopped]), powerAlert_quiet (by simpa [withLowInput] using quiet)]

theorem vinBelowMin_running (runs : s.aclkRuns = true) :
    vinBelowMin mv current steps s = ((withLowInput s mv current).lowerAclk steps).hwSet 0x001_0040 0x10 := by
  rw [vinBelowMin_low on low, if_pos runs, powerAlert_quiet (by simpa [withLowInput] using quiet)]

end
end

/-! ### Bands (R516, R517) -/

theorem applyBand_on {force : Bool} (on : s.power.alwaysOn = true) : s.applyBand force =
    if s.power.staged.bad then { s with power := { s.power with bad := true } }.hwSet 0x001_0034 1
    else { s with power := { s.power with apply := some (s.power.staged, force) } } :=
  if_neg (by simp [on])

/-! ### Power bins (R510 to R513, R529) -/

/-- What a power bin leaves to be read (R529): the draws, the sticky misses, that a bin has ended, and the bins with a miss. -/
def binVerdict (p : Power) : Nat × Nat × Bool × Bool × Bool × Bool × Nat :=
  (p.draw, p.ballast, p.ceilExceed, p.rampExceed, p.floorShort, p.binSeen, p.binMiss)

/-- Stated for any time, so that checking it compares no grid arithmetic. -/
theorem binVerdict_binNext (p : Power) (t : Nat) : binVerdict { p with binNext := t } = binVerdict p := rfl

/-- Power after the judgement of a bin (R510 to R512). -/
def judgedPower (p : Power) (draw ballast : Nat) : Power :=
  let (ceil, ramp, short) := p.misses draw
  { p with
    draw := draw, ballast := ballast, binSeen := true, ceilExceed := p.ceilExceed || ceil, rampExceed := p.rampExceed || ramp
    floorShort := p.floorShort || short, binMiss := if ceil || ramp || short then satAdd32 p.binMiss 1 else p.binMiss }

/-- A message of an interrupt changes nothing of power but WAKE_N. -/
theorem sendMsix_wake (s : State) (fn v : Nat) :
    ∃ h w o, s.sendMsix fn v = { s with host := h, power := { s.power with wakeN := w }, out := o } := by
  by_cases far : (if fn = 0 then 2048 else 4) ≤ v
  · exact ⟨s.host, s.power.wakeN, s.out, if_pos far⟩
  · simp only [State.sendMsix, if_neg far]
    split
    · exact ⟨s.host, s.power.wakeN, _, rfl⟩
    · split
      · exact ⟨_, true, _, rfl⟩
      · exact ⟨_, s.power.wakeN, s.out, rfl⟩

theorem powerAlert_only (s : State) (b : Bool) : ∃ h w o a,
    s.powerAlert b = { s with host := h, power := { s.power with wakeN := w }, out := o, alertN := a } := by
  unfold State.powerAlert State.alert
  split
  · split
    · obtain ⟨h, w, o, e⟩ := sendMsix_wake s 0 s.host.evtVec.toNat
      exact ⟨h, w, o, s.alertN, e⟩
    · obtain ⟨h, w, o, e⟩ := sendMsix_wake (({ s with alertN := true }.emit (.pin "ALERT_N" true)).emit (.ibi 2)) 0
        s.host.evtVec.toNat
      exact ⟨h, w, o, true, e⟩
  · exact ⟨s.host, s.power.wakeN, s.out, s.alertN, rfl⟩

/-- The next bin can change power but its verdict, the dies, and the marks of R17. -/
def OnlyBin (s t : State) : Prop := ∃ p d y, t = { s with power := p, dies := d, sets := y } ∧ binVerdict p = binVerdict s.power

theorem OnlyBin.refl (s : State) : OnlyBin s s := ⟨_, _, _, rfl, rfl⟩

theorem OnlyBin.trans {a b c : State} (h : OnlyBin a b) (g : OnlyBin b c) : OnlyBin a c := by
  obtain ⟨_, _, _, rfl, hv⟩ := h
  obtain ⟨p, d, y, rfl, gv⟩ := g
  exact ⟨p, d, y, rfl, gv.trans hv⟩

theorem OnlyBin.setDie (s : State) (d : Nat) (v : Die) : OnlyBin s (s.setDie d v) := ⟨_, _, _, rfl, rfl⟩
theorem OnlyBin.hwSetIf (s : State) (c : Bool) (off bits : Nat) : OnlyBin s (s.hwSetIf c off bits) := by
  cases c
  · exact .refl s
  · exact ⟨_, _, _, rfl, rfl⟩
theorem OnlyBin.updPower (s : State) {f : Power → Power} (h : ∀ p, binVerdict (f p) = binVerdict p) : OnlyBin s (s.updPower f) :=
  ⟨_, _, _, rfl, h _⟩

theorem OnlyBin.takeBand (s : State) (b : Band) (force : Bool) : OnlyBin s (s.takeBand b force) := by
  unfold State.takeBand
  exact (OnlyBin.hwSetIf s _ _ _).trans (.updPower _ fun _ => rfl)

theorem OnlyBin.binAclk (s : State) (steps : AclkSteps) (limit : Nat) : OnlyBin s (s.binAclk steps limit) := by
  refine foldl_keeps OnlyBin .refl (fun _ _ _ => .trans) _ (fun s e => ?_) _ s
  dsimp only
  split <;> exact .setDie s _ _

theorem OnlyBin.clocked (s : State) (steps : AclkSteps) (limit : Nat) :
    OnlyBin s (if s.aclkRuns then s.binAclk steps limit else s) := by
  split
  · exact .binAclk s steps limit
  · exact .refl s

theorem OnlyBin.beginBin (s : State) (steps : AclkSteps) : OnlyBin s (s.beginBin steps) := by
  unfold State.beginBin
  cases s.power.apply with
  | none => exact (OnlyBin.clocked s _ _).trans (.updPower _ fun p => binVerdict_binNext p _)
  | some band => exact ((OnlyBin.takeBand s _ _).trans (.clocked _ _ _)).trans (.updPower _ fun p => binVerdict_binNext p _)

/-- A judged bin: its verdict, the marks of R17, and what ALERT_N does. -/
def judgeBin (s : State) (draw ballast : Nat) : State :=
  let (ceil, ramp, short) := s.power.misses draw
  (({ s with power := judgedPower s.power draw ballast } : State).hwSet
    0x001_0040 (b2n ceil + 2 * b2n ramp + 4 * b2n short)).powerAlert ceil

theorem judgeBin_only (s : State) (draw ballast : Nat) : ∃ h w o a y, judgeBin s draw ballast =
    { s with host := h, power := { judgedPower s.power draw ballast with wakeN := w }, out := o, alertN := a, sets := y } := by
  obtain ⟨h, w, o, a, e⟩ := powerAlert_only _ _
  exact ⟨h, w, o, a, _, e⟩

section
variable {draw ballast : BitVec 14} {steps : AclkSteps}

theorem powerBinEnd_early (early : s.now < s.power.binNext) (whole : s.power.binCut = false) : powerBinEnd draw ballast steps s = s :=
  if_pos (.inr ⟨early, by simp [whole]⟩)

theorem powerBinEnd_due (on : s.power.alwaysOn = true) (due : s.power.binNext ≤ s.now ∨ s.power.binCut = true) :
    powerBinEnd draw ballast steps s =
      if s.power.binCut then (judgeBin s draw.toNat ballast.toNat).updPower fun p => { p with binCut := false }
      else (judgeBin s draw.toNat ballast.toNat).beginBin steps := by
  refine if_neg ?_
  rintro (dark | ⟨early, whole⟩)
  · simp [on] at dark
  · exact due.elim (Nat.not_le.2 early) fun cut => by simp [cut] at whole

theorem binVerdict_judged (p : Power) (draw ballast : Nat) :
    let ceil := decide (p.cEff < draw)
    let ramp := p.binSeen && decide (p.band.ramp.toNat < max (draw - p.draw) (p.draw - draw))
    let short := p.st == .w0 && decide (draw < p.band.floor.toNat)
    binVerdict (judgedPower p draw ballast) = (draw, ballast, p.ceilExceed || ceil, p.rampExceed || ramp, p.floorShort || short, true,
      if ceil || ramp || short then satAdd32 p.binMiss 1 else p.binMiss) := rfl

/-- Where a bin is judged, only what R510 to R513 and R529 name can change. -/
theorem powerBinEnd_verdict (on : s.power.alwaysOn = true) (due : s.power.binNext ≤ s.now ∨ s.power.binCut = true) :
    ∃ p d h o a y, powerBinEnd draw ballast steps s =
        { s with power := p, dies := d, host := h, out := o, alertN := a, sets := y } ∧
      binVerdict p = binVerdict (judgedPower s.power draw.toNat ballast.toNat) ∧
      (s.power.binCut = true → p.binNext = s.power.binNext ∧ p.binCut = false ∧ d = s.dies) := by
  obtain ⟨h, w, o, a, y, judge⟩ := judgeBin_only s draw.toNat ballast.toNat
  rw [powerBinEnd_due on due]
  cases cut : s.power.binCut with
  | true =>
    rw [if_pos rfl, judge]
    exact ⟨_, _, h, o, a, y, rfl, rfl, fun _ => ⟨rfl, rfl, rfl⟩⟩
  | false =>
    obtain ⟨p, d, y', begun, kept⟩ := OnlyBin.beginBin (judgeBin s draw.toNat ballast.toNat) steps
    rw [if_neg Bool.false_ne_true, begun, judge]
    rw [judge] at kept
    exact ⟨p, d, h, o, a, y', rfl, kept, fun cut => nomatch cut⟩

end

/-! ### The forecast (R519) -/

/-- Power after a page is published: it goes into the half that is not current, and the halves flip. -/
def publishedPower (p : Power) (page : BitVec 6528) (next : Nat) : Power :=
  { p with
    page0 := if p.fcCur then page else p.page0, page1 := if p.fcCur then p.page1 else page
    fcCur := !p.fcCur, fcSeq := (p.fcSeq + 1) % 2 ^ 32, fcNext := next }

theorem forecastPublish_early {bins : List Word} (early : s.now < s.power.fcNext) : forecastPublish bins s = s := if_pos (.inr early)

theorem forecastPublish_due {bins : List Word} (on : s.power.alwaysOn = true) (due : s.power.fcNext ≤ s.now)
    (quiet : s.power.fcastIbi = false) :
    ∃ page next, forecastPublish bins s = { s with power := publishedPower s.power page next } := by
  have now : ¬((!s.power.alwaysOn) = true ∨ s.now < s.power.fcNext) := by simp [on, due]
  simp only [forecastPublish, if_neg now, updPower_power, quiet]
  exact ⟨_, _, rfl⟩

/-! ### Links between dies (R27, R475, R477) -/

section
variable {src : Nat}

theorem dieLinkRetry_nowhere (h : linkPeer src = none) : dieLinkRetry src s = s := if_pos (by simp [h])
theorem dieLinkLaneRepair_nowhere (h : linkPeer src = none) : dieLinkLaneRepair src s = s := if_pos (by simp [h])
theorem dieLinkLost_nowhere (h : linkPeer src = none) : dieLinkLost src s = s := by simp [dieLinkLost, h]

theorem dieLinkRetry_counts (h : linkPeer src ≠ none) : dieLinkRetry src s =
    ((s.updLink src fun l => { l with retries := satAdd64 l.retries 1 }).countLinks src 1 0).eventAgg src 0x0501 :=
  if_neg (by simpa using h)

theorem dieLinkLaneRepair_counts (h : linkPeer src ≠ none) (sorted : smapSorted s.links = true) :
    dieLinkLaneRepair src s = ((s.updLink src fun l => { l with lanes := satAdd64 l.lanes 1 }).countLinks src 0 1).spare (src / 2048)
      .dieLanes src (satAdd64 (smapGet DieLink.reset s.links src).lanes 1) := by
  have counted : (smapGet DieLink.reset (s.updLink src fun l => { l with lanes := satAdd64 l.lanes 1 }).links src).lanes =
      satAdd64 (smapGet DieLink.reset s.links src).lanes 1 := by
    rw [updLink_links, smapUpd, smapGet_set_self _ sorted]
  rw [← counted]
  exact if_neg (by simpa using h)

theorem dieLinkLost_ends {peer : Nat} (h : linkPeer src = some peer) :
    let mark := fun (z : State) (x : Nat) => (z.updLink x fun l => { l with lost := true }).spare (x / 2048) .dieLanes x 0
    dieLinkLost src s = (mark (mark s src) peer).linkGone src peer := by
  simp [dieLinkLost, h]

end

/-! ### The commands -/

theorem exec_supplyDroop {die : DieNo} : exec (.supplyDroop die) s = .next (supplyDroop die.toNat s) := rfl
theorem exec_thermalStepDown {die : DieNo} : exec (.thermalStepDown die) s = .next (thermalStepDown die.toNat s) := rfl
theorem exec_vinBelowMin {mv current : BitVec 16} {steps : AclkSteps} :
    exec (.vinBelowMin mv current steps) s = .next (vinBelowMin mv current steps s) := rfl
theorem exec_powerBinEnd {draw ballast : BitVec 14} {steps : AclkSteps} :
    exec (.powerBinEnd draw ballast steps) s = .next (powerBinEnd draw ballast steps s) := rfl
theorem exec_pwrBandApply (on : s.power.alwaysOn = true) : exec .pwrBandApply s = .next (s.applyBand false) :=
  congrArg Host.Outcome.next (if_pos on)
theorem exec_pwrBandForce (on : s.power.alwaysOn = true) : exec .pwrBandForce s = .next (s.applyBand true) :=
  congrArg Host.Outcome.next (if_pos on)
theorem exec_forecastPublish {bins : List Word} : exec (.forecastPublish bins) s = .next (forecastPublish bins s) := rfl
theorem exec_dieLinkRetry {src : SrcNo} : exec (.dieLinkRetry src) s = .next (dieLinkRetry src.toNat s) := rfl
theorem exec_dieLinkLaneRepair {src : SrcNo} : exec (.dieLinkLaneRepair src) s = .next (dieLinkLaneRepair src.toNat s) := rfl
theorem exec_dieLinkRetrainTimeout {src : SrcNo} : exec (.dieLinkRetrainTimeout src) s = .next (dieLinkLost src.toNat s) := rfl

/-! ### The clauses of O45 -/

/-- Settles O45: each row by the law of its case; a bin's end by its verdict, which the beginning of the next bin keeps. How a bin is
judged, and the ramp from the second bin on, are the model's choice (log 31). -/
theorem clocksFollowDroopsHeatAndPower : Obligations.ClocksFollowDroopsHeatAndPower := by
  refine ⟨fun s die => ⟨fun h => ?_, fun new rails stopped => ?_, fun new rails runs => ?_, rfl, fun h => ?_, fun runs high =>
      ⟨fun above => ?_, fun below => ?_⟩⟩,
    fun s mv current steps => ⟨fun enough => ?_, fun on low stopped quiet => ?_, fun on low runs quiet => ?_⟩,
    fun s draw ballast steps => ⟨fun early whole => ?_, fun on due => ?_⟩, fun s on => ⟨?_, ?_⟩,
    fun s bins => ⟨fun early => ?_, fun on due quiet => ?_⟩,
    fun s src => ⟨fun nowhere => ⟨?_, ?_, ?_⟩, fun there units => ⟨?_, ?_⟩, fun peer there => ?_⟩⟩
  · rw [exec_supplyDroop, supplyDroop_idle h]
  · rw [exec_supplyDroop, supplyDroop_stopped new rails stopped]
  · rw [exec_supplyDroop, supplyDroop_running new rails runs]
  · rw [exec_thermalStepDown, thermalStepDown_idle h]
  · rw [exec_thermalStepDown, thermalStepDown_above runs high above]
  · rw [exec_thermalStepDown, thermalStepDown_below runs high below]
  · rw [exec_vinBelowMin, vinBelowMin_enough enough]
  · rw [exec_vinBelowMin, vinBelowMin_stopped on low quiet stopped, withLowInput]
  · rw [exec_vinBelowMin, vinBelowMin_running on low quiet runs, withLowInput]
  · rw [exec_powerBinEnd, powerBinEnd_early early whole]
  · obtain ⟨p, d, h, o, a, y, ended, kept, cut⟩ := powerBinEnd_verdict (ballast := ballast) (draw := draw) (steps := steps) on due
    rw [binVerdict_judged] at kept
    simp only [binVerdict, Prod.mk.injEq] at kept
    obtain ⟨hdraw, hballast, hceil, hramp, hshort, hseen, hmiss⟩ := kept
    rw [exec_powerBinEnd, ended]
    exact ⟨_, rfl, hdraw, hballast, hceil, hramp, hshort, hseen, hmiss, rfl, cut⟩
  · rw [exec_pwrBandApply on, applyBand_on on]
  · rw [exec_pwrBandForce on, applyBand_on on]
  · rw [exec_forecastPublish, forecastPublish_early early]
  · obtain ⟨page, next, flipped⟩ := forecastPublish_due (bins := bins) on due quiet
    rw [exec_forecastPublish, flipped]
    refine ⟨_, rfl, rfl, rfl, rfl, fun first => ?_, fun second => ?_⟩
    · exact if_neg (ne_true_of_eq_false first)
    · exact if_pos second
  · rw [exec_dieLinkRetry, dieLinkRetry_nowhere nowhere]
  · rw [exec_dieLinkLaneRepair, dieLinkLaneRepair_nowhere nowhere]
  · rw [exec_dieLinkRetrainTimeout, dieLinkLost_nowhere nowhere]
  · rw [exec_dieLinkRetry, dieLinkRetry_counts there]
    rfl
  · obtain ⟨_, _, _, _, _, _, links, _⟩ := units
    rw [exec_dieLinkLaneRepair, dieLinkLaneRepair_counts there links]
    rfl
  · rw [exec_dieLinkRetrainTimeout, dieLinkLost_ends there]

end Sys2Proof.Machine
end

section
namespace Sys2Proof.Machine
open Sys2Proof.Laws
variable {s : State} {n : Nat} {v : Word}

/-! ## Configuration and release of partitions (O41) -/

/-! ### PT_CFG (R157, R535) -/

/-- A partition that has taken the value `v` of PT_CFG (R157). -/
def Part.withConfig (p : Part) (v : Word) : Part :=
  { p with
    die := v.extractLsb' 0 2, first := v.extractLsb' 2 5, count := v.extractLsb' 7 5, en := v.getLsbD 12
    writeIgnored := p.writeIgnored && !v.getLsbD 14 }

/-- Every configured partition of die `d` is in reset, as R479 asks before the die's numbering closes up. -/
def State.dieInReset (s : State) (d : Nat) : Bool :=
  (List.range 16).all fun m => !((s.part m).en && (s.part m).die.toNat == d) || (s.part m).inReset

theorem ptCfgWrite_vf : ptCfgWrite n true v s = s := rfl

theorem ptCfgWrite_ignored
    (h : (s.part n).inReset = false ∨ ((s.part n).hold = false ∧ (s.part n).quarantined = false)) :
    ptCfgWrite n false v s =
      (s.setPart n { s.part n with writeIgnored := true }).hwSet (0x010_0010 + 0x1_0000 * n) 0x4000 := by
  have locked : (!((s.part n).inReset && ((s.part n).hold || (s.part n).quarantined))) = true := by
    obtain running | ⟨free, sound⟩ := h
    · simp [running]
    · simp [free, sound]
  simp only [ptCfgWrite, Bool.false_eq_true, if_false, if_pos locked]

theorem ptCfgWrite_taken (reset : (s.part n).inReset = true)
    (held : (s.part n).hold = true ∨ (s.part n).quarantined = true) :
    let w := s.clears (0x010_0010 + 0x1_0000 * n) v
    let d := (w.extractLsb' 0 2).toNat
    let t := s.setPart n ((s.part n).withConfig w)
    ptCfgWrite n false v s = if t.dieInReset d then t.densify d else t := by
  have unlocked : ¬(!((s.part n).inReset && ((s.part n).hold || (s.part n).quarantined))) = true := by
    obtain byHost | byAbmito := held
    · simp [reset, byHost]
    · simp [reset, byAbmito]
  simp only [ptCfgWrite, Bool.false_eq_true, if_false, if_neg unlocked]
  rfl

/-! ### PT_RST.HOLD (R493, R535, R596) -/

/-- A ladder step covers partition `n` (R493). -/
def State.partBusy (s : State) (n : Nat) : Bool := s.ladder.steps.any fun t => s.covers t.target (.part n)

theorem ptRstHoldWrite_vf {hold : Bool} : ptRstHoldWrite n true hold s = s := rfl

/-- A write of 0 is judged by EN, by the checks of R157, by the quarantine and by the service of the partition. -/
theorem ptRstHoldWrite_release : ptRstHoldWrite n false false s =
    if !(s.part n).en || s.cfgBad n || (s.part n).quarantined || (s.part n).outOfService then
      (s.setPart n { s.part n with bad := s.cfgBad n, refused := true }).hwSet (0x010_0000 + 0x1_0000 * n) 4
    else s.setPart n { s.part n with
      bad := s.cfgBad n, hold := false, inReset := (s.part n).inReset && s.partBusy n
      releasedNow := (s.part n).inReset && !s.partBusy n } := rfl

theorem ptRstHoldWrite_release_refused
    (h : (s.part n).en = false ∨ s.cfgBad n = true ∨ (s.part n).quarantined = true ∨ (s.part n).outOfService = true) :
    ptRstHoldWrite n false false s =
      (s.setPart n { s.part n with bad := s.cfgBad n, refused := true }).hwSet (0x010_0000 + 0x1_0000 * n) 4 := by
  have fails : (!(s.part n).en || s.cfgBad n || (s.part n).quarantined || (s.part n).outOfService) = true := by
    simpa [or_assoc] using h
  rw [ptRstHoldWrite_release, if_pos fails]

theorem ptRstHoldWrite_release_taken (en : (s.part n).en = true) (sound : s.cfgBad n = false)
    (free : (s.part n).quarantined = false) (serves : (s.part n).outOfService = false) :
    ptRstHoldWrite n false false s = s.setPart n { s.part n with
      bad := false, hold := false, inReset := (s.part n).inReset && s.partBusy n
      releasedNow := (s.part n).inReset && !s.partBusy n } := by
  have passes : ¬(!(s.part n).en || s.cfgBad n || (s.part n).quarantined || (s.part n).outOfService) = true := by
    simp [en, sound, free, serves]
  rw [ptRstHoldWrite_release, if_neg passes, sound]

/-- A write of 1 holds a partition that is in reset already; of a running one it asks for a reset, under R493. -/
theorem ptRstHoldWrite_hold : ptRstHoldWrite n false true s =
    if (s.part n).inReset then s.setPart n { s.part n with hold := true }
    else if s.partBusy n then
      (({ s with ladder := { s.ladder with ignored := true } }.setPart n { s.part n with refused := true }).hwSet 0x003_0004 0x20).hwSet
        (0x010_0000 + 0x1_0000 * n) 4
    else (s.setPart n { s.part n with hold := true }).startPartReset n := rfl

theorem ptRstHoldWrite_hold_in_reset (reset : (s.part n).inReset = true) :
    ptRstHoldWrite n false true s = s.setPart n { s.part n with hold := true } := by
  rw [ptRstHoldWrite_hold, if_pos reset]

section
variable (running : (s.part n).inReset = false)
include running

theorem ptRstHoldWrite_hold_busy (busy : s.partBusy n = true) : ptRstHoldWrite n false true s =
    (({ s with ladder := { s.ladder with ignored := true } }.setPart n { s.part n with refused := true }).hwSet 0x003_0004 0x20).hwSet
      (0x010_0000 + 0x1_0000 * n) 4 := by
  rw [ptRstHoldWrite_hold, if_neg (ne_true_of_eq_false running), if_pos busy]

theorem ptRstHoldWrite_hold_resets (idle : s.partBusy n = false) :
    ptRstHoldWrite n false true s = (s.setPart n { s.part n with hold := true }).startPartReset n := by
  rw [ptRstHoldWrite_hold, if_neg (ne_true_of_eq_false running), if_neg (ne_true_of_eq_false idle)]

end

/-! ### The commands -/

theorem exec_ptCfgWrite {pt : Pt} {vf : Bool} (h : HostReaches s (0x010_0010 + 0x1_0000 * pt.toNat)) :
    exec (.ptCfgWrite pt vf v) s = .next (ptCfgWrite pt.toNat vf v s) := by
  obtain ⟨link, served⟩ := h
  exact congrArg Host.Outcome.next (hostReg_served _ link served)

theorem exec_ptRstHoldWrite {pt : Pt} {vf hold : Bool} (h : HostReaches s (0x010_0000 + 0x1_0000 * pt.toNat)) :
    exec (.ptRstHoldWrite pt vf hold) s = .next (ptRstHoldWrite pt.toNat vf hold s) := by
  obtain ⟨link, served⟩ := h
  exact congrArg Host.Outcome.next (hostReg_served _ link served)

/-! ### The clauses of O41 -/

/-- Settles O41: each command is its register's write once the access arrives, and each case of the write has its law. That the
checks of a partition with COUNT 0 pass or fail as `cfgBad` says is the model's choice (log 43). -/
theorem partitionsAreConfiguredAndReleased : Obligations.PartitionsAreConfiguredAndReleased := by
  refine ⟨fun s pt v reaches => ⟨?_, fun locked => ?_, fun reset held => ?_⟩,
    fun s pt h reaches => ⟨?_, fun fails => ?_, fun en sound free serves => ?_, fun reset => ?_, fun running busy => ?_,
      fun running idle => ?_⟩⟩
  · rw [exec_ptCfgWrite reaches, ptCfgWrite_vf]
  · rw [exec_ptCfgWrite reaches, ptCfgWrite_ignored locked]
  · exact (exec_ptCfgWrite reaches).trans (congrArg Host.Outcome.next (ptCfgWrite_taken reset held))
  · rw [exec_ptRstHoldWrite reaches, ptRstHoldWrite_vf]
  · rw [exec_ptRstHoldWrite reaches, ptRstHoldWrite_release_refused fails]
  · rw [exec_ptRstHoldWrite reaches, ptRstHoldWrite_release_taken en sound free serves]
    rfl
  · rw [exec_ptRstHoldWrite reaches, ptRstHoldWrite_hold_in_reset reset]
  · rw [exec_ptRstHoldWrite reaches, ptRstHoldWrite_hold_busy running busy]
  · rw [exec_ptRstHoldWrite reaches, ptRstHoldWrite_hold_resets running idle]

end Sys2Proof.Machine
end

section
namespace Sys2Proof.Machine
open Sys2Proof.Laws

/-! ## Rows of the Proof Buffer (O16)

Each of the three events has one guard: whether a row or a header is due. Past it, one law for each case says what the event
does. -/

/-! ### The checks before a FOLD's first row (R164, R165) -/

/-- The bank that a FOLD adds: as it was when a ZOA cleared it behind the FOLD, or as it is. -/
def Core.foldBank (q : Core) (a : Nat) (j : DrainJob) (b : Nat) : Bank := j.snap.getD ((q.array a).bank b)

/-- The slots of a FOLD of an OPEN bank, bound to it (R98, R165). -/
def Core.bindSlots (q : Core) (bank : Bank) (slots : List Nat) : Core :=
  slots.foldl (fun x i => x.setSlot i ((x.slot i).foldInto bank)) q

/-- A FOLD is one that a re-run suppresses (R175). -/
def Core.foldSuppressed (q : Core) (j : DrainJob) : Bool := q.pbOps.any fun o => o.id == j.id && o.suppressed

section
variable {q : Core} {a b sa pc : Nat} {bank : Bank} {sb : Option Nat} {ta tb : Word} {was : BankState} {j : DrainJob}

theorem foldSuppressed_iff : q.foldSuppressed j = true ↔ ∃ o ∈ q.pbOps, o.id = j.id ∧ o.suppressed = true := by
  simp [Core.foldSuppressed]

theorem foldSuppressed_false (live : ¬∃ o ∈ q.pbOps, o.id = j.id ∧ o.suppressed = true) : q.foldSuppressed j = false :=
  eq_false_of_ne_true fun sup => live (foldSuppressed_iff.1 sup)

/-- A FOLD that adds nothing: a suppressed one, or one of a bank that is not OPEN. -/
theorem fold_skips (idle : (∃ o ∈ q.pbOps, o.id = j.id ∧ o.suppressed = true) ∨ was ≠ .open) :
    (q.foldSuppressed j || was != .open) = true := by
  rwa [Bool.or_eq_true, bne_iff_ne, foldSuppressed_iff]

theorem fold_adds (live : q.foldSuppressed j = false) (opened : was = .open) :
    ¬(q.foldSuppressed j || was != .open) = true := by
  simp [live, opened]

theorem foldFaults_zero : foldFaults q a bank b sa sb ta tb .zero pc = [] := by
  simp [foldFaults]

/-- The checks of R164 that a FOLD of an OPEN bank passes. -/
theorem foldFaults_open
    (fits : ∀ x ∈ (sa, ta) :: (sb.map fun x => (x, tb)).toList,
      (q.slot x.1).tag = x.2 ∧ ((q.slot x.1).anchor = none ∨ (q.slot x.1).anchor = bank.anchor))
    (apart : sb ≠ some sa) (half : sb = none → bank.top ≤ 128) : foldFaults q a bank b sa sb ta tb .open pc = [] := by
  have tags : ¬((sa, ta) :: (sb.map fun x => (x, tb)).toList).any (fun x => (q.slot x.1).tag != x.2) = true := by
    simpa using fun x hx => (fits x hx).1
  have shape : ¬(BankState.open = .spent ∨ sb = some sa ∨ (sb.isNone = true ∧ 128 < bank.top)) := by
    rintro (spent | same | ⟨one, more⟩)
    · cases spent
    · exact apart same
    · exact Nat.not_lt.2 (half (Option.isNone_iff_eq_none.1 one)) more
  simp only [foldFaults]
  rw [if_neg BankState.noConfusion, if_neg tags, if_neg ?anchors, if_neg shape]
  case anchors =>
    rintro ⟨-, clash⟩
    obtain ⟨x, hx, differs⟩ := List.any_eq_true.1 clash
    obtain unbound | same := (fits x hx).2
    · simp [unbound] at differs
    · cases bound : bank.anchor <;> simp [same, bound] at differs
  rfl

/-- A suppressed FOLD and one of a ZERO bank meet no fault and bind nothing (R165, R175). -/
theorem foldBegin_skips (kind : j.kind = .fold b sa sb ta tb was)
    (idle : (∃ o ∈ q.pbOps, o.id = j.id ∧ o.suppressed = true) ∨ was = .zero) :
    foldBegin q a j (q.foldSuppressed j) = (q, []) := by
  obtain sup | rfl := idle
  · simp [foldBegin, kind, foldSuppressed_iff.2 sup]
  · simp [foldBegin, kind, foldFaults_zero]

section
variable (live : q.foldSuppressed j = false)
include live

theorem foldBegin_fails (kind : j.kind = .fold b sa sb ta tb was)
    (fails : foldFaults q a (q.foldBank a j b) b sa sb ta tb was j.pc ≠ []) : foldBegin q a j (q.foldSuppressed j) =
      (q.unspend a j b was, foldFaults q a (q.foldBank a j b) b sa sb ta tb was j.pc) := by
  rw [Core.foldBank] at fails ⊢
  simp [foldBegin, kind, live, fails]

variable (kind : j.kind = .fold b sa sb ta tb .open)
  (passes : foldFaults q a (q.foldBank a j b) b sa sb ta tb .open j.pc = [])
include kind passes

/-- A FOLD that passes its checks binds its slots, and counts them (R98). -/
theorem foldBegin_open : foldBegin q a j (q.foldSuppressed j) = (q.bindSlots (q.foldBank a j b) (sa :: sb.toList),
    if (sa :: sb.toList).any fun i =>
      decide (axCapacity < ((q.bindSlots (q.foldBank a j b) (sa :: sb.toList)).slot i).count) then
      [⟨fcAnchor, arrDetail a b, 1, j.pc, 1 + a⟩] else []) := by
  rw [Core.foldBank] at passes ⊢
  simp only [foldBegin, kind, live, passes]
  rfl

theorem foldBegin_within
    (within : ∀ i ∈ sa :: sb.toList, ((q.bindSlots (q.foldBank a j b) (sa :: sb.toList)).slot i).count ≤ axCapacity) :
    foldBegin q a j (q.foldSuppressed j) = (q.bindSlots (q.foldBank a j b) (sa :: sb.toList), []) := by
  rw [foldBegin_open live kind passes, if_neg]
  simpa only [List.any_eq_true, decide_eq_true_eq, not_exists, not_and, Nat.not_lt] using within

theorem foldBegin_beyond
    (beyond : ∃ i ∈ sa :: sb.toList, axCapacity < ((q.bindSlots (q.foldBank a j b) (sa :: sb.toList)).slot i).count) :
    foldBegin q a j (q.foldSuppressed j) =
      (q.bindSlots (q.foldBank a j b) (sa :: sb.toList), [⟨fcAnchor, arrDetail a b, 1, j.pc, 1 + a⟩]) := by
  rw [foldBegin_open live kind passes, if_pos]
  simpa only [List.any_eq_true, decide_eq_true_eq] using beyond

end
end

/-! ### FOLD_ROW_ADD (R162, R163, R166, R174) -/

/-- A core whose FOLD has read a row: the drain path, the slot's port and the order of R174 move on. -/
def Core.foldOn (x : Core) (a : Nat) (j : DrainJob) (bank : Bank) (sa : Nat) (sb : Option Nat) (cyc : Nat) : Core :=
  ((x.setArray a ((x.array a).readRow j (if sb.isSome then 256 else 128) (bank.anchor.getD 0) cyc)).takePort
    (if j.next < 128 then sa else sb.getD sa) cyc).pbStep j.id (if sb.isSome then 256 else 128)

section
variable {s : State} {n c k a b sa : Nat} {j : DrainJob} {js : List DrainJob} {sb : Option Nat} {ta tb : Word}
  {was : BankState} (head : ((s.core k).array a).jobs = j :: js) (kind : j.kind = .fold b sa sb ta tb was)
  (runs : (s.part n).advancing = true) (due : drainMayRead (s.core k) a j (s.part n).cyc = true)
include head kind runs due

theorem foldRowAdd_suspect (first : j.next = 0) (suspect : ((s.core k).foldBank a j b).suspect = true) :
    foldRowAdd a s ⟨n, c, k⟩ = s.abandonTile n (srcCore k (1 + a)) := by
  rw [Core.foldBank] at suspect
  simp [foldRowAdd, State.cyc, head, kind, runs, due, DrainJob.slotRow, drainSource, first, suspect]

section
variable {x : Core} {fs : List FaultInfo} (first : j.next = 0) (sound : ((s.core k).foldBank a j b).suspect = false)
include first sound

theorem foldRowAdd_faults (begins : foldBegin (s.core k) a j ((s.core k).foldSuppressed j) = (x, fs)) (fails : fs ≠ []) :
    foldRowAdd a s ⟨n, c, k⟩ = (s.setCore k x).raiseAll ⟨n, c, k⟩ fs := by
  rw [Core.foldBank] at sound
  rw [Core.foldSuppressed] at begins
  simp [foldRowAdd, State.cyc, head, kind, runs, due, DrainJob.slotRow, drainSource, first, sound, begins, fails]

/-- Row 0, after the checks: it is added if the FOLD adds. -/
theorem foldRowAdd_first (begins : foldBegin (s.core k) a j ((s.core k).foldSuppressed j) = (x, [])) :
    foldRowAdd a s ⟨n, c, k⟩ = s.setCore k (Core.foldOn
      (if (s.core k).foldSuppressed j || was != .open then x
       else x.foldRow (if j.next < 128 then sa else sb.getD sa) 0 (((s.core k).foldBank a j b).row j.next))
      a j ((s.core k).foldBank a j b) sa sb (s.part n).cyc) := by
  rw [Core.foldBank] at sound
  rw [Core.foldSuppressed] at begins
  simp [foldRowAdd, State.cyc, head, kind, runs, due, DrainJob.slotRow, drainSource, first, sound, begins, Core.foldOn,
    Core.foldBank, Core.foldSuppressed, drainRows]

end

/-- A later row meets no check. -/
theorem foldRowAdd_later (later : 0 < j.next) :
    foldRowAdd a s ⟨n, c, k⟩ = s.setCore k (Core.foldOn
      (if (s.core k).foldSuppressed j || was != .open then s.core k
       else (s.core k).foldRow (if j.next < 128 then sa else sb.getD sa) (j.next % 128) (((s.core k).foldBank a j b).row j.next))
      a j ((s.core k).foldBank a j b) sa sb (s.part n).cyc) := by
  simp [foldRowAdd, State.cyc, head, kind, runs, due, DrainJob.slotRow, drainSource, later.ne', Core.foldOn, Core.foldBank,
    Core.foldSuppressed, drainRows]

end

/-! ### PB_IMAGE_HEADER_ARRIVE (R168 to R170) -/

section
variable {x : PeelDesc} {v : PbSlot} {anchor : Option (Option Int)} {tag : Word}

/-- A poisoned header is not compared: only a PBLOAD of an OPEN slot fails. -/
theorem headerFaults_poisoned (room : ¬(x.kind = .load ∧ v.isOpen = true)) : headerFaults x v true anchor tag = [] := by
  by_cases load : x.kind = .load
  · have closed : v.isOpen = false := by simpa [load] using room
    simp [headerFaults, load, closed]
  · simp [headerFaults]

/-- The checks that a readable header passes. -/
theorem headerFaults_fits {ia : Option Int} (tags : tag = if x.kind = .load then x.tag else v.tag)
    (closed : x.kind = .load → v.isOpen = false)
    (agree : x.kind ≠ .load → ia = none ∨ v.anchor = none ∨ ia = v.anchor) :
    headerFaults x v false (some ia) tag = [] := by
  by_cases load : x.kind = .load
  · rw [if_pos load] at tags
    simp [headerFaults, load, tags, closed load]
  · rw [if_neg load] at tags
    obtain unbound | unbound | same := agree load
    · simp [headerFaults, tags, unbound]
    · simp [headerFaults, tags, unbound]
    · cases bound : v.anchor <;> simp [headerFaults, tags, same, bound]

end

/-- The faults that a descriptor's header meets where it stands in memory. -/
def State.imageFaults (s : State) (x : PeelDesc) : List Nat :=
  headerFaults x ((s.core x.core).slot x.slot) (s.mem.linePoison (x.addr / 256)) (imageAnchor (s.mem.field x.addr 2))
    (BitVec.ofNat 32 (s.mem.field (x.addr + 4) 4))

section
variable {s : State} {x : PeelDesc}

theorem imageFaults_poisoned (poisoned : s.mem.linePoison (x.addr / 256) = true)
    (room : ¬(x.kind = .load ∧ ((s.core x.core).slot x.slot).isOpen = true)) : s.imageFaults x = [] := by
  rw [State.imageFaults, poisoned]
  exact headerFaults_poisoned room

theorem imageFaults_fits {ia : Option Int} (clean : s.mem.linePoison (x.addr / 256) = false)
    (bound : imageAnchor (s.mem.field x.addr 2) = some ia)
    (tags : BitVec.ofNat 32 (s.mem.field (x.addr + 4) 4) =
      if x.kind = .load then x.tag else ((s.core x.core).slot x.slot).tag)
    (closed : x.kind = .load → ((s.core x.core).slot x.slot).isOpen = false)
    (agree : x.kind ≠ .load → ia = none ∨ ((s.core x.core).slot x.slot).anchor = none ∨
      ia = ((s.core x.core).slot x.slot).anchor) : s.imageFaults x = [] := by
  rw [State.imageFaults, clean, bound]
  exact headerFaults_fits tags closed agree

theorem imageFault_eq {code : Nat} : imageFault code x = ⟨code, 4 * x.slot, 1, x.pc, 6⟩ := by
  rw [imageFault, arrDetail, Nat.zero_add]

end

/-- A descriptor's header accepted. -/
def State.acceptHeader (s : State) (d e : Nat) (x : PeelDesc) (psn : Bool) (ia : Option Int) (n : Nat) : State :=
  s.updDesc d e x.core x.xfer fun y => { y with headerOk := true, headerPoison := psn, imgAnchor := ia, imgCount := n }

section
variable {s : State} {d e idx : Nat} {x : PeelDesc} (head : (s.engine d e).queue[idx]? = some x) (due : s.headerDue x = true)
include head due

theorem pbHeaderArrive_fails (fails : s.imageFaults x ≠ []) : pbHeaderArrive d e idx s =
    (s.dropDesc e x).raiseAll ⟨x.pt, s.logical x.pt x.core, x.core⟩ ((s.imageFaults x).map fun code => imageFault code x) := by
  rw [State.imageFaults] at fails ⊢
  simp [pbHeaderArrive, head, due, fails]

section
variable (passes : s.imageFaults x = [])
include passes

theorem pbHeaderArrive_poisoned (poisoned : s.mem.linePoison (x.addr / 256) = true) :
    pbHeaderArrive d e idx s = s.acceptHeader d e x true none 0 := by
  rw [State.imageFaults, poisoned] at passes
  simp [pbHeaderArrive, head, due, passes, poisoned, State.acceptHeader]

theorem pbHeaderArrive_read (clean : s.mem.linePoison (x.addr / 256) = false) {ia : Option Int}
    (anchor : imageAnchor (s.mem.field x.addr 2) = some ia) :
    pbHeaderArrive d e idx s = s.acceptHeader d e x false ia (s.mem.field (x.addr + 8) 8) := by
  rw [State.imageFaults, clean, anchor] at passes
  simp [pbHeaderArrive, head, due, passes, clean, anchor, State.acceptHeader]

end
end

/-! ### PB_SLOT_ROW_TRANSFER (R99, R166, R168, R170, R172) -/

/-- A descriptor's next row does not move yet: the guard of PB_SLOT_ROW_TRANSFER. -/
def State.rowWaits (s : State) (x : PeelDesc) : Bool :=
  !x.started || decide (128 ≤ x.received) || !pbMayBegin (s.core x.core) x.op ||
    pbEarlier (s.core x.core) x.slot x.received x.op ||
    ((s.core x.core).portBusy x.slot (s.part x.pt).cyc && !(s.part x.pt).frozen)

theorem rowWaits_due {s : State} {x : PeelDesc} (started : x.started = true) (room : x.received < 128)
    (begins : pbMayBegin (s.core x.core) x.op = true) (first : pbEarlier (s.core x.core) x.slot x.received x.op = false)
    (port : (s.core x.core).portBusy x.slot (s.part x.pt).cyc = false ∨ (s.part x.pt).frozen = true) :
    s.rowWaits x = false := by
  obtain free | frozen := port
  · simp [State.rowWaits, started, room, begins, first, free]
  · simp [State.rowWaits, started, room, begins, first, frozen]

/-- A row of an image transfer has moved: its slot, the slot's port, the order of R174, the descriptor and the engine's beat. -/
def State.rowMoved (s : State) (d e : Nat) (x : PeelDesc) (slot : PbSlot) (f : PeelDesc → PeelDesc) : State :=
  ((s.setCore x.core ((((s.core x.core).setSlot x.slot slot).takePort x.slot (s.part x.pt).cyc).pbStep x.op 128)).updDesc d e
    x.core x.xfer fun y => { f y with received := y.received + 1 }).beatEngine d e

/-- A slot's row spilled as `bytes`; the image goes to memory with the last (R167, R168). -/
def State.rowSpilled (s : State) (d e : Nat) (x : PeelDesc) (bytes : List Byte) : State :=
  let v := (s.core x.core).slot x.slot
  let moved := s.rowMoved d e x (v.spillRow x.received) fun y => y.keepRow v x.received bytes
  if x.received = 127 then moved.memPut x.addr (x.keepRow v x.received bytes).image else moved

/-- The image's row that a PBLOAD takes into its slot. -/
def State.rowToLoad (s : State) (x : PeelDesc) : AxRow := loadedRow x (narrowRow (s.imageRow x x.received))

/-- A row of a PBLOAD in its slot; its poison stays with the descriptor (R170). -/
def State.rowLoaded (s : State) (d e : Nat) (x : PeelDesc) : State :=
  let psn := x.imgPsn || (s.rowToLoad x).any fun y => y.fl.psn
  s.rowMoved d e x (((s.core x.core).slot x.slot).loadRow { x with imgPsn := psn } x.received (s.rowToLoad x)
    (pbCleared (s.core x.core) x.slot x.op)) fun y => { y with imgPsn := psn }

section
variable {s : State} {d e idx : Nat} {x : PeelDesc} (head : (s.engine d e).queue[idx]? = some x) (due : s.rowWaits x = false)
include head due

theorem pbRowTransfer_spillW (kind : x.kind = .spillW) : pbRowTransfer d e idx s =
    s.rowSpilled d e x (imageRowBytes (slotRow128 ((s.core x.core).slot x.slot) x.received)) := by
  rw [State.rowWaits] at due
  simp only [pbRowTransfer, head, due, kind]
  rfl

theorem pbRowTransfer_spillA (kind : x.kind = .spillA) (ready : x.headerOk = true)
    (opened : ((s.core x.core).slot x.slot).isOpen = true ∨ 0 < x.received) : pbRowTransfer d e idx s =
    s.rowSpilled d e x
      (imageRowBytes (addRows128 (s.imageRow x x.received) (slotRow128 ((s.core x.core).slot x.slot) x.received))) := by
  have adds : (!((s.core x.core).slot x.slot).isOpen && x.received == 0) = false := by
    obtain isOpen | later := opened
    · simp [isOpen]
    · simp [later.ne']
  rw [State.rowWaits] at due
  simp only [pbRowTransfer, head, due, kind, adds, ready]
  rfl

theorem pbRowTransfer_spillA_closed (kind : x.kind = .spillA) (closed : ((s.core x.core).slot x.slot).isOpen = false)
    (row0 : x.received = 0) (last : pbEarlier (s.core x.core) x.slot 127 x.op = false) : pbRowTransfer d e idx s =
    let q := s.core x.core
    (s.setCore x.core ({ q.setSlot x.slot (((q.slot x.slot).clearHead (q.slot x.slot).tag).clearRows 0 128) with
      pbOps := q.pbOps.filter fun o => o.id != x.op } : Core).pbSettle).updDesc d e x.core x.xfer
        fun y => { y with received := 128 } := by
  rw [State.rowWaits, row0] at due
  simp only [pbRowTransfer, head, row0, due, kind, closed, last]
  rfl

theorem pbRowTransfer_load (kind : x.kind = .load) (ready : x.headerOk = true)
    (within : ¬(x.received = 0 ∧ axCapacity < x.imgCount)) : pbRowTransfer d e idx s = s.rowLoaded d e x := by
  rw [State.rowWaits] at due
  simp only [pbRowTransfer, head, due, kind, ready, within]
  rfl

/-- The first row of an image whose count is beyond the capacity: it is loaded, and raises an anchor violation (R99). -/
theorem pbRowTransfer_load_beyond (kind : x.kind = .load) (ready : x.headerOk = true) (row0 : x.received = 0)
    (beyond : axCapacity < x.imgCount) : pbRowTransfer d e idx s =
    (s.rowLoaded d e x).raiseAll ⟨x.pt, s.logical x.pt x.core, x.core⟩ [imageFault fcAnchor x] := by
  have exceeds : (x.received = 0 ∧ axCapacity < x.imgCount) = True := eq_true ⟨row0, beyond⟩
  rw [State.rowWaits] at due
  simp only [pbRowTransfer, head, due, kind, ready, exceeds]
  rfl

end

/-! ### The commands -/

theorem exec_foldRowAdd {s : State} {pt : Pt} {c : LCore} {k : Nat} {a : ArrayNo} (core : IsCore s pt c k) :
    exec (.foldRowAdd pt c a) s = .next (foldRowAdd a.toNat s ⟨pt.toNat, c.toNat, k⟩) := onCore_some _ core

theorem exec_pbImageHeaderArrive {s : State} {die : DieNo} {eng : EngNo} {idx : BitVec 5} :
    exec (.pbImageHeaderArrive die eng idx) s = .next (pbHeaderArrive die.toNat eng.toNat idx.toNat s) := rfl

theorem exec_pbSlotRowTransfer {s : State} {die : DieNo} {eng : EngNo} {idx : BitVec 5} :
    exec (.pbSlotRowTransfer die eng idx) s = .next (pbRowTransfer die.toNat eng.toNat idx.toNat s) := rfl

/-! ### The clauses of O16 -/

/-- Settles O16: each event by its law for the case. That an image with a poisoned header counts 0 addends for a PBSPILL.A too, and
what a slot left ZERO by an unbound image keeps, are the model's choice (log 49). -/
theorem proofBufferRowsMove : Obligations.ProofBufferRowsMove := by
  refine ⟨?fold, ?image⟩
  case fold =>
    intro s pt c k a j js b sa sb ta tb was q cyc r ar bank slot rows named suppressed row on bound core runs head kind due
    rw [exec_foldRowAdd core]
    refine ⟨fun first suspect => ?suspect, fun first sound idle => ?idle, fun first sound live opened fits apart half => ?adds,
      fun first sound live fails => ?fails, fun later idle => ?laterIdle, fun later live opened => ?laterAdds⟩
    case suspect => rw [foldRowAdd_suspect head kind runs due first suspect]
    case idle =>
      have begins := foldBegin_skips (a := a.toNat) kind idle
      have skips := fold_skips (was := was) (idle.imp_right fun zero => by simp [zero])
      rw [foldRowAdd_first head kind runs due first sound begins, if_pos skips]
      rfl
    case adds =>
      subst opened
      have passes : foldFaults q a.toNat (q.foldBank a.toNat j b) b sa sb ta tb .open j.pc = [] :=
        foldFaults_open fits apart half
      have live := foldSuppressed_false live
      refine ⟨fun within => ?within, fun beyond => ?beyond⟩
      case within =>
        have begins := foldBegin_within live kind passes within
        rw [foldRowAdd_first head kind runs due first sound begins, if_neg (fold_adds live rfl)]
        rfl
      case beyond =>
        have begins := foldBegin_beyond live kind passes beyond
        rw [foldRowAdd_faults head kind runs due first sound begins (List.cons_ne_nil _ _)]
        rfl
    case fails =>
      have begins := foldBegin_fails (foldSuppressed_false live) kind fails
      rw [foldRowAdd_faults head kind runs due first sound begins fails]
      rfl
    case laterIdle =>
      rw [foldRowAdd_later head kind runs due later, if_pos (fold_skips idle)]
      rfl
    case laterAdds =>
      rw [foldRowAdd_later head kind runs due later, if_neg (fold_adds (foldSuppressed_false live) opened)]
      rfl
  case image =>
    intro s die eng idx x head q v cyc r poisoned anchor tag accepted
    refine ⟨fun due poison room => ?poisoned, fun due clean tags closed ia bound agree => ?read, fun due fails => ?fails, ?rows⟩
    case poisoned =>
      rw [exec_pbImageHeaderArrive, pbHeaderArrive_poisoned head due (imageFaults_poisoned poison room) poison]
      rfl
    case read =>
      rw [exec_pbImageHeaderArrive, pbHeaderArrive_read head due (imageFaults_fits clean bound tags closed agree) clean bound]
      rfl
    case fails =>
      rw [exec_pbImageHeaderArrive, pbHeaderArrive_fails head due fails]
      simp only [imageFault_eq]
      rfl
    case rows =>
      intro i done spilled es psn loaded started room begins first port
      have due : s.rowWaits x = false := rowWaits_due started room begins first port
      have spills (bytes : List Byte)
          (moves : pbRowTransfer die.toNat eng.toNat idx.toNat s = s.rowSpilled die.toNat eng.toNat x bytes) : spilled bytes := by
        refine ⟨fun more => ?_, fun last => ?_⟩
        · rw [exec_pbSlotRowTransfer, moves, State.rowSpilled, if_neg more.ne]
          rfl
        · rw [exec_pbSlotRowTransfer, moves, State.rowSpilled, if_pos last]
          rfl
      refine ⟨fun kind => ?spillW, fun kind ready opened => ?spillA, fun kind closed row0 last => ?closed,
        fun kind ready => ⟨fun within => ?within, fun row0 beyond => ?beyond⟩⟩
      case spillW => exact spills _ (pbRowTransfer_spillW head due kind)
      case spillA => exact spills _ (pbRowTransfer_spillA head due kind ready opened)
      case closed =>
        rw [exec_pbSlotRowTransfer, pbRowTransfer_spillA_closed head due kind closed row0 last]
      case within =>
        rw [exec_pbSlotRowTransfer, pbRowTransfer_load head due kind ready within]
        rfl
      case beyond =>
        rw [exec_pbSlotRowTransfer, pbRowTransfer_load_beyond head due kind ready row0 beyond, imageFault_eq]
        rfl

end Sys2Proof.Machine
end

section
namespace Sys2Proof.Machine
open Sys2Proof.Laws

/-! ## The C slot (O3 to O6)

At a core that issues, an instruction's row is what its answer makes of the state (`IssuesAt.runs`). One law per instruction says
what its answer is on assigned specifiers; the clauses of O4 to O6 are these laws at the rows of the table. -/

/-! ### The row of an instruction at a core that issues -/

theorem IssuesAt.core {s : State} {pt : Pt} {c : LCore} {k : Nat} (at' : IssuesAt s pt c k) : IsCore s pt c k := at'.1

theorem IssuesAt.live {s : State} {pt : Pt} {c : LCore} {k : Nat} (at' : IssuesAt s pt c k) :
    (s.part pt.toNat).live = true := at'.2.1

theorem IssuesAt.issuing {s : State} {pt : Pt} {c : LCore} {k : Nat} (at' : IssuesAt s pt c k) :
    s.issuing ⟨pt.toNat, c.toNat, k⟩ = true := by
  obtain ⟨-, live, seq, noHold⟩ := at'
  simp [State.issuing, live, seq, noHold]

theorem IssuesAt.runs {s : State} {pt : Pt} {c : LCore} {k : Nat} (at' : IssuesAt s pt c k) (f : CoreRef → InsRes) :
    runIns s pt c f = .next (settleIns s ⟨pt.toNat, c.toNat, k⟩ (f ⟨pt.toNat, c.toNat, k⟩)) :=
  runIns_issuing f at'.core at'.issuing

/-- An instruction that takes effect. -/
theorem IssuesAt.runs_ok {s t : State} {pt : Pt} {c : LCore} {k : Nat} (at' : IssuesAt s pt c k) {f : CoreRef → InsRes}
    (ok : f ⟨pt.toNat, c.toNat, k⟩ = .ok t) : runIns s pt c f = .next t := by
  rw [at'.runs, ok]
  rfl

/-- An instruction that is illegal in the C slot. -/
theorem IssuesAt.runs_illegal {s : State} {pt : Pt} {c : LCore} {k : Nat} (at' : IssuesAt s pt c k) {f : CoreRef → InsRes}
    (bad : f ⟨pt.toNat, c.toNat, k⟩ = illegalC s ⟨pt.toNat, c.toNat, k⟩) : runIns s pt c f = .next (s.illegalAt pt c k 0 0) := by
  rw [at'.runs, bad]
  rfl

/-! ### Specifiers (R184) -/

theorem specOk_iff {r : BitVec 6} : specOk r = true ↔ r.toNat < 0x30 := decide_eq_true_iff

theorem clampAnchor_eq (a : Int) : clampAnchor a = max (-512) (min 511 a) := by
  unfold clampAnchor
  split
  · omega
  · split <;> omega

theorem ofBits_mag (v : DWord) : (MaxReg.ofBits v).mag.toNat = min (v.toNat % 2 ^ 31) 0x7F7F_FFFF := by
  have fits : min (v.toNat % 2 ^ 31) 0x7F7F_FFFF < 2 ^ 32 := by omega
  exact (BitVec.toNat_ofNat _ _).trans (Nat.mod_eq_of_lt fits)

section
variable {q : Core} {r : BitVec 6} {v : DWord}

theorem readSpec_scalar (h : r.toNat < 0x20) : q.readSpec r = q.sreg r.toNat := if_pos h

theorem specWrite_scalar (h : r.toNat < 0x20) : specWrite r v = .sreg r.toNat v := if_pos h

theorem readSpec_pred (lo : 0x20 ≤ r.toNat) (hi : r.toNat < 0x28) :
    q.readSpec r = if q.pred (r.toNat - 0x20) then 1 else 0 := by
  rw [Core.readSpec, if_neg (by omega), if_pos hi]

theorem specWrite_pred (lo : 0x20 ≤ r.toNat) (hi : r.toNat < 0x28) :
    specWrite r v = .pred (r.toNat - 0x20) (v.getLsbD 0) := by
  rw [specWrite, if_neg (by omega), if_pos hi]

theorem readSpec_maxReg (lo : 0x28 ≤ r.toNat) (hi : r.toNat < 0x2C) : q.readSpec r = (q.mreg (r.toNat - 0x28)).bits := by
  rw [Core.readSpec, if_neg (by omega), if_neg (by omega), if_pos hi]

theorem specWrite_maxReg (lo : 0x28 ≤ r.toNat) (hi : r.toNat < 0x2C) :
    specWrite r v = .mreg (r.toNat - 0x28) (.ofBits v) := by
  rw [specWrite, if_neg (by omega), if_neg (by omega), if_pos hi]

theorem readSpec_anchor (lo : 0x2C ≤ r.toNat) : q.readSpec r = BitVec.ofInt 64 (q.anchor (r.toNat - 0x2C)) := by
  rw [Core.readSpec, if_neg (by omega), if_neg (by omega), if_neg (by omega)]

theorem specWrite_anchor (lo : 0x2C ≤ r.toNat) :
    specWrite r v = .anchor (r.toNat - 0x2C) (max (-512) (min 511 v.toInt)) := by
  rw [specWrite, if_neg (by omega), if_neg (by omega), if_neg (by omega), clampAnchor_eq]

theorem pred_pos {i : Nat} (h : i ≠ 0) : q.pred i = smapGet false q.p i := if_neg h

theorem applyAct_pred_pos {i : Nat} {b : Bool} (h : i ≠ 0) :
    q.applyAct (.pred i b) = { q with p := smapSet false q.p i b } := if_neg h

end

/-! ### What each instruction answers (R207 to R217) -/

section
variable {s : State} {r : CoreRef} {rd ra : BitVec 6} {src : Src2}

theorem insAlu_assigned (op : AluOp) (hd : rd.toNat < 0x30) (ha : ra.toNat < 0x30) (hs : src2Ok src = true) :
    insAlu op rd ra src s r =
      writeSpec s r (aluLat op) rd (aluResult op ((s.core r.k).readSpec ra) ((s.core r.k).src2 src)) := by
  simp [insAlu, specOk_iff.2 hd, specOk_iff.2 ha, hs]

theorem insLi_assigned {h : Bool} {imm : BitVec 41} (hd : rd.toNat < 0x30) : insLi rd h imm s r =
    writeSpec s r 1 rd
      (if h then imm.extractLsb' 0 32 ++ ((s.core r.k).readSpec rd).extractLsb' 0 32 else imm.signExtend 64) :=
  if_pos (specOk_iff.2 hd)

theorem insLi_reserved {h : Bool} {imm : BitVec 41} (hd : 0x30 ≤ rd.toNat) : insLi rd h imm s r = illegalC s r := by
  have reserved : ¬specOk rd = true := by rw [specOk_iff]; omega
  exact if_neg reserved

theorem insCmp_assigned {pd cond : BitVec 3} (ha : ra.toNat < 0x30) (hs : src2Ok src = true) : insCmp pd cond ra src s r =
    .ok (s.delay r 1 1 (.pred pd.toNat (condInt cond.toNat ((s.core r.k).readSpec ra) ((s.core r.k).src2 src)))) := by
  simp [insCmp, specOk_iff.2 ha, hs]

theorem insSteprR_assigned (hd : rd.toNat < 0x30) :
    insSteprR rd s r = writeSpec s r 1 rd ((s.core r.k).step.setWidth 64) := if_pos (specOk_iff.2 hd)

theorem insSteprW_assigned (ha : ra.toNat < 0x30) :
    insSteprW ra s r = .ok (s.delay r 1 1 (.step (((s.core r.k).readSpec ra).extractLsb' 0 32))) := if_pos (specOk_iff.2 ha)

theorem insSeedrR_assigned (hd : rd.toNat < 0x30) : insSeedrR rd s r = writeSpec s r 1 rd (s.core r.k).seed :=
  if_pos (specOk_iff.2 hd)

theorem insSeedrW_assigned (ha : ra.toNat < 0x30) :
    insSeedrW ra s r = .ok (s.delay r 1 1 (.seed ((s.core r.k).readSpec ra))) := if_pos (specOk_iff.2 ha)

theorem insGtbr_assigned (hd : rd.toNat < 0x30) : insGtbr rd s r = writeSpec s.gtbView.2 r 1 rd s.gtbView.1 :=
  if_pos (specOk_iff.2 hd)

end

/-- How far the GTB lags as a core sees it, within the bound of R45 (log 6). -/
def State.gtbLag (s : State) : Nat := (s.draw 5).1.toNat % 17

theorem gtbLag_le (s : State) : s.gtbLag ≤ 16 := Nat.le_of_lt_succ (Nat.mod_lt _ (by decide))

theorem gtbView_eq (s : State) : s.gtbView = (BitVec.ofNat 64 (s.now - s.gtbLag), { s with free := s.free + 1 }) := rfl

/-! ### The obligations -/

/-- Settles O3: each range of codes by its laws of reading and writing; a reserved destination makes an LI illegal. -/
theorem specifiersReadAndWriteRegisters : Obligations.SpecifiersReadAndWriteRegisters := by
  refine ⟨fun q r v => ⟨fun scalar => ?scalar, fun p0 => ?p0, fun lo hi => ?pred, fun lo hi => ?maxReg, fun lo _ => ?anchor⟩,
    fun s pt c k rd h imm at' reserved => at'.runs_illegal (insLi_reserved reserved)⟩
  case scalar => exact ⟨readSpec_scalar scalar, by rw [specWrite_scalar scalar]; rfl⟩
  case p0 =>
    rw [readSpec_pred (by omega) (by omega), specWrite_pred (by omega) (by omega), p0]
    exact ⟨rfl, rfl⟩
  case pred =>
    have pos : r.toNat - 0x20 ≠ 0 := by omega
    rw [readSpec_pred (by omega) hi, specWrite_pred (by omega) hi, pred_pos pos, applyAct_pred_pos pos]
    exact ⟨rfl, rfl⟩
  case maxReg => exact ⟨readSpec_maxReg lo hi, .ofBits v, ofBits_mag v, rfl, by rw [specWrite_maxReg lo hi]; rfl⟩
  case anchor => exact ⟨readSpec_anchor lo, by rw [specWrite_anchor lo]; rfl⟩

/-- Settles O4: each of the nine instructions is `insAlu` of its operation. -/
theorem aluWritesDestination : Obligations.AluWritesDestination := by
  intro s pt c k rd ra src at' hd ha hs a b sh
  have alu (op : AluOp) :
      runIns s pt c (insAlu op rd ra src s) = .next (s.owingReg pt k (aluLat op) rd (aluResult op a ((s.core k).src2 src))) :=
    at'.runs_ok (insAlu_assigned op hd ha hs)
  exact ⟨alu .add, alu .sub, alu .and, alu .or, alu .xor, alu .shl, alu .shr, alu .shrA, alu .mul⟩

/-- Settles O5: each instruction by the law of its answer; the conditions of CMP are the cases of `condInt`. -/
theorem constantsPredicatesAndStepRegisters : Obligations.ConstantsPredicatesAndStepRegisters := by
  intro s pt c k rd ra src pd imm progress at' hd ha hs q cyc a b cmp
  have compares (cond : BitVec 3) : cmp cond (condInt cond.toNat a (q.src2 src)) := at'.runs_ok (insCmp_assigned ha hs)
  have nop : runIns s pt c (fun _ => .ok s) = .next s := at'.runs_ok rfl
  exact ⟨nop, at'.runs_ok (insLi_assigned hd), at'.runs_ok (insLi_assigned hd), compares 0, compares 1, compares 2, compares 3,
    compares 4, compares 5, compares 6, compares 7, at'.runs_ok (insSteprR_assigned hd), at'.runs_ok (insSteprW_assigned ha),
    at'.runs_ok (f := insSteprInc s) rfl, at'.runs_ok (insSeedrR_assigned hd), at'.runs_ok (insSeedrW_assigned ha),
    at'.runs_ok (f := insHbeat progress s) rfl⟩

/-- Settles O6: how far a core's view of the GTB lags is a free value (DESIGN CHOICE, log 6). -/
theorem anchorAndTimeReads : Obligations.AnchorAndTimeReads := by
  intro s pt c k rd a mx my delta at'
  refine ⟨?anc, fun hd => ⟨s.gtbLag, gtbLag_le s, ?gtbr⟩⟩
  case anc =>
    rw [← clampAnchor_eq]
    exact at'.runs_ok rfl
  case gtbr =>
    refine at'.runs_ok ((insGtbr_assigned hd).trans ?_)
    rw [gtbView_eq]
    rfl

end Sys2Proof.Machine
end

section
namespace Sys2Proof.Machine
open Sys2Proof.Laws

/-! ## The end of a cycle (O8)

The due effects of a cycle are taken rank by rank (R81), those of one rank in the order of their issue (R186). So effects of different
ranks come in one order, however they were issued (`byRank_perm`), and where none of them writes the Bench the write port keeps none
back (`endCycle_effects`). -/

section
variable {q : Core} {cyc : Nat} {ws vs : List Delayed}

/-! ### The order of the due effects (R81, R186) -/

/-- The effects of a list in the order of their ranks. -/
def byRank (ws : List Delayed) : List Delayed := (List.range 17).flatMap fun rank => ws.filter fun w => w.rank == rank

theorem perm_eq_of_length_le_one {α : Type} {l m : List α} (perm : l.Perm m) (single : m.length ≤ 1) : l = m := by
  match m, single with
  | [], _ => exact perm.eq_nil
  | [_], _ => exact List.perm_singleton.1 perm

/-- Where no two effects have one rank, the order of their issue does not matter. -/
theorem byRank_perm (perm : ws.Perm vs) (apart : (vs.map Delayed.rank).Nodup) : byRank ws = byRank vs := by
  refine List.flatMap_congr fun rank _ => perm_eq_of_length_le_one (perm.filter _) ?_
  have once := List.nodup_iff_count_le_one.1 apart rank
  rwa [List.count, List.countP_map, List.countP_eq_length_filter] at once

/-- The due effects of a core all of whose effects are due. -/
theorem dueWrites_all (due : ∀ w ∈ ws, w.due ≤ cyc) : ({ q with writes := ws } : Core).dueWrites cyc = byRank ws :=
  congrArg byRank (List.filter_eq_self.2 fun w hw => decide_eq_true (due w hw))

/-! ### The write port (R150) -/

theorem servePort_noBench (none : ∀ w ∈ ws, w.act.isBench = false) (n : Nat) : servePort n ws = (ws, []) := by
  induction ws generalizing n with
  | nil => cases n <;> rfl
  | cons w ws ih =>
    obtain ⟨head, tail⟩ := List.forall_mem_cons.1 none
    cases n <;> simp [servePort, ih tail, head]

/-- Where no due effect writes the Bench, each has its place at this cycle's end, and what is not due stays owed. -/
theorem endCycle_noBench (none : ∀ w ∈ q.dueWrites cyc, w.act.isBench = false) :
    ∃ brp, (q.endCycle cyc).1 =
      { (q.dueWrites cyc).foldl (fun (k : Core) w => k.applyAct w.act)
          { q with writes := q.writes.filter fun w => !decide (w.due ≤ cyc) } with reads := 0, inBrp := brp } := by
  simp only [Core.endCycle, servePort_noBench none]
  exact ⟨_, rfl⟩

/-- Effects that are all due take place rank by rank, each rank in the order of issue. -/
theorem endCycle_effects (order : byRank ws = vs) (due : ∀ w ∈ ws, w.due ≤ cyc) (none : ∀ w ∈ vs, w.act.isBench = false) :
    ∃ owed brp, (({ q with writes := ws } : Core).endCycle cyc).1 =
      { vs.foldl (fun (k : Core) w => k.applyAct w.act) { q with writes := owed } with reads := 0, inBrp := brp } := by
  have effects : ({ q with writes := ws } : Core).dueWrites cyc = vs := (dueWrites_all due).trans order
  obtain ⟨brp, ended⟩ := endCycle_noBench (q := { q with writes := ws }) (cyc := cyc) (by rwa [effects])
  rw [effects] at ended
  exact ⟨_, brp, ended⟩

/-- Effects of different ranks, in whatever order they were issued. -/
theorem endCycle_perm (perm : ws.Perm vs) (apart : (vs.map Delayed.rank).Nodup) (order : byRank vs = vs)
    (due : ∀ w ∈ vs, w.due ≤ cyc) (none : ∀ w ∈ vs, w.act.isBench = false) :
    ∃ owed brp, (({ q with writes := ws } : Core).endCycle cyc).1 =
      { vs.foldl (fun (k : Core) w => k.applyAct w.act) { q with writes := owed } with reads := 0, inBrp := brp } :=
  endCycle_effects ((byRank_perm perm apart).trans order) (fun w hw => due w (perm.subset hw)) none

/-- An effect that is not due changes nothing and stays owed. -/
theorem endCycle_early {w : Delayed} (early : cyc < w.due) :
    ∃ brp, (({ q with writes := [w] } : Core).endCycle cyc).1 = { q with writes := [w], reads := 0, inBrp := brp } := by
  have late : decide (w.due ≤ cyc) = false := decide_eq_false (by omega)
  have nothing : ({ q with writes := [w] } : Core).dueWrites cyc = [] := by simp [Core.dueWrites, late]
  obtain ⟨brp, ended⟩ := endCycle_noBench (q := { q with writes := [w] }) (cyc := cyc) (by simp [nothing])
  rw [nothing] at ended
  exact ⟨brp, by simp [ended, late]⟩

/-- An update of a running maximum over the value that was written just before it (R82). -/
theorem mjoin_over {m : SMap MaxReg} {i : Nat} {x y : MaxReg} (sorted : smapSorted m = true) :
    smapGet .zero (smapUpd .zero (smapSet .zero m i x) i fun z => z.join y) i = x.join y := by
  rw [smapUpd, smapGet_set_self _ (smapSet_sorted _ sorted i x), smapGet_set_self _ sorted]

end

/-- Settles O8: two writes of one rank keep the order of their issue, so the later holds; a clear, a write and an update of a running
maximum come in this order whatever their issue. -/
theorem effectsTakePlaceAtCycleEnd : Obligations.EffectsTakePlaceAtCycleEnd := by
  intro q cyc d e f i j u v x y scalars maxima
  refine ⟨fun hd he => ?same, fun hd he other => ?other, fun early => ?early, fun hd he hf ws perm => ?write,
    fun hd hf ws perm => ?clear⟩
  case same =>
    obtain ⟨owed, brp, ended⟩ := endCycle_effects (q := q) (cyc := cyc) (ws := [⟨d, 1, .sreg i u⟩, ⟨e, 1, .sreg i v⟩])
      (vs := [⟨d, 1, .sreg i u⟩, ⟨e, 1, .sreg i v⟩]) rfl (by simp [hd, he]) (by simp [Act.isBench])
    rw [ended]
    exact smapGet_set_self 0 (smapSet_sorted 0 scalars i u) i v
  case other =>
    obtain ⟨owed, brp, ended⟩ := endCycle_effects (q := q) (cyc := cyc) (ws := [⟨d, 1, .sreg i u⟩, ⟨e, 1, .sreg j v⟩])
      (vs := [⟨d, 1, .sreg i u⟩, ⟨e, 1, .sreg j v⟩]) rfl (by simp [hd, he]) (by simp [Act.isBench])
    rw [ended]
    exact (smapGet_set_other 0 (smapSet_sorted 0 scalars i u) other v).trans (smapGet_set_self 0 scalars i u)
  case early =>
    obtain ⟨brp, ended⟩ := endCycle_early (q := q) (w := ⟨d, 1, .sreg i u⟩) early
    rw [ended]
    exact ⟨rfl, rfl⟩
  case write =>
    obtain ⟨owed, brp, ended⟩ := endCycle_perm (q := q) (cyc := cyc) perm (by simp) rfl (by simp [hd, he, hf])
      (by simp [Act.isBench])
    rw [ended]
    exact mjoin_over (m := smapSet .zero q.m i .zero) (x := x) (smapSet_sorted .zero maxima i .zero)
  case clear =>
    obtain ⟨owed, brp, ended⟩ := endCycle_perm (q := q) (cyc := cyc) perm (by simp) rfl (by simp [hd, hf]) (by simp [Act.isBench])
    rw [ended]
    exact mjoin_over (m := q.m) (x := .zero) maxima

end Sys2Proof.Machine
end

section
namespace Sys2Proof.Machine
open Sys2Proof.Laws

/-! ## A bundle issues (O9)

`bundleIssue` first looks at what every due bundle of the partition waits for and holds on (`assess`), then at the bundle as a whole
(`wholeFault`), then at the answers of its slots (`runSlots`). One law for each outcome of each of the three; the clauses of O9 are
their combinations. -/

/-! ### The partition at a bundle's issue -/

/-- A value other than the default reads back, also in a map that is not in order. -/
theorem smapGet_set_listed {α : Type} [DecidableEq α] {d v : α} (listed : v ≠ d) (m : SMap α) (k : Nat) :
    smapGet d (smapSet d m k v) k = v := by
  simp [smapGet, smapSet, listed, smapFind_insert]

section
variable {s : State} {r : CoreRef}

theorem live_runs {p : Part} (live : p.live = true) : p.run.isSome = true := by
  simp only [Part.live, Bool.and_eq_true] at live
  obtain ⟨⟨⟨⟨⟨⟨-, runs⟩, -⟩, -⟩, -⟩, -⟩, -⟩ := live
  exact runs

/-- The marks of an issue leave the partition's cycle alone. -/
theorem issued_cyc (runs : (s.part r.pt).run.isSome = true) : (s.issued r).cyc r = s.cyc r := by
  rw [State.cyc, State.issued, updPart_eq, State.part, setPart_parts, smapGet_set_listed]
  · rfl
  · intro reset
    have run : (s.part r.pt).run = none := congrArg Part.run reset
    simp [run] at runs

theorem issued_core (k : Nat) : (s.issued r).core k = s.core k := rfl

end

/-! ### The bundle as a whole (R182) -/

section
variable {q : Core}

theorem inProgram_pc : inProgram q q.pc = decide (q.pc < q.progLen) := by simp [inProgram]

theorem wholeFault_bad (bad : q.progLen ≤ q.pc ∨ (q.bundle q.pc).getLsbD 249 = true ∨ (q.bundle q.pc).getLsbD 248 = true) :
    wholeFault q = some ⟨0x01, 0, 7, q.pc, 0⟩ := by
  refine if_pos ?_
  rw [inProgram_pc]
  rcases bad with outside | b249 | b248
  · simp [outside]
  · simp [bundleReservedOk, b249]
  · simp [bundleReservedOk, b248]

theorem wholeFault_none (inside : q.pc < q.progLen) (b249 : (q.bundle q.pc).getLsbD 249 = false)
    (b248 : (q.bundle q.pc).getLsbD 248 = false) : wholeFault q = none := by
  refine if_neg ?_
  rw [inProgram_pc, bundleReservedOk, b249, b248]
  simp [inside]

end

/-! ### The answers of the slots (R181, R196, R213) -/

section
variable {s : State} {r : CoreRef} {b : Bundle} {also : State → State}

/-- The bundle's slots have all taken effect, and the sequencer moves on. -/
def State.movedOn (s : State) (b : Bundle) (r : CoreRef) : State :=
  (runSlots b s r).st.updCore r.k fun x =>
    x.moveOn (s.core r.k).pc (s.cyc r) (lendBit b) (slotLoops (slotOf b 255 192 56))

section
variable (noWait : (runSlots b s r).waits = []) (noHold : (runSlots b s r).hold = false)
include noWait noHold

theorem issueBundle_faults (faults : lendFaults (s.core r.k) b ++ (runSlots b s r).faults ≠ []) : issueBundle b also s r =
    also (s.raiseAll r ((runSlots b s r).late ++ (lendFaults (s.core r.k) b ++ (runSlots b s r).faults))) := by
  have faulty : (lendFaults (s.core r.k) b ++ (runSlots b s r).faults).isEmpty = false := List.isEmpty_eq_false_iff.2 faults
  simp only [issueBundle, noWait, noHold, faulty]
  rfl

theorem issueBundle_issues (sound : lendFaults (s.core r.k) b ++ (runSlots b s r).faults = []) (late : (runSlots b s r).late = []) :
    issueBundle b also s r = s.movedOn b r := by
  simp only [issueBundle, noWait, noHold, sound, late]
  rfl

theorem issueBundle_traps (sound : lendFaults (s.core r.k) b ++ (runSlots b s r).faults = []) (late : (runSlots b s r).late ≠ []) :
    issueBundle b also s r = also ((s.movedOn b r).raiseAll r (runSlots b s r).late) := by
  have traps : (runSlots b s r).late.isEmpty = false := List.isEmpty_eq_false_iff.2 late
  simp only [issueBundle, noWait, noHold, sound, traps]
  rfl

end

/-! ### A bundle with no valid slot (R180) -/

theorem slotOf_clear {v lo w : Nat} (clear : b.getLsbD v = false) : slotOf b v lo w = none := by simp [slotOf, clear]

theorem getLsbD_high {i : Nat} (low : b.toNat < 2 ^ 248) (hi : 248 ≤ i) : b.getLsbD i = false :=
  Nat.testBit_lt_two_pow (low.trans_le (Nat.pow_le_pow_right (by decide) hi))

theorem runSlots_empty (low : b.toNat < 2 ^ 248) : runSlots b s r = ⟨[], false, [], [], s⟩ := by
  simp only [runSlots, slotOf_clear (getLsbD_high low (by decide : 248 ≤ 255)), slotOf_clear (getLsbD_high low (by decide : 248 ≤ 254)),
    slotOf_clear (getLsbD_high low (by decide : 248 ≤ 253)), slotOf_clear (getLsbD_high low (by decide : 248 ≤ 252)),
    slotOf_clear (getLsbD_high low (by decide : 248 ≤ 251))]
  rfl

theorem lendFaults_empty {q : Core} (low : b.toNat < 2 ^ 248) (noLoop : q.loops = []) : lendFaults q b = [] := by
  have noLend : lendBit b = false := getLsbD_high low (by decide)
  simp [lendFaults, lendOk, noLend, noLoop]

/-- Empty drain queues freeze nothing. -/
theorem dqNeeds_empty {q : Core} {cyc : Nat} (empty : ∀ a ∈ [0, 1, 2, 3], (q.array a).dq = []) : dqNeeds q cyc false = [] := by
  refine List.map_eq_nil_iff.2 (List.filter_eq_nil_iff.2 fun a ha => ?_)
  have dq : (q.array a).dq = [] := empty a ha
  simp [ArrayS.dqFrozen, dq]

theorem assess_empty (low : ((s.core r.k).bundle (s.core r.k).pc).toNat < 2 ^ 248)
    (empty : ∀ a ∈ [0, 1, 2, 3], ((s.core r.k).array a).dq = []) : assess s r = ([], false) := by
  simp only [assess, dqNeeds_empty empty, runSlots_empty low]
  split <;> rfl

end

/-! ### What the partition's due bundles wait for and hold on (R181, R281, R285) -/

section
variable {s : State} {r : CoreRef}

/-- What each core of a partition would wait for, and whether it would hold. -/
def State.assessed (s : State) (n : Nat) : List (CoreRef × List Need × Bool) := (s.refsOf n).map fun q => (q, assess s q)

theorem mem_assessed {n : Nat} {x : CoreRef × List Need × Bool} :
    x ∈ s.assessed n ↔ ∃ e ∈ s.coresOf n, x = (⟨n, e.1, e.2⟩, assess s ⟨n, e.1, e.2⟩) := by
  simp [State.assessed, State.refsOf, eq_comm]

theorem noneWaits (noWait : ∀ e ∈ s.coresOf r.pt, (assess s ⟨r.pt, e.1, e.2⟩).1 = []) :
    ((s.assessed r.pt).filter fun x => !x.2.1.isEmpty) = [] := by
  refine List.filter_eq_nil_iff.2 fun x hx => ?_
  obtain ⟨e, he, rfl⟩ := mem_assessed.1 hx
  simp [noWait e he]

theorem noneHolds (noHold : ∀ e ∈ s.coresOf r.pt, (assess s ⟨r.pt, e.1, e.2⟩).2 = false) :
    ((s.assessed r.pt).any fun x => x.2.2) = false := by
  refine List.any_eq_false.2 fun x hx => ?_
  obtain ⟨e, he, rfl⟩ := mem_assessed.1 hx
  simp [noHold e he]

/-- A need other than an XBAR of a group: waiting for it reaches no engine (R276). -/
theorem reachXbar_other {w : Need} (other : ∀ g j, 0 < g → 0 < j → .xbar g j ≠ w) : s.reachXbar r w = s := by
  cases w with
  | xbar g j =>
    have nowhere : g = 0 ∨ j = 0 := by
      by_contra both
      exact other g j (by omega) (by omega) rfl
    exact if_pos nowhere
  | _ => rfl

/-- A wait for anything but an XBAR of a group changes the partition alone. -/
theorem waitFor_parts {ws : List Need} (other : ∀ g j, 0 < g → 0 < j → .xbar g j ∉ ws) :
    ∃ p, s.waitFor r ws = { s with parts := p } := by
  have reaches (t : State) : ws.foldl (fun t w => t.reachXbar r w) t = t :=
    List.foldlRecOn (motive := fun u => u = t) ws _ rfl fun u same w hw => by
      rw [same]
      exact reachXbar_other fun g j hg hj is => other g j hg hj (is ▸ hw)
  exact ⟨_, reaches _⟩

/-- So do the waits of several cores. -/
theorem waitsFor_parts {l : List (CoreRef × List Need × Bool)} (other : ∀ x ∈ l, ∀ g j, 0 < g → 0 < j → .xbar g j ∉ x.2.1) :
    ∃ p, l.foldl (fun s x => s.waitFor x.1 x.2.1) s = { s with parts := p } := by
  refine List.foldlRecOn (motive := fun t : State => ∃ p, t = { s with parts := p }) l _ ⟨s.parts, rfl⟩ ?_
  rintro t ⟨p, rfl⟩ x hx
  exact waitFor_parts (other x hx)

section
variable (issuing : s.issuing r = true) (due : bundleDue s r = true)
include issuing due

/-- Some due bundle must wait: the partition freezes and no slot issues. -/
theorem bundleIssue_waits (waits : ∃ e ∈ s.coresOf r.pt, (assess s ⟨r.pt, e.1, e.2⟩).1 ≠ [])
    (other : ∀ e ∈ s.coresOf r.pt, ∀ g j, 0 < g → 0 < j → .xbar g j ∉ (assess s ⟨r.pt, e.1, e.2⟩).1) :
    ∃ p, bundleIssue s r = { s with parts := p } := by
  have waiting : ((s.assessed r.pt).filter fun x => !x.2.1.isEmpty).isEmpty = false := by
    obtain ⟨e, he, needs⟩ := waits
    refine List.isEmpty_eq_false_iff_exists_mem.2 ⟨_, List.mem_filter.2 ⟨mem_assessed.2 ⟨e, he, rfl⟩, ?_⟩⟩
    simpa using needs
  rw [State.assessed] at waiting
  simp only [bundleIssue, issuing, due, waiting]
  refine waitsFor_parts fun x hx => ?_
  obtain ⟨e, he, rfl⟩ := mem_assessed.1 (List.mem_of_mem_filter hx)
  exact other e he

section
variable (noWait : ∀ e ∈ s.coresOf r.pt, (assess s ⟨r.pt, e.1, e.2⟩).1 = [])
include noWait

/-- None waits, and some due bundle holds: the cycle is held. -/
theorem bundleIssue_holds (holds : ∃ e ∈ s.coresOf r.pt, (assess s ⟨r.pt, e.1, e.2⟩).2 = true) :
    bundleIssue s r = s.holdCycle r.pt := by
  have holding : ((s.assessed r.pt).any fun x => x.2.2) = true := by
    obtain ⟨e, he, hold⟩ := holds
    exact List.any_eq_true.2 ⟨_, mem_assessed.2 ⟨e, he, rfl⟩, hold⟩
  have noneWaits := noneWaits noWait
  rw [State.assessed] at holding noneWaits
  simp only [bundleIssue, issuing, due, noneWaits, holding]
  rfl

section
variable (noHold : ∀ e ∈ s.coresOf r.pt, (assess s ⟨r.pt, e.1, e.2⟩).2 = false)
include noHold

/-- None waits or holds: a bundle that is bad as a whole raises its fault. -/
theorem bundleIssue_bad {f : FaultInfo} (bad : wholeFault (s.core r.k) = some f) :
    bundleIssue s r = raiseOthers s r (s.raise r.pt r.c r.k f) := by
  have noneWaits := noneWaits noWait
  have noneHolds := noneHolds noHold
  rw [State.assessed] at noneWaits noneHolds
  simp only [bundleIssue, issuing, due, noneWaits, noneHolds, bad]
  rfl

/-- None waits or holds: another bundle issues its slots. -/
theorem bundleIssue_issues (sound : wholeFault (s.core r.k) = none) :
    bundleIssue s r = issueBundle ((s.core r.k).bundle (s.core r.k).pc) (raiseOthers s r) (s.issued r) r := by
  have noneWaits := noneWaits noWait
  have noneHolds := noneHolds noHold
  rw [State.assessed] at noneWaits noneHolds
  simp only [bundleIssue, issuing, due, noneWaits, noneHolds, sound]
  rfl

end
end
end
end

theorem exec_bundleIssue {s : State} {pt : Pt} {c : LCore} {k : Nat} (core : IsCore s pt c k) :
    exec (.bundleIssue pt c) s = .next (bundleIssue s ⟨pt.toNat, c.toNat, k⟩) := onCore_some _ core

/-- A core that issues, and whose bundle's cycle has come. -/
theorem IssuesAt.due {s : State} {pt : Pt} {c : LCore} {k : Nat} (at' : IssuesAt s pt c k)
    (time : (s.core k).nextAt ≤ (s.part pt.toNat).cyc) : bundleDue s ⟨pt.toNat, c.toNat, k⟩ = true := by
  obtain ⟨-, -, seq, -⟩ := at'
  simp [bundleDue, seq, State.cyc, time]

/-! ### The clauses of O9 -/

section
variable {s : State} {pt : Pt} {c : LCore} {k : Nat}

/-- What the slots of a core's due bundle leave, with the sequencer moved on from the cycle before the issue. -/
theorem movedOn_issued (at' : IssuesAt s pt c k) (b : Bundle) : (s.issued ⟨pt.toNat, c.toNat, k⟩).movedOn b ⟨pt.toNat, c.toNat, k⟩ =
    (runSlots b (s.issued ⟨pt.toNat, c.toNat, k⟩) ⟨pt.toNat, c.toNat, k⟩).st.updCore k fun x =>
      x.moveOn (s.core k).pc (s.part pt.toNat).cyc (lendBit b) (slotLoops (slotOf b 255 192 56)) := by
  have cyc := issued_cyc (r := ⟨pt.toNat, c.toNat, k⟩) (live_runs at'.live)
  rw [State.movedOn, cyc, issued_core]
  rfl

section
variable (at' : IssuesAt s pt c k) (time : (s.core k).nextAt ≤ (s.part pt.toNat).cyc)
  (calm : ∀ e ∈ s.coresOf pt.toNat, assess s ⟨pt.toNat, e.1, e.2⟩ = ([], false))
include at' time calm

theorem exec_bundleIssue_bad {f : FaultInfo} (bad : wholeFault (s.core k) = some f) : exec (.bundleIssue pt c) s =
    .next (raiseOthers s ⟨pt.toNat, c.toNat, k⟩ (s.raise pt.toNat c.toNat k f)) := by
  rw [exec_bundleIssue at'.core]
  exact congrArg Host.Outcome.next (bundleIssue_bad at'.issuing (at'.due time) (fun e he => congrArg Prod.fst (calm e he))
    (fun e he => congrArg Prod.snd (calm e he)) bad)

theorem exec_bundleIssue_issues (sound : wholeFault (s.core k) = none) : exec (.bundleIssue pt c) s =
    .next (issueBundle ((s.core k).bundle (s.core k).pc) (raiseOthers s ⟨pt.toNat, c.toNat, k⟩)
      (s.issued ⟨pt.toNat, c.toNat, k⟩) ⟨pt.toNat, c.toNat, k⟩) := by
  rw [exec_bundleIssue at'.core]
  exact congrArg Host.Outcome.next (bundleIssue_issues at'.issuing (at'.due time) (fun e he => congrArg Prod.fst (calm e he))
    (fun e he => congrArg Prod.snd (calm e he)) sound)

end

/-- A bundle with no valid slot, outside every loop, moves the PC and the issue time only. -/
theorem exec_bundleIssue_empty (at' : IssuesAt s pt c k) (alone : s.coresOf pt.toNat = [(c.toNat, k)])
    (time : (s.core k).nextAt ≤ (s.part pt.toNat).cyc) (inside : (s.core k).pc < (s.core k).progLen)
    (low : ((s.core k).bundle (s.core k).pc).toNat < 2 ^ 248) (noLoop : (s.core k).loops = [])
    (empty : ∀ a ∈ [0, 1, 2, 3], ((s.core k).array a).dq = []) :
    exec (.bundleIssue pt c) s = .next ((s.issued ⟨pt.toNat, c.toNat, k⟩).setCore k
      { s.core k with pc := (s.core k).pc + 1, loops := [], nextAt := (s.part pt.toNat).cyc + 1, inBrp := false }) := by
  have calm : ∀ e ∈ s.coresOf pt.toNat, assess s ⟨pt.toNat, e.1, e.2⟩ = ([], false) := by
    rw [alone]
    intro e he
    rw [List.mem_singleton.1 he]
    exact assess_empty low empty
  have slots := runSlots_empty (s := s.issued ⟨pt.toNat, c.toNat, k⟩) (r := ⟨pt.toNat, c.toNat, k⟩) low
  have noLend : lendBit ((s.core k).bundle (s.core k).pc) = false := getLsbD_high low (by decide)
  have noSlot := slotOf_clear (lo := 192) (w := 56) (getLsbD_high low (by decide : 248 ≤ 255))
  have sound := wholeFault_none inside (getLsbD_high low (by decide)) (getLsbD_high low (by decide))
  rw [exec_bundleIssue_issues at' time calm sound, issueBundle_issues (by rw [slots]) (by rw [slots]), movedOn_issued at', slots,
    noLend, noSlot]
  · rw [← noLoop]
    rfl
  · rw [slots, issued_core, lendFaults_empty low noLoop]
    rfl
  · rw [slots]

end

/-- Settles O9. That a bundle which must wait waits before it faults, and that the fault of a broken LEND rule names slot 0, are the
model's choice (DEDUCED and DESIGN CHOICE, log 47). -/
theorem bundleIssuesAllSlotsOrNone : Obligations.BundleIssuesAllSlotsOrNone := by
  refine ⟨?issues, fun s pt c k at' alone time inside low noLoop empty =>
    exec_bundleIssue_empty at' alone time inside low noLoop empty, ?stays⟩
  case issues =>
    intro s pt c k at' time calm q r b res loops broken moved
    refine ⟨fun bad => exec_bundleIssue_bad at' time calm (wholeFault_bad bad), fun inside b249 b248 noWait noHold => ?_⟩
    rw [exec_bundleIssue_issues at' time calm (wholeFault_none inside b249 b248)]
    refine ⟨fun sound late => ?_, fun sound late => ?_, fun faults => ?_⟩
    · rw [issueBundle_issues noWait noHold sound late, movedOn_issued at']
      rfl
    · rw [issueBundle_traps noWait noHold sound late, movedOn_issued at']
      rfl
    · rw [issueBundle_faults noWait noHold faults]
      rfl
  case stays =>
    intro s pt c k at' time other
    rw [exec_bundleIssue at'.core]
    refine ⟨fun waits => ?_, fun noWait holds => ?_⟩
    · obtain ⟨p, frozen⟩ := bundleIssue_waits at'.issuing (at'.due time) waits other
      exact ⟨p, congrArg Host.Outcome.next frozen⟩
    · exact congrArg Host.Outcome.next (bundleIssue_holds at'.issuing (at'.due time) noWait holds)

end Sys2Proof.Machine
end

section
namespace Sys2Proof.Machine
open Sys2Proof.Laws

/-! ## Tiles (O29)

One law for each case of the four operations of a tile: settling (`settleMeet`), the commit (`tileCommit`), the boundary (`tileYield`)
and the end of the window (`budgetExpire`). What a commit makes of the cores and of the partition is named once (`State.commitCores`,
`State.commitPart`), and nothing else changes (`commit_only`). -/

/-! ### Settling (R201 steps 1 and 2, R293) -/

section
variable {s : State} {r : CoreRef} {halt : Bool} {budget tile : Nat}

theorem settleMeet_holds (holds : (s.part r.pt).advancing = false ∨ (s.core r.k).quiet = false ∨
    ∃ x ∈ (s.core r.k).xfers, s.xferOpen r.k x = false) : settleMeet s r = s := by
  have stop : (!(s.part r.pt).advancing || !(s.core r.k).quiet || !(s.core r.k).xfers.all (s.xferOpen r.k)) = true := by
    rcases holds with still | busy | ⟨x, hx, closed⟩
    · simp [still]
    · simp [busy]
    · have waits : (s.core r.k).xfers.all (s.xferOpen r.k) = false := List.all_eq_false.2 ⟨x, hx, by simp [closed]⟩
      simp [waits]
  simp only [settleMeet]
  split
  · exact if_pos stop
  · rfl

theorem settleMeet_meets (settling : (s.core r.k).seq = .settling halt budget tile) (advancing : (s.part r.pt).advancing = true)
    (quiet : (s.core r.k).quiet = true) (streams : ∀ x ∈ (s.core r.k).xfers, s.xferOpen r.k x = true) :
    settleMeet s r = s.setCore r.k { (s.core r.k).takeMaxReds with seq := .met halt budget tile } := by
  simp [settleMeet, settling, advancing, quiet, List.all_eq_true.2 streams]

end

/-! ### The end of a window (R48, R203, R485) -/

section
variable {s : State} {n e : Nat}

theorem budgetExpire_early (window : (s.part n).winEnd = some e) (early : s.now < e) : budgetExpire n s = s := by
  have notYet : ¬e ≤ s.now := by omega
  simp [budgetExpire, window, notYet]

section
variable (runs : (s.part n).run.isSome = true) (out : (s.part n).inReset = false) (past : e ≤ s.now)
include runs out past

theorem windowEnds : ((s.part n).run.isSome && !(s.part n).inReset && decide (e ≤ s.now)) = true := by simp [runs, out, past]

section
variable (window : (s.part n).winEnd = some e)
include window

theorem budgetExpire_overrun (noHang : s.hangEvidence n = none) :
    budgetExpire n s = s.raisePart n 0x16 (srcCore ((s.phys n 0).getD 0) 0) := by
  simp only [budgetExpire, window, windowEnds runs out past, noHang]
  rfl

theorem budgetExpire_hang {u : LadderUnit} (hang : s.hangEvidence n = some u) :
    budgetExpire n s = (s.setPart n { s.part n with winEnd := none }).detectHang u true := by
  simp only [budgetExpire, window, windowEnds runs out past, hang]
  rfl

end
end
end

/-! ### The commit (R201 steps 3 and 4, R202, R203, R294, R295) -/

/-- A core's sequencer after the commit: issuing after a TILE, halted after a HALT (R201, R212). -/
def SeqState.committed : SeqState → SeqState
  | .met true _ _ => .halted
  | _ => .issuing

theorem commitTile_seq (q : Core) (cyc now : Nat) : (q.commitTile cyc now).seq = q.seq.committed := by
  unfold Core.commitTile SeqState.committed
  cases q.seq with
  | met halt budget tile => cases halt <;> rfl
  | _ => rfl

/-- A commit leaves no weights, and every bank ZERO (R128, R135). -/
theorem commitTile_array {q : Core} {cyc now : Nat} {e : Nat × ArrayS} (he : e ∈ (q.commitTile cyc now).arrays) :
    e.2.active = none ∧ e.2.shadow = .empty ∧ e.2.bank0 = .zero ∧ e.2.bank1 = .zero := by
  obtain ⟨a, -, rfl⟩ := List.mem_map.1 (List.mem_of_mem_filter he)
  exact ⟨rfl, rfl, rfl, rfl⟩

/-- The partition halts for the debugger with this commit: not one at which its kernel ends (R602). -/
def State.commitHalts (s : State) (n : Nat) : Bool := (s.part n).dbgReq && !allHalt s n

/-- Every core at a commit; where the partition halts for the debugger, none is watched (R602). -/
def State.commitCores (s : State) (n : Nat) : State :=
  s.updCoresOf n fun q =>
    { q.commitTile (s.part n).cyc s.now with watched := (q.commitTile (s.part n).cyc s.now).watched && !s.commitHalts n }

/-- The partition after a commit. -/
def State.commitPart (s : State) (n : Nat) : Part :=
  { s.part n with
      halted := (s.part n).halted || s.commitHalts n, dbgReq := (s.part n).dbgReq && !s.commitHalts n, winStart := s.now
      winEnd := if s.commitHalts n then none else (commitBudget s n).map (s.now + ·)
      budget := (commitBudget s n).getD (s.part n).budget, tileProg0 := (s.part n).cycProg
      xqDrop := satAdd64 (s.part n).xqDrop (haltDrops s n)
      slip := if allHalt s n then satAdd64 (s.part n).slip (s.part n).slipOf else (s.part n).slip
      run := (s.part n).run.map fun i => { i with tiles := i.tiles + 1 }, atYield := !allHalt s n, issuedCores := []
      rested := false, perstHold := s.host.perst || s.bs.paused }

section
variable {s : State} {n : Nat}

theorem tileCommit_idle (idle : (s.part n).advancing = false ∨ ∃ r ∈ s.refsOf n, (s.core r.k).hasMet = false) :
    tileCommit n s = s := by
  refine if_pos ?_
  rcases idle with still | ⟨r, hr, unmet⟩
  · simp [still]
  · have unsettled : ((s.refsOf n).all fun r => (s.core r.k).hasMet) = false := List.all_eq_false.2 ⟨r, hr, by simp [unmet]⟩
    simp [unsettled]

theorem windowOver_iff {p : Part} {now : Nat} : p.windowOver now = true ↔ ∃ e, p.winEnd = some e ∧ e ≤ now := by
  simp [Part.windowOver, Option.any_eq_true]

/-- A window that is open (R203). -/
theorem windowOver_false (inside : ∀ e, (s.part n).winEnd = some e → s.now < e) : (s.part n).windowOver s.now = false := by
  rw [Bool.eq_false_iff, ne_eq, windowOver_iff]
  rintro ⟨e, window, past⟩
  exact absurd (inside e window) (by omega)

section
variable (advancing : (s.part n).advancing = true) (occupied : s.refsOf n ≠ []) (met : ∀ r ∈ s.refsOf n, (s.core r.k).hasMet = true)
include advancing occupied met

theorem tileCommit_past (past : ∃ e, (s.part n).winEnd = some e ∧ e ≤ s.now) : tileCommit n s = budgetExpire n s := by
  simp only [tileCommit, advancing, List.isEmpty_eq_false_iff.2 occupied, List.all_eq_true.2 met, windowOver_iff.2 past]
  rfl

section
variable (inside : ∀ e, (s.part n).winEnd = some e → s.now < e)
include inside

/-- The first check of R294 that fails raises its fault. -/
theorem tileCommit_fault {r : CoreRef} {f : FaultInfo} (fails : commitFault s n = some (r, f)) :
    tileCommit n s = s.raise n r.c r.k f := by
  simp only [tileCommit, advancing, List.isEmpty_eq_false_iff.2 occupied, List.all_eq_true.2 met, windowOver_false inside, fails]
  rfl

theorem tileCommit_commits (sound : commitFault s n = none) : tileCommit n s = (s.commitCores n).setPart n (s.commitPart n) := by
  simp only [tileCommit, advancing, List.isEmpty_eq_false_iff.2 occupied, List.all_eq_true.2 met, windowOver_false inside, sound]
  rfl

end
end

/-- The cores of a commit change nothing else. -/
theorem commitCores_only : s.commitCores n = { s with cores := (s.commitCores n).cores } := by
  obtain ⟨c, only⟩ : ∃ c, s.commitCores n = { s with cores := c } := updCoresOf_only s n _
  rw [only]

theorem commitCores_parts : (s.commitCores n).parts = s.parts := by rw [commitCores_only]

/-- The partition after a commit reads back. -/
theorem commit_part (sorted : smapSorted s.parts = true) :
    ((s.commitCores n).setPart n (s.commitPart n)).part n = s.commitPart n :=
  setPart_part_self _ (by rwa [commitCores_parts]) n _

/-- Without a request of the debugger a commit opens the window of the next tile (R203). -/
theorem commitPart_winEnd (noReq : (s.part n).dbgReq = false) :
    (s.commitPart n).winEnd = (commitBudget s n).map (s.now + ·) := by
  simp [State.commitPart, State.commitHalts, noReq]

/-- A commit changes the cores and its partition alone. -/
theorem commit_only (v : Part) : (s.commitCores n).setPart n v =
    { s with cores := (s.commitCores n).cores, parts := smapSet .reset s.parts n v } := by
  conv_lhs => rw [commitCores_only]
  rfl

end

/-! ### The boundary (R201 step 5, R420, R460) -/

section
variable {s : State} {n : Nat} {a : YieldAct}

theorem tileYield_away (away : (s.part n).atYield = false) : tileYield n a s = s := if_pos (by simp [away])

section
variable (boundary : (s.part n).atYield = true)
include boundary

theorem tileYield_goesOn (mayGo : s.mustYield n = false) :
    tileYield n .none s = s.setPart n { s.part n with atYield := false } := by
  simp [tileYield, boundary, mayGo]

theorem tileYield_yields (must : s.mustYield n = true) : tileYield n .none s = s.switchOut n := by
  simp [tileYield, boundary, must]

theorem tileYield_switch {cn : CtxNo} : tileYield n (.switch cn) s = s.switchTo n cn.toNat := by simp [tileYield, boundary]

theorem tileYield_checkpoint : tileYield n .checkpoint s = s.checkpoint n := by simp [tileYield, boundary]

theorem tileYield_repair : tileYield n .repair s = s.applyMaps n := by simp [tileYield, boundary]

end
end

/-! ### The commands -/

theorem exec_tileSettleMeet {s : State} {pt : Pt} {c : LCore} {k : Nat} (core : IsCore s pt c k) :
    exec (.tileSettleMeet pt c) s = .next (settleMeet s ⟨pt.toNat, c.toNat, k⟩) := onCore_some _ core

section
variable {s : State} {pt : Pt}

theorem exec_tileCommit : exec (.tileCommit pt) s = .next (tileCommit pt.toNat s) := rfl

theorem exec_tileBudgetExpire : exec (.tileBudgetExpire pt) s = .next (budgetExpire pt.toNat s) := rfl

end

/-- Settles O29. The window of TILEs with differing budgets is the least of them: the model's choice (DEDUCED, log 20). -/
theorem tilesSettleCommitAndYield : Obligations.TilesSettleCommitAndYield := by
  refine ⟨?settle, ?commit, ?core, ?boundary, fun s pt a away => congrArg Host.Outcome.next (tileYield_away away), ?expire⟩
  case settle =>
    intro s pt c k h b tile core q settling
    rw [exec_tileSettleMeet core]
    exact ⟨fun advancing quiet streams => congrArg Host.Outcome.next (settleMeet_meets settling advancing quiet streams),
      fun _ _ other => congrArg Host.Outcome.next (settleMeet_holds (.inr (.inr other))),
      fun holds => congrArg Host.Outcome.next (settleMeet_holds (holds.imp_right .inl))⟩
  case commit =>
    intro s pt n p rs
    rw [exec_tileCommit, exec_tileBudgetExpire]
    refine ⟨fun idle => congrArg Host.Outcome.next (tileCommit_idle idle), fun advancing occupied met inside =>
      ⟨fun r f fails => congrArg Host.Outcome.next (tileCommit_fault advancing occupied met inside fails), fun sound ok =>
        ⟨_, congrArg Host.Outcome.next (tileCommit_commits advancing occupied met inside sound), ?_⟩⟩,
      fun advancing occupied met past => congrArg Host.Outcome.next (tileCommit_past advancing occupied met past)⟩
    obtain ⟨-, -, parts, -⟩ := ok
    rw [commit_part parts]
    exact ⟨commit_only _, rfl, rfl, rfl, rfl, rfl, rfl, rfl, commitPart_winEnd⟩
  case core =>
    intro q cyc now z
    exact ⟨rfl, rfl, rfl, rfl, rfl, rfl, commitTile_seq q cyc now, fun e he => commitTile_array he⟩
  case boundary =>
    intro s pt boundary
    exact ⟨fun mayGo => congrArg Host.Outcome.next (tileYield_goesOn boundary mayGo),
      fun must => congrArg Host.Outcome.next (tileYield_yields boundary must),
      fun cn => congrArg Host.Outcome.next (tileYield_switch boundary),
      congrArg Host.Outcome.next (tileYield_checkpoint boundary), congrArg Host.Outcome.next (tileYield_repair boundary)⟩
  case expire =>
    intro s pt e window runs out
    rw [exec_tileBudgetExpire]
    exact ⟨fun early => congrArg Host.Outcome.next (budgetExpire_early window early),
      fun past noHang => congrArg Host.Outcome.next (budgetExpire_overrun runs out past window noHang),
      fun u past hang => congrArg Host.Outcome.next (budgetExpire_hang runs out past window hang)⟩

end Sys2Proof.Machine
end

section
namespace Sys2Proof.Machine
open Sys2Proof.Laws

/-! ## What the checks at an instruction's issue answer

An instruction's answer decides what the row makes of the state (`IssuesAt.runs`): one law for a single fault, one for a hold, one for
a wait. The checks of Bench lines (R146, R222) have one law for each state that the lines can be in. -/

section
variable {s : State} {pt : Pt} {c : LCore} {k : Nat} {f : CoreRef → InsRes}

theorem IssuesAt.runs_fault {i : FaultInfo} (at' : IssuesAt s pt c k) (fails : f ⟨pt.toNat, c.toNat, k⟩ = .fault [i]) :
    runIns s pt c f = .next (s.raise pt.toNat c.toNat k i) := by
  rw [at'.runs, fails]
  rfl

theorem IssuesAt.runs_hold (at' : IssuesAt s pt c k) (holds : f ⟨pt.toNat, c.toNat, k⟩ = .hold) :
    runIns s pt c f = .next (s.holdCycle pt.toNat) := by
  rw [at'.runs, holds]
  rfl

theorem IssuesAt.runs_wait {w : Need} (at' : IssuesAt s pt c k) (waits : f ⟨pt.toNat, c.toNat, k⟩ = .wait [w]) :
    runIns s pt c f = .next (s.freeze pt.toNat [⟨k, w, false, s.now⟩]) := by
  rw [at'.runs, waits]
  rfl

end

section
variable {s : State} {r : CoreRef} {slot : Nat} {fs : List FaultInfo} {ls : List Nat} {go : InsRes}

theorem valid_not_invalid {q : Core} (valid : ∀ i ∈ ls, (q.line i).st = .valid) : ∀ i ∈ ls, (q.line i).st ≠ .invalid :=
  fun i hi => by simp [valid i hi]

theorem valid_not_pending {q : Core} (valid : ∀ i ∈ ls, (q.line i).st = .valid) : ∀ i ∈ ls, (q.line i).st ≠ .pending :=
  fun i hi => by simp [valid i hi]

theorem checkWrite_free (free : ∀ i ∈ ls, ((s.core r.k).line i).st ≠ .pending) : checkWrite s r ls go = go := by
  have none : ls.filter (fun i => ((s.core r.k).line i).st == .pending) = [] := by simpa using free
  simp [checkWrite, none]

theorem checkReadWith_valid (valid : ∀ i ∈ ls, ((s.core r.k).line i).st = .valid) : checkReadWith s r slot [] ls go = go := by
  have none : ls.any (fun i => ((s.core r.k).line i).st == .invalid) = false := by simpa using valid_not_invalid valid
  rw [checkReadWith, none]
  exact checkWrite_free (valid_not_pending valid)

/-- Where no line is INVALID, the other faults of the instruction stand alone. -/
theorem checkReadWith_faults (written : ∀ i ∈ ls, ((s.core r.k).line i).st ≠ .invalid) (fails : fs ≠ []) :
    checkReadWith s r slot fs ls go = .fault fs := by
  have none : ls.any (fun i => ((s.core r.k).line i).st == .invalid) = false := by simpa using written
  simp [checkReadWith, none, fails]

theorem checkReadWith_uninit (unwritten : ∃ i ∈ ls, ((s.core r.k).line i).st = .invalid) :
    checkReadWith s r slot fs ls go = .fault (insInfo s r fcUninit slot 0 6 :: fs) := by
  have some : ls.any (fun i => ((s.core r.k).line i).st == .invalid) = true := by simpa using unwritten
  simp [checkReadWith, some]

theorem checkRead_valid (valid : ∀ i ∈ ls, ((s.core r.k).line i).st = .valid) : checkRead s r slot ls go = go :=
  checkReadWith_valid valid

theorem checkRead_uninit (unwritten : ∃ i ∈ ls, ((s.core r.k).line i).st = .invalid) :
    checkRead s r slot ls go = insFault s r fcUninit slot 0 6 :=
  checkReadWith_uninit unwritten

end

end Sys2Proof.Machine
end

section
namespace Sys2Proof.Machine
open Sys2Proof.Laws

/-! ## The vector unit (O17 to O20)

Every instruction of the V slot goes through `vUnit`: it holds while the unit is busy (`vUnit_busy`), and otherwise answers on a state
in which the unit is taken and effects may be owed (`State.vOwing`), whose registers and lines are those of the issue. -/

/-- Core `r.k` with its vector unit taken from this cycle on (R279) and more effects owed. -/
def State.vOwing (s : State) (r : CoreRef) (occ : Nat) (ws : List Delayed) : State :=
  s.setCore r.k { s.core r.k with vBusy := s.cyc r + occ, writes := (s.core r.k).writes ++ ws }

section
variable {s : State} {r : CoreRef} {occ lat rank code : Nat} {ws : List Delayed} {go : State → InsRes} {i : BitVec 6}

theorem vUnit_busy (busy : s.cyc r < (s.core r.k).vBusy) : vUnit s r occ go = .hold := if_pos busy

theorem vUnit_free (free : (s.core r.k).vBusy ≤ s.cyc r) : vUnit s r occ go = go (s.vOwing r occ []) := by
  rw [State.vOwing, List.append_nil]
  exact if_neg (Nat.not_lt.2 free)

section
variable (sorted : smapSorted s.cores = true)
include sorted

theorem vOwing_core : (s.vOwing r occ ws).core r.k =
    { s.core r.k with vBusy := s.cyc r + occ, writes := (s.core r.k).writes ++ ws } :=
  setCore_core_self s sorted r.k _

theorem vOwing_sreg (i : Nat) : ((s.vOwing r occ ws).core r.k).sreg i = (s.core r.k).sreg i := by
  rw [vOwing_core sorted]
  rfl

theorem vOwing_lineOf (i : BitVec 5) : ((s.vOwing r occ ws).core r.k).lineOf i = (s.core r.k).lineOf i := by
  rw [Core.lineOf, vOwing_sreg sorted, Core.lineOf]

theorem vOwing_seed : ((s.vOwing r occ ws).core r.k).seed = (s.core r.k).seed := by rw [vOwing_core sorted]

theorem vOwing_step : ((s.vOwing r occ ws).core r.k).step = (s.core r.k).step := by rw [vOwing_core sorted]

theorem vOwing_line (i : Nat) : ((s.vOwing r occ ws).core r.k).line i = (s.core r.k).line i := by
  rw [vOwing_core sorted]
  rfl

theorem vOwing_vldsOut : ((s.vOwing r occ []).core r.k).vldsOut = (s.core r.k).vldsOut := by
  rw [vOwing_core sorted]
  simp only [Core.vldsOut, List.append_nil]

theorem vOwing_v : (s.vOwing r occ ws).v r i = s.v r i := by
  rw [State.v, vOwing_core sorted]
  rfl

/-- A fault names the PC at the issue. -/
theorem vOwing_insInfo {slot detail unit : Nat} :
    insInfo (s.vOwing r occ ws) r code slot detail unit = insInfo s r code slot detail unit := by
  simp only [insInfo, vOwing_core sorted]

theorem vOwing_faultV : faultV (s.vOwing r occ ws) r code = faultV s r code := by
  simp only [faultV, insFault, vOwing_insInfo sorted]

theorem vOwing_setCore (q : Core) : (s.vOwing r occ ws).setCore r.k q = s.setCore r.k q := setCore_setCore s sorted r.k _ q

theorem vOwing_delay (a : Act) :
    (s.vOwing r occ ws).delay r lat rank a = s.vOwing r occ (ws ++ [⟨s.cyc r + lat - 1, rank, a⟩]) := by
  rw [delay_eq, vOwing_core sorted, vOwing_setCore sorted, Core.delay, List.append_assoc]
  rfl

theorem vOwing_delays {α : Type} (a : α → Act) (l : List α) :
    l.foldl (fun t i => t.delay r lat rank (a i)) (s.vOwing r occ ws) =
      s.vOwing r occ (ws ++ l.map fun i => ⟨s.cyc r + lat - 1, rank, a i⟩) := by
  induction l generalizing ws with
  | nil => simp
  | cons i l ih =>
    rw [List.foldl_cons, vOwing_delay sorted, ih, List.append_assoc]
    rfl

end
end

section
variable {s : State} {pt : Pt} {k c : Nat} {vd va vb vc : BitVec 6} {ty : BitVec 2} {occ lat : Nat} {go : State → InsRes}

theorem vOwing_writeV (sorted : smapSorted s.cores = true) (bits : VWord) (poison : Bool) :
    writeV (s.vOwing ⟨pt.toNat, c, k⟩ occ []) ⟨pt.toNat, c, k⟩ lat vd bits poison =
      .ok (s.owingV pt k occ lat vd ⟨bits, poison⟩) := by
  rw [writeV, vOwing_delay sorted]
  rfl

variable (free : VectorFree s pt k)
include free

/-- What a vector instruction answers that takes the free unit and writes a register. -/
theorem vUnit_writes {bits : VWord} {poison : Bool}
    (writes : go (s.vOwing ⟨pt.toNat, c, k⟩ occ []) =
      writeV (s.vOwing ⟨pt.toNat, c, k⟩ occ []) ⟨pt.toNat, c, k⟩ lat vd bits poison) :
    vUnit s ⟨pt.toNat, c, k⟩ occ go = .ok (s.owingV pt k occ lat vd ⟨bits, poison⟩) := by
  rw [vUnit_free free.1, writes, vOwing_writeV free.2]

theorem vUnit_faults {code : Nat}
    (fails : go (s.vOwing ⟨pt.toNat, c, k⟩ occ []) = faultV (s.vOwing ⟨pt.toNat, c, k⟩ occ []) ⟨pt.toNat, c, k⟩ code) :
    vUnit s ⟨pt.toNat, c, k⟩ occ go = faultV s ⟨pt.toNat, c, k⟩ code := by
  rw [vUnit_free free.1, fails, vOwing_faultV free.2]

/-! ### The typed instructions (R249, R250) -/

theorem insVarith_typed {op : VArith} (typed : ty ≠ 3) :
    let a := (s.core k).vreg va.toNat
    let b := (s.core k).vreg vb.toNat
    insVarith op vd va vb ty s ⟨pt.toNat, c, k⟩ =
      .ok (s.owingV pt k (typedOcc ty) (typedLat ty) vd ⟨vArith op ty a.bits b.bits, a.poison || b.poison⟩) := by
  intro a b
  refine vUnit_writes free ?_
  simp only [if_neg typed, vOwing_v free.2]
  rfl

theorem insVarith_untyped {op : VArith} :
    insVarith op vd va vb 3 s ⟨pt.toNat, c, k⟩ = faultV s ⟨pt.toNat, c, k⟩ fcIllegal :=
  vUnit_faults free (if_pos rfl)

theorem insVfma_f32 :
    let a := (s.core k).vreg va.toNat
    let b := (s.core k).vreg vb.toNat
    let z := (s.core k).vreg vc.toNat
    insVfma vd va vb vc 0 s ⟨pt.toNat, c, k⟩ = .ok (s.owingV pt k 1 4 vd
      ⟨ofLanes (zipWith3 (fun x y w => toF32 (((f32 x).mul (f32 y)).add (f32 w))) (lanes a.bits) (lanes b.bits) (lanes z.bits)),
        a.poison || b.poison || z.poison⟩) := by
  intro a b z
  refine vUnit_writes free ?_
  simp only [vOwing_v free.2]
  rfl

theorem insVfma_f64 :
    let a := (s.core k).vreg va.toNat
    let b := (s.core k).vreg vb.toNat
    let z := (s.core k).vreg vc.toNat
    insVfma vd va vb vc 1 s ⟨pt.toNat, c, k⟩ = .ok (s.owingV pt k 4 7 vd
      ⟨ofDlanes (zipWith3 (fun x y w => toF64 (((f64 x).mul (f64 y)).add (f64 w))) (dlanes a.bits) (dlanes b.bits)
        (dlanes z.bits)), a.poison || b.poison || z.poison⟩) := by
  intro a b z
  refine vUnit_writes free ?_
  simp only [vOwing_v free.2]
  rfl

theorem insVfma_untyped (untyped : 2 ≤ ty.toNat) :
    insVfma vd va vb vc ty s ⟨pt.toNat, c, k⟩ = faultV s ⟨pt.toNat, c, k⟩ fcIllegal :=
  vUnit_faults free (if_pos untyped)

section
variable {cond : BitVec 3}

theorem insVcmp_f32 (float : cond.toNat < 6) :
    let a := (s.core k).vreg va.toNat
    let b := (s.core k).vreg vb.toNat
    insVcmp vd va vb 0 cond s ⟨pt.toNat, c, k⟩ = .ok (s.owingV pt k 1 4 vd
      ⟨ofLanes (List.zipWith (fun x y => laneMask 32 (condNum cond.toNat (f32 x) (f32 y))) (lanes a.bits) (lanes b.bits)),
        a.poison || b.poison⟩) := by
  intro a b
  refine vUnit_writes free ?_
  have legal : ¬((0 : BitVec 2) = 3 ∨ ((0 : BitVec 2) ≠ 2 ∧ 6 ≤ cond.toNat)) := by simp; omega
  simp only [if_neg legal, vOwing_v free.2]
  rfl

theorem insVcmp_f64 (float : cond.toNat < 6) :
    let a := (s.core k).vreg va.toNat
    let b := (s.core k).vreg vb.toNat
    insVcmp vd va vb 1 cond s ⟨pt.toNat, c, k⟩ = .ok (s.owingV pt k 4 7 vd
      ⟨ofDlanes (List.zipWith (fun x y => laneMask 64 (condNum cond.toNat (f64 x) (f64 y))) (dlanes a.bits) (dlanes b.bits)),
        a.poison || b.poison⟩) := by
  intro a b
  refine vUnit_writes free ?_
  have legal : ¬((1 : BitVec 2) = 3 ∨ ((1 : BitVec 2) ≠ 2 ∧ 6 ≤ cond.toNat)) := by simp; omega
  simp only [if_neg legal, vOwing_v free.2]
  rfl

theorem insVcmp_i32 :
    let a := (s.core k).vreg va.toNat
    let b := (s.core k).vreg vb.toNat
    insVcmp vd va vb 2 cond s ⟨pt.toNat, c, k⟩ = .ok (s.owingV pt k 1 4 vd
      ⟨ofLanes (List.zipWith (fun x y => laneMask 32 (condInt cond.toNat x y)) (lanes a.bits) (lanes b.bits)),
        a.poison || b.poison⟩) := by
  intro a b
  refine vUnit_writes free ?_
  simp only [vOwing_v free.2]
  rfl

theorem insVcmp_illegal (illegal : ty = 3 ∨ (ty ≠ 2 ∧ 6 ≤ cond.toNat)) :
    insVcmp vd va vb ty cond s ⟨pt.toNat, c, k⟩ = faultV s ⟨pt.toNat, c, k⟩ fcIllegal :=
  vUnit_faults free (if_pos illegal)

end

theorem insVlogic_int {op : VLogic} :
    let a := (s.core k).vreg va.toNat
    let b := (s.core k).vreg vb.toNat
    insVlogic op vd va vb 2 s ⟨pt.toNat, c, k⟩ = .ok (s.owingV pt k 1 4 vd
      ⟨ofLanes (List.zipWith op.int (lanes a.bits) (lanes b.bits)), a.poison || b.poison⟩) := by
  intro a b
  refine vUnit_writes free ?_
  simp only [vOwing_v free.2]
  rfl

theorem insVlogic_untyped {op : VLogic} (untyped : ty ≠ 2) :
    insVlogic op vd va vb ty s ⟨pt.toNat, c, k⟩ = faultV s ⟨pt.toNat, c, k⟩ fcIllegal :=
  vUnit_faults free (if_pos untyped)

theorem insVsel_eq :
    let a := (s.core k).vreg va.toNat
    let b := (s.core k).vreg vb.toNat
    let z := (s.core k).vreg vc.toNat
    insVsel vd va vb vc s ⟨pt.toNat, c, k⟩ = .ok (s.owingV pt k 1 4 vd
      ⟨ofLanes (zipWith3 (fun x y w => if w = 0 then y else x) (lanes a.bits) (lanes b.bits) (lanes z.bits)),
        a.poison || b.poison || z.poison⟩) := by
  intro a b z
  refine vUnit_writes free ?_
  simp only [vOwing_v free.2]
  rfl

theorem insVperm_eq :
    let a := (s.core k).vreg va.toNat
    let b := (s.core k).vreg vb.toNat
    insVperm vd va vb s ⟨pt.toNat, c, k⟩ = .ok (s.owingV pt k 1 4 vd
      ⟨ofLanes ((lanes b.bits).map fun i => a.bits.extractLsb' (32 * (i.toNat % 256)) 32), a.poison || b.poison⟩) := by
  intro a b
  refine vUnit_writes free ?_
  simp only [vOwing_v free.2]
  rfl

end

theorem vMax_int (x y : Word) : VArith.max.int x y = if x.toInt < y.toInt then y else x := by
  simp [VArith.int, BitVec.slt]

theorem vMin_int (x y : Word) : VArith.min.int x y = if y.toInt < x.toInt then y else x := by
  simp [VArith.int, BitVec.slt]

/-- Settles O17: the five arithmetic instructions are `insVarith` of their operation, the six of logic and shifts `insVlogic` of
theirs; a type or a condition that is not listed faults. -/
theorem vectorArithmeticLaneByLane : Obligations.VectorArithmeticLaneByLane := by
  intro s pt c k vd va vb vc at' free q a b z w32 w64 f32s f64s bad
  have typed (op : VArith) (ty : BitVec 2) (h : ty ≠ 3) : runIns s pt c (insVarith op vd va vb ty s) =
      .next (s.owingV pt k (typedOcc ty) (typedLat ty) vd ⟨vArith op ty a.bits b.bits, a.poison || b.poison⟩) :=
    at'.runs_ok (insVarith_typed free h)
  have float (op : VArith) := typed op 0 (by decide)
  have double (op : VArith) := typed op 1 (by decide)
  have int (op : VArith) := typed op 2 (by decide)
  have untyped (op : VArith) : runIns s pt c (insVarith op vd va vb 3 s) = .next (s.illegalAt pt c k 2 5) :=
    at'.runs_fault (insVarith_untyped free)
  have logic (op : VLogic) : runIns s pt c (insVlogic op vd va vb 2 s) = .next (s.owingV pt k 1 4 vd
      ⟨ofLanes (List.zipWith op.int (lanes a.bits) (lanes b.bits)), a.poison || b.poison⟩) := at'.runs_ok (insVlogic_int free)
  have unlogic (op : VLogic) {ty : BitVec 2} (other : ty ≠ 2) :
      runIns s pt c (insVlogic op vd va vb ty s) = .next (s.illegalAt pt c k 2 5) := at'.runs_fault (insVlogic_untyped free other)
  refine ⟨⟨float .add, double .add, int .add, untyped .add⟩, ⟨float .sub, double .sub, int .sub, untyped .sub⟩,
    ⟨float .mul, double .mul, int .mul, untyped .mul⟩, ⟨float .max, double .max, ?max, untyped .max⟩,
    ⟨float .min, double .min, ?min, untyped .min⟩,
    ⟨at'.runs_ok (insVfma_f32 free), at'.runs_ok (insVfma_f64 free), at'.runs_fault (insVfma_untyped free (by decide)),
      at'.runs_fault (insVfma_untyped free (by decide))⟩,
    ⟨fun cond hc => ⟨at'.runs_ok (insVcmp_f32 free hc), at'.runs_ok (insVcmp_f64 free hc)⟩,
      fun cond => at'.runs_ok (insVcmp_i32 free),
      fun cond => ⟨at'.runs_fault (insVcmp_illegal free (.inl rfl)), fun hc =>
        ⟨at'.runs_fault (insVcmp_illegal free (.inr ⟨by decide, hc⟩)), at'.runs_fault (insVcmp_illegal free (.inr ⟨by decide, hc⟩))⟩⟩⟩,
    at'.runs_ok (insVsel_eq free), at'.runs_ok (insVperm_eq free),
    ⟨logic .and, logic .or, logic .xor, logic .shl, logic .shr, logic .shrA, fun ty other =>
      ⟨unlogic .and other, unlogic .or other, unlogic .xor other, unlogic .shl other, unlogic .shr other, unlogic .shrA other⟩⟩⟩
  case max =>
    show exec _ s = _
    rw [← funext fun x => funext (vMax_int x)]
    exact int .max
  case min =>
    show exec _ s = _
    rw [← funext fun x => funext (vMin_int x)]
    exact int .min

/-- Settles O18: each of them begins with the check that the unit is free. -/
theorem vectorUnitHoldsWhileBusy : Obligations.VectorUnitHoldsWhileBusy := by
  intro s pt c k vd va vb vc ty part mr width rs ri rsm src tgt fn x y n1 ca cond count at' busy t
  simp only [List.mem_cons, List.not_mem_nil, or_false]
  rintro i (rfl | rfl | rfl | rfl | rfl | rfl | rfl | rfl | rfl | rfl | rfl | rfl | rfl | rfl | rfl)
  all_goals exact at'.runs_hold (vUnit_busy busy)

end Sys2Proof.Machine
end

section
namespace Sys2Proof.Machine
open Sys2Proof.Laws

/-! ## Conversions, functions and soft updates (O20) -/

/-- The rounding of a converted element: by its Leaven bits where SR asks for it and R71 does not forbid it. -/
def Core.cvtRnd (q : Core) (tgt : BitVec 4) (sr : Bool) (ri rsm : BitVec 5) (i : Nat) : Rnd :=
  if sr = true ∧ 2 ≤ tgt.toNat ∧ tgt ≠ 9 then
    .sr (srBits q.seed q.step ((q.sreg rsm.toNat).extractLsb' 0 32) (q.sreg ri.toNat + BitVec.ofNat 64 i))
  else .rne

section
variable {s : State} {pt : Pt} {k c : Nat} {vd va vb vc : BitVec 6} (free : VectorFree s pt k)
include free

/-! ### VCVT (R71, R78, R251) -/

section
variable {src tgt : BitVec 4} {sr clr : Bool} {mr : BitVec 2} {ri rsm : BitVec 5}

theorem insVcvt_illegal (illegal : 10 ≤ src.toNat ∨ 10 ≤ tgt.toNat) :
    insVcvt vd va src tgt sr mr clr ri rsm s ⟨pt.toNat, c, k⟩ = faultV s ⟨pt.toNat, c, k⟩ fcIllegal :=
  vUnit_faults free (if_pos illegal)

section
variable (hsrc : src.toNat < 10) (htgt : tgt.toNat < 10)
include hsrc htgt

theorem insVcvt_noPair (noPair : cvtPair src.toNat tgt.toNat = false) :
    insVcvt vd va src tgt sr mr clr ri rsm s ⟨pt.toNat, c, k⟩ = faultV s ⟨pt.toNat, c, k⟩ fcFormat := by
  refine vUnit_faults free ?_
  rw [if_neg (by omega), if_pos (by simp [noPair])]

theorem insVcvt_pair (pair : cvtPair src.toNat tgt.toNat = true) :
    let a := (s.core k).vreg va.toNat
    let xs := cvtValues src.toNat (if src = 1 ∨ tgt = 1 then 128 else 256) a.bits
    let due := (s.part pt.toNat).cyc + 5
    insVcvt vd va src tgt sr mr clr ri rsm s ⟨pt.toNat, c, k⟩ = .ok (s.vOwing ⟨pt.toNat, c, k⟩ 1
      ((if clr then [⟨due, 0, .mclear mr.toNat⟩] else []) ++ [⟨due, 2, .mjoin mr.toNat (.ofValues xs)⟩,
        ⟨due, 1, .vreg vd.toNat
          ⟨cvtBits tgt.toNat (xs.zipIdx.map fun e => ((s.core k).cvtRnd tgt sr ri rsm e.2, e.1)), a.poison⟩⟩])) := by
  intro a xs due
  rw [insVcvt, vUnit_free free.1, if_neg (by omega), if_neg (by simp [pair])]
  simp only [Core.cvtRnd, writeV, vOwing_v free.2, vOwing_sreg free.2, vOwing_seed free.2, vOwing_step free.2,
    Bool.and_eq_true, decide_eq_true_eq, and_assoc]
  cases clr
  · simp only [Bool.false_eq_true, if_false, vOwing_delay free.2]
    rfl
  · simp only [if_true, vOwing_delay free.2]
    rfl

end
end

/-! ### VFN, VLEAV, VCRUMB and VOPT (R252, R259 to R262) -/

section
variable {fn : BitVec 4} {d : Bool}

theorem insVfn_assigned (assigned : fn.toNat < 9) :
    let a := (s.core k).vreg va.toNat
    insVfn vd va fn d s ⟨pt.toNat, c, k⟩ = .ok (s.owingV pt k 1 12 vd
      ⟨ofLanes ((lanes a.bits).map fun x => toF32 (if d then fnDeriv fn.toNat (f32 x) else fnApply fn.toNat (f32 x))), a.poison⟩) := by
  intro a
  refine vUnit_writes free ?_
  rw [if_neg (by omega), vOwing_v free.2]
  rfl

theorem insVfn_illegal (illegal : 9 ≤ fn.toNat) :
    insVfn vd va fn d s ⟨pt.toNat, c, k⟩ = faultV s ⟨pt.toNat, c, k⟩ fcIllegal :=
  vUnit_faults free (if_pos illegal)

end

section
variable {ri rsm : BitVec 5}

/-- The Leaven word of a lane (R259). -/
def Core.vLeaven (q : Core) (ri rsm : BitVec 5) (i : Nat) : Word :=
  leavenWord q.seed q.step ((q.sreg rsm.toNat).extractLsb' 0 32) (q.sreg ri.toNat + BitVec.ofNat 64 i)

theorem insVleav_words : insVleav vd ri rsm false s ⟨pt.toNat, c, k⟩ =
    .ok (s.owingV pt k 1 10 vd ⟨ofLanes ((List.range 256).map ((s.core k).vLeaven ri rsm)), false⟩) := by
  refine vUnit_writes free ?_
  simp only [vOwing_sreg free.2, vOwing_seed free.2, vOwing_step free.2]
  rfl

theorem insVleav_uniform : insVleav vd ri rsm true s ⟨pt.toNat, c, k⟩ = .ok (s.owingV pt k 1 10 vd
    ⟨ofLanes ((List.range 256).map fun i => toF32 (.fin false (((s.core k).vLeaven ri rsm i).toNat / 2 ^ 8) (-24))), false⟩) := by
  refine vUnit_writes free ?_
  simp only [vOwing_sreg free.2, vOwing_seed free.2, vOwing_step free.2, Nat.shiftRight_eq_div_pow]
  rfl

end

section
variable {ca : BitVec 3} {width : BitVec 2} {count : BitVec 10} {ri rk : BitVec 5}

theorem insVcrumb_illegal :
    insVcrumb va ca 3 count ri rk s ⟨pt.toNat, c, k⟩ = faultV s ⟨pt.toNat, c, k⟩ fcIllegal :=
  vUnit_faults free (if_pos rfl)

variable (assigned : width ≠ 3)
include assigned

theorem insVcrumb_beyond (beyond : 8192 < (count.toNat + 1) * (8 * 2 ^ width.toNat)) :
    insVcrumb va ca width count ri rk s ⟨pt.toNat, c, k⟩ = faultV s ⟨pt.toNat, c, k⟩ fcRange := by
  refine vUnit_faults free ?_
  rw [if_neg assigned, if_pos beyond]

theorem insVcrumb_within (within : (count.toNat + 1) * (8 * 2 ^ width.toNat) ≤ 8192) :
    let q := s.core k
    let a := q.vreg va.toNat
    insVcrumb va ca width count ri rk s ⟨pt.toNat, c, k⟩ = .ok (s.vOwing ⟨pt.toNat, c, k⟩ 1
      [⟨(s.part pt.toNat).cyc + 5, 2, .crumb ca.toNat (crumbAddOf ((q.sreg rk.toNat).extractLsb' 0 32) q.step a.poison
        ((List.range (count.toNat + 1)).map fun i => (q.sreg ri.toNat + BitVec.ofNat 64 i,
          BitVec.ofNat 32 (elemAt a.bits.toNat (8 * 2 ^ width.toNat) i))))⟩]) := by
  intro q a
  rw [insVcrumb, vUnit_free free.1, if_neg assigned, if_neg (Nat.not_lt.2 within)]
  simp only [vOwing_v free.2, vOwing_sreg free.2, vOwing_step free.2, vOwing_delay free.2]
  rfl

end

theorem insVopt_updates {sel : Bool}
    (updates : sel = true → ((s.core k).vreg vc.toNat).poison = false ∧ ((s.core k).vreg vc.toNat).bits.extractLsb' 0 4 = 0) :
    let a := (s.core k).vreg va.toNat
    let b := (s.core k).vreg vb.toNat
    insVopt vd va vb vc sel s ⟨pt.toNat, c, k⟩ = .ok (s.owingV pt k 1 4 vd ⟨optBits a.bits b.bits, a.poison || b.poison⟩) := by
  intro a b
  refine vUnit_writes free ?_
  simp only [vOwing_v free.2]
  rw [if_neg (fun bad => by simp [State.v, (updates bad.1).1] at bad), if_neg (fun bad => bad.2 (updates bad.1).2)]
  rfl

theorem insVopt_keeps (sound : ((s.core k).vreg vc.toNat).poison = false)
    (bad : ((s.core k).vreg vc.toNat).bits.extractLsb' 0 4 ≠ 0) :
    insVopt vd va vb vc true s ⟨pt.toNat, c, k⟩ = .ok (s.owingV pt k 1 4 vd ((s.core k).vreg va.toNat)) := by
  refine vUnit_writes free ?_
  simp only [vOwing_v free.2]
  rw [if_neg (fun h => by simp [State.v, sound] at h), if_pos ⟨trivial, bad⟩]
  rfl

theorem insVopt_poisoned (poisoned : ((s.core k).vreg vc.toNat).poison = true) :
    insVopt vd va vb vc true s ⟨pt.toNat, c, k⟩ = faultV s ⟨pt.toNat, c, k⟩ fcPoison := by
  refine vUnit_faults free ?_
  simp only [vOwing_v free.2]
  exact if_pos ⟨trivial, poisoned⟩

end

/-- Settles O20: each instruction by the law of its answer. -/
theorem conversionsFunctionsAndSoftUpdates : Obligations.ConversionsFunctionsAndSoftUpdates := by
  intro s pt c k vd va vb vc at' free q cyc a b z q1
  refine ⟨?vcvt, fun fn d => ⟨fun assigned => at'.runs_ok (insVfn_assigned free assigned), fun illegal =>
      at'.runs_fault (insVfn_illegal free illegal)⟩,
    fun ri rsm => ⟨at'.runs_ok (insVleav_words free), at'.runs_ok (insVleav_uniform free)⟩, ?vcrumb,
    at'.runs_ok (insVopt_updates free (fun h => nomatch h)), fun sound bad => at'.runs_ok (insVopt_keeps free sound bad),
    fun sound good => at'.runs_ok (insVopt_updates free fun _ => ⟨sound, good⟩),
    fun poisoned => at'.runs_fault (insVopt_poisoned free poisoned)⟩
  case vcvt =>
    intro src tgt sr clr mr ri rsm n xs rnd
    refine ⟨fun hs ht pair => (at'.runs_ok (insVcvt_pair free hs ht pair)).trans ?_,
      fun hs ht noPair => at'.runs_fault (insVcvt_noPair free hs ht noPair),
      fun illegal => at'.runs_fault (insVcvt_illegal free illegal)⟩
    rw [State.vOwing, ← List.append_assoc]
    rfl
  case vcrumb =>
    intro ca width count ri rk w n
    refine ⟨fun assigned within => at'.runs_ok (insVcrumb_within free assigned within),
      fun assigned beyond => at'.runs_fault (insVcrumb_beyond free assigned beyond), ?_⟩
    rintro rfl
    exact at'.runs_fault (insVcrumb_illegal free)

end Sys2Proof.Machine
end

section
namespace Sys2Proof.Machine
open Sys2Proof.Laws

/-! ## Loads and stores of vector registers (O19) -/

theorem partLines_eq (part : BitVec 2) : partLines part.toNat = if part = 0 then 8 else 4 := by
  simp [partLines, ← BitVec.toNat_inj]

theorem lineRun_inBench {l n : Nat} (within : l + n ≤ 65536) :
    (lineRun l n).filter (fun i => decide (i < 65536)) = lineRun l n := by
  refine List.filter_eq_self.2 fun i hi => ?_
  obtain ⟨j, hj, rfl⟩ := List.mem_map.1 hi
  have := List.mem_range.1 hj
  simp only [decide_eq_true_eq]
  omega

section
variable {s : State} {pt : Pt} {k c : Nat} {v : BitVec 6} {rs : BitVec 5} {part : BitVec 2} (free : VectorFree s pt k)
include free

theorem insVld_noPart : insVld v rs 3 s ⟨pt.toNat, c, k⟩ = faultV s ⟨pt.toNat, c, k⟩ fcIllegal :=
  vUnit_faults free (if_pos rfl)

theorem insVst_noPart : insVst v rs 3 s ⟨pt.toNat, c, k⟩ = faultV s ⟨pt.toNat, c, k⟩ fcIllegal :=
  vUnit_faults free (if_pos rfl)

section
variable (assigned : part ≠ 3)
include assigned

theorem insVst_beyond (beyond : 65536 < (s.core k).lineOf rs + partLines part.toNat) :
    insVst v rs part s ⟨pt.toNat, c, k⟩ = faultV s ⟨pt.toNat, c, k⟩ fcRange := by
  refine vUnit_faults free ?_
  simp only [vOwing_lineOf free.2]
  rw [if_neg assigned]
  exact if_pos beyond

/-- The lines of a VST that are owed at the end of its cycle (R248). -/
theorem insVst_within (within : (s.core k).lineOf rs + partLines part.toNat ≤ 65536)
    (ready : ∀ i ∈ lineRun ((s.core k).lineOf rs) (partLines part.toNat), ((s.core k).line i).st ≠ .pending) :
    let q := s.core k
    let first := if part = 2 then 4 else 0
    insVst v rs part s ⟨pt.toNat, c, k⟩ = .ok (s.vOwing ⟨pt.toNat, c, k⟩ 1
      ((List.range (partLines part.toNat)).map fun i => ⟨(s.part pt.toNat).cyc, 14, .bench ⟨q.lineOf rs + i,
        (q.vreg v.toNat).bits.extractLsb' (1024 * (first + i)) 1024, BitVec.allOnes 128, (q.vreg v.toNat).poison⟩⟩)) := by
  intro q first
  rw [insVst, vUnit_free free.1]
  simp only [vOwing_lineOf free.2, vOwing_v free.2]
  rw [if_neg assigned, if_neg (Nat.not_lt.2 within), checkWrite_free, vOwing_delays free.2]
  · rfl
  · simp only [vOwing_line free.2]
    exact ready

/-- A VLD of a part meets the checks of R222, R224 and R225, and otherwise owes its register the lines' data. -/
theorem insVld_part :
    let q := s.core k
    let l := q.lineOf rs
    let n := partLines part.toNat
    insVld v rs part s ⟨pt.toNat, c, k⟩ = checkReadWith (s.vOwing ⟨pt.toNat, c, k⟩ 1 []) ⟨pt.toNat, c, k⟩ 2
      ((if 8 ≤ q.vldsOut then [insInfo s ⟨pt.toNat, c, k⟩ fcOverflow 2 0 5] else []) ++
        (if 65536 < l + n then [insInfo s ⟨pt.toNat, c, k⟩ fcRange 2 0 5] else []))
      ((lineRun l n).filter fun i => decide (i < 65536))
      (.ok (s.setCore k { q with
        vBusy := (s.part pt.toNat).cyc + 1, reads := q.reads + n
        writes := q.writes ++ [⟨(s.part pt.toNat).cyc + 5, 1, .vload v.toNat part.toNat
          (BitVec.ofNat 8192 (linesNat ((lineRun l n).map fun i => (q.line i).data)))
          ((lineRun l n).any fun i => (q.line i).poison)⟩] })) := by
  intro q l n
  rw [insVld, vUnit_free free.1]
  simp only [vOwing_lineOf free.2, vOwing_line free.2, vOwing_vldsOut free.2, vOwing_insInfo free.2,
    vOwing_delay free.2]
  rw [if_neg assigned, countReads_eq, vOwing_core free.2, vOwing_setCore free.2]
  rfl

section
variable (within : (s.core k).lineOf rs + partLines part.toNat ≤ 65536)
include within

theorem insVld_loads (valid : ∀ i ∈ lineRun ((s.core k).lineOf rs) (partLines part.toNat), ((s.core k).line i).st = .valid)
    (room : (s.core k).vldsOut < 8) :
    let q := s.core k
    let ls := lineRun (q.lineOf rs) (partLines part.toNat)
    insVld v rs part s ⟨pt.toNat, c, k⟩ = .ok (s.setCore k { q with
      vBusy := (s.part pt.toNat).cyc + 1, reads := q.reads + partLines part.toNat
      writes := q.writes ++ [⟨(s.part pt.toNat).cyc + 5, 1, .vload v.toNat part.toNat
        (BitVec.ofNat 8192 (linesNat (ls.map fun i => (q.line i).data))) (ls.any fun i => (q.line i).poison)⟩] }) := by
  intro q ls
  rw [insVld_part free assigned, if_neg (Nat.not_le.2 room), if_neg (Nat.not_lt.2 within), lineRun_inBench within]
  refine checkReadWith_valid ?_
  simpa only [vOwing_line free.2] using valid

theorem insVld_ninth (valid : ∀ i ∈ lineRun ((s.core k).lineOf rs) (partLines part.toNat), ((s.core k).line i).st = .valid)
    (full : 8 ≤ (s.core k).vldsOut) : insVld v rs part s ⟨pt.toNat, c, k⟩ = faultV s ⟨pt.toNat, c, k⟩ fcOverflow := by
  rw [insVld_part free assigned, if_pos full, if_neg (Nat.not_lt.2 within), lineRun_inBench within]
  refine checkReadWith_faults ?_ (List.cons_ne_nil _ _)
  simpa only [vOwing_line free.2] using valid_not_invalid valid

theorem insVld_uninit (unwritten : ∃ i ∈ lineRun ((s.core k).lineOf rs) (partLines part.toNat), ((s.core k).line i).st = .invalid)
    (room : (s.core k).vldsOut < 8) :
    insVld v rs part s ⟨pt.toNat, c, k⟩ = insFault s ⟨pt.toNat, c, k⟩ fcUninit 2 0 6 := by
  rw [insVld_part free assigned, if_neg (Nat.not_le.2 room), if_neg (Nat.not_lt.2 within), lineRun_inBench within,
    checkReadWith_uninit (by simpa only [vOwing_line free.2] using unwritten), vOwing_insInfo free.2]
  rfl

end

theorem insVld_beyond (beyond : 65536 < (s.core k).lineOf rs + partLines part.toNat)
    (valid : ∀ i ∈ lineRun ((s.core k).lineOf rs) (partLines part.toNat), i < 65536 → ((s.core k).line i).st = .valid)
    (room : (s.core k).vldsOut < 8) : insVld v rs part s ⟨pt.toNat, c, k⟩ = faultV s ⟨pt.toNat, c, k⟩ fcRange := by
  rw [insVld_part free assigned, if_neg (Nat.not_le.2 room), if_pos beyond]
  refine checkReadWith_faults (valid_not_invalid fun i hi => ?_) (List.cons_ne_nil _ _)
  obtain ⟨mem, inBench⟩ := List.mem_filter.1 hi
  simpa only [vOwing_line free.2] using valid i mem (of_decide_eq_true inBench)

end
end

section
variable {q : Core} {i : Nat} {bits : VWord} {psn : Bool} (sorted : smapSorted q.v = true)
include sorted

theorem vload_whole : (q.applyAct (.vload i 0 bits psn)).vreg i = ⟨bits, psn⟩ := smapGet_set_self VReg.zero sorted i _

theorem vload_low : (q.applyAct (.vload i 1 bits psn)).vreg i =
    ⟨(q.vreg i).bits.extractLsb' 4096 4096 ++ bits.extractLsb' 0 4096, (q.vreg i).poison || psn⟩ :=
  smapGet_set_self VReg.zero sorted i _

theorem vload_high : (q.applyAct (.vload i 2 bits psn)).vreg i =
    ⟨bits.extractLsb' 0 4096 ++ (q.vreg i).bits.extractLsb' 0 4096, (q.vreg i).poison || psn⟩ :=
  smapGet_set_self VReg.zero sorted i _

end

/-- Settles O19: a load and a store by the laws of their answers; what a load of a half keeps, by the form of its effect. -/
theorem vectorLoadsAndStores : Obligations.VectorLoadsAndStores := by
  refine ⟨?issue, fun q i bits psn sorted => ?effect⟩
  case issue =>
    intro s pt c k v rs part at' free q cyc l n ls data q1 fault
    have lines : n = partLines part.toNat := (partLines_eq part).symm
    clear_value n
    subst lines
    refine ⟨fun assigned within valid => ⟨fun room => at'.runs_ok (insVld_loads free assigned within valid room),
        fun full => at'.runs_fault (insVld_ninth free assigned within valid full)⟩,
      fun assigned within room unwritten => at'.runs_fault (insVld_uninit free assigned within unwritten room),
      fun assigned within ready => at'.runs_ok (insVst_within free assigned within ready), ?noPart,
      fun assigned beyond => ⟨at'.runs_fault (insVst_beyond free assigned beyond),
        fun valid room => at'.runs_fault (insVld_beyond free assigned beyond valid room)⟩⟩
    rintro rfl
    exact ⟨at'.runs_fault (insVld_noPart free), at'.runs_fault (insVst_noPart free)⟩
  case effect =>
    rw [vload_whole sorted, vload_low sorted, vload_high sorted]
    exact ⟨rfl, BitVec.extractLsb'_append_eq_left, BitVec.extractLsb'_append_eq_right, BitVec.extractLsb'_append_eq_right,
      BitVec.extractLsb'_append_eq_left, rfl⟩

end Sys2Proof.Machine
end

section
namespace Sys2Proof.Machine
open Sys2Proof.Laws

/-! ## Weight tiles (O11)

A WSWAP takes its arrays one after another; `Core.swapIn` is one of them. Since each leaves the other arrays alone, all of them together
are what each is on the core as it was (`swapIns_array`). -/

section
variable {s : State} {r : CoreRef} {a : ArrayNo} {fmt : BitVec 4} {tgt mode : BitVec 2} {rw rx : BitVec 5}

/-- The tile that a WLD begins to read (R227 to R229). -/
def Core.wldJob (q : Core) (cyc : Nat) (fmt : BitVec 4) (tgt mode : BitVec 2) (rw rx : BitVec 5) : WldJob :=
  ⟨cyc, wldLines fmt.toNat, wldSides fmt.toNat mode.toNat, q.lineOf rw, q.lineOf rx, q.pc,
    ⟨fmt.toNat, tgt.toNat, mode.toNat, [], [], false⟩⟩

/-- A WLD of assigned fields that form a pair, whose lines lie in the Bench and whose first lines are VALID: only a shadow that is not
EMPTY is a fault. -/
theorem insWld_checked (assigned : fmt.toNat < 9) (modes : mode ≠ 3) (target : 7 ≤ fmt.toNat → tgt ≠ 3)
    (pair : wldPairOk fmt.toNat mode.toNat = true) (fits : (s.core r.k).lineOf rw + wldLines fmt.toNat ≤ 65536)
    (sidesFit : wldSides fmt.toNat mode.toNat ≠ 0 → (s.core r.k).lineOf rx + wldSides fmt.toNat mode.toNat ≤ 65536)
    (valid : ((s.core r.k).line ((s.core r.k).lineOf rw)).st = .valid)
    (sideValid : wldSides fmt.toNat mode.toNat ≠ 0 → ((s.core r.k).line ((s.core r.k).lineOf rx)).st = .valid) :
    insWld a fmt tgt mode rw rx s r =
      if ((s.core r.k).array a.toNat).shadow = .empty then
        .ok (s.setCore r.k ((s.core r.k).setArray a.toNat { (s.core r.k).array a.toNat with
          shadow := .writing ((s.core r.k).wldJob (s.cyc r) fmt tgt mode rw rx)
          idleTo := min ((s.core r.k).array a.toNat).idleTo (s.cyc r) }))
      else insFault s r fcOverflow 1 (arrDetail a.toNat 0) (1 + a.toNat) := by
  have legal : ¬(fmt.toNat ≥ 9 ∨ mode = 3 ∨ (fmt.toNat ≥ 7 ∧ tgt = 3)) := by
    rintro (h | h | ⟨h, h'⟩)
    · omega
    · exact modes h
    · exact target h h'
  have inBench : ¬(65536 < (s.core r.k).lineOf rw + wldLines fmt.toNat ∨
      (wldSides fmt.toNat mode.toNat ≠ 0 ∧ 65536 < (s.core r.k).lineOf rx + wldSides fmt.toNat mode.toNat)) := by
    rintro (h | ⟨h, h'⟩)
    · omega
    · exact Nat.not_lt.2 (sidesFit h) h'
  have first : ∀ i ∈ (s.core r.k).lineOf rw :: (if wldSides fmt.toNat mode.toNat = 0 then [] else [(s.core r.k).lineOf rx]),
      ((s.core r.k).line i).st = .valid := by
    by_cases bare : wldSides fmt.toNat mode.toNat = 0
    · simpa [bare] using valid
    · simpa [bare] using ⟨valid, sideValid bare⟩
  rw [insWld, if_neg legal]
  simp only [if_neg inBench, if_pos pair, List.append_nil]
  by_cases empty : ((s.core r.k).array a.toNat).shadow = .empty
  · rw [if_neg (not_not.2 empty), if_pos empty]
    exact checkReadWith_valid first
  · rw [if_pos empty, if_neg empty]
    exact checkReadWith_faults (valid_not_invalid first) (List.cons_ne_nil _ _)

end

/-! ### WSWAP (R126, R230) -/

section
variable {q : Core} {cyc a : Nat} {t : Tile} {l : List Nat}

/-- The array whose LOADED shadow a WSWAP makes active, and whose span it ends (R230, R245). -/
def ArrayS.activate (ar : ArrayS) (t : Tile) (cyc : Nat) : ArrayS :=
  { ar with active := some t, shadow := .empty, idleTo := min ar.idleTo cyc }

/-- A WSWAP on one of its arrays. -/
def Core.swapIn (cyc : Nat) (q : Core) (a : Nat) : Core :=
  match (q.array a).shadow with
  | .loaded t => q.setArray a ((q.array a).activate t cyc)
  | _ => q

theorem swapIn_loaded (loaded : (q.array a).shadow = .loaded t) : q.swapIn cyc a = q.setArray a ((q.array a).activate t cyc) := by
  rw [Core.swapIn, loaded]

/-- An array with a weight is not as after a reset, so it is listed, and reads back in a list in any order. -/
theorem setArray_activate_array {ar : ArrayS} (i : Nat) :
    (q.setArray a (ar.activate t cyc)).array i = if i = a then ar.activate t cyc else q.array i := by
  have listed : ar.activate t cyc ≠ .reset := fun h => nomatch congrArg ArrayS.active h
  by_cases same : i = a <;> simp [Core.array, Core.setArray, smapSet, smapGet, listed, smapFind_insert, same]

theorem swapIn_only : ∃ m, q.swapIn cyc a = { q with arrays := m } := by
  cases shadow : (q.array a).shadow with
  | loaded t => exact ⟨_, swapIn_loaded shadow⟩
  | empty => exact ⟨q.arrays, by rw [Core.swapIn, shadow]⟩
  | writing j => exact ⟨q.arrays, by rw [Core.swapIn, shadow]⟩

/-- A WSWAP changes nothing but the arrays. -/
theorem swapIns_only (l : List Nat) : ∃ m, l.foldl (Core.swapIn cyc) q = { q with arrays := m } := by
  induction l generalizing q with
  | nil => exact ⟨q.arrays, rfl⟩
  | cons a l ih =>
    obtain ⟨m, first⟩ := swapIn_only (q := q) (cyc := cyc) (a := a)
    obtain ⟨n, rest⟩ := ih (q := q.swapIn cyc a)
    exact ⟨n, by rw [List.foldl_cons, rest, first]⟩

theorem swapIns_frame : l.foldl (Core.swapIn cyc) q = { q with arrays := (l.foldl (Core.swapIn cyc) q).arrays } := by
  obtain ⟨m, only⟩ := swapIns_only (q := q) (cyc := cyc) l
  rw [only]

/-- Where all its arrays have a LOADED shadow, each becomes active, and no other array changes. -/
theorem swapIns_array (loaded : ∀ a ∈ l, ∃ t, (q.array a).shadow = .loaded t) (once : l.Nodup) (i : Nat) :
    (i ∉ l → (l.foldl (Core.swapIn cyc) q).array i = q.array i) ∧
      ∀ t, i ∈ l → (q.array i).shadow = .loaded t → (l.foldl (Core.swapIn cyc) q).array i = (q.array i).activate t cyc := by
  induction l generalizing q with
  | nil => simp
  | cons a l ih =>
    obtain ⟨⟨t, ha⟩, hl⟩ := List.forall_mem_cons.1 loaded
    obtain ⟨new, once⟩ := List.nodup_cons.1 once
    have others : ∀ j, j ≠ a → (q.swapIn cyc a).array j = q.array j := fun j hj => by
      rw [swapIn_loaded ha, setArray_activate_array, if_neg hj]
    have apart : ∀ j ∈ l, j ≠ a := fun j hj same => new (same ▸ hj)
    obtain ⟨outside, inside⟩ := ih (q := q.swapIn cyc a) (fun j hj => by rw [others j (apart j hj)]; exact hl j hj) once
    refine ⟨fun hi => ?_, fun u hi hu => ?_⟩
    · obtain ⟨ne, out⟩ := not_or.1 (mt List.mem_cons.2 hi)
      exact (outside out).trans (others i ne)
    · obtain rfl | tail := List.mem_cons.1 hi
      · rw [List.foldl_cons, outside new, swapIn_loaded hu, setArray_activate_array, if_pos rfl]
      · rw [List.foldl_cons, inside u tail ((others i (apart i tail)).symm ▸ hu), others i (apart i tail)]

end

/-- The arrays that a mask names. -/
def maskArrays (mask : BitVec 4) : List Nat := (List.range 4).filter fun a => mask.getLsbD a

theorem mem_maskArrays {mask : BitVec 4} {a : Nat} : a ∈ maskArrays mask ↔ a < 4 ∧ mask.getLsbD a = true := by
  simp [maskArrays]

theorem maskArrays_nodup (mask : BitVec 4) : (maskArrays mask).Nodup := List.nodup_range.filter _

/-- An array that a WSWAP cannot take: its shadow is not LOADED. -/
def Core.lacksTile (q : Core) (a : Nat) : Bool :=
  match (q.array a).shadow with
  | .loaded _ => false
  | _ => true

theorem lacksTile_iff {q : Core} {a : Nat} : q.lacksTile a = true ↔ ∀ t, (q.array a).shadow ≠ .loaded t := by
  unfold Core.lacksTile
  split <;> simp_all

theorem lacksTile_loaded {q : Core} {a : Nat} (loaded : ∃ t, (q.array a).shadow = .loaded t) : q.lacksTile a = false := by
  obtain ⟨t, ht⟩ := loaded
  exact eq_false_of_ne_true fun lacks => lacksTile_iff.1 lacks t ht

section
variable {s : State} {r : CoreRef} {mask : BitVec 4}

theorem insWswap_none (ready : (maskArrays mask).find? (s.core r.k).lacksTile = none) :
    insWswap mask s r = .ok (s.setCore r.k ((maskArrays mask).foldl (Core.swapIn (s.cyc r)) (s.core r.k))) := by
  rw [insWswap]
  dsimp only
  split
  · next a found => exact nomatch found.symm.trans ready
  · rfl

theorem insWswap_some {a : Nat} (first : (maskArrays mask).find? (s.core r.k).lacksTile = some a) :
    insWswap mask s r = insFault s r fcState 1 (arrDetail a 0) (1 + a) := by
  rw [insWswap]
  dsimp only
  split
  · next b found =>
    cases found.symm.trans first
    rfl
  · next all => exact nomatch all.symm.trans first

theorem insWswap_loaded (loaded : ∀ a ∈ maskArrays mask, ∃ t, ((s.core r.k).array a).shadow = .loaded t) :
    insWswap mask s r = .ok (s.setCore r.k ((maskArrays mask).foldl (Core.swapIn (s.cyc r)) (s.core r.k))) :=
  insWswap_none (List.find?_eq_none.2 fun a ha => by simp [lacksTile_loaded (loaded a ha)])

/-- The fault names the first array without a LOADED shadow. -/
theorem insWswap_unloaded {a : Nat} (named : a ∈ maskArrays mask) (lacks : ∀ t, ((s.core r.k).array a).shadow ≠ .loaded t)
    (before : ∀ b < a, b ∈ maskArrays mask → ∃ t, ((s.core r.k).array b).shadow = .loaded t) :
    insWswap mask s r = insFault s r fcState 1 (arrDetail a 0) (1 + a) := by
  refine insWswap_some ?_
  obtain ⟨inRange, inMask⟩ := mem_maskArrays.1 named
  rw [maskArrays, List.find?_filter, List.find?_range_eq_some]
  refine ⟨by simp [inMask, lacksTile_iff.2 lacks], List.mem_range.2 inRange, fun b hb => ?_⟩
  by_cases hm : mask.getLsbD b = true
  · simp [lacksTile_loaded (before b hb (mem_maskArrays.2 ⟨hb.trans inRange, hm⟩))]
  · simp [hm]

end

/-! ### WLD_LOADED (R229) -/

theorem wldLoadedCore_read {q : Core} {a cyc : Nat} {j : WldJob} (writing : (q.array a).shadow = .writing j)
    (whole : j.tile.lines.length = j.total) (ended : j.start + j.total ≤ cyc) :
    wldLoadedCore q a cyc = q.setArray a { q.array a with shadow := .loaded j.tile } := by
  simp only [wldLoadedCore, writing]
  exact if_pos ⟨whole, ended⟩

/-! ### A core put back as it is -/

theorem smapInsert_found {α : Type} {m : SMap α} {k : Nat} {v : α} (found : smapFind m k = some v) : smapInsert m k v = m := by
  induction m with
  | nil => exact nomatch found
  | cons e m ih =>
    obtain ⟨j, w⟩ := e
    simp only [smapFind] at found
    simp only [smapInsert]
    split at found
    · next same =>
      cases found
      rw [if_neg (by omega), if_pos same, same]
    · next other =>
      split at found
      · exact nomatch found
      · next after => rw [if_neg after, if_neg other, ih found]

theorem smapSet_get {α : Type} [DecidableEq α] {d : α} {m : SMap α} {k : Nat} (listed : smapGet d m k ≠ d) :
    smapSet d m k (smapGet d m k) = m := by
  cases found : smapFind m k with
  | none => simp [smapGet, found] at listed
  | some v =>
    have read : smapGet d m k = v := by simp [smapGet, found]
    rw [read] at listed ⊢
    rw [smapSet, if_neg listed, smapInsert_found found]

theorem setCore_core {s : State} {k : Nat} (listed : s.core k ≠ .reset) : s.setCore k (s.core k) = s := by
  rw [State.setCore, State.core, smapSet_get listed]

theorem IssuesAt.listed {s : State} {pt : Pt} {c : LCore} {k : Nat} (at' : IssuesAt s pt c k) : s.core k ≠ .reset := by
  obtain ⟨-, -, issuing, -⟩ := at'
  intro reset
  rw [reset] at issuing
  exact nomatch issuing

theorem exec_wldLoaded {s : State} {pt : Pt} {c : LCore} {k : Nat} {a : ArrayNo} (core : IsCore s pt c k) :
    exec (.wldLoaded pt c a) s = .next (s.setCore k (wldLoadedCore (s.core k) a.toNat (s.part pt.toNat).cyc)) :=
  onCore_some (fun r => s.updCore r.k fun q => wldLoadedCore q a.toNat (s.cyc r)) core

/-- Settles O11: a WLD by its check of the shadow, a WSWAP by its arrays one after another. -/
theorem weightTilesMove : Obligations.WeightTilesMove := by
  refine ⟨fun s pt c k at' => ?issue, fun s pt c k a j core writing whole ended => ?loaded⟩
  case loaded => rw [exec_wldLoaded core, wldLoadedCore_read writing whole ended]
  case issue =>
    intro q cyc
    refine ⟨?wld, ?empty, ?wswap⟩
    case wld =>
      intro a fmt tgt mode rw rx ar n sides assigned modes target pair fits sidesFit valid sideValid
      have answer := insWld_checked (a := a) (r := ⟨pt.toNat, c.toNat, k⟩) assigned modes target pair fits sidesFit valid sideValid
      exact ⟨fun empty => at'.runs_ok (answer.trans (if_pos empty)), fun taken => at'.runs_fault (answer.trans (if_neg taken))⟩
    case empty =>
      refine at'.runs_ok ((insWswap_loaded fun a ha => ?_).trans (congrArg InsRes.ok (setCore_core at'.listed)))
      simp [mem_maskArrays] at ha
    case wswap =>
      intro mask
      refine ⟨fun loaded => ?_, fun a inRange inMask lacks before => ?_⟩
      · have ready : ∀ a ∈ maskArrays mask, ∃ t, (q.array a).shadow = .loaded t := fun a ha =>
          loaded a (mem_maskArrays.1 ha).1 (mem_maskArrays.1 ha).2
        refine ⟨_, at'.runs_ok (insWswap_loaded ready), swapIns_frame, fun a ha => ?_⟩
        obtain ⟨outside, inside⟩ := swapIns_array (cyc := cyc) ready (maskArrays_nodup mask) a
        exact ⟨fun out => outside fun named => by simp [out, mem_maskArrays] at named,
          fun t named ht => inside t (mem_maskArrays.2 ⟨ha, named⟩) ht⟩
      · have answer := insWswap_unloaded (s := s) (r := ⟨pt.toNat, c.toNat, k⟩) (mem_maskArrays.2 ⟨inRange, inMask⟩) lacks
          fun b hb named => before b hb (mem_maskArrays.1 named).2
        exact at'.runs_fault answer

end Sys2Proof.Machine
end

section
namespace Sys2Proof.Machine
open Sys2Proof.Laws

/-! ## Transfers of a core (R147, R223, R460)

An accepted transfer takes the core's next identity, holds its lines and is listed (`accept_only`); all else of the core is as it
was. What R460 carries is only counted (`carriedOr_carried`). -/

section
variable {q : Core} {kind : XferKind} {src dst : List Nat} {cause dss first : Nat}

theorem updLines_only (ls : List Nat) (f : BenchLine → BenchLine) : ∃ b, q.updLines ls f = { q with bench := b } := by
  induction ls generalizing q with
  | nil => exact ⟨q.bench, rfl⟩
  | cons i ls ih => exact ih

theorem accept_only : ∃ b, (q.accept kind src dst cause dss first).2 = { q with
    bench := b, nextId := q.nextId + 1, xfers := q.xfers ++ [⟨q.nextId, kind, src, dst, [], dss, first⟩] } := by
  obtain ⟨b1, awaited⟩ := updLines_only (q := q.fresh.2) (dst.filter fun i => !src.contains i) fun l => l.await q.nextId cause
  obtain ⟨b2, held⟩ := updLines_only (q := { q.fresh.2 with bench := b1 }) src fun l => l.holdSrc q.nextId
  refine ⟨b2, ?_⟩
  simp only [Core.accept]
  rw [show q.fresh.1 = q.nextId from rfl, awaited, held]
  rfl

theorem accept_issuedXfers : (q.accept kind src dst cause dss first).2.issuedXfers = q.issuedXfers := by
  rw [accept_only.choose_spec]

theorem accept_sendXq : (q.accept kind src dst cause dss first).2.sendXq = q.sendXq := by
  rw [accept_only.choose_spec]

theorem accept_countXfer : (q.accept kind src dst cause dss first).2.countXfer =
    { (q.accept kind src dst cause dss first).2 with issuedXfers := q.issuedXfers + 1 } := by
  rw [Core.countXfer, accept_issuedXfers]

end

section
variable {s : State} {r : CoreRef} {go : InsRes}

theorem carriedOr_carried (carried : (s.core r.k).issuedXfers < (s.core r.k).carried) :
    carriedOr s r go = .ok (s.setCore r.k (s.core r.k).countXfer) := by
  rw [carriedOr, if_pos (by simpa [Core.suppressed] using carried)]
  rfl

theorem carriedOr_fresh (fresh : (s.core r.k).carried ≤ (s.core r.k).issuedXfers) : carriedOr s r go = go := by
  rw [carriedOr, if_neg]
  simpa [Core.suppressed] using fresh

end

/-! ## Copies and DSS transfers (O24) -/

section
variable {s : State} {r : CoreRef} {rs rt : BitVec 5} {n1 : BitVec 12}

theorem insBcopy_within (src : (s.core r.k).lineOf rs + (n1.toNat + 1) ≤ 65536)
    (dst : (s.core r.k).lineOf rt + (n1.toNat + 1) ≤ 65536) :
    let q := s.core r.k
    let l := q.lineOf rs
    let d := q.lineOf rt
    insBcopy rs rt n1 s r = .ok (s.setCore r.k { q with bcopies := q.bcopies ++
      [⟨l, d, n1.toNat + 1, s.cyc r, decide (l < d ∧ d < l + (n1.toNat + 1)), 0, q.pc⟩] }) :=
  if_neg (not_or.2 ⟨Nat.not_lt.2 src, Nat.not_lt.2 dst⟩)

theorem insBcopy_beyond
    (beyond : 65536 < (s.core r.k).lineOf rs + (n1.toNat + 1) ∨ 65536 < (s.core r.k).lineOf rt + (n1.toNat + 1)) :
    insBcopy rs rt n1 s r = faultD s r fcRange :=
  if_pos beyond

/-- The range checks of a DSSLD or DSSST (R224). -/
def dssInRange (l o n : Nat) : Prop := l + n ≤ 65536 ∧ o % 128 = 0 ∧ o + 128 * n ≤ 2 ^ 26

theorem dssInRange_iff {l o n : Nat} : dssInRange l o n ↔ ¬(65536 < l + n ∨ (!dssOffsetOk o n) = true) := by
  simp [dssInRange, dssOffsetOk]

section
variable (fresh : (s.core r.k).carried ≤ (s.core r.k).issuedXfers)
include fresh

theorem insDss_beyond (beyond : ¬dssInRange ((s.core r.k).lineOf rs) ((s.core r.k).sreg rt.toNat).toNat (n1.toNat + 1)) :
    insDssld rs rt n1 s r = faultD s r fcRange ∧ insDssst rs rt n1 s r = faultD s r fcRange := by
  rw [dssInRange_iff, not_not] at beyond
  exact ⟨(carriedOr_fresh fresh).trans (if_pos beyond), (carriedOr_fresh fresh).trans (if_pos beyond)⟩

variable (range : dssInRange ((s.core r.k).lineOf rs) ((s.core r.k).sreg rt.toNat).toNat (n1.toNat + 1))
include range

theorem insDssld_free
    (free : ∀ i ∈ lineRun ((s.core r.k).lineOf rs) (n1.toNat + 1), ((s.core r.k).line i).st ≠ .pending) :
    let q := s.core r.k
    insDssld rs rt n1 s r = .ok (s.setCore r.k { (q.accept .dssld [] (lineRun (q.lineOf rs) (n1.toNat + 1)) 1
      (q.sreg rt.toNat).toNat (q.lineOf rs)).2 with issuedXfers := q.issuedXfers + 1 }) :=
  (((carriedOr_fresh fresh).trans (if_neg (dssInRange_iff.1 range))).trans (checkWrite_free free)).trans
    (congrArg (fun q => InsRes.ok (s.setCore r.k q)) accept_countXfer)

theorem insDssst_valid
    (valid : ∀ i ∈ lineRun ((s.core r.k).lineOf rs) (n1.toNat + 1), ((s.core r.k).line i).st = .valid) :
    let q := s.core r.k
    insDssst rs rt n1 s r = .ok (s.setCore r.k { (q.accept .dssst (lineRun (q.lineOf rs) (n1.toNat + 1)) [] 0
      (q.sreg rt.toNat).toNat (q.lineOf rs)).2 with issuedXfers := q.issuedXfers + 1 }) :=
  (((carriedOr_fresh fresh).trans (if_neg (dssInRange_iff.1 range))).trans (checkRead_valid valid)).trans
    (congrArg (fun q => InsRes.ok (s.setCore r.k q)) accept_countXfer)

theorem insDssst_uninit
    (unwritten : ∃ i ∈ lineRun ((s.core r.k).lineOf rs) (n1.toNat + 1), ((s.core r.k).line i).st = .invalid) :
    insDssst rs rt n1 s r = insFault s r fcUninit 3 0 6 :=
  ((carriedOr_fresh fresh).trans (if_neg (dssInRange_iff.1 range))).trans (checkRead_uninit unwritten)

end
end

/-- Settles O24: each instruction by its range check, then the state of its lines. -/
theorem copiesAndDssTransfers : Obligations.CopiesAndDssTransfers := by
  intro s pt c k rs rt n1 at' q l d o n ls range dssOk
  refine ⟨fun src dst => at'.runs_ok (insBcopy_within src dst), fun beyond => at'.runs_fault (insBcopy_beyond beyond),
    fun carried => ⟨at'.runs_ok (carriedOr_carried carried), at'.runs_ok (carriedOr_carried carried)⟩,
    fun fresh => ⟨fun inRange free => at'.runs_ok (insDssld_free fresh inRange free),
      fun inRange valid => at'.runs_ok (insDssst_valid fresh inRange valid),
      fun inRange unwritten => at'.runs_fault (insDssst_uninit fresh inRange unwritten), fun beyond => ?beyond⟩⟩
  case beyond =>
    obtain ⟨load, store⟩ := insDss_beyond (r := ⟨pt.toNat, c.toNat, k⟩) fresh beyond
    exact ⟨at'.runs_fault load, at'.runs_fault store⟩

end Sys2Proof.Machine
end

section
namespace Sys2Proof.Machine
open Sys2Proof.Laws

/-! ## Messages (O25)

Replay answers an XSEND from its records (`replayOut_used`); without one its checks decide in turn. -/

section
variable {s s1 : State} {r : CoreRef} {kind : Nat} {go : InsRes} {p : JrnlRec → Bool}

theorem replayOut_used (used : s.useOut r kind 0 = some s1) :
    replayOut s r kind go = .ok (s1.updCore r.k Core.countXfer) := by
  rw [replayOut, used]

theorem replayOut_none (live : s.useOut r kind 0 = none) : replayOut s r kind go = go := by
  rw [replayOut, live]

theorem useRec_notReplaying (live : (s.part r.pt).replay.contains r.c = false) : s.useRec r p = none := by
  rw [State.useRec, live]
  rfl

end

/-- The first line, line count and tag that an XSEND or XRECV names in its register (R269). -/
abbrev xSpan (s : State) (r : CoreRef) (rs : BitVec 5) : Nat × Nat × Word := msgSpan ((s.core r.k).sreg rs.toNat)

/-- The core that an XSEND or XRECV names in its register (R270). -/
abbrev xAddr (s : State) (r : CoreRef) (rt : BitVec 5) : MsgAddr := s.normNode (msgAddr ((s.core r.k).sreg rt.toNat))

/-! ### XSEND (R270) -/

section
variable {s : State} {r : CoreRef} {rs rt : BitVec 5} (fresh : (s.core r.k).carried ≤ (s.core r.k).issuedXfers)
include fresh

theorem insXsend_replayed {s1 : State} (used : s.useOut r 0 0 = some s1) :
    insXsend rs rt s r = .ok (s1.updCore r.k Core.countXfer) :=
  (carriedOr_fresh fresh).trans (replayOut_used used)

variable (live : s.useOut r 0 0 = none)
include live

theorem insXsend_beyond
    (beyond : 65536 < (xSpan s r rs).1 + (xSpan s r rs).2.1) :
    insXsend rs rt s r = faultX s r fcRange :=
  ((carriedOr_fresh fresh).trans (replayOut_none live)).trans (if_pos beyond)

variable (within : (xSpan s r rs).1 + (xSpan s r rs).2.1 ≤ 65536)
include within

theorem insXsend_full (full : 16 ≤ (s.core r.k).sendXq.length) : insXsend rs rt s r = .wait [.sendXq] :=
  ((carriedOr_fresh fresh).trans (replayOut_none live)).trans ((if_neg (Nat.not_lt.2 within)).trans (if_pos full))

variable (room : (s.core r.k).sendXq.length < 16)
  (valid : ∀ i ∈ lineRun (xSpan s r rs).1 (xSpan s r rs).2.1,
    ((s.core r.k).line i).st = .valid)
include room valid

/-- Past the checks of its lines and of the queue, the destination decides. -/
theorem insXsend_checked :
    let q := s.core r.k
    let span := xSpan s r rs
    let dst := xAddr s r rt
    let a := q.accept .xsend (lineRun span.1 span.2.1) [] 0 0 span.1
    insXsend rs rt s r =
      if dst.node = 0 ∧ (s.target dst).isNone then .ok (s.refuseAbort r.pt 4)
      else if dst.node ≠ 0 ∧ s.fab.node = 0 then .ok (s.refuseAbort r.pt 1)
      else .ok (s.setCore r.k { a.2 with
        sendXq := q.sendXq ++ [⟨a.1, ⟨⟨0, BitVec.ofNat 4 r.pt, BitVec.ofNat 5 r.c⟩, dst, span.2.2, span.2.1, []⟩⟩]
        issuedXfers := q.issuedXfers + 1 }) := by
  intro q span dst a
  refine ((carriedOr_fresh fresh).trans (replayOut_none live)).trans ((if_neg (Nat.not_lt.2 within)).trans
    ((if_neg (Nat.not_le.2 room)).trans ((checkRead_valid valid).trans ?_)))
  have sent : a.2.sendXq = q.sendXq := accept_sendXq
  have issued : a.2.issuedXfers = q.issuedXfers := accept_issuedXfers
  rw [← sent, ← issued]
  rfl

theorem insXsend_noTarget (here : (xAddr s r rt).node = 0)
    (absent : s.target (xAddr s r rt) = none) :
    insXsend rs rt s r = .ok (s.refuseAbort r.pt 4) :=
  (insXsend_checked fresh live within room valid).trans (if_pos ⟨here, by rw [absent]; rfl⟩)

theorem insXsend_noNode (away : (xAddr s r rt).node ≠ 0) (unnamed : s.fab.node = 0) :
    insXsend rs rt s r = .ok (s.refuseAbort r.pt 1) :=
  (insXsend_checked fresh live within room valid).trans ((if_neg fun here => away here.1).trans (if_pos ⟨away, unnamed⟩))

theorem insXsend_queued (known : let dst := xAddr s r rt
      (dst.node = 0 ∧ s.target dst ≠ none) ∨ (dst.node ≠ 0 ∧ s.fab.node ≠ 0)) :
    let q := s.core r.k
    let span := xSpan s r rs
    let dst := xAddr s r rt
    let a := q.accept .xsend (lineRun span.1 span.2.1) [] 0 0 span.1
    insXsend rs rt s r = .ok (s.setCore r.k { a.2 with
      sendXq := q.sendXq ++ [⟨a.1, ⟨⟨0, BitVec.ofNat 4 r.pt, BitVec.ofNat 5 r.c⟩, dst, span.2.2, span.2.1, []⟩⟩]
      issuedXfers := q.issuedXfers + 1 }) := by
  intro q span dst a
  have hasTarget : ¬(dst.node = 0 ∧ (s.target dst).isNone) := by
    rintro ⟨here, absent⟩
    obtain ⟨-, present⟩ | ⟨away, -⟩ := known
    · exact present (Option.isNone_iff_eq_none.1 absent)
    · exact away here
  have hasNode : ¬(dst.node ≠ 0 ∧ s.fab.node = 0) := by
    rintro ⟨away, unnamed⟩
    obtain ⟨here, -⟩ | ⟨-, named⟩ := known
    · exact away here
    · exact named unnamed
  exact (insXsend_checked fresh live within room valid).trans ((if_neg hasTarget).trans (if_neg hasNode))

end

/-! ### XRECV (R271) -/

section
variable {s : State} {r : CoreRef} {rs rt : BitVec 5} (fresh : (s.core r.k).carried ≤ (s.core r.k).issuedXfers)
include fresh

theorem insXrecv_beyond
    (beyond : 65536 < (xSpan s r rs).1 + (xSpan s r rs).2.1) :
    insXrecv rs rt s r = faultX s r fcRange :=
  (carriedOr_fresh fresh).trans (if_pos beyond)

variable (within : (xSpan s r rs).1 + (xSpan s r rs).2.1 ≤ 65536)
include within

/-- A core that receives takes its match, where the count is that of the lines. -/
theorem insXrecv_within :
    let span := xSpan s r rs
    insXrecv rs rt s r =
      match s.nextMessage r (xAddr s r rt) span.2.2 with
      | none => .wait [.message (xAddr s r rt) span.2.2]
      | some (m, s0) =>
        if m.count ≠ span.2.1 then faultX s r fcRange
        else
          let a := (s0.core r.k).accept .xrecv [] (lineRun span.1 span.2.1) 1 0 span.1
          checkWrite s r (lineRun span.1 span.2.1) (.ok (m.lines.zipIdx.foldl
            (fun t x => t.delay r (4 + x.2 / 8) 16 (.land a.1 (span.1 + x.2) x.1.1 x.1.2)) (s0.setCore r.k a.2.countXfer))) :=
  (carriedOr_fresh fresh).trans (if_neg (Nat.not_lt.2 within))

theorem insXrecv_none (unmatched : s.nextMessage r (xAddr s r rt) (xSpan s r rs).2.2 = none) :
    insXrecv rs rt s r = .wait [.message (xAddr s r rt) (xSpan s r rs).2.2] := by
  rw [insXrecv_within fresh within, unmatched]

section
variable {m : Msg} {s0 : State} (found : s.nextMessage r (xAddr s r rt) (xSpan s r rs).2.2 = some (m, s0))
include found

theorem insXrecv_otherCount (other : m.count ≠ (xSpan s r rs).2.1) : insXrecv rs rt s r = faultX s r fcRange := by
  rw [insXrecv_within fresh within, found]
  exact if_pos other

theorem insXrecv_takes (count : m.count = (xSpan s r rs).2.1)
    (free : ∀ i ∈ lineRun (xSpan s r rs).1 (xSpan s r rs).2.1, ((s.core r.k).line i).st ≠ .pending) :
    let span := xSpan s r rs
    let a := (s0.core r.k).accept .xrecv [] (lineRun span.1 span.2.1) 1 0 span.1
    insXrecv rs rt s r = .ok (m.lines.zipIdx.foldl
      (fun t x => t.delay r (4 + x.2 / 8) 16 (.land a.1 (span.1 + x.2) x.1.1 x.1.2)) (s0.setCore r.k a.2.countXfer)) := by
  intro span a
  rw [insXrecv_within fresh within, found]
  exact (if_neg (not_not.2 count)).trans (checkWrite_free free)

end
end

/-! ### The message that an XRECV matches -/

section
variable {p : Msg → Bool} {l1 l2 : List Msg} {m : Msg}

theorem takeMessage_none {l : List Msg} (others : ∀ x ∈ l, p x = false) : takeMessage p l = none := by
  induction l with
  | nil => rfl
  | cons x l ih =>
    obtain ⟨hx, hl⟩ := List.forall_mem_cons.1 others
    simp [takeMessage, hx, ih hl]

theorem takeMessage_oldest (before : ∀ x ∈ l1, p x = false) (here : p m = true) :
    takeMessage p (l1 ++ m :: l2) = some (m, l1 ++ l2) := by
  induction l1 with
  | nil => simp [takeMessage, here]
  | cons x l1 ih =>
    obtain ⟨hx, hl⟩ := List.forall_mem_cons.1 before
    simp [takeMessage, hx, ih hl]

end

/-- Outside replay the receive XQ alone answers an XRECV. -/
theorem nextMessage_notReplaying {s : State} {r : CoreRef} {src : MsgAddr} {tag : Word}
    (live : (s.part r.pt).replay.contains r.c = false) :
    s.nextMessage r src tag = (takeMessage (fun m => m.isFrom src tag) (s.core r.k).recvXq).map fun e =>
      (e.1, s.updCore r.k fun q => { q with recvXq := e.2 }) := by
  rw [State.nextMessage, useRec_notReplaying live]

/-! ### MESSAGE_ACCEPT (R284) -/

theorem exec_messageAccept {s : State} {pt : Pt} {c : LCore} {k : Nat} {idx : BitVec 4} (core : IsCore s pt c k) :
    exec (.messageAccept pt c idx) s = .next (messageAccept idx.toNat s ⟨pt.toNat, c.toNat, k⟩) :=
  onCore_some (fun r => messageAccept idx.toNat s r) core

section
variable {s : State} {r : CoreRef} {idx : Nat} {m : SendMsg}
  (here : m.msg.dst.node = 0) (whole : m.msg.lines.length = m.msg.count)
  (first : ∀ e ∈ (s.core r.k).sendXq.take idx, e.msg.dst ≠ m.msg.dst)
include here whole first

/-- A whole message for this module, the first for its destination, is not left where it is. -/
theorem messageAccept_due : ¬(m.msg.dst.node ≠ 0 ∨ m.msg.lines.length ≠ m.msg.count ∨
    ((s.core r.k).sendXq.take idx).any (fun e => e.msg.dst == m.msg.dst) = true) := by
  rintro (away | partly | earlier)
  · exact away here
  · exact partly whole
  · obtain ⟨e, he, same⟩ := List.any_eq_true.1 earlier
    exact first e he (beq_iff_eq.1 same)

variable (queued : (s.core r.k).sendXq[idx]? = some m)
include queued

theorem messageAccept_noTarget (absent : s.target m.msg.dst = none) :
    messageAccept idx s r = (s.updCore r.k fun k => k.sent m.xfer).refuseAbort r.pt 4 := by
  simp only [messageAccept, queued, if_neg (messageAccept_due here whole first), absent]

theorem messageAccept_room {d : Nat} (target : s.target m.msg.dst = some d) (room : (s.core d).recvXq.length < 16)
    (takes : s.holdsMessages m.msg.dst.pt.toNat m.msg.dst.core.toNat = false) :
    messageAccept idx s r = (s.updCore r.k fun k => k.sent m.xfer).deliver d m.msg := by
  simp only [messageAccept, queued, if_neg (messageAccept_due here whole first), target]
  exact if_neg (by simpa [takes] using room)

theorem messageAccept_full {d : Nat} (target : s.target m.msg.dst = some d) (full : 16 ≤ (s.core d).recvXq.length) :
    messageAccept idx s r = s := by
  simp only [messageAccept, queued, if_neg (messageAccept_due here whole first), target]
  exact if_pos (.inl full)

end

/-- Settles O25: XSEND and XRECV by their checks in turn, MESSAGE_ACCEPT by its destination. -/
theorem messagesCrossInOrder : Obligations.MessagesCrossInOrder := by
  refine ⟨fun s pt c k rs rt at' => ?issue, fun s pt c k idx m core queued here whole first => ?accept⟩
  case issue =>
    intro q r span ls adr me range
    refine ⟨fun carried => ⟨at'.runs_ok (carriedOr_carried carried), at'.runs_ok (carriedOr_carried carried)⟩,
      fun fresh => ⟨fun s1 used => at'.runs_ok (insXsend_replayed fresh used),
        fun live => ⟨fun beyond => at'.runs_fault (insXsend_beyond fresh live beyond),
          fun within full => at'.runs_wait (insXsend_full fresh live within full),
          fun within room valid => ⟨fun here absent => at'.runs_ok (insXsend_noTarget fresh live within room valid here absent),
            fun away unnamed => at'.runs_ok (insXsend_noNode fresh live within room valid away unnamed),
            fun known => at'.runs_ok (insXsend_queued fresh live within room valid known)⟩⟩,
        fun beyond => at'.runs_fault (insXrecv_beyond fresh beyond),
        fun within => ⟨fun unmatched => at'.runs_wait (insXrecv_none fresh within unmatched),
          fun m s0 found => ⟨fun other => at'.runs_fault (insXrecv_otherCount fresh within found other),
            fun count free => ?takes⟩⟩⟩,
      fun live => ⟨fun others => ?unmatched, fun l1 m l2 queue before match' => ?matched⟩⟩
    case takes =>
      have answer := insXrecv_takes (r := r) (rs := rs) (rt := rt) fresh within found count free
      exact at'.runs_ok answer
    case unmatched => rw [nextMessage_notReplaying live, takeMessage_none others, Option.map_none]
    case matched =>
      rw [nextMessage_notReplaying live, show (s.core r.k).recvXq = _ from queue, takeMessage_oldest before match']
      rfl
  case accept =>
    intro gone
    rw [exec_messageAccept core]
    refine ⟨fun absent => ?_, fun d target => ⟨fun room takes => ?_, fun full => ?_⟩⟩
    · rw [messageAccept_noTarget here whole first queued absent]
      rfl
    · rw [messageAccept_room here whole first queued target room takes]
      rfl
    · rw [messageAccept_full here whole first queued target full]

end Sys2Proof.Machine
end

section
namespace Sys2Proof.Machine
open Sys2Proof.Laws

/-! ## Collective operations (O26) -/

/-- The fields of the descriptor that an XRED names (R272). -/
def xredFields (s : State) (r : CoreRef) (rq : BitVec 5) : XredFields := parseXred ((s.core r.k).line ((s.core r.k).lineOf rq)).data

/-- The source lines of an XRED (R273). -/
def xredSrc (op : CollOp) (f : XredFields) : List Nat := lineRun f.src (ceilDiv (collSizes op f).1 128)

/-- The destination lines of an XRED and its status line (R273). -/
def xredDst (op : CollOp) (f : XredFields) : List Nat := lineRun f.dst (ceilDiv (collSizes op f).2 128) ++ [f.status]

/-- The lines of an XRED lie in the Bench (R224). -/
def xredInBench (op : CollOp) (f : XredFields) : Prop :=
  ((collSizes op f).1 ≠ 0 → f.src + ceilDiv (collSizes op f).1 128 ≤ 65536) ∧
    f.dst + ceilDiv (collSizes op f).2 128 ≤ 65536

theorem xredInBench_iff {op : CollOp} {f : XredFields} : xredInBench op f ↔
    ¬(((collSizes op f).1 ≠ 0 ∧ 65536 < f.src + ceilDiv (collSizes op f).1 128) ∨
      65536 < f.dst + ceilDiv (collSizes op f).2 128) := by
  rw [xredInBench, not_or, not_and, Nat.not_lt, Nat.not_lt]

theorem accept_maxReds {q : Core} {kind : XferKind} {src dst : List Nat} {cause dss first : Nat} :
    (q.accept kind src dst cause dss first).2.maxReds = q.maxReds := by
  rw [accept_only.choose_spec]

section
variable {s : State} {r : CoreRef} {rq : BitVec 5} {op : CollOp} (fresh : (s.core r.k).carried ≤ (s.core r.k).issuedXfers)
include fresh

section
variable (desc : ((s.core r.k).line ((s.core r.k).lineOf rq)).st = .valid)
include desc

/-- An XRED whose descriptor can be read: its format and its lines are checked before anything else. -/
theorem insXred_readable :
    insXred op rq s r =
      let f := xredFields s r rq
      if 4 ≤ f.fmt then faultX s r fcIllegal
      else if ((collSizes op f).1 ≠ 0 ∧ 65536 < f.src + ceilDiv (collSizes op f).1 128) ∨
        65536 < f.dst + ceilDiv (collSizes op f).2 128 then faultX s r fcRange
      else match s.useOut r 1 f.group.toNat with
        | some s1 => .ok (s1.replayRed r f.group f.dst f.status (collSizes op f).2 (xredDst op f))
        | none => checkSource s r 4 (xredSrc op f) <| checkWrite s r (xredDst op f) <|
          let n := (s.core r.k).nextOp f.group
          let a := n.2.accept .xred (xredSrc op f) (xredDst op f) 1 0 f.src
          .ok (((s.setCore r.k a.2.countXfer).countReads r 1).joinRun f.group n.1
            { pt := r.pt, c := r.c, k := r.k, xfer := a.1, mx := 0, src := f.src, dst := f.dst, status := f.status,
              pc := (s.core r.k).pc, inp := collInput op f, ready := (xredSrc op f).isEmpty, linked := true }) :=
  (carriedOr_fresh fresh).trans (checkRead_valid (by simpa using desc))

theorem insXred_noFormat (unassigned : 4 ≤ (xredFields s r rq).fmt) : insXred op rq s r = faultX s r fcIllegal :=
  (insXred_readable fresh desc).trans (if_pos unassigned)

variable (assigned : (xredFields s r rq).fmt < 4)
include assigned

theorem insXred_beyond (beyond : ¬xredInBench op (xredFields s r rq)) : insXred op rq s r = faultX s r fcRange :=
  (insXred_readable fresh desc).trans
    ((if_neg (Nat.not_le.2 assigned)).trans (if_pos (not_not.1 (mt xredInBench_iff.2 beyond))))

theorem insXred_joins (inBench : xredInBench op (xredFields s r rq))
    (live : s.useOut r 1 (xredFields s r rq).group.toNat = none)
    (valid : ∀ j ∈ xredSrc op (xredFields s r rq), ((s.core r.k).line j).st = .valid)
    (free : ∀ j ∈ xredDst op (xredFields s r rq), ((s.core r.k).line j).st ≠ .pending) :
    let f := xredFields s r rq
    let n := (s.core r.k).nextOp f.group
    let a := n.2.accept .xred (xredSrc op f) (xredDst op f) 1 0 f.src
    insXred op rq s r = .ok (((s.setCore r.k a.2.countXfer).countReads r 1).joinRun f.group n.1
      { pt := r.pt, c := r.c, k := r.k, xfer := a.1, mx := 0, src := f.src, dst := f.dst, status := f.status,
        pc := (s.core r.k).pc, inp := collInput op f, ready := (xredSrc op f).isEmpty, linked := true }) := by
  intro f n a
  refine (insXred_readable fresh desc).trans
    ((if_neg (Nat.not_le.2 assigned)).trans ((if_neg (xredInBench_iff.1 inBench)).trans ?_))
  rw [live]
  exact (checkRead_valid valid).trans (checkWrite_free free)

end

theorem insXredMax_joins {mx : BitVec 2}
    (live : s.useOut r 1 (((s.core r.k).sreg rq.toNat).extractLsb' 0 32).toNat = none) :
    let q := s.core r.k
    let group := (q.sreg rq.toNat).extractLsb' 0 32
    let n := q.nextOp group
    let a := n.2.accept .xred [] [] 1 0 0
    insXredMax rq mx s r = .ok ((s.setCore r.k { a.2 with
        maxReds := q.maxReds ++ [⟨a.1, group, mx.toNat, none, false⟩]
        issuedXfers := q.issuedXfers + 1 }).joinRun group n.1
      { pt := r.pt, c := r.c, k := r.k, xfer := a.1, mx := mx.toNat, src := 0, dst := 0, status := 0, pc := q.pc
        inp := { op := .max, n := 0, fmt := 0, anchor := 0, lc := 0, first := 0, count := 0,
                 mag := (q.mreg mx.toNat).mag, nf := (q.mreg mx.toNat).nf, data := [], poison := false }
        ready := true, linked := true }) := by
  intro q group n a
  have kept : a.2.maxReds = q.maxReds := accept_maxReds
  have issued : a.2.issuedXfers = q.issuedXfers := accept_issuedXfers
  refine (carriedOr_fresh fresh).trans ?_
  rw [← kept, ← issued]
  simp only [live]
  rfl

end

/-! ### COLLECTIVE_RESULT_WRITE (R273, R408) -/

section
variable {s : State} {group : Word} {u : CollRun} {a : CollAgreed}

/-- The module once an operation's result has been given to its members and the operation has ended. -/
def State.collEnded (s : State) (group : Word) (u : CollRun) (a : CollAgreed) : State :=
  let res := collResult a.head u.results
  let ended := (u.locals.foldl (fun z m =>
    if m.linked then z.updCore m.k fun q => q.takeResult m res a.total
    else z.journalResult m.pt (.res m.c group.toNat (resultRecord m res a.total) res.poison)) s).endRunOf group u.idx
  { ended with fab := { ended.fab with collLastBeat := s.now } }

theorem collEnded_gone : ∀ v ∈ (s.collEnded group u a).fab.runs, ¬(v.group = group ∧ v.idx = u.idx) := by
  intro v hv
  simpa [← not_and_or] using (List.mem_filter.1 hv).2

theorem collectiveWrite_none (unready : s.readyRun group = none) : collectiveWrite group s = s := by
  rw [collectiveWrite, unready]

section
variable (ready : s.readyRun group = some (u, a))
include ready

theorem collectiveWrite_xbar (xbar : a.head.op = .xbar) : collectiveWrite group s = s := by
  rw [collectiveWrite, ready]
  exact if_pos xbar

theorem collectiveWrite_ends (red : a.head.op ≠ .xbar) :
    collectiveWrite group s = if (collResult a.head u.results).marked = true then
      u.heads.foldl (fun z m => z.raiseFrom m.pt m.c (srcHub 0x200) ⟨0x15, 0, 4, m.pc, 0⟩) (s.collEnded group u a)
      else s.collEnded group u a := by
  rw [collectiveWrite, ready]
  exact if_neg red

end
end

/-- Settles O26: the four XRED forms by the laws of their one answer, XRED.MAX by its own, a result write by its operation. -/
theorem collectiveOperationsJoinAndEnd : Obligations.CollectiveOperationsJoinAndEnd := by
  refine ⟨fun s pt c k rq mx at' => ?issue, fun s group => ⟨fun unready => ?idle, fun u a ready => ?result⟩⟩
  case issue =>
    intro q r dl f raised counted joins
    have xred : ∀ i op, exec i s = runIns s pt c (insXred op rq s) → joins i op := by
      intro i op row
      simp only [joins, row]
      refine ⟨fun carried => at'.runs_ok (carriedOr_carried carried),
        fun fresh desc => ⟨fun unassigned => at'.runs_fault (insXred_noFormat fresh desc unassigned),
          fun assigned beyond => at'.runs_fault (insXred_beyond fresh desc assigned beyond),
          fun assigned within live valid free => ?_⟩⟩
      have answer := insXred_joins (r := r) (rq := rq) (op := op) fresh desc assigned within live valid free
      exact at'.runs_ok answer
    refine ⟨xred _ _ rfl, xred _ _ rfl, xred _ _ rfl, xred _ _ rfl, fun carried => at'.runs_ok (carriedOr_carried carried),
      fun fresh live => ?_⟩
    have answer := insXredMax_joins (r := r) (rq := rq) (mx := mx) fresh live
    exact at'.runs_ok answer
  case idle => exact congrArg Host.Outcome.next (collectiveWrite_none unready)
  case result =>
    intro res given ended done
    refine ⟨collEnded_gone, fun xbar => congrArg Host.Outcome.next (collectiveWrite_xbar ready xbar), fun red unmarked => ?_,
      fun red marked => ?_⟩
    · exact congrArg Host.Outcome.next ((collectiveWrite_ends ready red).trans (if_neg (by simpa using unmarked)))
    · exact congrArg Host.Outcome.next ((collectiveWrite_ends ready red).trans (if_pos marked))

end Sys2Proof.Machine
end

section
namespace Sys2Proof.Machine
open Sys2Proof.Laws

/-! ## Barriers, times and fences (O27) -/

/-! ### XBAR (R276) -/

section
variable {s : State} {pt : Pt} {c : LCore} {k : Nat} {rg : BitVec 5}

theorem exec_xbar (at' : IssuesAt s pt c k) :
    exec (.xbar pt c rg) s = .next (settleAll s ⟨pt.toNat, c.toNat, k⟩ (insXbar rg s ⟨pt.toNat, c.toNat, k⟩)) :=
  (onCore_some (fun r => if s.issuing r then settleAll s r (insXbar rg s r) else s) at'.core).trans
    (congrArg Host.Outcome.next (if_pos at'.issuing))

end

section
variable {s : State} {r : CoreRef} {rg : BitVec 5} (fresh : (s.core r.k).carried ≤ (s.core r.k).issuedXfers)
  (live : s.useRec r (fun x => x == .bar r.c (((s.core r.k).sreg rg.toNat).extractLsb' 0 32).toNat) = none)
include fresh live

/-- Outside replay an XBAR passes when its operation on the group has been released. -/
theorem insXbar_eq :
    let q := s.core r.k
    let group := (q.sreg rg.toNat).extractLsb' 0 32
    let i := smapGet 0 q.xbars group.toNat
    insXbar rg s r =
      if i < smapGet 0 (s.part r.pt).xbarRel group.toNat then
        .ok (s.setCore r.k { q with xbars := smapSet 0 q.xbars group.toNat (i + 1), issuedXfers := q.issuedXfers + 1 })
      else .wait [.xbar group.toNat (i + 1)] := by
  intro q group i
  rw [insXbar, carriedOr_fresh fresh]
  simp only [live]
  rfl

end

theorem reachXbar_zero {s : State} {r : CoreRef} {j : Nat} : s.reachXbar r (.xbar 0 j) = s :=
  reachXbar_other fun g i hg _ is => by cases is; omega

/-! ### XTIME (R45, R277) -/

theorem now_lt (s : State) : s.now < 2 ^ 64 := by
  have := s.time.gtb.isLt
  rw [State.now, BitVec.toNat_ushiftRight, Nat.shiftRight_eq_div_pow]
  omega

section
variable {s : State} {r : CoreRef} {rt : BitVec 5}

/-- An XTIME passes on its release, or on the view that it draws of the time. -/
theorem insXtime_eq :
    let q := s.core r.k
    let t := q.sreg rt.toNat
    insXtime rt s r =
      if q.timeAt = some t ∨ t.toNat ≤ s.now - s.gtbLag then
        .ok ({ s with free := s.free + 1 }.setCore r.k { q with timeAt := none })
      else .wait [.time t] := by
  intro q t
  have view : (BitVec.ofNat 64 (s.now - s.gtbLag)).toNat = s.now - s.gtbLag :=
    Nat.mod_eq_of_lt (Nat.lt_of_le_of_lt (Nat.sub_le _ _) (now_lt s))
  rw [insXtime, gtbView_eq]
  simp only [view]
  rfl

theorem insXtime_passes (met : (s.core r.k).timeAt = some ((s.core r.k).sreg rt.toNat) ∨
      ((s.core r.k).sreg rt.toNat).toNat + 16 ≤ s.now) :
    insXtime rt s r = .ok ({ s with free := s.free + 1 }.setCore r.k { s.core r.k with timeAt := none }) :=
  have lag := gtbLag_le s
  insXtime_eq.trans (if_pos (met.imp_right fun past => by omega))

theorem insXtime_waits (kept : (s.core r.k).timeAt ≠ some ((s.core r.k).sreg rt.toNat))
    (ahead : s.now < ((s.core r.k).sreg rt.toNat).toNat) : insXtime rt s r = .wait [.time ((s.core r.k).sreg rt.toNat)] :=
  insXtime_eq.trans (if_neg (not_or.2 ⟨kept, by omega⟩))

theorem insXtime_or : insXtime rt s r = .ok ({ s with free := s.free + 1 }.setCore r.k { s.core r.k with timeAt := none }) ∨
    insXtime rt s r = .wait [.time ((s.core r.k).sreg rt.toNat)] := by
  rw [insXtime_eq]
  split
  · exact .inl rfl
  · exact .inr rfl

end

/-! ### XFENCE (R278) -/

/-- No transfer numbered below `before` is of a kind that an XFENCE names. -/
def Core.fenceClear (q : Core) (p x : Bool) (before : Nat) : Prop :=
  ∀ y ∈ q.xfers, before ≤ y.id ∨ match y.kind with
    | .peel _ | .pbufImage _ => p = false
    | .xsend | .xred => x = false
    | _ => True

theorem needMet_fence {s : State} {n k before g : Nat} {p x e : Bool} :
    s.needMet n ⟨k, .fence p x before, e, g⟩ = true ↔ (s.core k).fenceClear p x before := by
  simp only [State.needMet, Core.fenceClear, List.all_eq_true, Bool.or_eq_true, decide_eq_true_eq]
  refine forall₂_congr fun y _ => or_congr_right ?_
  cases y.kind <;> simp

section
variable {s : State} {r : CoreRef} {p x : Bool}

theorem insXfence_clear (clear : (s.core r.k).fenceClear p x (s.core r.k).nextId) :
    insXfence p x s r = .ok (if x then s.applyMaxReds r else s) :=
  if_pos (needMet_fence.2 clear)

theorem insXfence_waits (busy : ¬(s.core r.k).fenceClear p x (s.core r.k).nextId) :
    insXfence p x s r = .wait [.fence p x (s.core r.k).nextId] :=
  if_neg (mt needMet_fence.1 busy)

end

/-! ### The releases (R276, R277) -/

theorem xbarRelease_local {s : State} {n j : Nat} (waits : s.localBar n = some j) :
    xbarRelease n 0 s = s.setPart n { s.part n with xbarRel := smapSet 0 (s.part n).xbarRel 0 j } := by
  rw [xbarRelease, if_pos rfl, waits]
  rfl

theorem xbarRelease_group {s : State} {n : Nat} {group : Word} {u : CollRun} {a : CollAgreed} (named : group ≠ 0)
    (ready : s.readyRun group = some (u, a)) (xbar : a.head.op = .xbar) :
    xbarRelease n group s = ((u.locals.map fun m => m.pt).dedup.foldl (fun z n =>
      z.updPart n fun p => { p with xbarRel := smapSet 0 p.xbarRel group.toNat (u.idx + 1) }) s).endRunOf group u.idx := by
  rw [xbarRelease, if_neg named, ready]
  exact if_neg (not_not.2 xbar)

theorem exec_xtimeRelease {s : State} {pt : Pt} {c : LCore} {k : Nat} (core : IsCore s pt c k) :
    exec (.xtimeRelease pt c) s = .next (xtimeRelease s ⟨pt.toNat, c.toNat, k⟩) :=
  onCore_some (fun r => xtimeRelease s r) core

theorem xtimeRelease_due {s : State} {r : CoreRef} {t : DWord} {e : Bool} {g : Nat} (operand : t ≠ 0) (due : t.toNat ≤ s.now)
    (needs : (s.part r.pt).needs = [⟨r.k, .time t, e, g⟩]) :
    xtimeRelease s r = (s.setCore r.k { s.core r.k with timeAt := some t }).setPart r.pt
      { s.part r.pt with needs := [⟨r.k, .time 0, e, g⟩] } := by
  have named : ¬t = 0#64 := operand
  simp [xtimeRelease, needs, named, due]

/-- Settles O27: each instruction by the condition on which it passes, each release by what it releases. -/
theorem barriersTimesAndFences : Obligations.BarriersTimesAndFences := by
  refine ⟨fun s pt c k at' => ?issue, fun s pt j waits => congrArg Host.Outcome.next (xbarRelease_local waits),
    fun s pt group u a named ready xbar => congrArg Host.Outcome.next (xbarRelease_group named ready xbar),
    fun s pt c k t e g core operand due needs => (exec_xtimeRelease core).trans
      (congrArg Host.Outcome.next (xtimeRelease_due operand due needs))⟩
  intro q r frozen
  refine ⟨?xbar, fun rt => ?xtime, fun p x => ?xfence⟩
  case xbar =>
    intro rg group i
    refine ⟨fun carried => ?_, fun fresh live => ⟨fun released => ?_, fun waits => ?_⟩⟩
    · rw [exec_xbar at', insXbar, carriedOr_carried carried]
      rfl
    · rw [exec_xbar at', insXbar_eq fresh live, if_pos released]
      rfl
    · have answer : exec (.xbar pt c rg) s =
          .next ((frozen (.xbar group.toNat (i + 1))).reachXbar r (.xbar group.toNat (i + 1))) := by
        rw [exec_xbar at', insXbar_eq fresh live, if_neg (Nat.not_lt.2 waits)]
        rfl
      refine ⟨fun own => ?_, fun _ => answer⟩
      rw [answer, own]
      exact congrArg Host.Outcome.next reachXbar_zero
  case xtime =>
    exact ⟨fun met => at'.runs_ok (insXtime_passes met), fun kept ahead => at'.runs_wait (insXtime_waits kept ahead),
      (insXtime_or (s := s) (r := r) (rt := rt)).imp at'.runs_ok at'.runs_wait⟩
  case xfence =>
    exact ⟨fun clear => at'.runs_ok (insXfence_clear clear), fun busy => at'.runs_wait (insXfence_waits busy)⟩

end Sys2Proof.Machine
end

section
namespace Sys2Proof.Machine
open Sys2Proof.Laws

/-! ## Activation rows (O22) -/

/-! ### ACT (R264) -/

/-- The job of an ACT: its rows begin after those of the ACTs before it. -/
def Core.actJob (q : Core) (cyc : Nat) (rs : BitVec 5) (rows1 : Byte) (fmt : BitVec 4) (rp rx : BitVec 5) : ActJob :=
  ⟨fmt.toNat, q.lineOf rs, (q.sreg rp.toNat).toNat, q.lineOf rx, rows1.toNat + 1,
    q.acts.foldl (fun t j => max t (j.start + j.rows)) cyc, 0, [], q.pc⟩

/-- The rows of an ACT and their scales lie in the Bench (R224). -/
def ActJob.inBench (j : ActJob) : Prop :=
  j.line + (j.rows - 1) * j.pitch + actLines j.fmt ≤ 65536 ∧ (4 ≤ j.fmt → j.sx * 128 + 8 * j.rows ≤ 65536 * 128)

section
variable {s : State} {r : CoreRef} {rs rp rx : BitVec 5} {rows1 : Byte} {fmt : BitVec 4}

theorem insAct_noFormat (unassigned : 7 ≤ fmt.toNat) : insAct rs rows1 fmt rp rx s r = faultD s r fcIllegal := if_pos unassigned

variable (assigned : fmt.toNat < 7)
include assigned

theorem insAct_assigned :
    let j := (s.core r.k).actJob (s.cyc r) rs rows1 fmt rp rx
    insAct rs rows1 fmt rp rx s r =
      if 65536 < j.line + (j.rows - 1) * j.pitch + actLines j.fmt ∨
          (decide (4 ≤ j.fmt) = true ∧ 65536 * 128 < j.sx * 128 + 8 * j.rows) then faultD s r fcRange
      else checkRead s r 3 (if j.start = s.cyc r then j.lines 0 else [])
        (.ok (s.setCore r.k { s.core r.k with acts := (s.core r.k).acts ++ [j] })) :=
  if_neg (Nat.not_le.2 assigned)

theorem insAct_beyond (beyond : ¬((s.core r.k).actJob (s.cyc r) rs rows1 fmt rp rx).inBench) :
    insAct rs rows1 fmt rp rx s r = faultD s r fcRange := by
  refine (insAct_assigned assigned).trans (if_pos ?_)
  simpa only [ActJob.inBench, not_and_or, not_le, Classical.not_imp, decide_eq_true_eq] using beyond

variable (inBench : ((s.core r.k).actJob (s.cyc r) rs rows1 fmt rp rx).inBench)
include inBench

theorem insAct_inBench :
    let j := (s.core r.k).actJob (s.cyc r) rs rows1 fmt rp rx
    insAct rs rows1 fmt rp rx s r = checkRead s r 3 (if j.start = s.cyc r then j.lines 0 else [])
      (.ok (s.setCore r.k { s.core r.k with acts := (s.core r.k).acts ++ [j] })) := by
  refine (insAct_assigned assigned).trans (if_neg ?_)
  simpa only [ActJob.inBench, not_or, not_and, not_lt, decide_eq_true_eq] using inBench

theorem insAct_valid
    (valid : ((s.core r.k).actJob (s.cyc r) rs rows1 fmt rp rx).start = s.cyc r →
      ∀ i ∈ ((s.core r.k).actJob (s.cyc r) rs rows1 fmt rp rx).lines 0, ((s.core r.k).line i).st = .valid) :
    insAct rs rows1 fmt rp rx s r = .ok (s.setCore r.k { s.core r.k with
      acts := (s.core r.k).acts ++ [(s.core r.k).actJob (s.cyc r) rs rows1 fmt rp rx] }) := by
  refine (insAct_inBench assigned inBench).trans (checkRead_valid fun i hi => ?_)
  split at hi
  · next now => exact valid now i hi
  · exact nomatch hi

theorem insAct_uninit (now : ((s.core r.k).actJob (s.cyc r) rs rows1 fmt rp rx).start = s.cyc r)
    (unwritten : ∃ i ∈ ((s.core r.k).actJob (s.cyc r) rs rows1 fmt rp rx).lines 0, ((s.core r.k).line i).st = .invalid) :
    insAct rs rows1 fmt rp rx s r = insFault s r fcUninit 3 0 6 := by
  refine (insAct_inBench assigned inBench).trans (checkRead_uninit ?_)
  rwa [if_pos now]

end

/-! ### ACT_ROW_DELIVER (R138, R283) -/

section
variable {s : State} {pt : Pt} {c : LCore} {k : Nat} (core : IsCore s pt c k)
include core

theorem exec_actRowDeliver : exec (.actRowDeliver pt c) s = .next (actRowDeliver s ⟨pt.toNat, c.toNat, k⟩) :=
  onCore_some (fun r => actRowDeliver s r) core

theorem exec_actRowFreezeDeliver :
    exec (.actRowFreezeDeliver pt c) s = .next (actFreezeDeliver s ⟨pt.toNat, c.toNat, k⟩) :=
  onCore_some (fun r => actFreezeDeliver s r) core

end

section
variable {s : State} {r : CoreRef} {avail : Nat} {row : AqRow} {acts : List ActJob}
  (next : nextActRow (s.core r.k).acts = some ((avail, row), acts))
include next

theorem actRowDeliver_still (still : (s.part r.pt).advancing = false) : actRowDeliver s r = s := by
  simp [actRowDeliver, next, still]

variable (advancing : (s.part r.pt).advancing = true) (moves : s.arrayHold r.pt = false) (came : avail ≤ s.cyc r)
include advancing moves came

theorem actRowDeliver_due :
    actRowDeliver s r =
      if 64 + (if (s.core r.k).popDue (s.cyc r) then 1 else 0) ≤ (s.core r.k).aq.length then
        (s.setCore r.k { s.core r.k with acts := (s.core r.k).acts.drop 1 }).raise r.pt r.c r.k
          ⟨fcOverflow, 0, 3, ((s.core r.k).acts.head?.map fun j => j.pc).getD 0, 6⟩
      else s.setCore r.k { s.core r.k with aq := (s.core r.k).aq ++ [row], acts := acts } := by
  simp only [actRowDeliver, next]
  exact if_neg (by simpa [advancing, moves] using came)

theorem actRowDeliver_room
    (room : (s.core r.k).aq.length < 64 + (if (s.core r.k).popDue (s.cyc r) then 1 else 0)) :
    actRowDeliver s r = s.setCore r.k { s.core r.k with aq := (s.core r.k).aq ++ [row], acts := acts } :=
  (actRowDeliver_due next advancing moves came).trans (if_neg (Nat.not_le.2 room))

theorem actRowDeliver_full
    (full : 64 + (if (s.core r.k).popDue (s.cyc r) then 1 else 0) ≤ (s.core r.k).aq.length) :
    actRowDeliver s r = (s.setCore r.k { s.core r.k with acts := (s.core r.k).acts.drop 1 }).raise r.pt r.c r.k
      ⟨fcOverflow, 0, 3, ((s.core r.k).acts.head?.map fun j => j.pc).getD 0, 6⟩ :=
  (actRowDeliver_due next advancing moves came).trans (if_pos full)

end

/-! ### ACT_ROW_FREEZE_DELIVER (R632) -/

section
variable {s : State} {r : CoreRef}

theorem takeActRow_next {q : Core} {x : Nat × AqRow} {acts : List ActJob} (next : nextActRow q.acts = some (x, acts)) :
    q.takeActRow = { q with aq := q.aq ++ [x.2], acts := acts } := by
  rw [Core.takeActRow, next]

/-- The core waits for a row of its AQ in a freeze (R283). -/
def State.awaitsRow (s : State) (r : CoreRef) : Prop := ∃ w ∈ (s.part r.pt).needs, w.core = r.k ∧ w.need = .aqRow

theorem awaitsRow_iff : s.awaitsRow r ↔ ((s.part r.pt).needs.any fun w => w.core == r.k && w.need == .aqRow) = true := by
  simp [State.awaitsRow]

theorem actFreezeDeliver_other (other : ¬s.awaitsRow r) : actFreezeDeliver s r = s := by
  rw [awaitsRow_iff] at other
  simp only [actFreezeDeliver]
  exact if_pos (by simp [other])

variable (waits : s.awaitsRow r) (empty : (s.core r.k).aq = [])
include waits empty

theorem actFreezeDeliver_waits :
    ¬(((!(s.part r.pt).needs.any fun w => w.core == r.k && w.need == .aqRow) || !(s.core r.k).aq.isEmpty) = true) := by
  simp [awaitsRow_iff.1 waits, empty]

theorem actFreezeDeliver_read {avail : Nat} {row : AqRow} {acts : List ActJob}
    (next : nextActRow (s.core r.k).acts = some ((avail, row), acts)) :
    actFreezeDeliver s r = s.setCore r.k { s.core r.k with aq := [row], acts := acts } := by
  refine (if_neg (actFreezeDeliver_waits waits empty)).trans ((if_pos (by rw [next]; rfl)).trans ?_)
  rw [takeActRow_next next, empty]
  rfl

theorem actFreezeDeliver_reads (unread : nextActRow (s.core r.k).acts = none)
    (valid : ∀ i ∈ (s.core r.k).nextActLines, ((s.core r.k).line i).st = .valid) :
    actFreezeDeliver s r = s.setCore r.k
      ({ s.core r.k with acts := readOldest (s.core r.k) (s.cyc r) (s.core r.k).acts } : Core).takeActRow := by
  refine (if_neg (actFreezeDeliver_waits waits empty)).trans ((if_neg (by simp [unread])).trans ?_)
  simp only [checkRead_valid valid, settleIns]

end

/-- Settles O22: an ACT by its checks, its rows by the state of the AQ and of the partition. -/
theorem activationRowsAreDelivered : Obligations.ActivationRowsAreDelivered := by
  intro s pt c k q cyc
  refine ⟨fun at' rs rows1 fmt rp rx => ?act, fun core avail row acts next => ?deliver,
    fun core waits empty unread valid => ?reads, fun core others => ?other⟩
  case act =>
    intro rows line pitch sx start job inBench
    exact ⟨fun assigned within valid => at'.runs_ok (insAct_valid assigned within valid),
      fun assigned within now unwritten => at'.runs_fault (insAct_uninit assigned within now unwritten),
      fun unassigned => at'.runs_fault (insAct_noFormat unassigned),
      fun assigned beyond => at'.runs_fault (insAct_beyond assigned beyond)⟩
  case deliver =>
    intro room
    rw [exec_actRowDeliver core, exec_actRowFreezeDeliver core]
    exact ⟨fun advancing moves came free => congrArg Host.Outcome.next (actRowDeliver_room next advancing moves came free),
      fun advancing moves came full => congrArg Host.Outcome.next (actRowDeliver_full next advancing moves came full),
      fun still => congrArg Host.Outcome.next (actRowDeliver_still next still),
      fun waits empty => congrArg Host.Outcome.next (actFreezeDeliver_read (r := ⟨pt.toNat, c.toNat, k⟩) waits empty next)⟩
  case reads =>
    rw [exec_actRowFreezeDeliver core]
    exact congrArg Host.Outcome.next (actFreezeDeliver_reads waits empty unread valid)
  case other =>
    rw [exec_actRowFreezeDeliver core]
    exact congrArg Host.Outcome.next (actFreezeDeliver_other fun ⟨w, hw, is⟩ => others w hw is)

end Sys2Proof.Machine
end

section
namespace Sys2Proof.Machine
open Sys2Proof.Laws

/-! ## Drains (O13) -/

/-! ### DRAIN and PBDRAIN (R235, R238) -/

section
variable {s : State} {r : CoreRef} {kind : DrainKind} {a detail rows : Nat} {f : DrainF} {mark : Nat → Core → Core}

/-- The descriptor that a drain names. -/
def Core.drainDesc (q : Core) (f : DrainF) : DrainDesc := parseDrainDesc (q.line (q.lineOf f.rq)).data

/-- The bias lines that a drain reads at its issue. -/
def Core.biasLines (q : Core) (f : DrainF) : List Nat := if f.bias then lineRun (q.drainDesc f).bias 4 else []

/-- The scale lines that a drain reads at its issue. -/
def Core.scaleLines (q : Core) (f : DrainF) : List Nat := if f.scale then lineRun (q.drainDesc f).scale 4 else []

/-- What a drain captures at its issue (R235, R236). -/
def Core.drainJob (q : Core) (cyc a : Nat) (kind : DrainKind) (f : DrainF) : DrainJob :=
  { id := q.nextId, kind := kind, issue := cyc, f := f, desc := q.drainDesc f, dest := q.sreg f.rd.toNat,
    bias := if f.bias then q.words4 (q.drainDesc f).bias else [], scale := if f.scale then q.words4 (q.drainDesc f).scale else [],
    biasPoison := q.linesPoison (q.biasLines f), scalePoison := q.linesPoison (q.scaleLines f),
    seed := q.seed, step := q.step, anchor := q.anchor a, next := 0, snap := none, pc := q.pc, beyond := false }

/-- A core after a drain has marked its source and taken its place on the path. -/
def Core.drainIssued (q : Core) (cyc a : Nat) (kind : DrainKind) (f : DrainF) (mark : Nat → Core → Core) : Core :=
  let m := mark q.nextId { q with nextId := q.nextId + 1 }
  m.setArray a { m.array a with jobs := (m.array a).jobs ++ [q.drainJob cyc a kind f] }

/-- What a DRAIN does to its bank at its issue (R135). -/
def spendBank (a b : Nat) (_ : Nat) (q : Core) : Core :=
  q.setArray a ((q.array a).setBank b { (q.array a).bank b with st := .spent })

/-- What a PBDRAIN does to its slot at its issue, and its place in the order of the Proof Buffer (R168, R174). -/
def readSlot (slot id : Nat) (q : Core) : Core :=
  { q with
    pb := smapSet .zero q.pb slot { q.slot slot with readMark := true }
    pbOps := q.pbOps ++ [⟨id, .drain, [slot], false, 0, false⟩] }

theorem issueDrain_full (full : ((s.core r.k).array a).pathFull (s.cyc r) = true) :
    issueDrain kind a f detail rows mark s r = .hold :=
  if_pos full

theorem insDrain_eq {a : ArrayNo} {bank : BitVec 1} :
    insDrain a bank f s r = issueDrain (.drain bank.toNat) a.toNat f (arrDetail a.toNat bank.toNat)
      (max 1 (((s.core r.k).array a.toNat).bank bank.toNat).top) (spendBank a.toNat bank.toNat) s r := rfl

theorem insPbdrain_eq {a : ArrayNo} {slot : BitVec 3} :
    insPbdrain a slot f s r = issueDrain (.pbdrain slot.toNat) a.toNat f (arrDetail a.toNat slot.toNat) 128
      (readSlot slot.toNat) s r := rfl

section
variable (room : ((s.core r.k).array a).pathFull (s.cyc r) = false)
  (desc : ((s.core r.k).line ((s.core r.k).lineOf f.rq)).st = .valid)
include room desc

/-- A drain that finds room and whose descriptor can be read meets the checks of its fields and of its bias and scale lines. -/
theorem issueDrain_readable :
    let q := s.core r.k
    issueDrain kind a f detail rows mark s r =
      checkReadWith s r 1
        ((drainFieldFaults f (q.drainDesc f) (q.sreg f.rd.toNat) rows).map fun code => insInfo s r code 1 detail (1 + a))
        ((q.biasLines f ++ q.scaleLines f).filter fun i => decide (i < 65536))
        (.ok ((s.setCore r.k (q.drainIssued (s.cyc r) a kind f mark)).countReads r
          (1 + (q.biasLines f).length + (q.scaleLines f).length))) :=
  (if_neg (by simp [room])).trans (checkRead_valid (by simpa using desc))

variable (valid : ∀ i ∈ (s.core r.k).biasLines f ++ (s.core r.k).scaleLines f, ((s.core r.k).line i).st = .valid)
include valid

theorem issueDrain_legal
    (legal : drainFieldFaults f ((s.core r.k).drainDesc f) ((s.core r.k).sreg f.rd.toNat) rows = []) :
    let q := s.core r.k
    issueDrain kind a f detail rows mark s r = .ok ((s.setCore r.k (q.drainIssued (s.cyc r) a kind f mark)).countReads r
      (1 + (q.biasLines f).length + (q.scaleLines f).length)) := by
  intro q
  rw [issueDrain_readable room desc, legal]
  exact checkReadWith_valid fun i hi => valid i (List.mem_of_mem_filter hi)

theorem issueDrain_faulty {code : Nat}
    (only : drainFieldFaults f ((s.core r.k).drainDesc f) ((s.core r.k).sreg f.rd.toNat) rows = [code]) :
    issueDrain kind a f detail rows mark s r = .fault [insInfo s r code 1 detail (1 + a)] := by
  rw [issueDrain_readable room desc, only]
  exact checkReadWith_faults (fun i hi => valid_not_invalid valid i (List.mem_of_mem_filter hi)) (List.cons_ne_nil _ _)

end
end

/-! ### DRAIN_ROW_READ (R139, R140) -/

/-- The operand lines of a drain's next row (R236). -/
def DrainJob.operandRow (j : DrainJob) : List Nat :=
  if 2 ≤ j.f.op.toNat then lineRun (j.desc.opLine + j.next * j.desc.opStride) (operandLines j.desc.opFmt) else []

/-- The operands of a drain's next row. -/
def Core.drainOperands (q : Core) (j : DrainJob) : List Num :=
  if 2 ≤ j.f.op.toNat then (List.range 128).map fun n => (operandFmt j.desc.opFmt).decode
    (elemAt (linesNat (j.operandRow.map fun i => (q.line i).data)) (operandFmt j.desc.opFmt).width n) else []

/-- The row that a drain forms next. -/
def Core.drainOut (q : Core) (a cyc : Nat) (j : DrainJob) : DqRow × Bool × Bool :=
  drainRow j (drainSource q a j).2.1 j.next cyc (drainSource q a j).1 (q.drainOperands j) (q.linesPoison j.operandRow)

/-- The Proof Buffer's part in a row that a PBDRAIN reads. -/
def Core.drainMoves (q : Core) (cyc : Nat) (j : DrainJob) : Core :=
  match j.kind with
  | .pbdrain sl => (q.takePort sl cyc).pbStep j.id 128
  | _ => q

/-- A core whose drain has read a row into the DQ. -/
def Core.drainTook (q : Core) (a cyc : Nat) (j : DrainJob) : Core :=
  (q.setArray a { (q.array a).readRow j (drainRows q a j) (drainSource q a j).2.1 cyc with
    dq := (q.array a).dq ++ [(q.drainOut a cyc j).1] }).drainMoves cyc j

/-- The module once a drain has read a row, its losses counted (R95, R107). -/
def State.drainRead (s : State) (r : CoreRef) (a : Nat) (j : DrainJob) : State :=
  ((s.setCore r.k ((s.core r.k).drainTook a (s.cyc r) j)).countReads r j.operandRow.length).countLoss r.k j.id
    ((s.core r.k).drainOut a (s.cyc r) j).2.2

/-- The answer of a row read late: its faults name the instruction that the row belongs to. -/
def InsRes.blaming (pc : Nat) : InsRes → InsRes
  | .fault fs => .fault (fs.map fun f => { f with pc := pc })
  | x => x

theorem drainMoves_cases {cyc : Nat} {j : DrainJob} (drain : j.isFold = false) :
    (j.slotRow = none ∧ ∀ q : Core, q.drainMoves cyc j = q) ∨
      ∃ sl, j.slotRow = some (sl, j.next) ∧ ∀ q : Core, q.drainMoves cyc j = (q.takePort sl cyc).pbStep j.id 128 := by
  cases kind : j.kind with
  | drain b => exact .inl (by simp [DrainJob.slotRow, Core.drainMoves, kind])
  | pbdrain sl => exact .inr ⟨sl, by simp [DrainJob.slotRow, Core.drainMoves, kind]⟩
  | fold => simp [DrainJob.isFold, kind] at drain

section
variable {s : State} {r : CoreRef} {a : Nat} {j : DrainJob} {js : List DrainJob} (jobs : ((s.core r.k).array a).jobs = j :: js)
  (drain : j.isFold = false) (advancing : (s.part r.pt).advancing = true)
  (may : drainMayRead (s.core r.k) a j (s.cyc r) = true) (port : 2 ≤ j.f.op.toNat → (s.part r.pt).stall = 0)
include jobs drain advancing may port

theorem drainRowRead_due :
    drainRowRead a s r =
      if (drainSource (s.core r.k) a j).2.2 then s.abandonTile r.pt (srcCore r.k (1 + a))
      else settleIns s r ((checkRead s r 1 j.operandRow (.ok
        (if ((s.core r.k).drainOut a (s.cyc r) j).2.1 && !j.beyond then
          (s.drainRead r a j).raise r.pt r.c r.k ⟨fcAnchor, arrDetail a j.kind.place, 1, j.pc, 1 + a⟩
        else s.drainRead r a j))).blaming j.pc) := by
  have due : ¬((j.isFold || !(s.part r.pt).advancing || !drainMayRead (s.core r.k) a j (s.cyc r) ||
      (drainOperand j.f && (s.part r.pt).stall != 0)) = true) := by
    simpa [drain, advancing, may, drainOperand] using port
  obtain ⟨slot, moves⟩ | ⟨sl, slot, moves⟩ := drainMoves_cases (cyc := s.cyc r) drain
  all_goals
    simp only [drainRowRead, jobs, slot, State.drainRead, Core.drainTook, moves]
    refine (if_neg due).trans ?_
    simp only [drainOperand, decide_eq_true_eq]
    rfl

theorem drainRowRead_suspect (suspect : (drainSource (s.core r.k) a j).2.2 = true) :
    drainRowRead a s r = s.abandonTile r.pt (srcCore r.k (1 + a)) :=
  (drainRowRead_due jobs drain advancing may port).trans (if_pos suspect)

section
variable (trusted : (drainSource (s.core r.k) a j).2.2 = false)
  (valid : ∀ i ∈ j.operandRow, ((s.core r.k).line i).st = .valid)
include trusted valid

theorem drainRowRead_trusted :
    drainRowRead a s r = if ((s.core r.k).drainOut a (s.cyc r) j).2.1 && !j.beyond then
        (s.drainRead r a j).raise r.pt r.c r.k ⟨fcAnchor, arrDetail a j.kind.place, 1, j.pc, 1 + a⟩
      else s.drainRead r a j := by
  rw [drainRowRead_due jobs drain advancing may port, if_neg (by simp [trusted]), checkRead_valid valid]
  rfl

theorem drainRowRead_fits (fits : ((s.core r.k).drainOut a (s.cyc r) j).2.1 = false) :
    drainRowRead a s r = s.drainRead r a j :=
  (drainRowRead_trusted jobs drain advancing may port trusted valid).trans (if_neg (by simp [fits]))

theorem drainRowRead_overflows (overflows : ((s.core r.k).drainOut a (s.cyc r) j).2.1 = true) (counted : j.beyond = false) :
    drainRowRead a s r =
      (s.drainRead r a j).raise r.pt r.c r.k ⟨fcAnchor, arrDetail a j.kind.place, 1, j.pc, 1 + a⟩ :=
  (drainRowRead_trusted jobs drain advancing may port trusted valid).trans (if_pos (by simp [overflows, counted]))

end
end

/-! ### DRAIN_ROW_WRITE (R140, R241) -/

/-- The bytes of a drained row, those of masked columns left out (R241). -/
def DqRow.rowBytes (x : DqRow) : List (Option Byte) := (List.range (drainBytes x.f)).map fun b =>
  if rowByteMask x.f x.desc.mask b then some (BitVec.ofNat 8 (x.out >>> (8 * b))) else none

/-- The writes of a drained row to the DSS (R140). -/
def DqRow.dssWrites (x : DqRow) : List BWrite :=
  byteWrites (x.dest.toNat + x.row * x.desc.pitch) (drainBytes x.f) x.out (rowByteMask x.f x.desc.mask) x.poison

section
variable {s : State} {r : CoreRef} {a : Nat} {x : DqRow} {xs : List DqRow} (rows : ((s.core r.k).array a).dq = x :: xs)
  (advancing : (s.part r.pt).advancing = true) (came : x.readAt + 24 ≤ s.cyc r)
  (port : x.writes ≠ [] → (s.part r.pt).stall = 0) (free : ∀ w ∈ x.writes, ((s.core r.k).line w.line).st ≠ .pending)
include rows advancing came port free

theorem drainRowWrite_due :
    drainRowWrite a s r =
      if x.f.dest = 1 then (s.dqPop r a x).dssWrite (r.k / 26) x.dssWrites
      else if x.f.dest = 2 then
        match s.streamRow r (x.dest.toNat % 8) (drainBytes x.f) (drainWidth x.f) (drainMx x.f) x.rowBytes x.poison with
        | (s1, none) => s1.dqPop r a x
        | (s1, some code) => s1.raise r.pt r.c r.k ⟨code, a + x.detail, 1, x.pc, 1 + a⟩
      else s.dqPop r a x := by
  have due : ¬((!((s.part r.pt).advancing || (s.part r.pt).awaitsDq r.k a) || s.cyc r < x.readAt + 24 ||
      (!x.writes.isEmpty && (s.part r.pt).stall != 0)) = true) := by
    simpa [advancing, Nat.not_lt.2 came] using port
  have ready : checkWrite s r (x.writes.map fun w => w.line) (.ok s) = .ok s := checkWrite_free (by simpa using free)
  rw [drainRowWrite, rows]
  refine (if_neg due).trans ?_
  rw [ready]
  rfl

theorem drainRowWrite_bench (dest : x.f.dest = 0) : drainRowWrite a s r = s.dqPop r a x := by
  rw [drainRowWrite_due rows advancing came port free, dest]
  rfl

theorem drainRowWrite_dss (dest : x.f.dest = 1) : drainRowWrite a s r = (s.dqPop r a x).dssWrite (r.k / 26) x.dssWrites :=
  (drainRowWrite_due rows advancing came port free).trans (if_pos dest)

theorem drainRowWrite_stream (dest : x.f.dest = 2) {s1 : State}
    (taken : s.streamRow r (x.dest.toNat % 8) (drainBytes x.f) (drainWidth x.f) (drainMx x.f) x.rowBytes x.poison = (s1, none)) :
    drainRowWrite a s r = s1.dqPop r a x := by
  rw [drainRowWrite_due rows advancing came port free, dest, taken]
  rfl

end

/-! ### The rows -/

section
variable {s : State} {pt : Pt} {c : LCore} {k : Nat} {a : ArrayNo} (core : IsCore s pt c k)
include core

theorem exec_drainRowRead : exec (.drainRowRead pt c a) s = .next (drainRowRead a.toNat s ⟨pt.toNat, c.toNat, k⟩) :=
  onCore_some (fun r => drainRowRead a.toNat s r) core

theorem exec_drainRowWrite : exec (.drainRowWrite pt c a) s = .next (drainRowWrite a.toNat s ⟨pt.toNat, c.toNat, k⟩) :=
  onCore_some (fun r => drainRowWrite a.toNat s r) core

end

/-- Settles O13: a drain by the one law of its issue, a row's read by its source, a row's write by its destination. -/
theorem drainsReadAndWriteRows : Obligations.DrainsReadAndWriteRows := by
  intro s pt c k a q cyc ar r
  refine ⟨fun at' room f => ?issue, fun at' full f bank slot => ?full, fun core advancing j js jobs drain may => ?read,
    fun core advancing x xs rows came port free => ?write⟩
  case issue =>
    intro desc dest bl sl job reads descValid valid
    refine ⟨fun bank => ?bank, fun slot => ?slot⟩
    case bank =>
      intro total spent
      refine ⟨fun legal => ?_, fun code only => ?_⟩
      · have answer := (insDrain_eq (bank := bank)).trans (issueDrain_legal (s := s) (r := r) room descValid valid legal)
        exact at'.runs_ok answer
      · have answer := (insDrain_eq (bank := bank)).trans (issueDrain_faulty (s := s) (r := r) room descValid valid only)
        exact at'.runs_fault answer
    case slot =>
      refine ⟨fun legal => ?_, fun code only => ?_⟩
      · have answer := (insPbdrain_eq (slot := slot)).trans (issueDrain_legal (s := s) (r := r) room descValid valid legal)
        exact at'.runs_ok answer
      · have answer := (insPbdrain_eq (slot := slot)).trans (issueDrain_faulty (s := s) (r := r) room descValid valid only)
        exact at'.runs_fault answer
  case full =>
    have drain := (insDrain_eq (bank := bank) (f := f)).trans (issueDrain_full (r := r) full)
    have pbdrain := (insPbdrain_eq (slot := slot) (f := f)).trans (issueDrain_full (r := r) full)
    exact ⟨at'.runs_hold drain, at'.runs_hold pbdrain⟩
  case read =>
    intro src reads ls operands out took moved done port valid
    rw [exec_drainRowRead core]
    refine ⟨fun trusted fits => ?_, fun trusted overflows counted => ?_, fun suspect => ?_⟩
    · exact congrArg Host.Outcome.next (drainRowRead_fits (r := r) jobs drain advancing may port trusted valid fits)
    · exact congrArg Host.Outcome.next
        (drainRowRead_overflows (r := r) jobs drain advancing may port trusted valid overflows counted)
    · exact congrArg Host.Outcome.next (drainRowRead_suspect (r := r) jobs drain advancing may port suspect)
  case write =>
    intro bytes
    rw [exec_drainRowWrite core]
    refine ⟨fun dest => ?_, fun dest => ?_, fun dest s1 taken => ?_⟩
    · exact congrArg Host.Outcome.next (drainRowWrite_bench (r := r) rows advancing came port free dest)
    · exact congrArg Host.Outcome.next (drainRowWrite_dss (r := r) rows advancing came port free dest)
    · exact congrArg Host.Outcome.next (drainRowWrite_stream (r := r) rows advancing came port free dest taken)

end Sys2Proof.Machine
end

section
namespace Sys2Proof.Machine
open Sys2Proof.Laws

/-! ## Peel descriptors (O23) -/

/-! ### PEEL (R263, R266) -/

/-- The descriptor that a PEEL names (R265). -/
abbrev peelFields (s : State) (r : CoreRef) (rq : BitVec 5) : PeelFields :=
  parsePeel ((s.core r.k).line ((s.core r.k).lineOf rq)).data

/-- The Bench lines that a descriptor's transfer touches. -/
def PeelFields.benchLines (f : PeelFields) : List Nat :=
  if f.kind ≤ 1 then peelLines f.line f.rowBytes f.rows f.benchPitch else []

/-- The source lines of a descriptor in the Bench. -/
def PeelFields.srcLines (f : PeelFields) : List Nat := if f.kind = 1 then f.benchLines else []

/-- The destination lines of a descriptor in the Bench. -/
def PeelFields.dstLines (f : PeelFields) : List Nat := if f.kind = 0 then f.benchLines else []

/-- A PEEL that R460 carries (a stream descriptor is no carried transfer). -/
def peelCarried (s : State) (r : CoreRef) (rq : BitVec 5) : Prop :=
  (s.core r.k).issuedXfers < (s.core r.k).carried ∧ (peelFields s r rq).kind ≤ 2

theorem peelCarried_iff {s : State} {r : CoreRef} {rq : BitVec 5} :
    peelCarried s r rq ↔ ((s.core r.k).suppressed && decide ((peelFields s r rq).kind ≤ 2)) = true := by
  simp [peelCarried, Core.suppressed]

theorem valid_single {q : Core} {i : Nat} (valid : (q.line i).st = .valid) : ∀ j ∈ [i], (q.line j).st = .valid := by
  simpa using valid

theorem countXfer_if {q : Core} {p : Prop} [Decidable p] :
    (if p then q.countXfer else q) = { q with issuedXfers := q.issuedXfers + if p then 1 else 0 } := by
  split <;> rfl

section
variable {s : State} {r : CoreRef} {eng : EngNo} {rq : BitVec 5}

theorem insPeel_carried (carried : peelCarried s r rq) : insPeel eng rq s r = .ok (s.setCore r.k (s.core r.k).countXfer) :=
  if_pos (peelCarried_iff.1 carried)

section
variable (fresh : ¬peelCarried s r rq) (desc : ((s.core r.k).line ((s.core r.k).lineOf rq)).st = .valid)
include fresh desc

theorem insPeel_illegal {code : Nat} (fault : peelFault s (peelFields s r rq) = some code) :
    insPeel eng rq s r = faultD s r code := by
  simp only [insPeel, if_neg (mt peelCarried_iff.2 fresh), checkRead_valid (valid_single desc), fault]

variable (legal : peelFault s (peelFields s r rq) = none)
include legal

theorem insPeel_replayed {s1 : State}
    (replayed : s.replayPeel r (s.serving (r.k / 26) eng.toNat) (peelFields s r rq) (s.core r.k).pc = some s1) :
    insPeel eng rq s r = .ok s1 := by
  simp only [insPeel, if_neg (mt peelCarried_iff.2 fresh), checkRead_valid (valid_single desc), legal, replayed]

variable (live : s.replayPeel r (s.serving (r.k / 26) eng.toNat) (peelFields s r rq) (s.core r.k).pc = none)
include live

theorem insPeel_full (full : 32 ≤ (s.engine (r.k / 26) (s.serving (r.k / 26) eng.toNat)).queue.length) :
    insPeel eng rq s r = .wait [.peelQueue (s.serving (r.k / 26) eng.toNat)] := by
  simp only [insPeel, if_neg (mt peelCarried_iff.2 fresh), checkRead_valid (valid_single desc), legal, live, if_pos full]

theorem insPeel_accepted (room : (s.engine (r.k / 26) (s.serving (r.k / 26) eng.toNat)).queue.length < 32)
    (valid : ∀ i ∈ (peelFields s r rq).srcLines, ((s.core r.k).line i).st = .valid)
    (free : ∀ i ∈ (peelFields s r rq).dstLines, ((s.core r.k).line i).st ≠ .pending) :
    let f := peelFields s r rq
    let e := s.serving (r.k / 26) eng.toNat
    let a := (s.core r.k).accept (.peel e) f.srcLines f.dstLines 0 0 f.line
    insPeel eng rq s r = .ok (((s.setCore r.k
      { a.2 with issuedXfers := a.2.issuedXfers + if f.kind ≤ 2 then 1 else 0 }).updEngine (r.k / 26) e fun g =>
        g.push s.now (peelDesc f r.pt r.k a.1 (s.core r.k).pc)).countReads r 1) := by
  intro f e a
  rw [← countXfer_if]
  simp only [insPeel, if_neg (mt peelCarried_iff.2 fresh), checkRead_valid (valid_single desc), legal, live,
    if_neg (Nat.not_le.2 room)]
  exact (checkRead_valid valid).trans (checkWrite_free free)

end
end

/-! ### PEEL_DESCRIPTOR_START (R630) -/

section
variable {s : State} {d e : Nat} {done rest : List PeelDesc} {x : PeelDesc}

theorem nextDesc_first (issued : ∀ y ∈ done, y.issued = true) (waits : x.started = false) :
    nextDesc (done ++ x :: rest) = some x := by
  induction done with
  | nil => simp [nextDesc, PeelDesc.issued, waits]
  | cons y done ih =>
    obtain ⟨first, others⟩ := List.forall_mem_cons.1 issued
    simp [nextDesc, first, ih others]

/-- The module once an engine has marked a descriptor as started. -/
def State.descStarted (s : State) (d e : Nat) (x : PeelDesc) : State :=
  (s.updDesc d e x.core x.xfer fun y => { y with started := true }).beatEngine d e

section
variable (next : nextDesc (s.engine d e).queue = some x)
include next

theorem peelStart_into (kind : x.kind = .into) : peelStart d e s = (s.descStarted d e x).requestRows x e := by
  simp only [peelStart, next, kind, State.descStarted]

theorem peelStart_out (kind : x.kind = .out) : peelStart d e s = (s.descStarted d e x).sendWrites x e := by
  simp only [peelStart, next, kind, State.descStarted]

theorem peelStart_copy (kind : x.kind = .copy) :
    peelStart d e s = ((s.descStarted d e x).requestRows x e).sendWrites x e := by
  simp only [peelStart, next, kind, State.descStarted]

theorem peelStart_other (into : x.kind ≠ .into) (out : x.kind ≠ .out) (copy : x.kind ≠ .copy) :
    peelStart d e s = s.descStarted d e x := by
  simp only [peelStart, next, State.descStarted]

end
end

/-! ### PEEL_LINE_ARRIVE (R147) -/

section
variable {s : State} {r : CoreRef} {line id cause : Nat} {x : Xfer}
  (held : ((s.core r.k).line line).hold = some ⟨id, cause, false⟩)
  (found : (s.core r.k).xfer id = some x)
include held found

theorem peelLineArrive_peel {e g : Nat} {d : PeelDesc} {cells : List (Option (Byte × Bool))} (kind : x.kind = .peel e)
    (desc : s.findDesc r.k id = some (g, d)) (started : d.started = true) (came : s.peelLineData d line = some cells) :
    peelLineArrive line s r = (s.setCore r.k (((s.core r.k).setLine line (((s.core r.k).line line).arrive cells)).lineCame id
      line)).beatEngine (r.k / 26) e := by
  simp only [peelLineArrive, held, found, kind, desc, if_pos started, came]

theorem peelLineArrive_dss (kind : x.kind = .dssld) :
    let v := s.dssLine (r.k / 26) (x.dss / 128 + (line - x.first))
    let k1 := ((s.core r.k).setLine line ⟨.valid, v.data, v.poison, true, true, none⟩).lineCame id line
    peelLineArrive line s r = s.setCore r.k (if x.dst.length ≤ 1 then k1.dropXfer id else k1) := by
  simp only [peelLineArrive, held, found, kind, BenchLine.fill]

end

/-! ### ENGINE_SOURCE_LINE_READ (R223) -/

/-- The lines of a transfer that its engine has read once it has read `line`. -/
def Core.bufWith (q : Core) (x : Xfer) (line : Nat) : List (Line × Bool) :=
  x.buf ++ [((q.line line).data, (q.line line).poison)]

/-- A core whose engine has read a source line of a transfer: the line is released, or waits for the result (R273). -/
def Core.sourceTaken (q : Core) (x : Xfer) (id line : Nat) : Core :=
  (q.setLine line (if x.dst.contains line then (q.line line).release.await id 1 else (q.line line).release)).updXfer id fun y =>
    { y with src := x.src.drop 1, buf := q.bufWith x line }

section
variable {s : State} {r : CoreRef} {line id cause : Nat} {x : Xfer}
  (held : ((s.core r.k).line line).hold = some ⟨id, cause, true⟩)
  (found : (s.core r.k).xfer id = some x) (next : x.src.head? = some line)
include held found next

theorem engineSourceRead_dss (kind : x.kind = .dssst) :
    let u := (s.setCore r.k ((s.core r.k).sourceTaken x id line)).setDssLine (r.k / 26) (x.dss / 128 + (line - x.first))
      ⟨((s.core r.k).line line).data, ((s.core r.k).line line).poison⟩
    engineSourceRead line s r = if x.src.drop 1 = [] then u.updCore r.k fun y => y.dropXfer id else u := by
  simp [engineSourceRead, held, found, kind, next, Core.sourceTaken, Core.bufWith]

theorem engineSourceRead_send (kind : x.kind = .xsend) :
    let t := s.setCore r.k ((s.core r.k).sourceTaken x id line)
    engineSourceRead line s r = if x.src.drop 1 = [] then t.messageRead r id ((s.core r.k).bufWith x line) else t := by
  simp [engineSourceRead, held, found, kind, next, Core.sourceTaken, Core.bufWith]

theorem engineSourceRead_red (kind : x.kind = .xred) :
    let t := s.setCore r.k ((s.core r.k).sourceTaken x id line)
    engineSourceRead line s r = if x.src.drop 1 = [] then t.memberReady r.k id ((s.core r.k).bufWith x line) else t := by
  simp [engineSourceRead, held, found, kind, next, Core.sourceTaken, Core.bufWith]

section
variable {e g : Nat} {d : PeelDesc} (kind : x.kind = .peel e) (desc : s.findDesc r.k id = some (g, d)) (started : d.started = true)
include kind desc started

theorem engineSourceRead_more (more : x.src.drop 1 ≠ []) :
    engineSourceRead line s r = (s.setCore r.k ((s.core r.k).sourceTaken x id line)).beatEngine (r.k / 26) e := by
  simp only [engineSourceRead, held, found, kind, desc]
  refine (if_neg (by simp [next, started])).trans ?_
  rw [List.isEmpty_eq_false_iff.2 more]
  split <;> rfl

theorem engineSourceRead_last {h : Nat} {y : PeelDesc} (last : x.src.drop 1 = [])
    (now : ((s.setCore r.k ((s.core r.k).sourceTaken x id line)).beatEngine (r.k / 26) e).findDesc r.k id = some (h, y)) :
    engineSourceRead line s r =
      ((s.setCore r.k ((s.core r.k).sourceTaken x id line)).beatEngine (r.k / 26) e).sendWrites y e := by
  simp only [engineSourceRead, held, found, kind, desc]
  refine (if_neg (by simp [next, started])).trans ?_
  simp only [Core.sourceTaken, Core.bufWith] at now ⊢
  simp only [now, List.isEmpty_iff.2 last, if_true]

end
end

/-! ### PEEL_TRANSFER_COMPLETE (R266, R630) -/

theorem sendWrites_sent {s : State} {e : Nat} {x : PeelDesc} (sent : x.sent = true) : s.sendWrites x e = s := by
  simp [State.sendWrites, sent]

section
variable {s : State} {e : Nat} {x : PeelDesc} (started : x.started = true)
include started

theorem completePeel_into (kind : x.kind = .into) (came : s.destCame x = true) : s.completePeel e x = s.dropDesc e x := by
  simp [State.completePeel, started, kind, came]

theorem completePeel_stream (kind : x.kind = .stream) (all : x.received = x.rows) (answered : s.descWaits x = false) :
    s.completePeel e x = s.dropDesc e x := by
  simp [State.completePeel, started, kind, all, answered]

section
variable (sent : x.sent = true) (answered : s.descWaits x = false) {h : Nat} (desc : s.findDesc x.core x.xfer = some (h, x))
include sent answered desc

theorem completePeel_out (kind : x.kind = .out) (read : s.sourceRead x = true) : s.completePeel e x = s.dropDesc e x := by
  simp [State.completePeel, started, kind, sendWrites_sent, sent, answered, desc, read]

theorem completePeel_copy (kind : x.kind = .copy) : s.completePeel e x = s.dropDesc e x := by
  simp [State.completePeel, started, kind, sendWrites_sent, sent, answered, desc]

end
end

theorem transferComplete_started {s : State} {d e idx : Nat} {x : PeelDesc} (here : (s.engine d e).queue[idx]? = some x)
    (started : x.started = true) (into : x.kind = .into → s.destCame x = true)
    (out : x.kind = .out ∨ x.kind = .copy → x.sent = true ∧ s.descWaits x = false ∧ s.sourceRead x = true ∧
      ∃ h, s.findDesc x.core x.xfer = some (h, x))
    (stream : x.kind = .stream → x.received = x.rows ∧ s.descWaits x = false)
    (image : x.kind = .spillW ∨ x.kind = .spillA ∨ x.kind = .load → x.received = 128) :
    transferComplete d e idx s = s.dropDesc e x := by
  simp only [transferComplete, here]
  cases kind : x.kind with
  | into => exact completePeel_into started kind (into kind)
  | out =>
    obtain ⟨sent, answered, read, h, desc⟩ := out (.inl kind)
    exact completePeel_out started sent answered desc kind read
  | copy =>
    obtain ⟨sent, answered, -, h, desc⟩ := out (.inr kind)
    exact completePeel_copy started sent answered desc kind
  | stream => exact completePeel_stream started kind (stream kind).1 (stream kind).2
  | spillW => exact if_pos ⟨started, image (.inl kind)⟩
  | spillA => exact if_pos ⟨started, image (.inr (.inl kind))⟩
  | load => exact if_pos ⟨started, image (.inr (.inr kind))⟩

/-! ### The rows -/

section
variable {s : State} {pt : Pt} {c : LCore} {k : Nat} {line : BitVec 16} (core : IsCore s pt c k)
include core

theorem exec_peelLineArrive :
    exec (.peelLineArrive pt c line) s = .next (peelLineArrive line.toNat s ⟨pt.toNat, c.toNat, k⟩) :=
  onCore_some (fun r => peelLineArrive line.toNat s r) core

theorem exec_engineSourceLineRead :
    exec (.engineSourceLineRead pt c line) s = .next (engineSourceRead line.toNat s ⟨pt.toNat, c.toNat, k⟩) :=
  onCore_some (fun r => engineSourceRead line.toNat s r) core

end

/-- An event whose effect depends on a condition, as its two cases. -/
theorem ite_next {p : Prop} [Decidable p] {t u v : State} (is : t = if p then u else v) :
    (¬p → (.next t : Out) = .next v) ∧ (p → (.next t : Out) = .next u) :=
  ⟨fun no => by rw [is, if_neg no], fun yes => by rw [is, if_pos yes]⟩

/-- Settles O23: a PEEL by its checks in turn, the engine's events by the kind of their transfer. -/
theorem peelDescriptorsAndTheirRows : Obligations.PeelDescriptorsAndTheirRows := by
  refine ⟨fun s pt c k at' eng rq => ?issue, fun s die eng done x rest queue issued waits => ?start,
    fun s pt c k line id cause x core => ?arrive, fun s pt c k line id cause x core => ?read,
    fun s die eng idx x here started into out stream image =>
      congrArg Host.Outcome.next (transferComplete_started here started into out stream image)⟩
  case issue =>
    intro q r dl f e ls src dst carried
    refine ⟨fun old => ?_, fun fresh desc => ?_⟩
    · exact at'.runs_ok (insPeel_carried (r := r) (rq := rq) (eng := eng) old)
    have current : ¬peelCarried s r rq := fresh
    refine ⟨fun legal live room valid free => ?_, fun s1 legal replayed => ?_, fun code fault => ?_,
      fun legal live full => ?_⟩
    · have answer := insPeel_accepted (eng := eng) current desc legal live room valid free
      exact at'.runs_ok answer
    · have answer := insPeel_replayed (eng := eng) current desc legal replayed
      exact at'.runs_ok answer
    · have answer := insPeel_illegal (eng := eng) current desc fault
      exact at'.runs_fault answer
    · have answer := insPeel_full (eng := eng) current desc legal live full
      exact at'.runs_wait answer
  case start =>
    intro t
    have next : nextDesc (s.engine die.toNat eng.toNat).queue = some x := by rw [queue, nextDesc_first issued waits]
    exact ⟨fun kind => congrArg Host.Outcome.next (peelStart_into next kind),
      fun kind => congrArg Host.Outcome.next (peelStart_out next kind),
      fun kind => congrArg Host.Outcome.next (peelStart_copy next kind),
      fun into out copy => congrArg Host.Outcome.next (peelStart_other next into out copy)⟩
  case arrive =>
    intro q l held found
    rw [exec_peelLineArrive core]
    refine ⟨fun e g d cells kind desc started came => ?_, fun kind => ?_⟩
    · exact congrArg Host.Outcome.next
        (peelLineArrive_peel (r := ⟨pt.toNat, c.toNat, k⟩) held found kind desc started came)
    · have loaded := peelLineArrive_dss (r := ⟨pt.toNat, c.toNat, k⟩) held found kind
      exact ⟨fun more => by rw [loaded, if_neg (Nat.not_le.2 more)], fun last => by rw [loaded, if_pos last]⟩
  case read =>
    intro q l after buf t last held found next
    have taken : t = s.setCore k (q.sourceTaken x id line.toNat) := by
      simp [t, after, buf, l, Core.sourceTaken, Core.bufWith]
    rw [exec_engineSourceLineRead core]
    clear_value t
    subst taken
    refine ⟨fun kind => ?_, fun kind => ?_, fun kind => ?_, fun e g d kind desc started => ?_⟩
    · exact ite_next (engineSourceRead_dss (r := ⟨pt.toNat, c.toNat, k⟩) held found next kind)
    · exact ite_next (engineSourceRead_send (r := ⟨pt.toNat, c.toNat, k⟩) held found next kind)
    · exact ite_next (engineSourceRead_red (r := ⟨pt.toNat, c.toNat, k⟩) held found next kind)
    · exact ⟨fun more => congrArg Host.Outcome.next
          (engineSourceRead_more (r := ⟨pt.toNat, c.toNat, k⟩) held found next kind desc started more),
        fun h y last now => congrArg Host.Outcome.next
          (engineSourceRead_last (r := ⟨pt.toNat, c.toNat, k⟩) held found next kind desc started last now)⟩

end Sys2Proof.Machine
end

section
namespace Sys2Proof.Machine
open Sys2Proof.Laws

/-! ## A core that does not issue (O10) -/

/-- An instruction's row takes place only at a core that its partition has and that issues (logs 8 and 14). -/
theorem runIns_only_issuing (s : State) (pt : Pt) (c : LCore) (f : CoreRef → InsRes) :
    (∀ k, IsCore s pt c k → s.issuing ⟨pt.toNat, c.toNat, k⟩ = false → runIns s pt c f = .next s) ∧
    (s.phys pt.toNat c.toNat = none → runIns s pt c f = .fault .noSuchUnit) :=
  ⟨fun _ core rests => runIns_idle f core rests, onCore_none _⟩

/-- So does the row of an XBAR, whose core reaches its engine also where it waits (R276). -/
theorem execXbar_only_issuing (s : State) (pt : Pt) (c : LCore) (rg : BitVec 5) :
    (∀ k, IsCore s pt c k → s.issuing ⟨pt.toNat, c.toNat, k⟩ = false → execXbar pt c rg s = .next s) ∧
    (s.phys pt.toNat c.toNat = none → execXbar pt c rg s = .fault .noSuchUnit) := by
  refine ⟨fun k core rests => (onCore_some _ core).trans ?_, onCore_none _⟩
  rw [rests]
  rfl

/-- Settles O10: the row of each instruction named is its answer under `runIns`, XBAR's apart. That at a core which does not issue the
event does not take place is the model's choice (log 14). -/
theorem idleCoreTakesNoInstruction : Obligations.IdleCoreTakesNoInstruction := by
  intro s pt c rd ra vd va vb src r5 r6 r7 budget mod ty part mask banks fmt m1 a bank f eng n12 p x
  dsimp only
  have row := runIns_only_issuing s pt c
  exact ⟨row fun _ => .ok s, row _, row _, row _, row _, row _, row _, row _, row _, row _, row _, row _, row _, row _, row _, row _, row _,
    execXbar_only_issuing s pt c r5, row _⟩

end Sys2Proof.Machine
end

section
namespace Sys2Proof.Machine
open Sys2Proof.Laws

/-! ## Freezes (O28) -/

/-! ### Notices (R286) -/

theorem producerNotice_eq (cause : Nat) (s : State) (r : CoreRef) :
    producerNotice cause s r = s.setPart r.pt (if (r.k, cause) ∈ (s.part r.pt).notices then s.part r.pt
      else { s.part r.pt with notices := (s.part r.pt).notices ++ [(r.k, cause)] }) := by
  simp [producerNotice]

/-! ### The beginning of a freeze (R285, R287) -/

/-- What a core needs and has no notice for. -/
def State.unnoticed (s : State) (r : CoreRef) : List Need :=
  ((assess s r).1 ++ popNeeds s r ++ settleNeeds s r ++ dqNeeds (s.core r.k) (s.cyc r) true).dedup.filter
    fun w => !(s.part r.pt).notices.contains (r.k, w.cause)

section
variable {s : State} {r : CoreRef}

theorem freezeBegin_idle (idle : (s.part r.pt).inReset = true ∨ (s.part r.pt).run.isSome = false ∨ (s.part r.pt).halted = true ∨
    (s.part r.pt).perstHold = true) : freezeBegin s r = s := by
  refine if_pos ?_
  rcases idle with reset | noKernel | halted | held
  · simp [reset]
  · simp [Option.isSome_eq_false_iff.1 noKernel]
  · simp [halted]
  · simp [held]

/-- At a partition that runs a kernel the core waits for what it needs and has no notice for. -/
theorem freezeBegin_runs (out : (s.part r.pt).inReset = false) (runs : (s.part r.pt).run.isSome = true)
    (unhalted : (s.part r.pt).halted = false) (unheld : (s.part r.pt).perstHold = false) :
    freezeBegin s r = if s.unnoticed r = [] then s else s.waitFor r (s.unnoticed r) := by
  have kernel : (s.part r.pt).run.isNone = false := Option.isNone_eq_false_iff.2 runs
  simp only [freezeBegin, out, kernel, unhalted, unheld, State.unnoticed, List.isEmpty_iff]
  rfl

/-- Where only XBARs of group 0 are awaited, no engine is reached. -/
theorem reachXbars_local {ws : List Need} (own : ∀ g j, .xbar g j ∈ ws → g = 0) (z : State) :
    ws.foldl (fun z w => z.reachXbar r w) z = z :=
  List.foldlRecOn (motive := fun t => t = z) ws _ rfl fun t same w hw => by
    rw [same]
    refine reachXbar_other fun g j group _ is => ?_
    subst is
    exact absurd (own g j hw) (by omega)

end

section
variable {s : State} {n : Nat} {ws : List FreezeNeed}

theorem freeze_part (sorted : smapSorted s.parts = true) : (s.freeze n ws).part n =
    { s.part n with
        needs := (s.part n).needs ++ ws.filter fun w => !(s.part n).needs.any fun v => v.core == w.core && v.need == w.need
        rested := true
        lastCause := if (s.part n).frozen then (s.part n).lastCause else none
        frzStart := if (s.part n).frozen then (s.part n).frzStart else s.now
        frzCycles := if (s.part n).frozen then (s.part n).frzCycles else 0 } :=
  setPart_part_self s sorted n _

/-- A freeze on some need freezes the partition. -/
theorem freeze_frozen (sorted : smapSorted s.parts = true) (some : ws ≠ []) : ((s.freeze n ws).part n).frozen = true := by
  rw [freeze_part sorted]
  by_cases none : (s.part n).needs = []
  · simp [Part.frozen, none, some]
  · simp [Part.frozen, none]

/-- A freeze that begins counts from zero at the GTB (R287, R302). -/
theorem freeze_begins (sorted : smapSorted s.parts = true) (thawed : (s.part n).frozen = false) :
    ((s.freeze n ws).part n).frzCycles = 0 ∧ ((s.freeze n ws).part n).frzStart = s.now := by
  simp [freeze_part sorted, thawed]

end

/-! ### A frozen cycle (R288, R301) -/

section
variable {s : State} {n : Nat} (sorted : smapSorted s.parts = true)
include sorted

/-- Looking at the causes moves the partition's causes and their last one alone. -/
theorem noteEnded_part : ∃ c ws, (s.noteEnded n).part n = { s.part n with lastCause := c, needs := ws } := by
  simp only [State.noteEnded]
  split
  · exact ⟨_, _, rfl⟩
  · exact ⟨_, _, setPart_part_self s sorted n _⟩

theorem noteEnded_setPart (v : Part) : (s.noteEnded n).setPart n v = s.setPart n v := by
  rcases noteEnded_only s n with same | ⟨p, moved⟩
  · rw [same]
  · rw [moved, setPart_setPart s sorted]

/-- A frozen cycle moves the partition's causes, marks and frozen counts alone. -/
theorem frozenCycle_eq : ∃ c ws, s.frozenCycle n = s.setPart n
    { ({ s.part n with lastCause := c, needs := ws } : Part).clearMarks with
        cycFrz := satAdd64 (s.part n).cycFrz 1, frzCycles := (s.part n).frzCycles + 1
        telFrz := (s.part n).telFrz + b2n s.inTelBin } := by
  obtain ⟨c, ws, looked⟩ := noteEnded_part (n := n) sorted
  refine ⟨c, ws, ?_⟩
  rw [State.frozenCycle, updPart_eq, noteEnded_setPart sorted, looked]

end

theorem partCycle_frozen {s : State} {n : Nat} (out : (s.part n).inReset = false) (runs : (s.part n).run.isSome = true)
    (unhalted : (s.part n).halted = false) (unheld : (s.part n).perstHold = false) (frozen : (s.part n).frozen = true) :
    s.partCycle n = s.frozenCycle n := by
  have kernel : (s.part n).run.isNone = false := Option.isNone_eq_false_iff.2 runs
  simp [State.partCycle, out, kernel, unhalted, unheld, frozen]

/-! ### The end of a freeze (R287, R302) -/

/-- Where every cause has ended, the frozen cycles go to the last one that did. -/
theorem chargeFreeze_ended {p : Part} (frozen : p.frozen = true) (ended : ∀ w ∈ p.needs, w.ended = true) :
    p.chargeFreeze =
      { p with frzCause := smapUpd 0 p.frzCause (p.lastCause.getD 0) (satAdd64 · p.frzCycles)
               frzCycles := 0, lastCause := none, needs := [], notices := [] } := by
  have none : p.needs.filter (fun w => !w.ended) = [] := by simpa using ended
  simp [Part.chargeFreeze, none, frozen]

section
variable {s : State} {n : Nat}

theorem freezeEnd_ends (frozen : ((s.noteEnded n).part n).frozen = true) (aged : 1 ≤ ((s.noteEnded n).part n).frzCycles)
    (ended : ∀ w ∈ ((s.noteEnded n).part n).needs, w.ended = true) :
    freezeEnd n s = ((s.noteEnded n).setPart n ((s.noteEnded n).part n).chargeFreeze).beginCycle n :=
  if_pos (by simpa [frozen, aged] using ended)

theorem freezeEnd_stays (stays : ((s.noteEnded n).part n).frozen = false ∨ ((s.noteEnded n).part n).frzCycles = 0 ∨
    ∃ w ∈ ((s.noteEnded n).part n).needs, w.ended = false) : freezeEnd n s = s.noteEnded n := by
  refine if_neg ?_
  rcases stays with thawed | young | ⟨w, hw, active⟩
  · simp [thawed]
  · simp [young]
  · have waits : ((s.noteEnded n).part n).needs.all (fun w => w.ended) = false := List.all_eq_false.2 ⟨w, hw, by simp [active]⟩
    simp [waits]

end

/-! ### The commands -/

section
variable {s : State} {pt : Pt} {c : LCore} {k : Nat} (core : IsCore s pt c k)
include core

theorem exec_producerNotice (cause : BitVec 4) :
    exec (.producerNotice pt c cause) s = .next (producerNotice cause.toNat s ⟨pt.toNat, c.toNat, k⟩) :=
  onCore_some (fun r => producerNotice cause.toNat s r) core

theorem exec_freezeBegin : exec (.freezeBegin pt c) s = .next (freezeBegin s ⟨pt.toNat, c.toNat, k⟩) :=
  onCore_some (fun r => freezeBegin s r) core

end

/-- Settles O28: the notice, the beginning, a frozen cycle and the end of a freeze, each by its law. -/
theorem freezesBeginHoldAndEnd : Obligations.FreezesBeginHoldAndEnd := by
  refine ⟨fun s pt c k core => ⟨fun cause => ?notice, ?begins⟩, fun s pt => ⟨fun frozen aged ended => ?ends, fun stays => ?stays⟩,
    fun s n ok => ?cycle⟩
  case notice => rw [exec_producerNotice core, producerNotice_eq]
  case begins =>
    intro r ws
    rw [exec_freezeBegin core]
    refine ⟨fun idle => congrArg Host.Outcome.next (freezeBegin_idle idle), fun out runs unhalted unheld => ?_⟩
    have waits : freezeBegin s r = if ws = [] then s else s.waitFor r ws := freezeBegin_runs out runs unhalted unheld
    rw [waits]
    refine ⟨fun none => by rw [if_pos none], fun some => by rw [if_neg some]; rfl, fun some ok => ?_, fun some own => ?_⟩
    · obtain ⟨-, -, parts, -⟩ := ok
      exact ⟨freeze_frozen parts (List.map_eq_nil_iff.not.2 some), freeze_begins parts⟩
    · rw [if_neg some]
      exact congrArg Host.Outcome.next (reachXbars_local own _)
  case ends => exact congrArg Host.Outcome.next ((freezeEnd_ends frozen aged ended).trans (by rw [chargeFreeze_ended frozen ended]))
  case stays => exact congrArg Host.Outcome.next (freezeEnd_stays stays)
  case cycle =>
    intro p out runs unhalted unheld frozen
    obtain ⟨-, -, parts, -⟩ := ok
    obtain ⟨cause, needs, cycle⟩ := frozenCycle_eq (n := n) parts
    exact ⟨_, (partCycle_frozen out runs unhalted unheld frozen).trans cycle, rfl, rfl, rfl, rfl, rfl, rfl, rfl, rfl, rfl, rfl⟩

end Sys2Proof.Machine
end

section
namespace Sys2Proof.Machine
open Sys2Proof.Laws

-- The laws are many and small: their proofs are checked in turn, not each in a thread of its own.
set_option Elab.async false

/-! ## What every step keeps

Almost all that a step changes is of no concern to memory, to the fuses or to OTP. So the chapter does not speak of one property: `Inv`
holds what a property has to bear (a change of anything else, a write of memory, an addition to OTP, SVN_COMMIT), `Kept` is that a state
has it, and each operation of the model has one law, that it keeps what the operations it is made of keep. `OutKept.exec` and `Kept.tick`
are then about every command and the idle cycle. A property of every step is settled by an `Inv`: `memInv` is the canonical form of
memory (O58). -/

/-- One write of memory by an operation of Machine/Memory.lean, Machine/Dram.lean or Machine/Reset.lean, or a change of its
registers and groups alone. -/
inductive MemWrite (m : Mem) : Mem → Prop
  | write (addr bs poisoned) : MemWrite m (m.write addr bs poisoned)
  | openArea (base len seed) : MemWrite m (m.openArea base len seed)
  | zeroArea (base len) : MemWrite m (m.zeroArea base len)
  | noteRead (line seed v) : MemWrite m (m.noteRead line seed v)
  | rewriteLine (line) : MemWrite m (m.rewriteLine line)
  | poisonLine (line) : MemWrite m (m.poisonLine line)
  | settleErrs : MemWrite m m.settleErrs
  | reformed {poison : List Nat} (limit) (rises : m.wf = true → poison.Pairwise (· < ·)) : MemWrite m (m.reformed poison limit)
  | afterReset : MemWrite m m.afterReset
  | initialise : MemWrite m m.initialise
  | registers {m' : Mem} (cells : m'.cells = m.cells) (areas : m'.areas = m.areas) (poison : m'.poison = m.poison)
      (errs : m'.errs = m.errs) : MemWrite m m'

/-- Each write of memory keeps its canonical form. -/
theorem MemWrite.wf {m m' : Mem} (w : MemWrite m m') (h : m.wf = true) : m'.wf = true := by
  cases w with
  | write => exact write_wf h _ _ _
  | openArea => exact openArea_wf h _ _ _
  | zeroArea => exact zeroArea_wf h _ _
  | noteRead => exact noteRead_wf h _ _ _
  | rewriteLine => exact rewriteLine_wf h _
  | poisonLine => exact poisonLine_wf h _
  | settleErrs => exact settleErrs_wf h
  | reformed limit rises => exact reformed_wf h (rises h) limit
  | afterReset => exact afterReset_wf h
  | initialise => exact initialise_wf m
  | registers cells areas poison errs =>
    rw [mem_wf_iff] at h ⊢
    simpa only [Mem.areaAt, cells, areas, poison, errs] using h

/-- What OTP records is not undone: no position, no group and no retirement (R480). -/
def OtpGrows (a b : Otp) : Prop :=
  (∀ k, a.positions.getLsbD k = true → b.positions.getLsbD k = true) ∧
    (∀ k, a.groups.getLsbD k = true → b.groups.getLsbD k = true) ∧ (a.retire = true → b.retire = true)

theorem OtpGrows.position {o : Otp} {b : BitVec 400} : OtpGrows o { o with positions := o.positions ||| b } :=
  ⟨fun k h => by simp [h], fun _ h => h, id⟩

theorem OtpGrows.group {o : Otp} {b : BitVec 40} : OtpGrows o { o with groups := o.groups ||| b } :=
  ⟨fun _ h => h, fun k h => by simp [h], id⟩

theorem OtpGrows.retire {o : Otp} : OtpGrows o { o with retire := true } := ⟨fun _ h => h, fun _ h => h, fun _ => rfl⟩

/-- A property of states that four kinds of change keep: any that leaves memory, the queue, the fuses and OTP alone; a write of memory;
an addition to OTP; and SVN_COMMIT. -/
structure Inv where
  holds : State → Prop
  same : ∀ {s t : State},
    t.mem = s.mem → t.pending = s.pending → t.fuse = s.fuse → t.ledger.otp = s.ledger.otp → holds s → holds t
  mem : ∀ {s : State} {m : Mem}, MemWrite s.mem m → holds s → holds { s with mem := m }
  otp : ∀ {s : State} {f : Otp → Otp}, OtpGrows s.ledger.otp (f s.ledger.otp) → holds s → holds (s.otp f)
  svn : ∀ {s : State}, holds s → holds (svnCommit s)

/-- A state has the property. -/
def Kept (I : Inv) (s : State) : Prop := I.holds s

/-- What a command answers, where it answers a state. -/
def OutKept (I : Inv) : Out → Prop
  | .next t => Kept I t
  | _ => True

/-- What an instruction answers, where it gives a state of its own. -/
def InsKept (I : Inv) : InsRes → Prop
  | .ok t => Kept I t
  | .okWith t _ => Kept I t
  | _ => True

/-- Every instruction that a slot decodes to keeps the property. -/
def DecodedKept (I : Inv) (d : Option Ins) : Prop := ∀ f, d = some f → ∀ {s r}, Kept I s → InsKept I (f s r)

section
variable {I : Inv}

/-- A state that differs from `s` in nothing that the property may speak of. -/
theorem Kept.same {free out reply time log ledger crust tele crumbLog cores dies parts ctxs loafs models bs fab host alertN power sec
    ladder dbg links bays captures scratch i3cAddr burst sets} {s : State} (h : Kept I s)
    (otp : Ledger.otp ledger = s.ledger.otp := by with_reducible rfl) :
    Kept I { s with free, out, reply, time, log, ledger, crust, tele, crumbLog, cores, dies, parts, ctxs, loafs, models, bs, fab, host,
                    alertN, power, sec, ladder, dbg, links, bays, captures, scratch, i3cAddr, burst, sets } := by
  exact I.same (s := s) rfl rfl rfl otp h

theorem Kept.mem {s : State} {m} (h : Kept I s) (w : MemWrite s.mem m) : Kept I { s with mem := m } := I.mem w h

/-- A change of the registers of memory and of its groups. -/
theorem Kept.memRegs {s : State} {groups qosPt qosHub stateChanged hotRefresh alertEn scrubEn poisonCnt reformMask reforming reformDone
    reformError} (h : Kept I s) : Kept I { s with mem := { s.mem with groups, qosPt, qosHub, stateChanged, hotRefresh, alertEn, scrubEn,
                                                                      poisonCnt, reformMask, reforming, reformDone, reformError } } :=
  h.mem (.registers rfl rfl rfl rfl)

theorem Kept.foldl {α : Type} {f : State → α → State} {l : List α} {s : State} (h : Kept I s)
    (hf : ∀ {s a}, Kept I s → Kept I (f s a)) : Kept I (l.foldl f s) := by
  induction l generalizing s with
  | nil => exact h
  | cons a l ih => exact ih (hf h)

theorem Kept.ite {c : Prop} [Decidable c] {s t : State} (hs : Kept I s) (ht : Kept I t) :
    Kept I (if c then s else t) := by
  split
  · exact hs
  · exact ht

theorem DecodedKept.none : DecodedKept I none := fun _ hf => nomatch hf

theorem DecodedKept.some {f : Ins} (hf : ∀ {s r}, Kept I s → InsKept I (f s r)) : DecodedKept I (some f) := by
  intro g hg
  cases hg
  exact hf

theorem OutKept.ite {c : Prop} [Decidable c] {a b : Out} (ha : OutKept I a) (hb : OutKept I b) : OutKept I (if c then a else b) := by
  split
  · exact ha
  · exact hb

theorem InsKept.ite {c : Prop} [Decidable c] {a b : InsRes} (ha : InsKept I a) (hb : InsKept I b) : InsKept I (if c then a else b) := by
  split
  · exact ha
  · exact hb

theorem OutKept.onCore {s : State} {pt c} {f : CoreRef → State} (h : ∀ r, Kept I (f r)) :
    OutKept I (onCore s pt c f) := by
  unfold Machine.onCore
  split
  · exact h _
  · trivial

theorem Kept.hostReg {s : State} {off} {f : State → State} (h : Kept I s) (hf : Kept I (f s)) :
    Kept I (s.hostReg off f) := hf.ite h

theorem Kept.fabReg {s : State} {off} {f : State → State} (h : Kept I s) (hf : Kept I (f s)) : Kept I (s.fabReg off f) :=
  hf.ite h

section
variable {s : State}

theorem Kept.setCore {k v} (h : Kept I s) : Kept I (s.setCore k v) := h.same
theorem Kept.setDie {d v} (h : Kept I s) : Kept I (s.setDie d v) := h.same
theorem Kept.setPart {n v} (h : Kept I s) : Kept I (s.setPart n v) := h.same
theorem Kept.setCtx {n v} (h : Kept I s) : Kept I (s.setCtx n v) := h.same
theorem Kept.setLoaf {n v} (h : Kept I s) : Kept I (s.setLoaf n v) := h.same
theorem Kept.setModel {n v} (h : Kept I s) : Kept I (s.setModel n v) := h.same
theorem Kept.setBay {n v} (h : Kept I s) : Kept I (s.setBay n v) := h.same
theorem Kept.setFn {f v} (h : Kept I s) : Kept I (s.setFn f v) := h.same
theorem Kept.setPort {n p} (h : Kept I s) : Kept I (s.setPort n p) := h.same
theorem Kept.updLink {n f} (h : Kept I s) : Kept I (s.updLink n f) := h.same

end
section
variable {s : State}

/-! ### Machine/Ops.lean -/

theorem Kept.draw {w} (h : Kept I s) : Kept I (s.draw w).2 := h.same
theorem Kept.gtbView (h : Kept I s) : Kept I s.gtbView.2 := h.draw (w := 5)
theorem Kept.updCore {k f} (h : Kept I s) : Kept I (s.updCore k f) := h.setCore
theorem Kept.updPart {n f} (h : Kept I s) : Kept I (s.updPart n f) := h.setPart
theorem Kept.setEngine {d e v} (h : Kept I s) : Kept I (s.setEngine d e v) := h.setDie
theorem Kept.setDssLine {d i v} (h : Kept I s) : Kept I (s.setDssLine d i v) := h.setDie
theorem Kept.hwSet {off bits} (h : Kept I s) : Kept I (s.hwSet off bits) := h.same
theorem Kept.hwSetIf {c off bits} (h : Kept I s) : Kept I (s.hwSetIf c off bits) := h.hwSet.ite h
theorem Kept.emit {o} (h : Kept I s) : Kept I (s.emit o) := h.same
theorem Kept.updCoresOf {n f} (h : Kept I s) : Kept I (s.updCoresOf n f) := h.foldl fun h => h.updCore
theorem Kept.event {src code detail} (h : Kept I s) : Kept I (s.event src code detail) := h.same
theorem Kept.eventAgg {src code} (h : Kept I s) : Kept I (s.eventAgg src code) := h.same
theorem Kept.life {d f} (h : Kept I s) : Kept I (s.life d f) := h.same
theorem Kept.logPoison {line} (h : Kept I s) : Kept I (s.logPoison line) := h.life.event
theorem Kept.memWrite {addr bs poisoned} (h : Kept I s) : Kept I (s.memWrite addr bs poisoned) :=
  (h.mem (.write ..)).foldl fun h => h.logPoison
theorem Kept.memPut {addr bs} (h : Kept I s) : Kept I (s.memPut addr bs) := h.memWrite
theorem Kept.sendMsix {fn v} (h : Kept I s) : Kept I (s.sendMsix fn v) :=
  h.ite (h.emit.ite (h.setFn.same.emit.ite h.setFn))
theorem Kept.alert (h : Kept I s) : Kept I s.alert := (h.ite h.same.emit.emit).sendMsix
theorem Kept.updPower {f} (h : Kept I s) : Kept I (s.updPower f) := h.same
theorem Kept.wake (h : Kept I s) : Kept I s.wake := h.ite (h.updPower.same)
theorem Kept.settleAlert (h : Kept I s) : Kept I s.settleAlert := (h.ite h.alert).ite (h.same.emit.ite h)
theorem Kept.notifyFault {n was} (h : Kept I s) : Kept I (s.notifyFault n was) := h.ite h.sendMsix.sendMsix
theorem Kept.freeze {n ws} (h : Kept I s) : Kept I (s.freeze n ws) := h.setPart

theorem Kept.noteEnded {n} (h : Kept I s) : Kept I (s.noteEnded n) := by
  dsimp only [State.noteEnded]
  split
  · exact h
  · exact h.setPart

theorem Kept.updEntry {idx f} (h : Kept I s) : Kept I (s.updEntry idx f) := h.same
theorem Kept.complete {a status code flags} (h : Kept I s) : Kept I (s.complete a status code flags) := h.same
theorem Kept.endRun {n} (h : Kept I s) : Kept I (s.endRun n) := h.updCoresOf.setPart
theorem Kept.loseCopy {cn primary} (h : Kept I s) : Kept I (s.loseCopy cn primary) := h.same.setCtx
theorem Kept.filterDescs {d keep} (h : Kept I s) : Kept I (s.filterDescs d keep) := h.foldl fun h => h.setEngine

theorem Kept.killContext {n code lost} (h : Kept I s) : Kept I (s.killContext n code lost) := by
  dsimp only [State.killContext]
  split
  · exact h.filterDescs.updCoresOf.endRun
  · split
    · exact h.filterDescs.updCoresOf.endRun.loseCopy
    · split
      · exact h.filterDescs.updCoresOf.endRun.setCtx
      · exact h.filterDescs.updCoresOf.endRun.updEntry.setCtx.ite h.filterDescs.updCoresOf.endRun.setCtx.complete

theorem Kept.abandonTile {n src} (h : Kept I s) : Kept I (s.abandonTile n src) :=
  h.ite (h.filterDescs.foldl fun h => h.updCore).updCoresOf.setPart.life.event
theorem Kept.recordFault {n core f src} (h : Kept I s) : Kept I (s.recordFault n core f src) := h.setPart.hwSet
theorem Kept.raiseFrom {n core src f} (h : Kept I s) : Kept I (s.raiseFrom n core src f) :=
  h.ite (h.abandonTile.ite (h.recordFault.killContext.ite h.recordFault).notifyFault.event)
theorem Kept.raise {n core k f} (h : Kept I s) : Kept I (s.raise n core k f) := h.raiseFrom
theorem Kept.raisePart {n code src core pc} (h : Kept I s) : Kept I (s.raisePart n code src core pc) :=
  (h.recordFault.killContext.ite h.recordFault).notifyFault.event
theorem Kept.dropRequests {ks} (h : Kept I s) : Kept I (s.dropRequests ks) := h.same
theorem Kept.withdraw {n} (h : Kept I s) : Kept I (s.withdraw n) := h.filterDescs.updCoresOf.dropRequests
theorem Kept.abortPart {n src} (h : Kept I s) : Kept I (s.abortPart n src) := h.ite h.raisePart.withdraw
theorem Kept.refuseAbort {n reason} (h : Kept I s) : Kept I (s.refuseAbort n reason) := h.abortPart.event
theorem Kept.holdCycle {n} (h : Kept I s) : Kept I (s.holdCycle n) := h.updPart
theorem Kept.raiseAll {r fs} (h : Kept I s) : Kept I (s.raiseAll r fs) := h.foldl fun h => h.raise

theorem Kept.settleIns {r} {a : InsRes} (h : Kept I s) (ha : InsKept I a) : Kept I (settleIns s r a) := by
  cases a with
  | ok t => exact ha
  | okWith t fs => exact Kept.raiseAll ha
  | hold => exact h.holdCycle
  | wait ws => exact h.freeze
  | fault fs => exact h.raiseAll

theorem OutKept.runIns {pt c} {f : CoreRef → InsRes} (h : Kept I s) (hf : ∀ r, InsKept I (f r)) : OutKept I (runIns s pt c f) :=
  .onCore fun r => (h.settleIns (hf r)).ite h

theorem InsKept.insFault {r code slot detail unit} : InsKept I (insFault s r code slot detail unit) := trivial
theorem InsKept.checkReadWith {r slot fs ls go} (hgo : InsKept I go) : InsKept I (checkReadWith s r slot fs ls go) :=
  .ite trivial (.ite hgo trivial)
theorem InsKept.checkRead {r slot ls go} (hgo : InsKept I go) : InsKept I (checkRead s r slot ls go) := .checkReadWith hgo
theorem InsKept.checkWrite {r ls go} (hgo : InsKept I go) : InsKept I (checkWrite s r ls go) := .ite hgo trivial
theorem Kept.resumeDebug {n} (h : Kept I s) : Kept I (s.resumeDebug n) := h.updPart.updCoresOf.ite h.updPart
theorem Kept.endDebug (h : Kept I s) : Kept I s.endDebug := h.same.foldl fun h => h.resumeDebug
theorem Kept.countLoss {k id loss} (h : Kept I s) : Kept I (s.countLoss k id loss) := h.updCore.same.ite h
theorem Kept.delay {r lat rank a} (h : Kept I s) : Kept I (s.delay r lat rank a) := h.updCore
theorem Kept.countReads {r n} (h : Kept I s) : Kept I (s.countReads r n) := h.updCore

/-! ### Machine/Ledger.lean -/

theorem Kept.ledgerAppend {d type src payload} (h : Kept I s) : Kept I (s.ledgerAppend d type src payload) :=
  h.same.ite (h.same.event.same.ite h.same.event)
theorem Kept.residue {k a bank} (h : Kept I s) : Kept I (s.residue k a bank) := h.life.ledgerAppend
theorem Kept.ledgerFlag {d src flag} (h : Kept I s) : Kept I (s.ledgerFlag d src flag) := h.ledgerAppend
theorem Kept.spare {d pool src count sub} (h : Kept I s) : Kept I (s.spare d pool src count sub) := h.ledgerAppend.event
theorem Kept.otp {f} (h : Kept I s) (grows : ∀ o, OtpGrows o (f o) := by exact fun _ => ⟨fun _ b => b, fun _ b => b, id⟩) :
    Kept I (s.otp f) := I.otp (grows _) h
theorem Kept.writeCounters {d} (h : Kept I s) : Kept I (s.writeCounters d) :=
  h.ledgerAppend.foldl fun h => h.ledgerAppend
theorem Kept.hourOf {d} (h : Kept I s) : Kept I (s.hourOf d) := h.life.writeCounters.ledgerAppend.life

theorem Kept.ledgerHourly (h : Kept I s) : Kept I (ledgerHourly s) := by
  have hours : Kept I ((List.range 20).foldl State.hourOf s) := h.foldl fun h => h.hourOf
  exact h.ite hours.same

theorem Kept.measure {m} (h : Kept I s) : Kept I (s.measure m) :=
  h.ite ((h.ledgerAppend.same.hwSet.event.alert.ite h.ledgerAppend.same.hwSet.event).ite h.ledgerAppend)
theorem Kept.ledgerRecordWrite {d type src payload} (h : Kept I s) : Kept I (ledgerRecordWrite d type src payload s) :=
  h.ledgerAppend.ite h

/-! ### Machine/Arrays.lean -/

theorem InsKept.insWld {a fmt tgt mode rw rx r} (h : Kept I s) : InsKept I (insWld a fmt tgt mode rw rx s r) :=
  .ite .insFault (.checkReadWith h.updCore)

theorem InsKept.insWswap {mask r} (h : Kept I s) : InsKept I (insWswap mask s r) := by
  dsimp only [Machine.insWswap]
  split
  · exact .insFault
  · exact h.updCore

theorem InsKept.insMma {mod mask banks m1 r} (h : Kept I s) : InsKept I (insMma mod mask banks m1 s r) := by
  dsimp only [Machine.insMma]
  split
  · exact .insFault
  · split
    · exact trivial
    · split
      · exact trivial
      · split
        · exact h.setCore
        · exact h.setCore

theorem Kept.otherPops {s0 r} (h : Kept I s) : Kept I (otherPops s0 r s) := by
  refine h.foldl fun h => h.ite ?_
  split
  · exact h.raise
  · exact h

theorem Kept.aqRowPop {r} (h : Kept I s) : Kept I (aqRowPop s r) := by
  dsimp only [Machine.aqRowPop]
  split
  · exact h
  · split
    · exact h
    · split
      · exact h.raise.otherPops.ite h.freeze
      · split
        · exact h.updCore.raise
        · exact h.setCore

theorem Kept.arrayRowLand {a mismatch r} (h : Kept I s) : Kept I (arrayRowLand a mismatch s r) := by
  dsimp only [Machine.arrayRowLand]
  split
  · exact h
  · exact h.ite ((h.setCore.countLoss.event.residue.ite h.setCore.countLoss).raise.ite
      (h.setCore.countLoss.event.residue.ite h.setCore.countLoss))

theorem InsKept.insZoa {mask r} (h : Kept I s) : InsKept I (insZoa mask s r) := by
  dsimp only [Machine.insZoa]
  split
  · exact .insFault
  · exact h.updCore

theorem InsKept.insIdle {mask n r} (h : Kept I s) : InsKept I (insIdle mask n s r) := h.updCore
theorem Kept.tastingRowInject {x round seed err} (h : Kept I s) : Kept I (tastingRowInject x round seed err s) :=
  h.setDie.ite h

/-! ### Machine/Requests.lean -/

theorem Kept.dssPut {die o bs poison} (h : Kept I s) : Kept I (s.dssPut die o bs poison) :=
  h.ite (h.foldl fun h => h.ite h.setDssLine)
theorem Kept.toRouter {p} (h : Kept I s) : Kept I (s.toRouter p) := h.same
theorem Kept.sendReq {dst kind flow tag addr len bytes poison who} (h : Kept I s) :
    Kept I (s.sendReq dst kind flow tag addr len bytes poison who) :=
  h.same.toRouter
theorem Kept.sendAnswer {dst kind flow seq tag addr reason bytes poison} (h : Kept I s) :
    Kept I (s.sendAnswer dst kind flow seq tag addr reason bytes poison) :=
  h.ite h.toRouter
theorem Kept.sendHostRead {fn addr len who} (h : Kept I s) : Kept I (s.sendHostRead fn addr len who) := h.same.emit

theorem Kept.putPlace {n flow p bs poison who} (h : Kept I s) : Kept I (s.putPlace n flow p bs poison who).1 := by
  dsimp only [State.putPlace]
  split
  · exact h.memWrite
  · exact h.dssPut
  · exact h.foldl fun h => h.sendReq
  · split
    · exact h.foldl fun h => h.emit
    · exact h.refuseAbort
  · exact h.refuseAbort

theorem Kept.markPoisoned {n} (h : Kept I s) : Kept I (s.markPoisoned n) := by
  dsimp only [State.markPoisoned]
  split
  · exact h.updEntry
  · exact h

/-! ### Machine/Collective.lean -/

theorem Kept.updRun {group idx f} (h : Kept I s) : Kept I (s.updRun group idx f) := h.same
theorem Kept.endRunOf {group idx} (h : Kept I s) : Kept I (s.endRunOf group idx) := h.same
theorem Kept.collTell {group idx nodes m} (h : Kept I s) : Kept I (s.collTell group idx nodes m) := h.ite h.same.emit
theorem Kept.failRun {u} (h : Kept I s) : Kept I (s.failRun u) := h.endRunOf.foldl fun h => h.raisePart
theorem Kept.failAll {u} (h : Kept I s) : Kept I (s.failAll u) := h.failRun.collTell

theorem Kept.checkRun {group idx} (h : Kept I s) : Kept I (s.checkRun group idx) := by
  dsimp only [State.checkRun]
  split
  · exact h
  · split
    · exact h.failRun
    · split
      · exact h.ite (h.updRun.ite h.failAll)
      · exact h

theorem Kept.contribute {group idx} (h : Kept I s) : Kept I (s.contribute group idx) := by
  dsimp only [State.contribute]
  split
  · exact h
  · split
    · exact h
    · exact h.ite (h.updRun.foldl fun h => h.updRun.ite h.collTell)

theorem Kept.combineOwn {group idx seg} (h : Kept I s) : Kept I (s.combineOwn group idx seg) := by
  dsimp only [State.combineOwn]
  split
  · exact h
  · split
    · exact h
    · split
      · exact h
      · refine .collTell ?_
        refine .updRun ?_
        split
        · exact h.draw
        · exact h

theorem Kept.advanceRun {group idx} (h : Kept I s) : Kept I (s.advanceRun group idx) :=
  h.checkRun.contribute.foldl fun h => h.combineOwn
theorem Kept.addToRun {group idx f} (h : Kept I s) : Kept I (s.addToRun group idx f) := h.updRun.ite h.same

theorem Kept.joinRun {group idx m} (h : Kept I s) : Kept I (s.joinRun group idx m) := by
  dsimp only [State.joinRun]
  split
  · exact h.failAll
  · exact h.failAll.ite (h.refuseAbort.ite (h.updRun.advanceRun.ite h.addToRun.collTell.advanceRun))

theorem Kept.memberReady {k id ls} (h : Kept I s) : Kept I (s.memberReady k id ls) := by
  dsimp only [State.memberReady]
  split
  · exact h
  · exact h.updRun.advanceRun

/-! ### Machine/Transfers.lean -/

theorem InsKept.carriedOr {r go} (h : Kept I s) (hgo : InsKept I go) : InsKept I (carriedOr s r go) := .ite h.updCore hgo

theorem Kept.of_fst {α : Type} {p : State × α} {a : α} (e : p = (s, a)) (h : Kept I p.1) : Kept I s := by
  subst e
  exact h

theorem Kept.useRec {r p x} (h : Kept I s) (hx : s.useRec r p = some x) : Kept I x.2 := by
  unfold State.useRec at hx
  split at hx
  · cases hx
  · split at hx
    · cases hx
    · obtain ⟨e, -, rfl⟩ := Option.map_eq_some_iff.1 hx
      exact h.setCtx

theorem Kept.useOut {r kind group t} (h : Kept I s) (ht : s.useOut r kind group = some t) : Kept I t := by
  obtain ⟨x, hx, rfl⟩ := Option.map_eq_some_iff.1 ht
  exact h.useRec hx

theorem InsKept.replayOut {r kind go} (h : Kept I s) (hgo : InsKept I go) : InsKept I (replayOut s r kind go) := by
  unfold Machine.replayOut
  split
  · next ht => exact (h.useOut ht).updCore
  · exact hgo

theorem InsKept.checkSource {r slot ls go} (hgo : InsKept I go) : InsKept I (checkSource s r slot ls go) := .checkRead hgo
theorem InsKept.faultD {r code} : InsKept I (faultD s r code) := .insFault
theorem Kept.updEngine {d e f} (h : Kept I s) : Kept I (s.updEngine d e f) := h.setEngine
theorem Kept.beatEngine {d e} (h : Kept I s) : Kept I (s.beatEngine d e) := h.updEngine
theorem Kept.updDesc {d e k xfer f} (h : Kept I s) : Kept I (s.updDesc d e k xfer f) := h.updEngine

theorem Kept.putRow {d e base row cells} (h : Kept I s) : Kept I (s.putRow d e base row cells).1 := by
  dsimp only [State.putRow]
  split
  · exact h.putPlace
  · exact h.putPlace
  · exact h.putPlace
  · exact h.putPlace.putPlace

theorem Kept.putRows {d e base rows} (h : Kept I s) : Kept I (s.putRows d e base rows).1 := by
  induction rows generalizing s with
  | nil => exact h
  | cons x rows ih =>
    unfold State.putRows
    split
    · next hs => exact .of_fst hs h.putRow
    · next hs => exact ih (.of_fst hs h.putRow)

theorem Kept.sendWrites {d e} (h : Kept I s) : Kept I (s.sendWrites d e) := by
  refine h.ite ?_
  split
  · exact h
  · dsimp only
    split
    · next hs => exact .of_fst hs h.updDesc.putRows
    · next hs =>
      have hw := Kept.of_fst hs h.updDesc.putRows
      exact hw.markPoisoned.raise.ite hw

theorem Kept.usePeel {r x} (h : Kept I s) (hx : s.usePeel r = some x) : Kept I x.2 := by
  unfold State.usePeel at hx
  split at hx
  · next hr => cases hx; exact h.useRec hr
  · cases hx

theorem Kept.replayPeel {r e f pc t} (h : Kept I s) (ht : s.replayPeel r e f pc = some t) : Kept I t := by
  unfold State.replayPeel at ht
  dsimp only at ht
  split at ht
  · cases ht
  split at ht
  · obtain ⟨x, hx, rfl⟩ := Option.map_eq_some_iff.1 ht
    refine (h.usePeel hx).updCore.foldl fun h => ?_
    split
    · exact h.updCore
    · exact h
  · obtain ⟨x, hx, rfl⟩ := Option.map_eq_some_iff.1 ht
    exact (h.useOut hx).updCore
  · obtain ⟨x, hx, rfl⟩ := Option.map_eq_some_iff.1 ht
    have h1 := (h.usePeel hx).updCore (k := r.k) (f := Core.countXfer)
    split
    · next hs => exact h1.useOut hs
    · exact h1.putRows
    · exact h1
  · cases ht

theorem InsKept.insPeel {eng rq r} (h : Kept I s) : InsKept I (insPeel eng rq s r) := by
  refine .ite h.updCore (.checkRead ?_)
  split
  · trivial
  · dsimp only
    split
    · next ht => exact h.replayPeel ht
    · exact .ite trivial (.checkSource (.checkWrite h.setCore.updEngine.countReads))

theorem Kept.requestRows {d e} (h : Kept I s) : Kept I (s.requestRows d e) := by
  dsimp only [State.requestRows]
  refine .foldl ?_ ?_
  · exact h
  · intro s _ h
    refine .foldl ?_ ?_
    · exact h
    · intro s _ h
      split
      · exact h.sendReq
      · exact h.sendHostRead
      · exact h

theorem Kept.peelStart {d e} (h : Kept I s) : Kept I (peelStart d e s) := by
  dsimp only [Machine.peelStart]
  split
  · exact h
  · split
    · exact h.updDesc.beatEngine.requestRows
    · exact h.updDesc.beatEngine.sendWrites
    · exact h.updDesc.beatEngine.requestRows.sendWrites
    · exact h.updDesc.beatEngine

theorem Kept.peelLineArrive {line r} (h : Kept I s) : Kept I (peelLineArrive line s r) := by
  dsimp only [Machine.peelLineArrive]
  split
  · split
    · exact h
    · split
      · exact h.setCore
      · split
        · exact h
        · split
          · split
            · exact h.setCore.beatEngine
            · exact h
          · exact h
      · exact h
  · exact h

theorem Kept.sendMessage {k m} (h : Kept I s) : Kept I (s.sendMessage k m) := h.sendReq
theorem Kept.offerMessages {k} (h : Kept I s) : Kept I (s.offerMessages k) := h.foldl fun h => h.sendMessage.ite h
theorem Kept.messageRead {r id lines} (h : Kept I s) : Kept I (s.messageRead r id lines) := h.updCore.offerMessages

theorem Kept.engineSourceRead {line r} (h : Kept I s) : Kept I (engineSourceRead line s r) := by
  unfold Machine.engineSourceRead
  dsimp only
  split
  · split
    · exact h
    · refine h.ite ?_
      split
      · exact h.setCore.setDssLine.updCore.ite h.setCore.setDssLine
      · split
        · exact h.setCore.beatEngine.sendWrites.ite h.setCore.beatEngine
        · exact h.setCore.beatEngine
      · exact h.setCore.messageRead.ite h.setCore
      · exact h.setCore.memberReady.ite h.setCore
      · exact h.setCore
  · exact h

theorem Kept.dropDesc {e d} (h : Kept I s) : Kept I (s.dropDesc e d) := h.updEngine.beatEngine.setCore

theorem Kept.completePeel {e d} (h : Kept I s) : Kept I (s.completePeel e d) := by
  dsimp only [State.completePeel]
  split
  · exact h
  · split
    · exact h.dropDesc.ite h
    · exact h.sendWrites.dropDesc.ite h.sendWrites
    · split
      · exact h.sendWrites.dropDesc.ite h.sendWrites
      · exact h.sendWrites
    · exact h.dropDesc.ite h
    · exact h

theorem Kept.putStream {d e row bs poison} (h : Kept I s) : Kept I (s.putStream d e row bs poison).1 := h.putPlace
theorem Kept.putBlock {d e base rows} (h : Kept I s) : Kept I (s.putBlock d e base rows) := h.foldl fun h => h.putStream

theorem Kept.streamRow {r eng rowBytes width mx bytes poison} (h : Kept I s) :
    Kept I (s.streamRow r eng rowBytes width mx bytes poison).1 :=
  by
  dsimp only [State.streamRow]
  split
  · exact h
  · split
    · exact h
    · split
      · split
        · exact h.updDesc.putStream.markPoisoned
        · exact h.updDesc.putStream.beatEngine
      · split
        · exact (h.updDesc.updDesc.putBlock.ite h.updDesc.updDesc).markPoisoned
        · exact (h.updDesc.updDesc.putBlock.ite h.updDesc.updDesc).beatEngine

theorem InsKept.insBcopy {rs rt n1 r} (h : Kept I s) : InsKept I (insBcopy rs rt n1 s r) := .ite .faultD h.updCore
theorem InsKept.insDssld {rs rt n1 r} (h : Kept I s) : InsKept I (insDssld rs rt n1 s r) :=
  .carriedOr h (.ite .faultD (.checkWrite h.setCore))
theorem InsKept.insDssst {rs rt n1 r} (h : Kept I s) : InsKept I (insDssst rs rt n1 s r) :=
  .carriedOr h (.ite .faultD (.checkSource h.setCore))
theorem InsKept.insAct {rs rows1 fmt rp rx r} (h : Kept I s) : InsKept I (insAct rs rows1 fmt rp rx s r) :=
  .ite .faultD (.ite .faultD (.checkRead h.updCore))

theorem Kept.actRowDeliver {r} (h : Kept I s) : Kept I (actRowDeliver s r) := by
  dsimp only [Machine.actRowDeliver]
  split
  · exact h
  · exact h.ite (h.setCore.raise.ite h.setCore)

/-! ### Machine/Cycle.lean -/

theorem Kept.beginCycle {n} (h : Kept I s) : Kept I (s.beginCycle n) :=
  h.ite (h.freeze.ite ((h.foldl fun h => h.raise).ite h.updCoresOf))
theorem Kept.frozenCycle {n} (h : Kept I s) : Kept I (s.frozenCycle n) := h.noteEnded.updPart
theorem Kept.programCycle {n} (h : Kept I s) : Kept I (s.programCycle n) :=
  (((h.updCoresOf.ite h).foldl fun h => h.setCore).setPart.foldl fun h => h.raiseAll).updPart.beginCycle
theorem Kept.partCycle {n} (h : Kept I s) : Kept I (s.partCycle n) := h.updPart.ite (h.frozenCycle.ite h.programCycle)

/-! ### Machine/Exchange.lean -/

theorem InsKept.faultX {r code} : InsKept I (faultX s r code) := .insFault
theorem Kept.deliver {k m} (h : Kept I s) : Kept I (s.deliver k m) := h.updCore
theorem InsKept.insXsend {rs rt r} (h : Kept I s) : InsKept I (insXsend rs rt s r) :=
  .carriedOr h (.replayOut h (.ite .faultX (.ite trivial
    (.checkSource (.ite h.refuseAbort (.ite h.refuseAbort h.setCore))))))

theorem Kept.messageAccept {idx r} (h : Kept I s) : Kept I (messageAccept idx s r) := by
  dsimp only [Machine.messageAccept]
  split
  · exact h
  · split
    · exact h
    · split
      · exact h.updCore.refuseAbort
      · exact h.ite h.updCore.deliver

theorem Kept.nextMessage {r src tag x} (h : Kept I s) (hx : s.nextMessage r src tag = some x) : Kept I x.2 := by
  unfold State.nextMessage at hx
  dsimp only at hx
  split at hx
  · next hr => cases hx; exact h.useRec hr
  · obtain ⟨e, -, rfl⟩ := Option.map_eq_some_iff.1 hx
    exact h.setCore

theorem InsKept.insXrecv {rs rt r} (h : Kept I s) : InsKept I (insXrecv rs rt s r) := by
  refine .carriedOr h (.ite trivial ?_)
  split
  · trivial
  · next hx => exact .ite trivial (.checkWrite ((h.nextMessage hx).setCore.foldl fun h => h.delay))

theorem Kept.relink {r group id} (h : Kept I s) : Kept I (s.relink r group id) := by
  dsimp only [State.relink]
  split
  · exact h
  · exact h.same

theorem Kept.useRes {r group x} (h : Kept I s) (hx : s.useRes r group = some x) : Kept I x.2 := by
  unfold State.useRes at hx
  split at hx
  · next hr => cases hx; exact h.useRec hr
  · cases hx

theorem Kept.replayRed {r group dstLine status len dst} (h : Kept I s) :
    Kept I (s.replayRed r group dstLine status len dst) := by
  unfold State.replayRed
  split
  · next hx => exact (h.useRes hx).updCore
  · exact h.setCore.relink.same

theorem Kept.replayMax {r group mx} (h : Kept I s) : Kept I (s.replayMax r group mx) := by
  unfold State.replayMax
  split
  · next hx => exact (h.useRes hx).updCore
  · exact h.setCore.relink

theorem InsKept.insXred {op rq r} (h : Kept I s) : InsKept I (insXred op rq s r) := by
  refine .carriedOr h (.checkRead (.ite trivial (.ite trivial ?_)))
  dsimp only
  split
  · next ht => exact (h.useOut ht).replayRed
  · exact .checkSource (.checkWrite h.setCore.countReads.joinRun)

theorem InsKept.insXredMax {rq mx r} (h : Kept I s) : InsKept I (insXredMax rq mx s r) := by
  refine .carriedOr h ?_
  dsimp only
  split
  · next ht => exact (h.useOut ht).replayMax
  · exact h.setCore.joinRun

theorem Kept.journalResult {n x} (h : Kept I s) : Kept I (s.journalResult n x) := by
  dsimp only [State.journalResult]
  split
  · exact h
  · exact h.setCtx

theorem Kept.collectiveWrite {group} (h : Kept I s) : Kept I (collectiveWrite group s) := by
  dsimp only [Machine.collectiveWrite]
  split
  · exact h
  · exact h.ite (((h.foldl fun h => h.updCore.ite h.journalResult).endRunOf.same.foldl fun h => h.raiseFrom).ite
      (h.foldl fun h => h.updCore.ite h.journalResult).endRunOf.same)

theorem InsKept.insXbar {rg r} (h : Kept I s) : InsKept I (insXbar rg s r) := by
  refine .carriedOr h ?_
  dsimp only
  split
  · next hx =>
    have h1 := h.useRec hx
    exact h1.setCore.updPart.ite h1.updCore
  · exact .ite h.setCore trivial

theorem Kept.reachXbar {r w} (h : Kept I s) : Kept I (s.reachXbar r w) := by
  dsimp only [State.reachXbar]
  split
  · exact h.ite (h.ite h.joinRun)
  · exact h

theorem Kept.waitFor {r ws} (h : Kept I s) : Kept I (s.waitFor r ws) := h.freeze.foldl fun h => h.reachXbar

theorem Kept.settleAll {r a2} (h : Kept I s) (ha2 : InsKept I a2) : Kept I (settleAll s r a2) := by
  dsimp only [Machine.settleAll]
  split
  · exact h.waitFor
  · exact h.settleIns ha2

theorem Kept.xbarRelease {n group} (h : Kept I s) : Kept I (xbarRelease n group s) := by
  dsimp only [Machine.xbarRelease]
  split
  · split
    · exact h
    · exact h.updPart
  · split
    · exact h
    · exact h.ite (h.foldl fun h => h.updPart).endRunOf

theorem InsKept.insXtime {rt r} (h : Kept I s) : InsKept I (insXtime rt s r) := .ite h.gtbView.updCore trivial

theorem Kept.xtimeRelease {r} (h : Kept I s) : Kept I (xtimeRelease s r) := by
  dsimp only [Machine.xtimeRelease]
  split
  · exact h.updCore.updPart
  · exact h

theorem Kept.applyMaxReds {r} (h : Kept I s) : Kept I (s.applyMaxReds r) := by
  dsimp only [State.applyMaxReds]
  refine .updCore ?_
  refine .foldl ?_ ?_
  · exact h
  · intro s _ h
    split
    · exact h.ite h.delay
    · exact h

theorem InsKept.insXfenceFrom {before p x r} (h : Kept I s) : InsKept I (insXfenceFrom before p x s r) :=
  .ite (h.applyMaxReds.ite h) trivial
theorem InsKept.insXfence {p x r} (h : Kept I s) : InsKept I (insXfence p x s r) := .insXfenceFrom h

/-! ### Machine/Hang.lean -/

theorem Kept.ladderEvent {u phase} (h : Kept I s) : Kept I (s.ladderEvent u phase) := h.event
theorem Kept.beginStep {u} (h : Kept I s) : Kept I (s.beginStep u) := h.same.wake.ladderEvent
theorem Kept.addSuspect {u e} (h : Kept I s) : Kept I (s.addSuspect u e) := h.ite h.same

theorem Kept.detectHang {u byBudget} (h : Kept I s) : Kept I (s.detectHang u byBudget) := by
  unfold State.detectHang
  refine h.ite ?_
  dsimp only
  generalize hs3 : List.foldl (fun (s : State) e => s.sendMsix (e.2 + 1) 1) _ (s.suspectsOf u) = s3
  have h3 : Kept I s3 := by
    rw [← hs3]
    exact (h.same.foldl fun h => h.addSuspect).event.foldl fun h => h.sendMsix
  exact (h3.alert.ite h3).hwSet

theorem Kept.coreHangDetect {r} (h : Kept I s) : Kept I (coreHangDetect s r) := h.detectHang.ite h
theorem Kept.engineHangDetect {u} (h : Kept I s) : Kept I (engineHangDetect u s) := h.detectHang.ite h

/-! ### Machine/Answers.lean -/

theorem Kept.dropReq {dst seq} (h : Kept I s) : Kept I (s.dropReq dst seq) := h.same
theorem Kept.finishFabOp {reason} (h : Kept I s) : Kept I (s.finishFabOp reason) := h.same.hwSet

theorem Kept.bringData {d e k x off bytes poison} (h : Kept I s) : Kept I (s.bringData d e k x off bytes poison) := by
  dsimp only [State.bringData]
  split
  · exact h.updDesc.beatEngine.sendWrites.ite h.updDesc.beatEngine
  · exact h.updDesc.beatEngine

theorem Kept.failReq {q reason} (h : Kept I s) : Kept I (s.failReq q reason) := by
  dsimp only [State.failReq]
  split
  · exact h.dropReq.bringData
  · exact h.dropReq.refuseAbort
  · exact h.dropReq.updCore.refuseAbort
  · exact h.dropReq.finishFabOp

theorem Kept.readData {p} (h : Kept I s) : Kept I (readData p s) := by
  dsimp only [Machine.readData]
  split
  · exact h
  · split
    · exact h
    · split
      · exact h.dropReq.bringData
      · exact h.dropReq.memWrite.finishFabOp
      · exact h.dropReq

theorem Kept.ackReceive {p} (h : Kept I s) : Kept I (ackReceive p s) := by
  dsimp only [Machine.ackReceive]
  split
  · exact h
  · split
    · exact h
    · split
      · exact h.dropReq.updCore.offerMessages
      · exact h.dropReq.finishFabOp
      · exact h.dropReq.beatEngine
      · exact h.dropReq

theorem Kept.notReadyReceive {p} (h : Kept I s) : Kept I (notReadyReceive p s) := by
  dsimp only [Machine.notReadyReceive]
  split
  · exact h
  · exact h.ite h.dropReq.same

theorem Kept.xqFreeReceive {p} (h : Kept I s) : Kept I (xqFreeReceive p s) :=
  h.ite (h.same.foldl fun h => h.offerMessages)

theorem Kept.failColl {group idx reason} (h : Kept I s) : Kept I (s.failColl group idx reason) := by
  dsimp only [State.failColl]
  split
  · exact h
  · exact h.endRunOf.foldl fun h => h.refuseAbort

theorem Kept.refuseReceive {p} (h : Kept I s) : Kept I (refuseReceive p s) := by
  dsimp only [Machine.refuseReceive]
  split
  · exact h
  · split
    · exact h.failReq.ite h.failColl
    · exact h.failColl

theorem Kept.requestResend {dst seq} (h : Kept I s) : Kept I (requestResend dst seq s) := by
  dsimp only [Machine.requestResend]
  split
  · exact h
  · exact h.ite h.same.toRouter

theorem Kept.requestTimeout {dst seq} (h : Kept I s) : Kept I (requestTimeout dst seq s) := by
  dsimp only [Machine.requestTimeout]
  split
  · exact h
  · exact h.ite h.failReq

/-! ### Machine/EventLog.lean -/

theorem Kept.extWrite {e seq} (h : Kept I s) : Kept I (s.extWrite e seq) := h.ite (h.same.ite (h.ite h.memPut))
theorem Kept.commitEvent {e} (h : Kept I s) : Kept I (s.commitEvent e) := h.same.extWrite

theorem Kept.deliverEvent {e} (h : Kept I s) : Kept I (s.deliverEvent e) := by
  dsimp only [State.deliverEvent]
  split
  · exact h.commitEvent.ite h.same
  · exact h.same

theorem Kept.eventDeliver {idx} (h : Kept I s) : Kept I (eventDeliver idx s) := by
  dsimp only [Machine.eventDeliver]
  split
  · exact h
  · exact h.ite h.same.deliverEvent

theorem Kept.eventCommit (h : Kept I s) : Kept I (eventCommit s) := by
  dsimp only [Machine.eventCommit]
  split
  · exact h
  · split
    · exact h
    · exact h.ite h.same.commitEvent

theorem Kept.drainEvents {n} (h : Kept I s) : Kept I (s.drainEvents n) := by
  induction n generalizing s with
  | zero => exact h
  | succ n ih =>
    unfold State.drainEvents
    split
    · exact h
    · split
      · exact h
      · exact ih h.same.commitEvent

theorem Kept.eventAggWindowEnd (h : Kept I s) : Kept I (eventAggWindowEnd s) := h.same
theorem Kept.flushEvents (h : Kept I s) : Kept I s.flushEvents := h.same.drainEvents
theorem Kept.evtPortSeqWrite {i3c v} (h : Kept I s) : Kept I (evtPortSeqWrite i3c v s) := h.same.ite h.same

/-! ### Machine/Drain.lean -/

theorem InsKept.issueDrain {kind a f detail rows mark r} (h : Kept I s) : InsKept I (issueDrain kind a f detail rows mark s r) :=
  .ite trivial (.checkRead (.checkReadWith h.setCore.countReads))

theorem InsKept.insDrain {a bank f r} (h : Kept I s) : InsKept I (insDrain a bank f s r) := by
  dsimp only [Machine.insDrain]
  exact .issueDrain h

theorem InsKept.insPbdrain {a slot f r} (h : Kept I s) : InsKept I (insPbdrain a slot f s r) := .issueDrain h

theorem Kept.drainRowRead {a r} (h : Kept I s) : Kept I (drainRowRead a s r) := by
  dsimp only [Machine.drainRowRead]
  split
  · exact h
  · split
    · exact h
    · split
      · exact h.abandonTile
      · refine .settleIns ?_ ?_
        · exact h
        · split
          · exact trivial
          · exact .checkRead (h.setCore.countReads.countLoss.raise.ite h.setCore.countReads.countLoss)

theorem Kept.dssWrite {d ws} (h : Kept I s) : Kept I (s.dssWrite d ws) := h.foldl fun h => h.setDssLine
theorem Kept.dqPop {r a q} (h : Kept I s) : Kept I (s.dqPop r a q) := h.updCore

theorem Kept.drainRowWrite {a r} (h : Kept I s) : Kept I (drainRowWrite a s r) := by
  unfold Machine.drainRowWrite
  dsimp only
  split
  · exact h
  refine h.ite ?_
  split
  · refine h.dqPop.dssWrite.ite (.ite ?_ h.dqPop)
    split
    · next hs => exact (Kept.of_fst hs h.streamRow).dqPop
    · next hs => exact (Kept.of_fst hs h.streamRow).raise
  · exact h.freeze
  · exact h

/-! ### Machine/ProofBuffer.lean -/

theorem InsKept.insFold {a bank sa sb rt r} (h : Kept I s) : InsKept I (insFold a bank sa sb rt s r) :=
  .ite trivial (.ite .insFault h.setCore)

theorem Kept.foldRowAdd {a r} (h : Kept I s) : Kept I (foldRowAdd a s r) := by
  dsimp only [Machine.foldRowAdd]
  split
  · exact h
  · split
    · exact h.ite (h.abandonTile.ite (h.setCore.raiseAll.ite h.setCore))
    · exact h

theorem InsKept.faultPb {r code slot} : InsKept I (faultPb s r code slot) := .insFault
theorem InsKept.insPbzero {slot rt r} (h : Kept I s) : InsKept I (insPbzero slot rt s r) :=
  .ite h.updCore (.ite .faultPb h.setCore)
theorem InsKept.insImage {kind op slot eng ri tag r} (h : Kept I s) : InsKept I (insImage kind op slot eng ri tag s r) :=
  .ite h.updCore (.ite .faultPb (.ite .faultPb (.ite trivial h.setCore.updEngine)))
theorem InsKept.insPbspillW {slot eng ri r} (h : Kept I s) : InsKept I (insPbspillW slot eng ri s r) := .insImage h
theorem InsKept.insPbspillA {slot eng ri r} (h : Kept I s) : InsKept I (insPbspillA slot eng ri s r) := .insImage h
theorem InsKept.insPbload {slot eng ri rt r} (h : Kept I s) : InsKept I (insPbload slot eng ri rt s r) := .insImage h

theorem Kept.pbHeaderArrive {d e idx} (h : Kept I s) : Kept I (pbHeaderArrive d e idx s) := by
  dsimp only [Machine.pbHeaderArrive]
  split
  · exact h
  · exact h.ite (h.dropDesc.raiseAll.ite (h.updDesc.ite h.updDesc))

theorem Kept.pbRowTransfer {d e idx} (h : Kept I s) : Kept I (pbRowTransfer d e idx s) := by
  dsimp only [Machine.pbRowTransfer]
  split
  · exact h
  · split
    · exact h
    · split
      · exact h.updCore.updDesc.beatEngine.memPut.ite h.updCore.updDesc.beatEngine
      · exact (h.ite h.updCore.updDesc).ite (h.ite (h.updCore.updDesc.beatEngine.memPut.ite h.updCore.updDesc.beatEngine))
      · exact h.ite (h.updCore.updDesc.beatEngine.raiseAll.ite h.updCore.updDesc.beatEngine)
      · exact h

theorem Kept.transferComplete {d e idx} (h : Kept I s) : Kept I (transferComplete d e idx s) := by
  dsimp only [Machine.transferComplete]
  split
  · exact h
  · split
    · exact h.dropDesc.ite h
    · exact h.dropDesc.ite h
    · exact h.dropDesc.ite h
    · exact h.completePeel

/-! ### Machine/Scalar.lean -/

theorem InsKept.writeSpec {r lat rd v} (h : Kept I s) : InsKept I (writeSpec s r lat rd v) := h.delay
theorem InsKept.illegalC {r} : InsKept I (illegalC s r) := .insFault
theorem InsKept.insAlu {op rd ra b r} (h : Kept I s) : InsKept I (insAlu op rd ra b s r) := .ite (.writeSpec h) .illegalC
theorem InsKept.insLi {rd hd imm r} (h : Kept I s) : InsKept I (insLi rd hd imm s r) := .ite (.writeSpec h) .illegalC
theorem InsKept.insCmp {pd cond ra b r} (h : Kept I s) : InsKept I (insCmp pd cond ra b s r) := .ite h.delay .illegalC
theorem InsKept.insBrp {p inv off r} (h : Kept I s) : InsKept I (insBrp p inv off s r) := .ite h.updCore .illegalC

theorem InsKept.insLoop {len count r} (h : Kept I s) : InsKept I (insLoop len count s r) := by
  dsimp only [Machine.insLoop]
  split
  · exact .illegalC
  · exact .ite .illegalC h.updCore

theorem InsKept.insTile {budget r} (h : Kept I s) : InsKept I (insTile budget s r) := .ite .illegalC h.updCore
theorem InsKept.insHalt {r} (h : Kept I s) : InsKept I (insHalt s r) := h.updCore
theorem InsKept.insTrap {code r} (h : Kept I s) : InsKept I (insTrap code s r) := h
theorem InsKept.insAnc {a mx my delta r} (h : Kept I s) : InsKept I (insAnc a mx my delta s r) := h.delay
theorem InsKept.insSteprR {rd r} (h : Kept I s) : InsKept I (insSteprR rd s r) := .ite (.writeSpec h) .illegalC
theorem InsKept.insSteprW {ra r} (h : Kept I s) : InsKept I (insSteprW ra s r) := .ite h.delay .illegalC
theorem InsKept.insSteprInc {r} (h : Kept I s) : InsKept I (insSteprInc s r) := h.delay
theorem InsKept.insSeedrR {rd r} (h : Kept I s) : InsKept I (insSeedrR rd s r) := .ite (.writeSpec h) .illegalC
theorem InsKept.insSeedrW {ra r} (h : Kept I s) : InsKept I (insSeedrW ra s r) := .ite h.delay .illegalC
theorem InsKept.insGtbr {rd r} (h : Kept I s) : InsKept I (insGtbr rd s r) := .ite (.writeSpec h.gtbView) .illegalC
theorem InsKept.insHbeat {progress r} (h : Kept I s) : InsKept I (insHbeat progress s r) := h.updCore

/-! ### Machine/Vector.lean -/

theorem InsKept.faultV {r code} : InsKept I (faultV s r code) := .insFault

theorem InsKept.vUnit {r occ} {go : State → InsRes} (h : Kept I s) (hgo : ∀ {t}, Kept I t → InsKept I (go t)) :
    InsKept I (vUnit s r occ go) := .ite trivial (hgo h.updCore)

theorem InsKept.writeV {r lat vd bits poison} (h : Kept I s) : InsKept I (writeV s r lat vd bits poison) := h.delay
theorem InsKept.insVld {vd rs part r} (h : Kept I s) : InsKept I (insVld vd rs part s r) :=
  .vUnit h fun h => .ite .faultV (.checkReadWith h.delay.countReads)
theorem InsKept.insVst {va rs part r} (h : Kept I s) : InsKept I (insVst va rs part s r) :=
  .vUnit h fun h => .ite .faultV (.ite .faultV (.checkWrite (h.foldl fun h => h.delay)))
theorem InsKept.insVarith {op vd va vb ty r} (h : Kept I s) : InsKept I (insVarith op vd va vb ty s r) :=
  .vUnit h fun h => .ite .faultV (.writeV h)
theorem InsKept.insVfma {vd va vb vc ty r} (h : Kept I s) : InsKept I (insVfma vd va vb vc ty s r) :=
  .vUnit h fun h => .ite .faultV (.writeV h)
theorem InsKept.insVcmp {vd va vb ty cond r} (h : Kept I s) : InsKept I (insVcmp vd va vb ty cond s r) :=
  .vUnit h fun h => .ite .faultV (.writeV h)
theorem InsKept.insVsel {vd va vb vc r} (h : Kept I s) : InsKept I (insVsel vd va vb vc s r) := .vUnit h fun h => .writeV h
theorem InsKept.insVlogic {op vd va vb ty r} (h : Kept I s) : InsKept I (insVlogic op vd va vb ty s r) :=
  .vUnit h fun h => .ite .faultV (.writeV h)
theorem InsKept.insVperm {vd va vb r} (h : Kept I s) : InsKept I (insVperm vd va vb s r) := .vUnit h fun h => .writeV h
theorem InsKept.insVcvt {vd va src tgt sr mr clr ri rsm r} (h : Kept I s) :
    InsKept I (insVcvt vd va src tgt sr mr clr ri rsm s r) :=
  .vUnit h fun h => .ite .faultV (.ite .faultV (.writeV (h.delay.ite h).delay))
theorem InsKept.insVfn {vd va fn d r} (h : Kept I s) : InsKept I (insVfn vd va fn d s r) :=
  .vUnit h fun h => .ite .faultV (.writeV h)
theorem InsKept.vaxsumAdd {m vd a psn b n r} (h : Kept I s) : InsKept I (vaxsumAdd m vd a psn b n s r) :=
  .ite .faultV (.writeV (h.setCore.countLoss.delay.ite h.setCore.countLoss))
theorem InsKept.vaxsumOut {m vd a psn r} (h : Kept I s) : InsKept I (vaxsumOut m vd a psn s r) := .writeV h

theorem InsKept.insVaxsum {m vd va vb clr ra n1 r} (h : Kept I s) : InsKept I (insVaxsum m vd va vb clr ra n1 s r) := by
  dsimp only [Machine.insVaxsum]
  refine .vUnit ?_ ?_
  · exact h
  · intro s h
    split
    · exact .faultV
    · split
      · split
        · exact .faultV
        · split
          · exact .vaxsumOut h
          · exact .vaxsumOut h
          · exact .vaxsumAdd h
      · split
        · exact .faultV
        · split
          · exact .vaxsumOut h
          · exact .vaxsumOut h
          · exact .vaxsumAdd h

theorem InsKept.insVleav {vd ri rsm u r} (h : Kept I s) : InsKept I (insVleav vd ri rsm u s r) := .vUnit h fun h => .writeV h
theorem InsKept.insVcrumb {va ca width count ri rk r} (h : Kept I s) : InsKept I (insVcrumb va ca width count ri rk s r) :=
  .vUnit h fun h => .ite .faultV (.ite .faultV h.delay)
theorem InsKept.insVopt {vd va vb vc sel r} (h : Kept I s) : InsKept I (insVopt vd va vb vc sel s r) :=
  .vUnit h fun h => .ite .faultV (.ite (.writeV h) (.writeV h))

/-! ### Machine/Issue.lean -/

theorem DecodedKept.decodeStep {x} : DecodedKept I (decodeStep x) := by
  dsimp only [Machine.decodeStep]
  split
  · exact .some (fun h => .insSteprR h)
  · exact .some (fun h => .insSteprW h)
  · exact .some (fun h => .insSteprInc h)
  · exact .none

theorem DecodedKept.decodeSeed {x} : DecodedKept I (decodeSeed x) := by
  dsimp only [Machine.decodeSeed]
  split
  · exact .some (fun h => .insSeedrR h)
  · exact .some (fun h => .insSeedrW h)
  · exact .none

theorem DecodedKept.decodeAlu {op x} : DecodedKept I (decodeAlu op x) := .some (fun h => .insAlu h)

theorem DecodedKept.decodeC {x} : DecodedKept I (decodeC x) := by
  dsimp only [Machine.decodeC]
  split
  · exact .some (fun h => h)
  · exact .some (fun h => .insLi h)
  · exact .decodeAlu
  · exact .decodeAlu
  · exact .decodeAlu
  · exact .decodeAlu
  · exact .decodeAlu
  · exact .decodeAlu
  · exact .decodeAlu
  · exact .decodeAlu
  · exact .decodeAlu
  · exact .some (fun h => .insCmp h)
  · exact .some (fun h => .insBrp h)
  · exact .some (fun h => .insLoop h)
  · exact .some (fun h => .insTile h)
  · exact .some (fun h => .insHalt h)
  · exact .some (fun h => .insTrap h)
  · exact .some (fun h => .insAnc h)
  · exact .decodeStep
  · exact .decodeSeed
  · exact .some (fun h => .insGtbr h)
  · exact .some (fun h => .insHbeat h)
  · exact .none

theorem DecodedKept.decodeM {x} : DecodedKept I (decodeM x) := by
  unfold Machine.decodeM
  split
  · exact .some fun h => .insWld h
  · exact .some fun h => .insWswap h
  · exact .some fun h => .insMma h
  · exact .some fun h => .insDrain h
  · exact .some fun h => .insPbdrain h
  · exact .some fun h => .insFold h
  · exact .some fun h => .insZoa h
  · exact .some fun h => .insPbzero h
  · split
    · exact .some fun h => .insPbspillA h
    · exact .some fun h => .insPbspillW h
  · exact .some fun h => .insPbload h
  · exact .some fun h => .insIdle h
  · exact .none

theorem DecodedKept.decodeV {x} : DecodedKept I (decodeV x) := by
  unfold Machine.decodeV
  dsimp only
  split
  · exact .some fun h => .insVld h
  · exact .some fun h => .insVst h
  · exact .some fun h => .insVarith h
  · exact .some fun h => .insVarith h
  · exact .some fun h => .insVarith h
  · exact .some fun h => .insVfma h
  · exact .some fun h => .insVarith h
  · exact .some fun h => .insVarith h
  · exact .some fun h => .insVcmp h
  · exact .some fun h => .insVsel h
  · exact .some fun h => .insVlogic h
  · exact .some fun h => .insVlogic h
  · exact .some fun h => .insVlogic h
  · exact .some fun h => .insVlogic h
  · exact .some fun h => .insVlogic h
  · exact .some fun h => .insVlogic h
  · exact .some fun h => .insVperm h
  · exact .some fun h => .insVcvt h
  · exact .some fun h => .insVfn h
  · cases axMode (x / 2 ^ 29 % 8) with
    | none => exact .none
    | some m => exact .some fun h => .insVaxsum h
  · exact .some fun h => .insVleav h
  · exact .some fun h => .insVcrumb h
  · exact .some fun h => .insVopt h
  · exact .none

theorem DecodedKept.decodeD {x} : DecodedKept I (decodeD x) := by
  dsimp only [Machine.decodeD]
  split
  · exact .some (fun h => .insAct h)
  · exact .some (fun h => .insPeel h)
  · exact .some (fun h => .insBcopy h)
  · exact .some (fun h => .insDssld h)
  · exact .some (fun h => .insDssst h)
  · exact .none

theorem DecodedKept.decodeXred {x} : DecodedKept I (decodeXred x) := by
  dsimp only [Machine.decodeXred]
  split
  · exact .some (fun h => .insXred h)
  · exact .some (fun h => .insXred h)
  · exact .some (fun h => .insXredMax h)
  · exact .some (fun h => .insXred h)
  · exact .some (fun h => .insXred h)
  · exact .none

theorem DecodedKept.decodeX {before x} : DecodedKept I (decodeX before x) := by
  dsimp only [Machine.decodeX]
  split
  · exact .some (fun h => .insXsend h)
  · exact .some (fun h => .insXrecv h)
  · exact .decodeXred
  · exact .some (fun h => .insXbar h)
  · exact .some (fun h => .insXtime h)
  · exact .some (fun h => .insXfenceFrom h)
  · exact .none

theorem InsKept.slotRun {slot d x r} (h : Kept I s) (hd : ∀ {v}, DecodedKept I (d v)) : InsKept I (slotRun slot d x s r) := by
  unfold Machine.slotRun
  split
  · exact h
  · split
    · next hf => exact hd _ hf h
    · trivial

theorem Kept.join {b : BundleRes} {f r} (hb : Kept I b.st) (hf : InsKept I (f b.st r)) : Kept I (b.join f r).st := by
  unfold BundleRes.join
  split
  · exact hb
  · exact hb
  · exact hb
  · next heq => rw [heq] at hf; exact hf
  · next heq => rw [heq] at hf; exact hf

theorem Kept.joinSlot {p : BundleRes} {n d x r} (hp : Kept I p.st) (hd : ∀ v, DecodedKept I (d v)) :
    Kept I (p.join (slotRun n d x) r).st := hp.join (.slotRun hp (hd _))

theorem Kept.runSlots {b r} (h : Kept I s) : Kept I (Machine.runSlots b s r).st := by
  have early : Kept I (if slotMoves (slotOf b 255 192 56) then BundleRes.mk [] false [] [] s
      else (BundleRes.mk [] false [] [] s).join (slotRun 0 decodeC (slotOf b 255 192 56)) r).st := by
    split
    · exact h
    · exact h.joinSlot (p := BundleRes.mk [] false [] [] s) fun _ => .decodeC
  unfold Machine.runSlots
  dsimp only
  generalize (if slotMoves (slotOf b 255 192 56) then BundleRes.mk [] false [] [] s else _) = p at early ⊢
  have moves := (((early.joinSlot (d := decodeM) (n := 1) (x := slotOf b 254 136 56) (r := r) fun _ => .decodeM).joinSlot
    (d := decodeV) (n := 2) (x := slotOf b 253 72 64) (r := r) fun _ => .decodeV).joinSlot (d := decodeD) (n := 3)
    (x := slotOf b 252 24 48) (r := r) fun _ => .decodeD).joinSlot (d := decodeX (s.core r.k).nextId) (n := 4)
    (x := slotOf b 251 0 24) (r := r) fun _ => .decodeX
  split
  · exact moves.joinSlot fun _ => .decodeC
  · exact moves

theorem Kept.issueBundle {b r} {also : State → State} (h : Kept I s) (ha : ∀ {t}, Kept I t → Kept I (also t)) :
    Kept I (issueBundle b also s r) :=
  h.waitFor.ite (h.holdCycle.ite ((ha h.raiseAll).ite (h.runSlots.updCore.ite (ha h.runSlots.updCore.raiseAll))))

theorem Kept.issued {r} (h : Kept I s) : Kept I (s.issued r) := h.updPart
theorem Kept.raiseOthers {s0 r} (h : Kept I s) : Kept I (raiseOthers s0 r s) := h.foldl fun h => h.raiseAll

theorem Kept.bundleIssue {r} (h : Kept I s) : Kept I (bundleIssue s r) := by
  refine h.ite ((h.foldl fun h => h.waitFor).ite (h.holdCycle.ite ?_))
  split
  · exact h.raise.raiseOthers
  · exact h.issued.issueBundle fun h => h.raiseOthers

/-! ### Machine/Freeze.lean -/

theorem Kept.producerNotice {cause r} (h : Kept I s) : Kept I (producerNotice cause s r) := h.updPart
theorem Kept.freezeBegin {r} (h : Kept I s) : Kept I (freezeBegin s r) := h.ite (h.ite h.waitFor)
theorem Kept.freezeEnd {n} (h : Kept I s) : Kept I (freezeEnd n s) := h.noteEnded.setPart.beginCycle.ite h.noteEnded

theorem Kept.actFreezeDeliver {r} (h : Kept I s) : Kept I (actFreezeDeliver s r) := by
  dsimp only [Machine.actFreezeDeliver]
  split
  · exact h
  · split
    · exact h.setCore
    · split
      · exact h.raiseAll
      · exact h.settleIns (.checkRead h.setCore)

/-! ### Machine/Tiles.lean -/

theorem Kept.settleMeet {r} (h : Kept I s) : Kept I (settleMeet s r) := by
  dsimp only [Machine.settleMeet]
  split
  · exact h.ite h.setCore
  · exact h

theorem Kept.budgetExpire {n} (h : Kept I s) : Kept I (budgetExpire n s) := by
  dsimp only [Machine.budgetExpire]
  split
  · split
    · split
      · exact h.updPart.detectHang
      · exact h.raisePart
    · exact h
  · exact h

theorem Kept.tileCommit {n} (h : Kept I s) : Kept I (tileCommit n s) := by
  dsimp only [Machine.tileCommit]
  split
  · exact h
  · split
    · exact h.budgetExpire
    · split
      · exact h.raise
      · exact h.updCoresOf.setPart

/-! ### Machine/Contexts.lean -/

theorem Kept.writeOpen {base len} (h : Kept I s) : Kept I (s.writeOpen base len) := (h.mem (.openArea ..)).same
theorem Kept.loadCores {n m} (h : Kept I s) : Kept I (s.loadCores n m) := h.foldl fun h => h.updCore
theorem Kept.loadProgs {n k} (h : Kept I s) : Kept I (s.loadProgs n k) := h.foldl fun h => h.updCore

theorem Kept.switchOut {n} (h : Kept I s) : Kept I (s.switchOut n) := by
  dsimp only [State.switchOut]
  split
  · exact h
  · refine .updPart ?_
    refine .endRun ?_
    split
    · exact (h.setCtx.writeOpen.ite h).updEntry
    · exact h.setCtx.writeOpen.ite h

theorem Kept.resumeRun {n a i} (h : Kept I s) : Kept I (s.resumeRun n a i) := by
  dsimp only [State.resumeRun]
  refine .setCtx ?_
  refine .updEntry ?_
  refine .updPart ?_
  refine .updCoresOf ?_
  refine .foldl ?_ ?_
  · split
    · exact h.loadProgs
    · exact h
  · exact fun h => h.updCore

theorem Kept.takeCores {n cn} (h : Kept I s) : Kept I (s.takeCores n cn) := h.switchOut.loadCores.updPart.setCtx

theorem Kept.switchTo {n cn} (h : Kept I s) : Kept I (s.switchTo n cn) := by
  dsimp only [State.switchTo]
  split
  · exact h
  · split
    · split
      · exact h.ite h.takeCores
      · exact (h.ite h.takeCores).resumeRun
    · exact h.ite h.takeCores

theorem Kept.applyMaps {n} (h : Kept I s) : Kept I (s.applyMaps n) := h.same

theorem Kept.checkpoint {n} (h : Kept I s) : Kept I (s.checkpoint n) := by
  dsimp only [State.checkpoint]
  split
  · exact h
  · exact h.ite h.setCtx.updCoresOf.writeOpen

theorem Kept.tileYield {n a} (h : Kept I s) : Kept I (tileYield n a s) := by
  dsimp only [Machine.tileYield]
  split
  · exact h
  · split
    · exact h.switchOut.ite h.updPart
    · exact h.switchTo
    · exact h.applyMaps
    · exact h.checkpoint

theorem Kept.ctxCfgWrite {v} (h : Kept I s) : Kept I (ctxCfgWrite v s) := by
  unfold Machine.ctxCfgWrite
  dsimp only
  generalize hs0 : (List.range 16).foldl _ s = s0
  have h0 : Kept I s0 := hs0 ▸ h.foldl fun h => h.updPart.ite h
  exact (h0.setCtx.ite (h0.setCtx.ite h0.setCtx)).ite (h0.setCtx.ite h)

theorem Kept.loafLoad (h : Kept I s) : Kept I (loafLoad s) := h.setLoaf.ite h
theorem Kept.loafVerifyDone {i hd} (h : Kept I s) : Kept I (loafVerifyDone i hd s) := h.ite (h.setLoaf.ite h.setLoaf)
theorem Kept.loafUnload (h : Kept I s) : Kept I (loafUnload s) := h.ite h.setLoaf

/-! ### Machine/Serving.lean -/

theorem Kept.genRelease {i} (h : Kept I s) : Kept I (s.genRelease i) := h.setModel

theorem Kept.writeCompletion {c} (h : Kept I s) : Kept I (s.writeCompletion c) := by
  dsimp only [State.writeCompletion]
  refine .genRelease ?_
  split
  · refine .sendMsix ?_
    split
    · exact h.memPut.memPut.same.sendMsix
    · exact h.memPut.memPut.same
  · split
    · exact h.memPut.memPut.same.sendMsix
    · exact h.memPut.memPut.same

theorem Kept.completionWrite (h : Kept I s) : Kept I (completionWrite s) := by
  dsimp only [Machine.completionWrite]
  split
  · exact h
  · exact h.same.writeCompletion

theorem Kept.setEntryState {idx st} (h : Kept I s) : Kept I (s.setEntryState idx st) := h.memPut

theorem Kept.applyDecision {idx was a3} (h : Kept I s) : Kept I (s.applyDecision idx was a3) := by
  dsimp only [State.applyDecision]
  split
  · exact h.ite h.setEntryState.same
  · exact h.memPut.same.writeCompletion
  · exact h.setEntryState.same

theorem Kept.genTick {i} (h : Kept I s) : Kept I (s.genTick i) := h.setModel.genRelease

theorem Kept.scan {g k} (h : Kept I s) : Kept I (State.scan s g k) := by
  induction k generalizing s with
  | zero => exact h
  | succ k ih => exact h.ite (ih h.same.applyDecision)

theorem Kept.admissionTick (h : Kept I s) : Kept I (admissionTick s) := by
  refine h.ite ?_
  dsimp only
  generalize hs1 : (List.range 16).foldl State.genTick _ = s1
  have h1 : Kept I s1 := hs1 ▸ Kept.foldl h.same fun h => h.genTick
  refine h1.ite ?_
  split
  · exact h1.ite (h1.foldl fun h => h.applyDecision).scan
  · exact h1.same.ite h1
  · exact h1.same.ite h1
  · exact h1.same.ite h1
  · exact h1

theorem Kept.kernelStart {n} (h : Kept I s) : Kept I (kernelStart n s) := by
  dsimp only [Machine.kernelStart]
  split
  · exact h
  · split
    · exact h
    · split
      · exact h.complete
      · split
        · exact h
        · split
          · exact h
          · exact (h.foldl fun h => h.updCore).setPart.same.setCtx

theorem Kept.crumbWrite {bytes} (h : Kept I s) : Kept I (s.crumbWrite bytes) := h.ite (h.same.ite h.memPut.same)
theorem Kept.clearCrumbs {n} (h : Kept I s) : Kept I (s.clearCrumbs n) := h.updCoresOf
theorem Kept.logCrumbs {n kernel ctx} (h : Kept I s) : Kept I (s.logCrumbs n kernel ctx) :=
  (h.foldl fun h => h.crumbWrite).clearCrumbs

theorem Kept.kernelComplete {n} (h : Kept I s) : Kept I (kernelComplete n s) := by
  dsimp only [Machine.kernelComplete]
  split
  · exact h
  · split
    · exact h
    · split
      · exact h.clearCrumbs.endRun.updCoresOf.setCtx
      · exact h.logCrumbs.updEntry.raisePart.ite (h.logCrumbs.updEntry.endRun.updCoresOf.setCtx.updEntry.ite
          h.logCrumbs.updEntry.endRun.updCoresOf.setCtx.complete)

theorem Kept.expressCompare {idx} (h : Kept I s) : Kept I (expressCompare idx s) := by
  dsimp only [Machine.expressCompare]
  split
  · exact h
  · exact h.ite (h.setCtx.complete.ite h.setCtx.complete)

theorem Kept.expressRepair {cn n} (h : Kept I s) : Kept I (expressRepair cn n s) := h.ite (h.updPart.ite h).setCtx
theorem Kept.backgroundYield {n} (h : Kept I s) : Kept I (backgroundYield n s) := h.switchOut.ite h

theorem Kept.bsAbort {idx} (h : Kept I s) : Kept I (bsAbort idx s) := by
  dsimp only [Machine.bsAbort]
  split
  · exact h
  · exact h.complete.ite (h.complete.foldl fun h => h.abortPart.ite h).setCtx.same

theorem Kept.bsCfgWrite {v} (h : Kept I s) : Kept I (bsCfgWrite v s) := h.same.ite (h.same.hwSet.ite h.same)

/-! ### Machine/Generations.lean -/

theorem Kept.genLoad (h : Kept I s) : Kept I (genLoad s) := h.ite (h.setModel.ite h.setModel)

theorem Kept.genShardArrive {i k f} (h : Kept I s) : Kept I (genShardArrive i k f s) := by
  dsimp only [Machine.genShardArrive]
  split
  · split
    · exact h
    · split
      · split
        · exact h.memPut.setModel
        · split
          · exact h.memPut.setModel
          · exact h.memPut.setModel
      · split
        · exact h.setModel
        · split
          · exact h.setModel
          · exact h.setModel
      · exact h.setModel
  · exact h

theorem Kept.genTimeoutExpire {i} (h : Kept I s) : Kept I (genTimeoutExpire i s) := h.setModel.ite h
theorem Kept.genActivate (h : Kept I s) : Kept I (genActivate s) := h.setModel.ite h
theorem Kept.genClose (h : Kept I s) : Kept I (genClose s) := h.setModel.ite h
theorem Kept.genCancel (h : Kept I s) : Kept I (genCancel s) :=
  (h.foldl fun h => h.writeOpen).setModel.ite (h.setModel.ite h)

/-! ### Machine/Faults.lean -/

theorem Kept.crustPut {off w} (h : Kept I s) : Kept I (s.crustPut off w) := h.same.memRegs.ite h.same
theorem Kept.mapRecord {off w} (h : Kept I s) : Kept I (s.mapRecord off w) := h.ledgerAppend.ite h
theorem Kept.crustTake {e} (h : Kept I s) : Kept I (s.crustTake e) := h.mapRecord.same.ite h.mapRecord.crustPut
theorem Kept.stage {es crc} (h : Kept I s) : Kept I (s.stage es crc) := h.same
theorem Kept.commitStaged (h : Kept I s) : Kept I s.commitStaged := (h.foldl fun h => h.crustTake).same
theorem Kept.commitWords {es} (h : Kept I s) : Kept I (s.commitWords es) := h.stage.commitStaged
theorem Kept.crustCommit {es crc} (h : Kept I s) : Kept I (crustCommit es crc s) :=
  h.ite (h.stage.same.hwSet.ite (h.stage.same.ite h.stage.commitStaged))
theorem Kept.scrubReg {e} (h : Kept I s) : Kept I (s.scrubReg e) := h.same.life.event
theorem Kept.scrubGroup {g} (h : Kept I s) : Kept I (s.scrubGroup g) := h.ite h.commitWords
theorem Kept.crustScrub (h : Kept I s) : Kept I (crustScrub s) :=
  (h.foldl fun h => h.scrubReg).foldl fun h => h.scrubGroup

theorem Kept.eccEffect {src e} (h : Kept I s) : Kept I (s.eccEffect src e) := by
  unfold State.eccEffect
  split
  · split
    · exact h.ite h.updCore
    · exact h
  · exact h.setDssLine
  · split
    · exact h.updCore
    · exact h
  · split
    · exact h.updCore
    · exact h
  · exact h.abandonTile
  · exact h.abandonTile
  · exact h
  · next n i =>
    exact h.setPort (n := n.toNat) (p := { s.port n.toNat with
      queue := (s.port n.toNat).queue.zipIdx.map fun e => if e.2 = i then { e.1 with poison := true } else e.1 })
  · exact h.same
  · split
    · exact h.same
    · exact h

theorem Kept.sramEccError {e uncorrectable} (h : Kept I s) : Kept I (sramEccError e uncorrectable s) :=
  h.ite ((h.ite h.life.eventAgg).ite h.life.event.eccEffect)
theorem Kept.stopMembers {n} (h : Kept I s) : Kept I (s.stopMembers n) := h.same.foldl fun h => h.updCore
theorem Kept.finishWrites {n} (h : Kept I s) : Kept I (s.finishWrites n) :=
  h.foldl fun h => h.foldl fun h => h.sendWrites

theorem Kept.stopForRewind {n} (h : Kept I s) : Kept I (s.stopForRewind n) := by
  unfold State.stopForRewind
  split
  · exact h
  · have stopped : Kept I (((((s.finishWrites n).stopMembers n).filterDescs (s.part n).die.toNat
        fun d => d.pt != n).updCoresOf n Core.stopCore).endRun n) := h.finishWrites.stopMembers.filterDescs.updCoresOf.endRun
    exact stopped.same.setCtx.updPart

theorem Kept.resetPartition {n} (h : Kept I s) : Kept I (s.resetPartition n) :=
  (h.stopForRewind.ite (h.killContext.withdraw.ite h.withdraw)).updCoresOf.setPart
theorem Kept.startPartReset {n} (h : Kept I s) : Kept I (s.startPartReset n) := h.resetPartition.beginStep
theorem Kept.endEntries {cn code} (h : Kept I s) : Kept I (s.endEntries cn code) := h.foldl fun h => h.complete
theorem Kept.endBound {n} (h : Kept I s) : Kept I (s.endBound n) :=
  h.foldl fun h => h.ite (h.loseCopy.ite h.setCtx.endEntries)
theorem Kept.retireCore {d p uses} (h : Kept I s) : Kept I (s.retireCore d p uses) := by
  dsimp only [State.retireCore]
  exact h.updCore.setDie.spare.otp

theorem Kept.noSpare {n d p} (h : Kept I s) : Kept I (s.noSpare n d p) :=
  h.endBound.startPartReset.updPart.retireCore.setDie

theorem Kept.coreFail {d p} (h : Kept I s) : Kept I (s.coreFail d p) := by
  dsimp only [State.coreFail]
  split
  · exact h
  · split
    · exact h.updCore.retireCore.ite h.updCore
    · split
      · exact h.updCore.noSpare
      · split
        · exact h.updCore
        · exact h.updCore.stopForRewind.ite h.updCore.killContext.withdraw

theorem Kept.updTaste {x f} (h : Kept I s) : Kept I (s.updTaste x f) := h.setDie
theorem Kept.nextRound {x} (h : Kept I s) : Kept I (s.nextRound x) := h.updTaste

theorem Kept.tasteRecord {round decision xs} (h : Kept I s) : Kept I (s.tasteRecord round decision xs) := by
  dsimp only [State.tasteRecord]
  split
  · exact h
  · exact h.ledgerAppend

theorem Kept.tasteLife {x pass} (h : Kept I s) : Kept I (s.tasteLife x pass) := h.life
theorem Kept.repairColumn {x w e} (h : Kept I s) : Kept I (s.repairColumn x w e) := h.setDie.spare.otp.event.commitWords

theorem Kept.repairColumns {x w es} (h : Kept I s) : Kept I (s.repairColumns x w es) := by
  induction es generalizing s w with
  | nil => exact h
  | cons e es ih => exact ih h.repairColumn

theorem Kept.convict {x z spares} (h : Kept I s) : Kept I (s.convict x z spares) :=
  h.tasteRecord.tasteLife.nextRound.repairColumns.ite h.tasteRecord.tasteLife.nextRound.event.coreFail

theorem Kept.convictAll {z xs vs} (h : Kept I s) : Kept I (s.convictAll z xs vs) := by
  induction xs generalizing s vs with
  | nil => exact h.nextRound
  | cons x xs ih => exact (ih h).nextRound.ite (ih h.convict)

theorem Kept.unresolved {xs} (h : Kept I s) : Kept I (s.unresolved xs) :=
  (h.tasteRecord.foldl fun h => h.tasteLife.nextRound.updTaste).same.hwSet
theorem Kept.toReferee {x y} (h : Kept I s) : Kept I (s.toReferee x y) := h.tasteRecord.event.same

theorem Kept.tastingRoundComplete {r} (h : Kept I s) : Kept I (tastingRoundComplete r s) := by
  cases r with
  | pair x y => exact h.ite (h.nextRound.nextRound.tasteLife.tasteLife.same.ite h.toReferee)
  | referee x y z spares => exact h.ite h.convictAll
  | fourth x y z w spares => exact h.ite (h.unresolved.ite (h.convictAll.ite h))

theorem Kept.tastingPeriodEnd (h : Kept I s) : Kept I (tastingPeriodEnd s) := (h.foldl fun h => h.setDie).same
theorem Kept.partitionQuarantine {n} (h : Kept I s) : Kept I (partitionQuarantine n s) :=
  h.ite (h.setPart.hwSetIf.ite h.setPart.hwSetIf.startPartReset)

theorem Kept.quarantineTestsDone {n convicted} (h : Kept I s) : Kept I (quarantineTestsDone n convicted s) := by
  dsimp only [Machine.quarantineTestsDone]
  split
  · exact h
  · split
    · exact h.ledgerAppend.updPart
    · split
      · exact h.ledgerAppend.event.coreFail
      · exact h.ledgerAppend

/-! ### Machine/Ports.lean -/

theorem Kept.updPort {n f} (h : Kept I s) : Kept I (s.updPort n f) := h.setPort
theorem Kept.sendAll {n r} (h : Kept I s) : Kept I (s.sendAll n r) := h.setPort.foldl fun h => h.emit
theorem Kept.pumpPort {n} (h : Kept I s) : Kept I (s.pumpPort n) := h.ite h.sendAll
theorem Kept.portSend {n k} (h : Kept I s) : Kept I (s.portSend n k) := h.updPort.pumpPort
theorem Kept.countDiscard {n} (h : Kept I s) : Kept I (s.countDiscard n) := h.updPort.ite h

theorem Kept.unroutable {port p} (h : Kept I s) : Kept I (s.unroutable port p) := by
  dsimp only [State.unroutable]
  split
  · split
    · exact h
    · split
      · exact h.failReq.ite h.failColl
      · exact h.failColl.ite h
  · exact h.countDiscard.ite h.countDiscard.toRouter

theorem Kept.sendVia {port p} (h : Kept I s) : Kept I (s.sendVia port p) := by
  dsimp only [State.sendVia]
  split
  · exact h.portSend
  · exact h.unroutable

theorem Kept.setHoldover {b} (h : Kept I s) : Kept I (s.setHoldover b) := h.ite h.same.event
theorem Kept.elect (h : Kept I s) : Kept I s.elect := h.same.setHoldover.ite (h.same.setHoldover.ite h.same)
theorem Kept.linkLoss {n cause} (h : Kept I s) : Kept I (s.linkLoss n cause) :=
  h.ite (h.setPort.hwSet.event.foldl fun h => h.sendVia).elect
theorem Kept.atPort {n} {f : State → State} (h : Kept I s) (hf : Kept I (f s)) : Kept I (s.atPort n f) := hf.ite h
theorem Kept.linkLost {n} (h : Kept I s) : Kept I (linkLost n s) := h.atPort h.linkLoss
theorem Kept.portSignalDetect {n} (h : Kept I s) : Kept I (portSignalDetect n s) := h.atPort h.updPort

theorem Kept.portTrainComplete {n lanes fast} (h : Kept I s) : Kept I (portTrainComplete n lanes fast s) := by
  dsimp only [Machine.portTrainComplete]
  refine .atPort ?_ ?_
  · exact h
  · split
    · exact h
    · exact h.ite (h.setPort.ite h.setPort.commitWords).pumpPort

theorem Kept.portTrainTimeout {n} (h : Kept I s) : Kept I (portTrainTimeout n s) := h.atPort (h.ite h.setPort)

theorem Kept.trainBackoffEnd {n} (h : Kept I s) : Kept I (trainBackoffEnd n s) := by
  dsimp only [Machine.trainBackoffEnd]
  refine .atPort ?_ ?_
  · exact h
  · split
    · exact h
    · exact h.ite h.setPort

theorem Kept.countLinks {src retries lanes} (h : Kept I s) : Kept I (s.countLinks src retries lanes) := h.same

theorem Kept.laneRetire {n l} (h : Kept I s) : Kept I (laneRetire n l s) := by
  dsimp only [Machine.laneRetire]
  refine .atPort ?_ ?_
  · exact h
  · split
    · exact h
    · split
      · exact h.setPort.countLinks.spare.commitWords.linkLoss
      · exact h.setPort.countLinks.spare.commitWords.ite h.setPort.countLinks.spare.commitWords.updPort.hwSet.event

theorem Kept.requestReplay {n} (h : Kept I s) : Kept I (s.requestReplay n) := h.updPort.countLinks.eventAgg.sendAll
theorem Kept.replay {n} (h : Kept I s) : Kept I (s.replay n) := h.sendAll
theorem Kept.flitReceive {n f} (h : Kept I s) : Kept I (flitReceive n f s) :=
  h.atPort (h.ite (h.requestReplay.ite (h.setPort.pumpPort.ite (h.setPort.linkLoss.ite h.setPort.replay.pumpPort))))
theorem Kept.hello {n down} (h : Kept I s) : Kept I (s.hello n down) := h.portSend
theorem Kept.helloSend (h : Kept I s) : Kept I (helloSend s) := h.ite (h.foldl fun h => h.hello.ite h)
theorem Kept.dupCheck {hd} (h : Kept I s) : Kept I (s.dupCheck hd) := h.ite (h.same.hwSet.alert.ite h.same.hwSet)
theorem Kept.helloReceive {n hd} (h : Kept I s) : Kept I (helloReceive n hd s) :=
  h.atPort (h.ite (h.linkLoss.updPort.ite (h.setPort.ite (h.linkLoss.ite h.same.setPort.dupCheck.elect.pumpPort))))
theorem Kept.helloTimeout {n} (h : Kept I s) : Kept I (helloTimeout n s) := h.atPort (h.ite h.linkLoss)

/-! ### Machine/Router.lean -/

theorem Kept.putLocal {p bs poison} (h : Kept I s) : Kept I (s.putLocal p bs poison) := by
  dsimp only [State.putLocal]
  split
  · exact h.memWrite
  · exact h.dssPut
  · exact h

theorem Kept.addWord {p w poison} (h : Kept I s) : Kept I (s.addWord p w poison) := h.putLocal
theorem Kept.atomicAdd {p bs poison} (h : Kept I s) : Kept I (s.atomicAdd p bs poison) := h.foldl fun h => h.addWord
theorem Kept.tellRefuse {p reason} (h : Kept I s) : Kept I (s.tellRefuse p reason) := h.same.hwSet.sendAnswer
theorem Kept.answerRead {p} (h : Kept I s) : Kept I (s.answerRead p) := h.sendAnswer
theorem Kept.answerAck {p} (h : Kept I s) : Kept I (s.answerAck p) := h.sendAnswer

theorem Kept.oneSided {p} (h : Kept I s) : Kept I (s.oneSided p) := by
  dsimp only [State.oneSided]
  split
  · exact h.tellRefuse
  · split
    · exact h.answerRead
    · exact h.putLocal.answerAck
    · exact h.atomicAdd.answerAck

theorem Kept.takeMessage {p} (h : Kept I s) : Kept I (s.takeMessage p) := by
  dsimp only [State.takeMessage]
  split
  · exact h.tellRefuse
  · split
    · exact h.tellRefuse
    · split
      · exact h.tellRefuse
      · split
        · exact h.tellRefuse
        · exact h.same.sendAnswer.ite h.deliver.answerAck

theorem Kept.tellFree (h : Kept I s) : Kept I s.tellFree := h.ite (h.same.foldl fun h => h.sendAnswer)
theorem Kept.runRequest {p} (h : Kept I s) : Kept I (s.runRequest p) := h.same.takeMessage.ite h.same.oneSided

theorem Kept.runEarly {src n} (h : Kept I s) : Kept I (s.runEarly src n) := by
  induction n generalizing s with
  | zero => exact h
  | succ n ih =>
    unfold State.runEarly
    split
    · exact h
    · exact ih h.same.runRequest

theorem Kept.answerAgain {p} (h : Kept I s) : Kept I (s.answerAgain p) := by
  dsimp only [State.answerAgain]
  split
  · exact h.sendAnswer
  · exact h.answerAck.ite (h.answerRead.ite h.tellRefuse)

theorem Kept.arriveRequest {p} (h : Kept I s) : Kept I (s.arriveRequest p) :=
  h.ite (h.runRequest.runEarly.ite (h.answerAgain.ite (h.ite h.same)))

theorem Kept.takeCollective {group idx node a4} (h : Kept I s) : Kept I (s.takeCollective group idx node a4) := by
  dsimp only [State.takeCollective]
  split
  · split
    · exact h.failRun
    · exact h.endRunOf
  · exact h.addToRun.advanceRun
  · exact h.addToRun.advanceRun
  · exact h.addToRun.advanceRun

theorem Kept.collectiveArrive {group k node m} (h : Kept I s) : Kept I (collectiveArrive group k node m s) := by
  dsimp only [Machine.collectiveArrive]
  split
  · exact h
  · split
    · exact h.same.hwSet.sendAnswer
    · split
      · split
        · split
          · split
            · exact h.failRun
            · exact h
          · refine .collTell ?_
            split
            · exact h.failRun
            · exact h
        · exact h.ite h.takeCollective
      · split
        · split
          · split
            · exact h.failRun
            · exact h
          · refine .collTell ?_
            split
            · exact h.failRun
            · exact h
        · exact h.ite h.takeCollective

theorem Kept.takePacket {p} (h : Kept I s) : Kept I (s.takePacket p) := by
  dsimp only [State.takePacket]
  split
  · exact h.arriveRequest
  · exact h.arriveRequest
  · exact h.arriveRequest
  · exact h.arriveRequest
  · exact h.readData
  · exact h.ackReceive
  · exact h.notReadyReceive
  · exact h.xqFreeReceive
  · exact h.refuseReceive
  · exact h

theorem Kept.packetForward {port p} (h : Kept I s) : Kept I (packetForward port p s) :=
  h.ite (h.countDiscard.ite (h.takePacket.ite (h.countDiscard.ite (h.same.hwSet.countDiscard.ite h.sendVia))))
theorem Kept.routeOwn {p} (h : Kept I s) : Kept I (s.routeOwn p) := h.ite (h.takePacket.ite h.sendVia)
theorem Kept.routeOutbox (h : Kept I s) : Kept I s.routeOutbox := h.ite (h.same.foldl fun h => h.routeOwn)

theorem Kept.localOp {a len bytes poison} (h : Kept I s) : Kept I (s.localOp a len bytes poison) := by
  dsimp only [State.localOp]
  split
  · exact h.finishFabOp.ite h.memWrite.finishFabOp
  · exact h.finishFabOp.ite h.putLocal.finishFabOp
  · exact h.finishFabOp.ite h.atomicAdd.finishFabOp

theorem Kept.fabOpGo {v} (h : Kept I s) : Kept I (fabOpGo v s) :=
  h.ite (h.same.ite (h.same.finishFabOp.ite (h.same.localOp.ite (h.same.finishFabOp.ite h.same.sendReq))))
theorem Kept.fabRtDataWrite {v} (h : Kept I s) : Kept I (fabRtDataWrite v s) := h.same
theorem Kept.fabNodeIdWrite {v} (h : Kept I s) : Kept I (fabNodeIdWrite v s) := h.same.elect.ite h.same.hwSet
theorem Kept.collGroupEntryWrite {f v} (h : Kept I s) : Kept I (collGroupEntryWrite f v s) := h.ite h.same

/-! ### Machine/Clock.lean -/

theorem Kept.aclkCycle {d} (h : Kept I s) : Kept I (s.aclkCycle d) := (h.foldl fun h => h.partCycle.ite h).setDie
theorem Kept.tickDie {d} (h : Kept I s) : Kept I (s.tickDie d) := h.setDie.hwSetIf.foldl fun h => h.aclkCycle
theorem Kept.trackIdle (h : Kept I s) : Kept I s.trackIdle := h.same
theorem Kept.tick (h : Kept I s) : Kept I s.tick :=
  h.ite ((h.same.trackIdle.foldl fun h => h.tickDie).ite h.same.trackIdle).tellFree.routeOutbox

/-! ### Machine/Dram.lean -/

theorem Kept.groupChanged {g old} (h : Kept I s) : Kept I (s.groupChanged g old) := by
  unfold State.groupChanged
  refine h.ite ?_
  dsimp only
  generalize hs2 : (if (s.mem.group g).state = 2 then (_ : State) else _) = s2
  have changed : Kept I { s with mem := { s.mem with stateChanged := true } } := h.memRegs
  have h2 : Kept I s2 := hs2 ▸ changed.hwSet.event.ledgerFlag.ite changed.hwSet.event
  exact h2.alert.ite h2

theorem Kept.positionFail {g p} (h : Kept I s) : Kept I (s.positionFail g p) :=
  h.ite (h.otp fun _ => .position).spare.event.commitWords.groupChanged
theorem Kept.countErasures {g flagged} (h : Kept I s) : Kept I (s.countErasures g flagged) := h.memRegs
theorem Kept.failWorn {g} (h : Kept I s) : Kept I (s.failWorn g) := h.foldl fun h => h.positionFail

theorem Kept.logDecoded {line flagged v} (h : Kept I s) : Kept I (s.logDecoded line flagged v) := by
  dsimp only [State.logDecoded]
  split
  · exact h.countErasures.eventAgg.failWorn
  · exact h.ite h.event
  · exact h

theorem Kept.settleDecode {line flagged v} (h : Kept I s) : Kept I (s.settleDecode line flagged v).2 := by
  unfold State.settleDecode
  split
  · exact h
  · dsimp only
    split
    · exact h.draw (w := 1)
    · exact h.draw (w := 1)
  · exact h

theorem Kept.codecRead {line flagged unflagged} (h : Kept I s) : Kept I (s.codecRead line flagged unflagged).2 := by
  dsimp only [State.codecRead]
  exact (h.settleDecode.logDecoded.mem (.noteRead ..)).same

theorem Kept.memLineRead {line flagged unflagged} (h : Kept I s) : Kept I (memLineRead line flagged unflagged s) :=
  h.ite h.codecRead.same
theorem Kept.memLineWrite {line data mask poisoned} (h : Kept I s) : Kept I (memLineWrite line data mask poisoned s) :=
  h.ite h.memWrite

theorem Kept.patrolScrubLine {line flagged unflagged} (h : Kept I s) :
    Kept I (patrolScrubLine line flagged unflagged s) := by
  dsimp only [Machine.patrolScrubLine]
  split
  · exact h
  · split
    · exact h.codecRead.mem (.rewriteLine line)
    · exact h.codecRead.ite (h.codecRead.mem (.poisonLine line)).logPoison
    · exact h.codecRead

theorem Kept.packageFail {g p} (h : Kept I s) : Kept I (s.packageFail g p) := h.foldl fun h => h.positionFail
theorem Kept.memPositionFail {g p package} (h : Kept I s) : Kept I (memPositionFail g p package s) :=
  h.packageFail.ite h.positionFail
theorem Kept.memChanFail {g p} (h : Kept I s) : Kept I (memChanFail g p s) := h.positionFail
theorem Kept.hotRefresh {ch} (h : Kept I s) : Kept I (hotRefresh ch s) := h.ite h.memRegs.event
theorem Kept.recordRetired {gs : List Nat} (h : Kept I s) : Kept I (gs.foldl (fun s g =>
    (s.otp fun o => { o with groups := o.groups ||| BitVec.ofNat 40 (2 ^ g) }).spare (5 + g / 8) .memory (srcGroup g) 0) s) :=
  h.foldl fun h => (h.otp fun _ => .group).spare

theorem Kept.memReformStart (h : Kept I s) : Kept I (memReformStart s) :=
  h.ite (h.memRegs.hwSet.ite (recordRetired (gs := maskGroups s.mem.reformMask) h).memRegs)
theorem Kept.retireGroups {gs} (h : Kept I s) : Kept I (s.retireGroups gs) := h.commitWords

/-- Only the groups of memory can differ. -/
def OnlyGroups (s t : State) : Prop := ∃ g, t.mem = { s.mem with groups := g }

theorem OnlyGroups.of_mem {s t : State} (h : t.mem = s.mem) : OnlyGroups s t := ⟨s.mem.groups, h⟩

theorem OnlyGroups.trans {a b c : State} (h : OnlyGroups a b) (k : OnlyGroups b c) : OnlyGroups a c := by
  obtain ⟨_, h⟩ := h
  obtain ⟨g, k⟩ := k
  exact ⟨g, by rw [k, h]⟩

theorem OnlyGroups.wf {s t : State} (h : OnlyGroups s t) : t.mem.wf = true ↔ s.mem.wf = true := by
  obtain ⟨g, h⟩ := h
  rw [h]
  rfl

@[simp] theorem ledgerAppend_mem {d type src payload} : (s.ledgerAppend d type src payload).mem = s.mem := by
  simp [State.ledgerAppend, apply_ite State.mem]

theorem crustTake_onlyGroups {e} : OnlyGroups s (s.crustTake e) := by
  have record : (s.mapRecord e.1 e.2).mem = s.mem := by simp [State.mapRecord, apply_ite State.mem]
  refine OnlyGroups.trans (.of_mem record) ?_
  unfold State.crustTake State.crustPut
  dsimp only
  split
  · exact .of_mem rfl
  · split
    · exact ⟨_, rfl⟩
    · exact .of_mem rfl

theorem commitStaged_onlyGroups : OnlyGroups s s.commitStaged := by
  obtain ⟨g, words⟩ : OnlyGroups s (s.crust.staged.foldl (fun s e => s.crustTake (e.1.toNat, e.2)) s) :=
    foldl_keeps OnlyGroups (fun _ => .of_mem rfl) (fun _ _ _ => .trans) _ (fun _ _ => crustTake_onlyGroups) _ _
  exact ⟨g, words⟩

theorem commitWords_onlyGroups {es} : OnlyGroups s (s.commitWords es) := commitStaged_onlyGroups (s := s.stage _ _)

theorem Kept.memReformDone (h : Kept I s) : Kept I (memReformDone s) := by
  unfold Machine.memReformDone
  split
  · exact h
  · next mask _ =>
    have retired := Kept.retireGroups (gs := maskGroups mask) (h.mem .settleErrs)
    have groups : OnlyGroups { s with mem := s.mem.settleErrs } (State.retireGroups _ (maskGroups mask)) := commitWords_onlyGroups
    dsimp only
    generalize State.retireGroups _ (maskGroups mask) = s1 at retired groups ⊢
    have reformed := retired.mem (.reformed s1.mem.hostTop fun ok => copiedPoison_rises (groups.wf.1 ok) s1.mem.hostTop)
    exact reformed.memRegs.same.hwSet.foldl fun h => h.logPoison

theorem Kept.cutReform (h : Kept I s) : Kept I s.cutReform := by
  dsimp only [State.cutReform]
  split
  · exact h
  · exact h.retireGroups

/-! ### Machine/Rewind.lean -/

theorem Kept.journalAppend {n e full} (h : Kept I s) : Kept I (journalAppend n e full s) := by
  dsimp only [Machine.journalAppend]
  split
  · exact h
  · split
    · exact h
    · split
      · exact h.setCtx.hwSet
      · split
        · exact h
        · exact h.setCtx.writeOpen.ite h.setCtx

theorem Kept.applyUndo {n a2} (h : Kept I s) : Kept I (s.applyUndo n a2) := by
  dsimp only [State.applyUndo]
  split
  · exact h.memPut.ite h.dssPut
  · exact h

theorem Kept.moveCore {d l old new} (h : Kept I s) : Kept I (s.moveCore d l old new) :=
  h.updCore.updCore.same.commitWords

theorem Kept.takeSpare {d l p vs tests t} (h : Kept I s) (ht : s.takeSpare d l p vs tests = some t) : Kept I t := by
  induction vs generalizing s tests with
  | nil => cases ht
  | cons v vs ih =>
    cases tests with
    | nil => cases ht
    | cons ok tests =>
      unfold State.takeSpare at ht
      split at ht
      · cases ht
        exact h.retireCore.moveCore
      · exact ih h.retireCore ht

theorem Kept.restoreCtx {n cn m} (h : Kept I s) : Kept I (s.restoreCtx n cn m) := by
  dsimp only [State.restoreCtx]
  split
  · exact ((h.foldl fun h => h.applyUndo).foldl fun h => h.updCore).setCtx.updPart.updEntry.resumeRun
  · exact ((h.foldl fun h => h.applyUndo).foldl fun h => h.updCore).setCtx.updPart

theorem Kept.rewind {n tests} (h : Kept I s) : Kept I (rewind n tests s) := by
  unfold Machine.rewind
  dsimp only
  refine h.ite ?_
  split
  · split
    · exact h.noSpare
    · exact h
  · next s1 hs =>
    have h1 : Kept I s1 := by
      split at hs
      · cases hs
        exact h
      · exact h.takeSpare hs
    split
    · exact h1
    · split
      · exact h1.same.restoreCtx
      · exact h1

theorem Kept.replayEnd {r} (h : Kept I s) : Kept I (replayEnd s r) := by
  dsimp only [Machine.replayEnd]
  split
  · exact h
  · split
    · exact h.updPart
    · exact h.ite h.setCtx.updCore.updPart

/-! ### Machine/Reset.lean -/

theorem Kept.dropSuspect {cn} (h : Kept I s) : Kept I (s.dropSuspect cn) := h.same
theorem Kept.setVerdict {v} (h : Kept I s) : Kept I (s.setVerdict v) := h.same
theorem Kept.abortSuspect {x} (h : Kept I s) : Kept I (s.abortSuspect x) :=
  ((h.foldl fun h => h.killContext.withdraw).setCtx.dropSuspect.setVerdict.ite
    (h.foldl fun h => h.killContext.withdraw)).ite
    ((h.foldl fun h => h.stopForRewind).ite (h.foldl fun h => h.killContext.withdraw).dropSuspect.setVerdict)

theorem Kept.contextAbort {cn} (h : Kept I s) : Kept I (contextAbort cn s) := by
  dsimp only [Machine.contextAbort]
  refine .beginStep ?_
  split
  · exact h.abortSuspect
  · exact h.foldl fun h => h.abortPart

theorem Kept.updAllCores {f} (h : Kept I s) : Kept I (s.updAllCores f) := h.same

theorem Kept.abortSuspects {u} (h : Kept I s) : Kept I (s.abortSuspects u) := by
  dsimp only [State.abortSuspects]
  refine .foldl ?_ ?_
  · exact h
  · intro s _ h
    split
    · exact h
    · split
      · exact h.addSuspect.abortSuspect
      · exact h.addSuspect

theorem Kept.loseEngine {u} (h : Kept I s) : Kept I (s.loseEngine u) := by
  unfold State.loseEngine
  split
  · exact h.updCore.dropRequests
  · exact (h.setEngine.foldl fun h => h.updCore).same
  · exact h.updAllCores.same
  · next p => exact h.setPort (n := p) (p := (s.port p).retrain s.now)
  · exact h

theorem Kept.resetEngine {u} (h : Kept I s) : Kept I (s.resetEngine u) := h.abortSuspects.loseEngine
theorem Kept.engineReset {u} (h : Kept I s) : Kept I (engineReset u s) := h.resetEngine.beginStep
theorem Kept.endAllEntries (h : Kept I s) : Kept I s.endAllEntries :=
  (h.foldl fun h => h.complete).same.foldl fun h => h.writeCompletion
theorem Kept.flushMaps (h : Kept I s) : Kept I s.flushMaps := (h.foldl fun h => h.crustPut).same

theorem Kept.moduleCleared (h : Kept I s) : Kept I s.moduleCleared := (h.mem .afterReset).same (otp := rfl)

theorem Kept.startModuleReset (h : Kept I s) : Kept I s.startModuleReset :=
  h.endAllEntries.flushMaps.cutReform.moduleCleared.settleAlert.beginStep

theorem Kept.requestPowerCycle (h : Kept I s) : Kept I s.requestPowerCycle := by
  have written : Kept I ((List.range 20).foldl State.writeCounters s) := h.foldl fun h => h.writeCounters
  exact h.ite written.same.emit

theorem Kept.powerCycled (h : Kept I s) : Kept I s.powerCycled :=
  Kept.settleAlert (((h.mem .afterReset).mem .initialise).same (otp := rfl))

theorem Kept.powerCycle (h : Kept I s) : Kept I (powerCycle s) := h.ite h.flushMaps.cutReform.powerCycled.emit

theorem Kept.stepDone {u} (h : Kept I s) : Kept I (s.stepDone u) := by
  dsimp only [State.stepDone]
  split
  · exact h.updPart
  · exact h.same
  · exact h

theorem Kept.dropStep {i} (h : Kept I s) : Kept I (s.dropStep i) := h.same

theorem Kept.ladderStepComplete {i} (h : Kept I s) : Kept I (ladderStepComplete i s) := by
  dsimp only [Machine.ladderStepComplete]
  split
  · exact h
  · exact h.dropStep.stepDone.ladderEvent

theorem Kept.escalate {u} (h : Kept I s) : Kept I (s.escalate u) := by
  dsimp only [State.escalate]
  split
  · split
    · exact h.resetEngine.beginStep
    · exact h
  · split
    · exact h.startPartReset
    · exact h
  · exact h.foldl fun h => h.startPartReset.ite h
  · exact h.requestPowerCycle
  · exact h.startModuleReset

theorem Kept.ladderStepTimeout {i} (h : Kept I s) : Kept I (ladderStepTimeout i s) := by
  dsimp only [Machine.ladderStepTimeout]
  split
  · exact h
  · exact h.ite h.dropStep.ladderEvent.same.hwSet.escalate

theorem Kept.partitionReset {n} (h : Kept I s) : Kept I (partitionReset n s) := h.ite h.startPartReset
theorem Kept.rstReqPartition {n} (h : Kept I s) : Kept I (rstReqPartition n s) := h.same.hwSet.ite h.startPartReset

theorem Kept.failUnit {u} (h : Kept I s) : Kept I (s.failUnit u) := by
  unfold State.failUnit
  split
  · exact h.coreFail
  · split
    · exact h
    · refine Kept.otp (.spare (.updEngine (h.foldl fun h => ?_)))
      exact h.updEngine.ite h
  · refine Kept.ite ?_ h.same.startModuleReset
    exact Kept.same (.startModuleReset (.ledgerFlag (h.otp fun _ => .retire)))

theorem Kept.guilty {x} (h : Kept I s) : Kept I (s.guilty x) :=
  ((h.foldl fun h => h.killContext.withdraw).same.ite
    (((h.foldl fun h => h.withdraw.updPart).foldl fun h => h.endRun).foldl
    fun h => h.complete).setCtx).dropSuspect.same.hwSet

theorem Kept.hangVerdict {v} (h : Kept I s) : Kept I (hangVerdict v s) := by
  dsimp only [Machine.hangVerdict]
  split
  · exact h
  · split
    · exact h.dropSuspect.setVerdict.ite h.dropSuspect
    · exact h.same.failUnit.ite h.guilty

theorem Kept.managementReset (h : Kept I s) : Kept I s.managementReset := h.endDebug.same
theorem Kept.ovenTimerRestart (h : Kept I s) : Kept I (ovenTimerRestart s) := h.same

theorem Kept.ovenTimerExpire (h : Kept I s) : Kept I (ovenTimerExpire s) := by
  dsimp only [Machine.ovenTimerExpire]
  split
  · exact h.requestPowerCycle.ite h
  · exact h.ite (h.same.event.requestPowerCycle.ite h.same.event.managementReset)

theorem Kept.densify {d} (h : Kept I s) : Kept I (s.densify d) := h.commitWords.ite h
theorem Kept.ptCfgWrite {n vf v} (h : Kept I s) : Kept I (ptCfgWrite n vf v s) :=
  h.ite (h.setPart.hwSet.ite (h.setPart.densify.ite h.setPart))
theorem Kept.ptRstHoldWrite {n vf hold} (h : Kept I s) : Kept I (ptRstHoldWrite n vf hold s) :=
  h.ite ((h.setPart.hwSet.ite h.setPart).ite (h.setPart.ite (h.same.setPart.hwSet.hwSet.ite h.setPart.startPartReset)))

/-! ### Machine/Dump.lean -/

theorem Kept.startDump {trigger scope} (h : Kept I s) : Kept I (s.startDump trigger scope) :=
  h.ite (h.same.ite h.same.wake)

theorem Kept.dumpStart {pt cycle} (h : Kept I s) : Kept I (dumpStart pt cycle s) := by
  dsimp only [Machine.dumpStart]
  split
  · exact h
  · split
    · exact h.startDump
    · exact h.startDump

theorem Kept.dumpGo (h : Kept I s) : Kept I (dumpGo s) := by
  dsimp only [Machine.dumpGo]
  split
  · exact h.startDump
  · exact h

theorem Kept.dumpUnitTimeout {src} (h : Kept I s) : Kept I (dumpUnitTimeout src s) := by
  dsimp only [Machine.dumpUnitTimeout]
  split
  · exact h
  · exact h.same

theorem Kept.storeDump {r xs bytes} (h : Kept I s) : Kept I (s.storeDump r xs bytes) :=
  h.same.ite ((h.same.mem (.openArea ..)).foldl fun h => h.memPut)
theorem Kept.copyDump {bytes} (h : Kept I s) : Kept I (s.copyDump bytes) := h.ite (h.foldl fun h => h.emit)

theorem Kept.dumpEnd {xs} (h : Kept I s) : Kept I (dumpEnd xs s) := by
  dsimp only [Machine.dumpEnd]
  split
  · exact h
  · exact h.ite (h.storeDump.same.copyDump.ite h.storeDump.same).hwSet

theorem Kept.dumpPortDataRead (h : Kept I s) : Kept I (dumpPortDataRead s) := h.same

/-! ### Machine/TimeSync.lean -/

theorem Kept.delayReqSend (h : Kept I s) : Kept I (delayReqSend s) := h.ite (h.foldl fun h => h.updPort.portSend.ite h)
theorem Kept.delayReq {n} (h : Kept I s) : Kept I (delayReq n s) := h.atPort (h.ite h.portSend)

theorem Kept.delayRsp {n t2 t3} (h : Kept I s) : Kept I (delayRsp n t2 t3 s) := by
  dsimp only [Machine.delayRsp]
  refine .atPort ?_ ?_
  · exact h
  · split
    · exact h
    · exact h.ite h.setPort

theorem Kept.moveUnits {d} (h : Kept I s) : Kept I (s.moveUnits d) := h.same

theorem Kept.moveEntries {d} (h : Kept I s) : Kept I (s.moveEntries d) := h.same

theorem Kept.moveTimers {d} (h : Kept I s) : Kept I (s.moveTimers d) := h.same

theorem Kept.newGrids {old} (h : Kept I s) : Kept I (s.newGrids old) := h.same

theorem Kept.enableScanner (h : Kept I s) : Kept I s.enableScanner := h.same.ite h
theorem Kept.stepTime {theta} (h : Kept I s) : Kept I (s.stepTime theta) :=
  h.flushEvents.same.moveUnits.moveEntries.moveTimers.newGrids.same.hwSet.commitEvent.enableScanner
theorem Kept.syncCheck {theta} (h : Kept I s) : Kept I (s.syncCheck theta) :=
  h.ite (h.same.hwSet.event.alert.ite h.same.hwSet.event)
theorem Kept.syncReceive {n ts} (h : Kept I s) : Kept I (syncReceive n ts s) :=
  h.atPort (h.ite (h.same.stepTime.setHoldover.same.ite h.same.setHoldover.syncCheck))
theorem Kept.syncSend (h : Kept I s) : Kept I (syncSend s) := h.ite (h.foldl fun h => h.portSend.ite h)

theorem Kept.syncTimeout (h : Kept I s) : Kept I (syncTimeout s) := by
  dsimp only [Machine.syncTimeout]
  split
  · exact h
  · exact h.ite h.updPort.same.setHoldover

theorem Kept.timeSyncTimeout (h : Kept I s) : Kept I (timeSyncTimeout s) := h.ite h.same.setHoldover.elect.enableScanner

/-! ### Machine/Power.lean -/

theorem Kept.setPwrGood {b} (h : Kept I s) : Kept I (s.setPwrGood b) := h.ite h.updPower.emit
theorem Kept.sendLtr (h : Kept I s) : Kept I s.sendLtr := h.ite h.emit
theorem Kept.setW {w} (h : Kept I s) : Kept I (s.setW w) := h.updPower.ite h.updPower.sendLtr

theorem Kept.railsLost (h : Kept I s) : Kept I s.railsLost :=
  (h.flushMaps.cutReform.moduleCleared.mem .initialise).same

theorem Kept.enterW5 (h : Kept I s) : Kept I s.enterW5 := h.railsLost.settleAlert.setPwrGood.setW

theorem Kept.darkened (h : Kept I s) : Kept I s.darkened := h.flushMaps.cutReform.powerCycled.same

/-- A pin that is let go where it is asserted. -/
theorem Kept.released {c : Prop} [Decidable c] {o} (h : Kept I s) : Kept I (if c then s.emit o else s) := h.emit.ite h

theorem Kept.inputUndervoltage (h : Kept I s) : Kept I (inputUndervoltage s) :=
  h.ite (Kept.darkened (.released (.released (.released (.released h.setPwrGood)))))

theorem Kept.powerOn {slotId} (h : Kept I s) : Kept I (powerOn slotId s) := h.ite h.updPower
theorem Kept.overvoltageCutoff (h : Kept I s) : Kept I (overvoltageCutoff s) :=
  h.ite (h.updPower.ite h.updPower.enterW5).hwSet
theorem Kept.overvoltageRecover (h : Kept I s) : Kept I (overvoltageRecover s) := h.ite h.updPower.wake
theorem Kept.pwrEnRise {cool} (h : Kept I s) : Kept I (pwrEnRise cool s) := h.ite h.updPower.wake
theorem Kept.pwrEnFall (h : Kept I s) : Kept I (pwrEnFall s) := h.ite (h.updPower.ite h.updPower.endAllEntries.enterW5)
theorem Kept.mainRailsInRegulation (h : Kept I s) : Kept I (mainRailsInRegulation s) :=
  h.setPwrGood.ite (h.updPower.setPwrGood.ite h)
theorem Kept.mainRailOut (h : Kept I s) : Kept I (mainRailOut s) := h.setPwrGood

theorem Kept.thermalTrip {die} (h : Kept I s) : Kept I (thermalTrip die s) := by
  refine h.ite (.hwSet (.emit (.emit (.elect ?_))))
  exact h.updPower.enterW5.same

theorem Kept.thermTripRelease (h : Kept I s) : Kept I (thermTripRelease s) := h.ite h.updPower.emit
theorem Kept.powerAlert {b} (h : Kept I s) : Kept I (s.powerAlert b) := h.alert.ite h
theorem Kept.lowerAclk {steps} (h : Kept I s) : Kept I (s.lowerAclk steps) := h.foldl fun h => h.setDie
theorem Kept.binAclk {steps limit} (h : Kept I s) : Kept I (s.binAclk steps limit) :=
  h.foldl fun h => h.setDie.ite h.setDie
theorem Kept.supplyDroop {d} (h : Kept I s) : Kept I (supplyDroop d s) := h.ite (h.setDie.ite h.setDie.hwSet)
theorem Kept.droopClear {d} (h : Kept I s) : Kept I (droopClear d s) := h.setDie
theorem Kept.thermalStepDown {d} (h : Kept I s) : Kept I (thermalStepDown d s) :=
  h.ite h.setDie.updPower.hwSetIf.powerAlert
theorem Kept.vinBelowMin {mv current steps} (h : Kept I s) : Kept I (vinBelowMin mv current steps s) :=
  h.ite (h.updPower.lowerAclk.ite h.updPower).hwSet.powerAlert
theorem Kept.applyBand {force} (h : Kept I s) : Kept I (s.applyBand force) := h.ite (h.updPower.hwSet.ite h.updPower)
theorem Kept.takeBand {b force} (h : Kept I s) : Kept I (s.takeBand b force) := h.hwSetIf.same

theorem Kept.beginBin {steps} (h : Kept I s) : Kept I (s.beginBin steps) := by
  dsimp only [State.beginBin]
  refine .updPower ?_
  split
  · exact h.takeBand.binAclk.ite h.takeBand
  · exact h.binAclk.ite h

theorem Kept.powerBinEnd {draw ballast steps} (h : Kept I s) : Kept I (powerBinEnd draw ballast steps s) :=
  h.ite (h.updPower.hwSet.powerAlert.updPower.ite h.updPower.hwSet.powerAlert.beginBin)
theorem Kept.forecastPublish {bins} (h : Kept I s) : Kept I (forecastPublish bins s) :=
  h.ite (h.updPower.emit.ite h.updPower)
theorem Kept.saveDss (h : Kept I s) : Kept I s.saveDss :=
  (h.mem (.zeroArea ..)).foldl fun h => h.foldl fun h => h.memWrite
theorem Kept.loadDss (h : Kept I s) : Kept I s.loadDss := h.foldl fun h => h.setDie

theorem Kept.enterW3 (h : Kept I s) : Kept I s.enterW3 := by
  unfold State.enterW3
  dsimp only
  generalize hs1 : (List.foldl _ s _).saveDss = s1
  have h1 : Kept I s1 := hs1 ▸ (Kept.foldl h fun h => h.switchOut).saveDss
  exact h1.same

theorem Kept.wStateEnter (h : Kept I s) : Kept I (wStateEnter s) := by
  dsimp only [Machine.wStateEnter]
  split
  · exact h
  · split
    · exact h
    · exact h.ite (h.enterW5.ite ((h.updAllCores.ite h).enterW3.ite (h.updAllCores.ite h)).setW)

theorem Kept.leaveW3 (h : Kept I s) : Kept I s.leaveW3 := (h.loadDss.same.foldl fun h => h.ite h.switchTo).same
theorem Kept.leaveW5 (h : Kept I s) : Kept I s.leaveW5 := by
  dsimp only [State.leaveW5]
  exact Kept.settleAlert (h.same (otp := rfl))

theorem Kept.wStateExitDone (h : Kept I s) : Kept I (wStateExitDone s) := by
  dsimp only [Machine.wStateExitDone]
  split
  · exact h
  · split
    · exact h.leaveW5.setW.enableScanner.ite h
    · exact h.leaveW3.setW
    · exact h.leaveW3.setW
    · exact h.setW

theorem Kept.pwrWakeTolWrite {v} (h : Kept I s) : Kept I (pwrWakeTolWrite v s) := h.ite (h.updPower.wake.ite h.updPower)
theorem Kept.laserBayOpen {e} (h : Kept I s) : Kept I (laserBayOpen e s) :=
  h.ite (h.setBay.foldl fun h => h.atPort h.linkLoss)
theorem Kept.laserSourceInsert {e spares} (h : Kept I s) : Kept I (laserSourceInsert e spares s) := h.ite h.setBay

theorem Kept.laserFail {e l} (h : Kept I s) : Kept I (laserFail e l s) := by
  dsimp only [Machine.laserFail]
  split
  · exact h
  · split
    · exact h
    · split
      · exact (h.foldl fun h => h.laneRetire).setBay.spare.otp.commitWords
      · exact (h.foldl fun h => h.laneRetire).setBay.spare.otp

theorem Kept.dieLinkRetry {src} (h : Kept I s) : Kept I (dieLinkRetry src s) := h.ite h.updLink.countLinks.eventAgg
theorem Kept.dieLinkLaneRepair {src} (h : Kept I s) : Kept I (dieLinkLaneRepair src s) :=
  h.ite h.updLink.countLinks.spare
theorem Kept.dieOut {d} (h : Kept I s) : Kept I (s.dieOut d) :=
  h.setDie.foldl fun h => h.ite h.endBound.startPartReset.updPart
theorem Kept.portsOff {first n} (h : Kept I s) : Kept I (s.portsOff first n) :=
  h.foldl fun h => h.atPort h.linkLoss.updPort
theorem Kept.linkGone {src peer} (h : Kept I s) : Kept I (s.linkGone src peer) :=
  h.dieOut.ite (h.dieOut.ite (h.startModuleReset.ite (h.portsOff.ite h.portsOff)))

theorem Kept.dieLinkLost {src} (h : Kept I s) : Kept I (dieLinkLost src s) := by
  dsimp only [Machine.dieLinkLost]
  split
  · exact h
  · exact h.updLink.spare.updLink.spare.linkGone

/-! ### Machine/HostLink.lean -/

theorem Kept.updHost {f} (h : Kept I s) : Kept I (s.updHost f) := h.same

theorem Kept.aer {fn e} (h : Kept I s) : Kept I (s.aer fn e) := h.updHost

theorem Kept.failRead {r e} (h : Kept I s) : Kept I (s.failRead r e) := by
  dsimp only [State.failRead]
  split
  · exact h.updHost.aer.bringData
  · exact h.updHost.aer

theorem Kept.failReads {e} (h : Kept I s) : Kept I (s.failReads e) := h.foldl fun h => h.failRead

theorem Kept.hostCompletion {tag c} (h : Kept I s) : Kept I (hostCompletion tag c s) := by
  dsimp only [Machine.hostCompletion]
  split
  · exact h
  · split
    · exact h.failRead
    · exact h.failRead
    · split
      · exact h
      · split
        · exact (h.updHost.aer.ite h.updHost).bringData
        · exact h.updHost.aer.ite h.updHost

theorem Kept.pcieCplTimeout {tag} (h : Kept I s) : Kept I (pcieCplTimeout tag s) := by
  dsimp only [Machine.pcieCplTimeout]
  split
  · exact h
  · exact h.ite h.failRead

theorem Kept.pcieTrainRetry {lanes} (h : Kept I s) : Kept I (pcieTrainRetry lanes s) := h.ite h.event
theorem Kept.pcieLinkUp {gen width flit} (h : Kept I s) : Kept I (pcieLinkUp gen width flit s) := h.ite h.updHost
theorem Kept.pcieLinkDown (h : Kept I s) : Kept I (pcieLinkDown s) := h.ite (h.failReads.updHost).aer
theorem Kept.pcieReplay (h : Kept I s) : Kept I (pcieReplay s) := h.ite h.updHost.aer
theorem Kept.l0pRequest {reduced} (h : Kept I s) : Kept I (l0pRequest reduced s) := h.ite h.updHost
theorem Kept.releaseWake (h : Kept I s) : Kept I s.releaseWake := h.updPower.emit.ite h

theorem Kept.resumeHost (h : Kept I s) : Kept I s.resumeHost := h.ite h.same

theorem Kept.pcieConfigWrite {fn c} (h : Kept I s) : Kept I (pcieConfigWrite fn c s) := by
  refine h.ite ?_
  cases c with
  | bme b => exact h.setFn.resumeHost.releaseWake.ite h.setFn
  | mse b => exact h.setFn
  | msixEnable b => exact h.setFn
  | d3hot b => exact h.setFn.releaseWake
  | vfEnable b => exact h.ite h.updHost
  | barSize n => exact h.updHost.ite h
  | maxPayload n => exact h.updHost.ite h
  | relaxed b => exact h.updHost.ite h
  | vfBarSize n => exact h.updHost.ite h

theorem Kept.perstAssert (h : Kept I s) : Kept I (perstAssert s) := h.ite (h.failReads.updHost)
theorem Kept.perstDeassert (h : Kept I s) : Kept I (perstDeassert s) := h.ite h.updHost.same
theorem Kept.vfFlr {vf} (h : Kept I s) : Kept I (vfFlr vf s) := h.ite h.setFn.partitionReset
theorem Kept.pfFlr (h : Kept I s) : Kept I (pfFlr s) := h.ite (h.updHost).same
theorem Kept.bar2Read {fn off len} (h : Kept I s) : Kept I (bar2Read fn off len s) :=
  h.ite ((h.wake.ite h).same.ite (h.wake.ite h).aer.same)

theorem Kept.bar2Write {fn off bytes poisoned} (h : Kept I s) : Kept I (bar2Write fn off bytes poisoned s) := by
  have h0 := (h.aer (fn := fn) (e := .poisoned)).ite (c := poisoned = true) h
  have h1 := h0.wake.ite (c := s.power.st = .w4) h0
  exact h.ite (h1.memWrite.ite h1.aer)

theorem Kept.msixDeliverable {fn v} (h : Kept I s) : Kept I (msixDeliverable fn v s) := h.ite h.setFn.emit
theorem Kept.doeAbort (h : Kept I s) : Kept I (doeAbort s) := h.ite h.updHost

/-! ### Machine/LedgerScan.lean -/

theorem Kept.otpGroups (h : Kept I s) : Kept I s.otpGroups := h.foldl fun h => h.ite h.memRegs
theorem Kept.showGroups (h : Kept I s) : Kept I s.showGroups := h.foldl fun h => h.same

theorem Kept.rebuildMaps (h : Kept I s) : Kept I s.rebuildMaps := by
  unfold State.rebuildMaps
  dsimp only
  generalize hs1 : List.foldl _ s s.bootOffsets = s1
  have h1 : Kept I s1 := hs1 ▸ Kept.foldl h fun h => h.crustPut
  exact h1.otpGroups.ite h1.otpGroups.showGroups

theorem Kept.noteInconsistent {e} (h : Kept I s) : Kept I (s.noteInconsistent e) := h.same.ledgerFlag.event
theorem Kept.largerCounts {m} (h : Kept I s) : Kept I (s.largerCounts m) := h.foldl fun h => h.ite h.setDie
theorem Kept.readLedger (h : Kept I s) : Kept I s.readLedger :=
  h.same.rebuildMaps.largerCounts.foldl fun h => h.noteInconsistent
theorem Kept.ledgerBoot (h : Kept I s) : Kept I s.ledgerBoot := h.ite h.readLedger

/-! ### Machine/Security.lean -/

theorem Kept.updSec {f} (h : Kept I s) : Kept I (s.updSec f) := h.same
theorem Kept.mbxEnd {cmd e} (h : Kept I s) : Kept I (s.mbxEnd cmd e) := h.updSec.hwSet

theorem Kept.startImage {rd} (h : Kept I s) : Kept I (s.startImage rd) := by
  unfold State.startImage
  have loaded {f l} : Kept I { (s.ledgerBoot.draw 24).2.updSec f with ladder := l } := h.ledgerBoot.draw.updSec.same
  exact (loaded.wake.ite loaded).enableScanner

theorem Kept.runRom (h : Kept I s) : Kept I s.runRom.1 := by
  unfold State.runRom
  dsimp only
  split
  · exact h.startImage
  · exact h.same

theorem Kept.starterRomBoot (h : Kept I s) : Kept I (starterRomBoot s) := h.ite h.runRom

theorem Kept.mailbox {cmd} {f : State → State} (h : Kept I s) (hf : Kept I (f s)) : Kept I (s.mailbox cmd f) :=
  h.ite (hf.ite h.mbxEnd)

theorem Kept.recovery {cmd} {f : State → State} (h : Kept I s) (hf : Kept I (f s)) : Kept I (s.recovery cmd f) :=
  h.ite (hf.ite h.mbxEnd)

theorem Kept.flashWrite {a bs} (h : Kept I s) : Kept I (s.flashWrite a bs) := h.updSec
theorem Kept.fwUpdate (h : Kept I s) : Kept I (fwUpdate s) :=
  h.mailbox (h.mbxEnd.ite (h.mbxEnd.ite h.flashWrite.mbxEnd))
theorem Kept.recoveryChunk (h : Kept I s) : Kept I (recoveryChunk s) := h.recovery (h.mbxEnd.ite h.flashWrite.mbxEnd)
theorem Kept.recoveryDone (h : Kept I s) : Kept I (recoveryDone s) := h.recovery h.runRom.mbxEnd
theorem Kept.pubWrite {cmd slot set} (h : Kept I s) : Kept I (s.pubWrite cmd slot set) :=
  h.mailbox (h.updSec.mbxEnd.ite (h.updSec.mbxEnd.ite h.updSec.updSec.mbxEnd))

theorem Kept.dbgNonce (h : Kept I s) : Kept I (dbgNonce s) := by
  dsimp only [Machine.dbgNonce]
  exact h.mailbox h.draw.updSec.mbxEnd

theorem Kept.dbgUnlock (h : Kept I s) : Kept I (dbgUnlock s) := h.mailbox (h.updSec.mbxEnd.ite h.updSec.updSec.mbxEnd)
theorem Kept.svnCommit (h : Kept I s) : Kept I (svnCommit s) := I.svn h
theorem Kept.pubLock (h : Kept I s) : Kept I (pubLock s) := h.ite h.updSec
theorem Kept.fwActivate (h : Kept I s) : Kept I (fwActivate s) := h.ite h.managementReset
theorem Kept.dbgRelock (h : Kept I s) : Kept I (dbgRelock s) := h.ite h.endDebug

/-! ### Machine/Attest.lean -/

theorem Kept.doeAnswer {code body} (h : Kept I s) : Kept I (s.doeAnswer code body) := h.updHost.emit

theorem Kept.spdmRequest {code body} (h : Kept I s) : Kept I (spdmRequest code body s) := by
  dsimp only [Machine.spdmRequest]
  split
  · exact h
  · split
    · exact h.doeAnswer
    · split
      · exact h.doeAnswer
      · exact (h.updSec.ite (h.updSec.ite h)).doeAnswer

theorem Kept.spdmVendorReport {nonce} (h : Kept I s) : Kept I (spdmVendorReport nonce s) :=
  h.ite (h.doeAnswer.ite h.doeAnswer)

/-! ### Machine/RegWrite.lean -/

theorem Kept.writeBar2Off {hi v} (h : Kept I s) : Kept I (writeBar2Off hi v s) := h.updHost.ite h
theorem Kept.writeVfWindow {o v} (h : Kept I s) : Kept I (writeVfWindow o v s) := h.ite (h.updHost.ite h.updHost)

theorem Kept.writeIdentity {o v} (h : Kept I s) : Kept I (writeIdentity o v s) := by
  dsimp only [Machine.writeIdentity]
  split
  · exact h.writeVfWindow
  · split
    · exact h.same
    · exact h.updHost
    · exact h.updHost
    · exact h.updHost
    · exact h.writeBar2Off
    · exact h.writeBar2Off
    · exact h.updHost
    · exact h

theorem Kept.writePwrCtrl {v} (h : Kept I s) : Kept I (writePwrCtrl v s) := h.updPower.wake.ite h.updPower

theorem Kept.writeBand {o v} (h : Kept I s) : Kept I (writeBand o v s) := by
  dsimp only [Machine.writeBand]
  split
  · exact h.updPower
  · exact h.updPower
  · exact h.updPower
  · exact h.updPower
  · exact h.applyBand.ite h
  · exact h

theorem Kept.writePwrStat {v} (h : Kept I s) : Kept I (writePwrStat v s) := h.updPower

theorem Kept.writePower {o v} (h : Kept I s) : Kept I (writePower o v s) := by
  dsimp only [Machine.writePower]
  split
  · exact h.setDie
  · split
    · exact h.pwrWakeTolWrite
    · exact h.writePwrCtrl
    · exact h.updPower
    · exact h.updPower
    · exact h.updPower
    · exact h.writePwrStat
    · exact h.updPower
    · exact h.updPower
    · exact h

theorem Kept.updTime {f} (h : Kept I s) : Kept I (s.updTime f) := h.same
theorem Kept.updLog {f} (h : Kept I s) : Kept I (s.updLog f) := h.same

theorem Kept.writeGtb {i3c o v} (h : Kept I s) : Kept I (writeGtb i3c o v s) := by
  dsimp only [Machine.writeGtb]
  split
  · exact h.updTime
  · exact h.updTime.ite h.updTime.elect
  · exact h.evtPortSeqWrite
  · exact h.updLog
  · exact h.updLog
  · exact h.updLog
  · exact h.updLog
  · exact h

theorem Kept.updLadder {f} (h : Kept I s) : Kept I (s.updLadder f) := h.same

theorem Kept.writeRstReq {v} (h : Kept I s) : Kept I (writeRstReq v s) := by
  dsimp only [Machine.writeRstReq]
  split
  · exact h
  · split
    · exact h.rstReqPartition
    · exact h.startModuleReset
    · exact h.requestPowerCycle
    · exact h.updLadder.hwSet

theorem Kept.writeDumpCtrl {v} (h : Kept I s) : Kept I (writeDumpCtrl v s) := h.updLadder.dumpGo.ite h.updLadder

theorem Kept.writeLadder {o v} (h : Kept I s) : Kept I (writeLadder o v s) := by
  dsimp only [Machine.writeLadder]
  split
  · exact h.writeRstReq
  · exact h.updLadder
  · exact h.updLadder
  · exact h.updLadder
  · exact h.updLadder
  · exact h.updLadder
  · exact h.writeDumpCtrl
  · exact h.updLadder
  · exact h.updLadder
  · exact h.updLadder
  · exact h.updLadder
  · exact h

theorem Kept.writeSecCtrl {v} (h : Kept I s) : Kept I (writeSecCtrl v s) := by
  have h1 := h.svnCommit.ite (c := v.getLsbD 0 = true) h
  have h2 := h1.pubLock.ite (c := v.getLsbD 1 = true) h1
  have h3 := h2.fwActivate.ite (c := v.getLsbD 2 = true) h2
  exact h3.dbgRelock.ite h3

theorem Kept.mailboxGo (h : Kept I s) : Kept I (mailboxGo s) := by
  dsimp only [Machine.mailboxGo]
  split
  · exact h.fwUpdate
  · exact h.recoveryChunk
  · exact h.recoveryDone
  · exact h.pubWrite
  · exact h.pubWrite
  · exact h.dbgNonce
  · exact h.dbgUnlock
  · exact h.draw.mbxEnd

theorem Kept.writeMbxCmd {v} (h : Kept I s) : Kept I (writeMbxCmd v s) := h.ite (h.updSec.mailboxGo.ite h.updSec)

theorem Kept.writeSec {o v} (h : Kept I s) : Kept I (writeSec o v s) := by
  dsimp only [Machine.writeSec]
  split
  · exact h.updSec
  · split
    · exact h.writeSecCtrl
    · exact h.writeMbxCmd
    · exact h.updSec
    · exact h.updSec
    · exact h.updSec
    · exact h.updSec
    · exact h

theorem Kept.writePtRst {n vf v} (h : Kept I s) : Kept I (writePtRst n vf v s) := h.ite h.updPart.ptRstHoldWrite

theorem Kept.writePart {n vf o v} (h : Kept I s) : Kept I (writePart n vf o v s) := by
  dsimp only [Machine.writePart]
  split
  · exact h.writePtRst
  · exact h.ptCfgWrite
  · exact h.updPart
  · exact h.updPart

theorem Kept.writeMem {o v} (h : Kept I s) : Kept I (writeMem o v s) := by
  dsimp only [Machine.writeMem]
  split
  · exact h.memRegs.ite h
  · split
    · exact h.memReformStart.ite h
    · exact h.memRegs
    · exact h.memRegs
    · exact h.memRegs
    · exact h.memChanFail
    · exact h.memRegs
    · exact h.memRegs
    · exact h.memRegs.ite h
    · exact h

theorem Kept.updFab {f} (h : Kept I s) : Kept I (s.updFab f) := h.same

theorem Kept.writePortCtrl {n v} (h : Kept I s) : Kept I (writePortCtrl n v s) := by
  unfold Machine.writePortCtrl
  dsimp only
  generalize hs2 : (if (!v.getLsbD 0) = true then (_ : State) else _) = s2
  have h2 : Kept I s2 := hs2 ▸ (h.setPort.hello.linkLoss.ite h.setPort.updPort).ite (h.setPort.updPort.ite h.setPort)
  exact h2.ite h2.elect

theorem Kept.writePort {kind n v} (h : Kept I s) : Kept I (writePort kind n v s) := by
  dsimp only [Machine.writePort]
  split
  · exact h.writePortCtrl
  · exact h.updPort
  · exact h.updPort
  · exact h

theorem Kept.writeFab {o v} (h : Kept I s) : Kept I (writeFab o v s) := by
  dsimp only [Machine.writeFab]
  split
  · exact h.writePort.ite h
  · split
    · exact h.updFab
    · split
      · exact h.updFab
      · split
        · exact h.fabNodeIdWrite
        · exact h.updFab
        · exact h.updFab
        · exact h.updFab
        · exact h.fabRtDataWrite
        · exact h.updFab
        · exact h.updFab
        · exact h.updFab
        · exact h.updFab
        · exact h.fabOpGo
        · exact h.updFab
        · exact h

theorem Kept.writeColl {o v} (h : Kept I s) : Kept I (writeColl o v s) := by
  dsimp only [Machine.writeColl]
  split
  · exact h.updFab
  · exact h.collGroupEntryWrite
  · exact h.collGroupEntryWrite
  · exact h.collGroupEntryWrite
  · exact h.updFab
  · exact h.updFab
  · exact h

theorem Kept.updLedger {f} (h : Kept I s) (otp : ∀ l, (f l).otp = l.otp := by exact fun _ => rfl) : Kept I (s.updLedger f) :=
  h.same (otp _)
theorem Kept.updTele {f} (h : Kept I s) : Kept I (s.updTele f) := h.same
theorem Kept.emptyCrumbLog (h : Kept I s) : Kept I s.emptyCrumbLog := h.same
theorem Kept.writeCrumbCtrl {v} (h : Kept I s) : Kept I (writeCrumbCtrl v s) := h.same.emptyCrumbLog.ite h.same
theorem Kept.writeWinSel {i3c v} (h : Kept I s) : Kept I (writeWinSel i3c v s) := h.updLog.ite h.updLog

theorem Kept.writeHealth {i3c o v} (h : Kept I s) : Kept I (writeHealth i3c o v s) := by
  dsimp only [Machine.writeHealth]
  split
  · exact h.updTele
  · split
    · exact h.updLedger
    · exact h.updLedger
    · exact h.updLedger
    · exact h.writeWinSel
    · exact h.updTele
    · exact h.updTele
    · exact h.updTele
    · exact h.updTele
    · exact h.writeCrumbCtrl
    · exact h.same
    · exact h.updTele
    · exact h

theorem Kept.writeCrust {o v} (h : Kept I s) : Kept I (writeCrust o v s) := h.same.ite h
theorem Kept.updBs {f} (h : Kept I s) : Kept I (s.updBs f) := h.same
theorem Kept.updBsOff {f} (h : Kept I s) : Kept I (s.updBsOff f) := h.ite h.updBs

theorem Kept.writeCtx {o v} (h : Kept I s) : Kept I (writeCtx o v s) := by
  dsimp only [Machine.writeCtx]
  split
  · exact h.ctxCfgWrite
  · exact h.setCtx
  · exact h.setCtx
  · exact h.setCtx
  · exact h.setCtx
  · exact h.setCtx
  · exact h.setCtx
  · exact h.setCtx
  · exact h.setCtx
  · exact h.setCtx
  · exact h

theorem Kept.writeLoaf {o v} (h : Kept I s) : Kept I (writeLoaf o v s) := by
  dsimp only [Machine.writeLoaf]
  split
  · exact h.setLoaf
  · exact h.setLoaf
  · exact (h.loafLoad.ite h).loafUnload.ite (h.loafLoad.ite h)
  · exact h

theorem Kept.writeGenCtrl {v} (h : Kept I s) : Kept I (writeGenCtrl v s) := by
  have h1 := h.genLoad.ite (c := v.getLsbD 0 = true) h
  have h2 := h1.genActivate.ite (c := v.getLsbD 1 = true) h1
  have h3 := h2.genClose.ite (c := v.getLsbD 2 = true) h2
  exact h3.genCancel.ite h3

theorem Kept.writeGen {o v} (h : Kept I s) : Kept I (writeGen o v s) := by
  dsimp only [Machine.writeGen]
  split
  · exact h.setModel
  · exact h.setModel
  · exact h.setModel
  · exact h.setModel
  · exact h.setModel
  · exact h.writeGenCtrl
  · exact h

theorem Kept.writeBatch {o v} (h : Kept I s) : Kept I (writeBatch o v s) := by
  dsimp only [Machine.writeBatch]
  split
  · exact h.updBs.ite h
  · split
    · exact h.writeCtx
    · split
      · exact h.writeLoaf
      · split
        · exact h.writeGen
        · split
          · exact h.updBsOff
          · exact h.updBsOff
          · exact h.bsCfgWrite
          · exact h.updBs
          · exact h.updBsOff
          · exact h.updBsOff
          · exact h.updBsOff
          · exact h.updBs
          · exact h.bsAbort.ite h
          · exact h.updBs
          · exact h.updBs
          · exact h.updBsOff
          · exact h.updBsOff
          · exact h.updBs
          · exact h.updBs
          · exact h.updBs
          · exact h

theorem Kept.writeTable {fn o v} (h : Kept I s) : Kept I (writeTable fn o v s) := h.setFn
theorem Kept.dbgHaltGo {n} (h : Kept I s) : Kept I (dbgHaltGo n s) := h.updPart.ite h
theorem Kept.dbgResumeGo {n} (h : Kept I s) : Kept I (dbgResumeGo n s) := h.resumeDebug.ite h
theorem Kept.writeDbgHalt {v} (h : Kept I s) : Kept I (writeDbgHalt v s) :=
  h.ite (h.same.dbgHaltGo.ite (h.same.dbgResumeGo.ite h.same))

theorem Kept.writeDebug {o v} (h : Kept I s) : Kept I (writeDebug o v s) := by
  dsimp only [Machine.writeDebug]
  split
  · exact h.same.ite h
  · exact h.writeDbgHalt.ite h
  · exact h

theorem Kept.writeBlock {i3c vf off v} (h : Kept I s) : Kept I (writeBlock i3c vf off v s) := by
  unfold Machine.writeBlock
  refine h.writeIdentity.ite (.ite ?_ (h.writeGtb.ite
    (h.writeLadder.ite (h.writeSec.ite (h.ite (h.writePart.ite (h.writeMem.ite
    (h.writeFab.ite (h.writeColl.ite (h.writeHealth.ite (h.writeCrust.ite (h.ite (h.writeBatch.ite (h.ite
    (h.writeTable.ite (h.ite h.writeDebug))))))))))))))))
  split
  · exact h.writeBand
  · exact h.writePower

theorem Kept.writeReg {i3c vf off v} (h : Kept I s) : Kept I (s.writeReg i3c vf off v) := h.writeBlock.ite h

/-! ### Machine/Manage.lean -/

theorem Kept.sendDirected {n p} (h : Kept I s) : Kept I (s.sendDirected n p) := h.portSend.ite h
theorem Kept.manageReply {port p reason value} (h : Kept I s) : Kept I (s.manageReply port p reason value) :=
  h.sendDirected
theorem Kept.manageHere {port p} (h : Kept I s) : Kept I (s.manageHere port p) :=
  h.ite (h.manageReply.ite (h.manageReply.ite (h.ite h.writeBlock).settleAlert.manageReply))
theorem Kept.manage {port p} (h : Kept I s) : Kept I (manage port p s) := h.ite (h.manageHere.ite h.sendDirected)

/-! ### Machine/Registers.lean -/

theorem Kept.answer {w} (h : Kept I s) : Kept I (s.answer w) := h.same
theorem Kept.refuseAccess {fn} (h : Kept I s) : Kept I (s.refuseAccess fn) := h.aer.same
theorem Kept.nextPortWord {i3c} (h : Kept I s) : Kept I (s.nextPortWord i3c) := h.same.ite (h.updLog.ite h.updLog)
theorem Kept.readPlain {i3c off} (h : Kept I s) : Kept I (s.readPlain i3c off) :=
  h.answer.ite (h.answer.nextPortWord.ite (h.dumpPortDataRead.ite h.answer))
theorem Kept.readLo {i3c off} (h : Kept I s) : Kept I (s.readLo i3c off) := h.answer.same

theorem Kept.readHi {i3c off} (h : Kept I s) : Kept I (s.readHi i3c off) := by
  dsimp only [State.readHi]
  split
  · exact h.answer.same
  · exact h.answer

theorem Kept.readAny {i3c off} (h : Kept I s) : Kept I (s.readAny i3c off) := h.readLo.ite (h.readHi.ite h.readPlain)

theorem Kept.startBurst {src off} (h : Kept I s) : Kept I (s.startBurst src off) := by
  dsimp only [State.startBurst]
  split
  · exact h.same
  · exact h

theorem Kept.readConfig {fn o} (h : Kept I s) : Kept I (s.readConfig fn o) := by
  dsimp only [State.readConfig]
  split
  · exact h.answer
  · exact h.draw.answer

theorem Kept.readAccess {src width off} (h : Kept I s) : Kept I (readAccess src width off s) := by
  dsimp only [Machine.readAccess]
  split
  · exact h
  · split
    · exact h.startBurst.readAny
    · exact h.readConfig
    · exact h.answer
    · exact h.answer
    · exact h.answer
    · exact h.refuseAccess

theorem Kept.registerWrite {src width off v poisoned} (h : Kept I s) :
    Kept I (registerWrite src width off v poisoned s) :=
  by
  dsimp only [Machine.registerWrite]
  split
  · exact h
  · split
    · exact h.aer
    · split
      · exact h.writeReg.settleAlert
      · exact h.ite h.writeTable
      · exact h
      · exact h
      · exact h
      · exact h.aer

theorem Kept.counterClear {n o} (h : Kept I s) : Kept I (counterClear n o s) := h.hostReg h.updPart

theorem Kept.telemetryBinEnd {t} (h : Kept I s) : Kept I (telemetryBinEnd t s) := by
  dsimp only [Machine.telemetryBinEnd]
  split
  · exact h
  · split
    · exact h.updTele
    · exact h.ite (h.updTele.foldl fun h => h.updPart)

theorem Kept.accWindowRead {off bad} (h : Kept I s) : Kept I (accWindowRead off bad s) := h.answer.event.ite h.answer

/-! ### Machine/Dispatch.lean -/

theorem OutKept.execNop {pt c} (h : Kept I s) : OutKept I (execNop pt c s) := .runIns h fun _ => h
theorem OutKept.execWldLoaded {pt c a} (h : Kept I s) : OutKept I (execWldLoaded pt c a s) := .onCore fun _ => h.updCore
theorem OutKept.execXbar {pt c rg} (h : Kept I s) : OutKept I (execXbar pt c rg s) :=
  .onCore fun _ => (h.settleAll (.insXbar h)).ite h

theorem OutKept.exec {i} (h : Kept I s) : OutKept I (exec i s) := by
  cases i with
  | bundleIssue => exact .onCore fun _ => h.bundleIssue
  | nop => exact .execNop h
  | li => exact .runIns h fun _ => .insLi h
  | add | sub | and | or | xor | shl | shr | shrA | mul => exact .runIns h fun _ => .insAlu h
  | cmp => exact .runIns h fun _ => .insCmp h
  | brp => exact .runIns h fun _ => .insBrp h
  | loop => exact .runIns h fun _ => .insLoop h
  | tile => exact .runIns h fun _ => .insTile h
  | halt => exact .runIns h fun _ => .insHalt h
  | trap => exact .runIns h fun _ => .insTrap h
  | anc => exact .runIns h fun _ => .insAnc h
  | steprR => exact .runIns h fun _ => .insSteprR h
  | steprW => exact .runIns h fun _ => .insSteprW h
  | steprInc => exact .runIns h fun _ => .insSteprInc h
  | seedrR => exact .runIns h fun _ => .insSeedrR h
  | seedrW => exact .runIns h fun _ => .insSeedrW h
  | gtbr => exact .runIns h fun _ => .insGtbr h
  | hbeat => exact .runIns h fun _ => .insHbeat h
  | wld => exact .runIns h fun _ => .insWld h
  | wldLoaded => exact .execWldLoaded h
  | wswap => exact .runIns h fun _ => .insWswap h
  | mma => exact .runIns h fun _ => .insMma h
  | aqRowPop => exact .onCore fun _ => h.aqRowPop
  | arrayRowLand => exact .onCore fun _ => h.arrayRowLand
  | drain => exact .runIns h fun _ => .insDrain h
  | drainRowRead => exact .onCore fun _ => h.drainRowRead
  | drainRowWrite => exact .onCore fun _ => h.drainRowWrite
  | pbdrain => exact .runIns h fun _ => .insPbdrain h
  | fold => exact .runIns h fun _ => .insFold h
  | foldRowAdd => exact .onCore fun _ => h.foldRowAdd
  | zoa => exact .runIns h fun _ => .insZoa h
  | pbzero => exact .runIns h fun _ => .insPbzero h
  | pbspillW => exact .runIns h fun _ => .insPbspillW h
  | pbspillA => exact .runIns h fun _ => .insPbspillA h
  | pbload => exact .runIns h fun _ => .insPbload h
  | pbImageHeaderArrive => exact h.pbHeaderArrive
  | pbSlotRowTransfer => exact h.pbRowTransfer
  | idle => exact .runIns h fun _ => .insIdle h
  | tastingRowInject => exact h.tastingRowInject
  | vld => exact .runIns h fun _ => .insVld h
  | vst => exact .runIns h fun _ => .insVst h
  | vadd | vsub | vmul => exact .runIns h fun _ => .insVarith h
  | vfma => exact .runIns h fun _ => .insVfma h
  | vmax | vmin => exact .runIns h fun _ => .insVarith h
  | vcmp => exact .runIns h fun _ => .insVcmp h
  | vsel => exact .runIns h fun _ => .insVsel h
  | vand | vor | vxor | vshl | vshr | vshrA => exact .runIns h fun _ => .insVlogic h
  | vperm => exact .runIns h fun _ => .insVperm h
  | vcvt => exact .runIns h fun _ => .insVcvt h
  | vfn => exact .runIns h fun _ => .insVfn h
  | vaxsumF32 | vaxsumF64 | vaxsumW80 | vaxsumW128 | vaxsumTap | vaxsumOut32 | vaxsumOut64 => exact .runIns h fun _ => .insVaxsum h
  | vleav => exact .runIns h fun _ => .insVleav h
  | vcrumb => exact .runIns h fun _ => .insVcrumb h
  | vopt => exact .runIns h fun _ => .insVopt h
  | act => exact .runIns h fun _ => .insAct h
  | actRowDeliver => exact .onCore fun _ => h.actRowDeliver
  | peel => exact .runIns h fun _ => .insPeel h
  | peelDescriptorStart => exact h.peelStart
  | peelLineArrive => exact .onCore fun _ => h.peelLineArrive
  | engineSourceLineRead => exact .onCore fun _ => h.engineSourceRead
  | peelTransferComplete => exact h.transferComplete
  | bcopy => exact .runIns h fun _ => .insBcopy h
  | dssld => exact .runIns h fun _ => .insDssld h
  | dssst => exact .runIns h fun _ => .insDssst h
  | xsend => exact .runIns h fun _ => .insXsend h
  | messageAccept => exact .onCore fun _ => h.messageAccept
  | xrecv => exact .runIns h fun _ => .insXrecv h
  | xredSumExact | xredSumTree => exact .runIns h fun _ => .insXred h
  | xredMax => exact .runIns h fun _ => .insXredMax h
  | xredGather | xredScatter => exact .runIns h fun _ => .insXred h
  | collectiveResultWrite => exact h.collectiveWrite
  | xbar => exact .execXbar h
  | xbarRelease => exact h.xbarRelease
  | xtime => exact .runIns h fun _ => .insXtime h
  | xtimeRelease => exact .onCore fun _ => h.xtimeRelease
  | xfence => exact .runIns h fun _ => .insXfence h
  | producerNotice => exact .onCore fun _ => h.producerNotice
  | freezeBegin => exact .onCore fun _ => h.freezeBegin
  | freezeEnd => exact h.freezeEnd
  | actRowFreezeDeliver => exact .onCore fun _ => h.actFreezeDeliver
  | tileSettleMeet => exact .onCore fun _ => h.settleMeet
  | tileCommit => exact h.tileCommit
  | tileYield => exact h.tileYield
  | tileBudgetExpire => exact h.budgetExpire
  | admissionTick => exact h.admissionTick
  | kernelStart => exact h.kernelStart
  | kernelComplete => exact h.kernelComplete
  | completionWrite => exact h.completionWrite
  | expressCompare => exact h.expressCompare
  | expressRepair => exact h.expressRepair
  | contextSwitch => exact h.switchTo
  | backgroundYield => exact h.backgroundYield
  | tileAbandon => exact h.abandonTile.ite h
  | sramEccError => exact h.sramEccError
  | sramScrub => exact h
  | crustCommit => exact h.crustCommit
  | crustScrub => exact h.crustScrub
  | tastingRoundComplete => exact h.tastingRoundComplete
  | tastingPeriodEnd => exact h.tastingPeriodEnd
  | partitionQuarantine => exact h.partitionQuarantine
  | quarantineTestsDone => exact h.quarantineTestsDone
  | coreFail => exact h.coreFail
  | rewind => exact h.rewind
  | replayEnd => exact .onCore fun _ => h.replayEnd
  | checkpoint => exact h.checkpoint
  | journalAppend => exact h.journalAppend
  | coreHangDetect => exact .onCore fun _ => h.coreHangDetect
  | engineHangDetect => exact h.engineHangDetect
  | contextAbort => exact h.contextAbort
  | engineReset => exact h.engineReset
  | partitionReset => exact h.partitionReset
  | moduleReset => exact h.startModuleReset
  | powerCycle => exact h.powerCycle
  | ladderStepComplete => exact h.ladderStepComplete
  | ladderStepTimeout => exact h.ladderStepTimeout
  | hangVerdict => exact h.hangVerdict
  | rstReqPartition => exact h.hostReg h.rstReqPartition
  | rstReqModule => exact h.hostReg h.startModuleReset
  | rstReqPowerCycle => exact h.hostReg h.requestPowerCycle
  | ovenTimerRestart => exact h.ovenTimerRestart
  | ovenTimerExpire => exact h.ovenTimerExpire
  | dumpStart => exact h.dumpStart
  | dumpGo => exact h.hostReg h.dumpGo
  | dumpUnitTimeout => exact h.dumpUnitTimeout
  | dumpEnd => exact h.dumpEnd
  | dumpPortDataRead => exact h.dumpPortDataRead.ite h
  | ctxCfgWrite => exact h.hostReg h.ctxCfgWrite
  | loafLoad => exact h.hostReg h.loafLoad
  | loafVerifyDone => exact h.loafVerifyDone
  | loafUnload => exact h.hostReg h.loafUnload
  | bsAbort => exact h.hostReg h.bsAbort
  | bsCfgWrite => exact h.hostReg h.bsCfgWrite
  | genLoad => exact h.hostReg h.genLoad
  | genShardArrive => exact h.genShardArrive
  | genTimeoutExpire => exact h.genTimeoutExpire
  | genActivate => exact h.hostReg h.genActivate
  | genClose => exact h.hostReg h.genClose
  | genCancel => exact h.hostReg h.genCancel
  | ptCfgWrite => exact h.hostReg h.ptCfgWrite
  | ptRstHoldWrite => exact h.hostReg h.ptRstHoldWrite
  | powerOn => exact h.powerOn
  | inputUndervoltage => exact h.inputUndervoltage
  | overvoltageCutoff => exact h.overvoltageCutoff
  | overvoltageRecover => exact h.overvoltageRecover
  | starterRomBoot => exact h.starterRomBoot
  | pwrEnRise => exact h.pwrEnRise
  | pwrEnFall => exact h.pwrEnFall
  | mainRailsInRegulation => exact h.mainRailsInRegulation
  | mainRailOutOfRegulation => exact h.mainRailOut
  | thermalTrip => exact h.thermalTrip
  | thermTripNRelease => exact h.thermTripRelease
  | laserBayOpen => exact h.laserBayOpen
  | laserSourceInsert => exact h.laserSourceInsert
  | laserFail => exact h.laserFail
  | supplyDroop => exact h.supplyDroop
  | droopClear => exact h.droopClear
  | thermalStepDown => exact h.thermalStepDown
  | vinBelowMin => exact h.vinBelowMin
  | dieLinkRetry => exact h.dieLinkRetry
  | dieLinkLaneRepair => exact h.dieLinkLaneRepair
  | dieLinkRetrainTimeout => exact h.dieLinkLost
  | timeSyncTimeout => exact h.timeSyncTimeout
  | powerBinEnd => exact h.powerBinEnd
  | pwrBandApply | pwrBandForce => exact h.applyBand.ite h
  | forecastPublish => exact h.forecastPublish
  | wStateEnter => exact h.wStateEnter
  | pwrCtrlWake => exact h.hostReg h.wake
  | pwrWakeTolWrite => exact h.hostReg h.pwrWakeTolWrite
  | wakeEvent => exact h.wake
  | wStateExitDone => exact h.wStateExitDone
  | perstNAssert => exact h.perstAssert
  | perstNDeassert => exact h.perstDeassert
  | pcieTrainRetry => exact h.pcieTrainRetry
  | pcieLinkUp => exact h.pcieLinkUp
  | pcieLinkDown => exact h.pcieLinkDown
  | pcieReplay => exact h.pcieReplay
  | pcieConfigWrite => exact h.pcieConfigWrite
  | l0pRequest => exact h.l0pRequest
  | vfFlr => exact h.vfFlr
  | pfFlr => exact h.pfFlr
  | bar2Read => exact h.bar2Read
  | bar2Write => exact h.bar2Write
  | hostCompletionReceive => exact h.hostCompletion
  | pcieCplTimeout => exact h.pcieCplTimeout
  | msixDeliverable => exact h.msixDeliverable
  | spdmRequest => exact h.spdmRequest
  | spdmVendorReport => exact h.spdmVendorReport
  | doeAbort => exact h.doeAbort
  | fwUpdate => exact h.hostReg h.fwUpdate
  | recoveryChunk => exact h.hostReg h.recoveryChunk
  | recoveryDone => exact h.hostReg h.recoveryDone
  | pubSet | pubClear => exact h.hostReg h.pubWrite
  | dbgNonce => exact h.hostReg h.dbgNonce
  | dbgUnlock => exact h.hostReg h.dbgUnlock
  | svnCommit => exact h.hostReg h.svnCommit
  | pubLock => exact h.hostReg h.pubLock
  | fwActivate => exact h.hostReg h.fwActivate
  | dbgRelock => exact h.hostReg h.dbgRelock
  | helloSend => exact h.helloSend
  | hello => exact h.helloReceive
  | helloTimeout => exact h.helloTimeout
  | portSignalDetect => exact h.portSignalDetect
  | portTrainComplete => exact h.portTrainComplete
  | portTrainTimeout => exact h.portTrainTimeout
  | trainBackoffEnd => exact h.trainBackoffEnd
  | flitReceive => exact h.flitReceive
  | laneRetire => exact h.laneRetire
  | linkLoss => exact h.linkLost
  | packetForward => exact h.packetForward
  | read | write | atomicAdd => exact h.arriveRequest.ite h
  | readData => exact h.readData.ite h
  | ack => exact h.ackReceive.ite h
  | message => exact h.arriveRequest.ite h
  | notReady => exact h.notReadyReceive.ite h
  | xqFree => exact h.xqFreeReceive
  | refuse => exact h.refuseReceive
  | requestResend => exact h.requestResend
  | requestTimeout => exact h.requestTimeout
  | collective => exact h.collectiveArrive
  | manage => exact h.manage
  | syncSend => exact h.syncSend
  | sync => exact h.syncReceive
  | syncTimeout => exact h.syncTimeout
  | delayReqSend => exact h.delayReqSend
  | delayReq => exact h.delayReq
  | delayRsp => exact h.delayRsp
  | fabOpGo => exact h.fabReg h.fabOpGo
  | fabRtDataWrite => exact h.fabReg h.fabRtDataWrite
  | fabNodeIdWrite => exact h.fabReg h.fabNodeIdWrite
  | collGroupEntryWrite => exact h.fabReg h.collGroupEntryWrite
  | memLineRead => exact h.memLineRead
  | memLineWrite => exact h.memLineWrite
  | memPositionFail => exact h.memPositionFail
  | memChanFail => exact h.hostReg h.memChanFail
  | patrolScrubLine => exact h.patrolScrubLine
  | refresh => exact h
  | hotRefresh => exact h.hotRefresh
  | hotRefreshEnd => exact h.memRegs
  | memReformStart => exact h.hostReg h.memReformStart
  | memReformDone => exact h.memReformDone
  | dbgHaltGo => exact h.hostReg h.dbgHaltGo
  | dbgResumeGo => exact h.hostReg h.dbgResumeGo
  | dbgAccWindowRead => exact h.hostReg h.accWindowRead
  | crumbLogEmpty => exact h.hostReg h.emptyCrumbLog
  | eventDeliver => exact h.eventDeliver
  | eventCommit => exact h.eventCommit
  | eventAggWindowEnd => exact h.eventAggWindowEnd
  | evtPortSeqWrite => exact (h.evtPortSeqWrite.ite h).ite (h.hostReg h.evtPortSeqWrite)
  | ledgerRecordWrite => exact h.ledgerRecordWrite
  | ledgerHourly => exact h.ledgerHourly
  | marginSweep => exact h.foldl fun h => h.measure
  | telemetryBinEnd => exact h.telemetryBinEnd
  | regPairLoRead | regPairHiRead => exact h.readAccess
  | counterLoWriteClear => exact h.counterClear
  | i3cDynamicAddress => exact h.same.ite h
  | registerWrite => exact h.registerWrite

end
end

/-- The property that memory is in its canonical form. -/
def memInv : Inv where
  holds := MemOk
  same mem _ _ _ ok := by rw [MemOk, mem]; exact ok
  mem write ok := write.wf ok
  otp _ ok := ok
  svn {s} ok := by unfold MemOk svnCommit; split <;> exact ok

/-- Settles O58: each command, and the tick of an idle cycle, is made of changes that leave memory alone and of writes by the operations
of the memory, each of which keeps the canonical form (`MemWrite.wf`). -/
theorem everyStepKeepsMemoryCanonical : Obligations.EveryStepKeepsMemoryCanonical := by
  intro s t ok ht
  unfold step at ht
  split at ht
  · cases ht
    exact Kept.tick (I := memInv) ok
  · next i rest _ =>
    have kept : OutKept memInv (exec i { s with pending := rest }) := .exec ok
    rwa [ht] at kept

end Sys2Proof.Machine
end

section
namespace Sys2Proof.Machine
open Sys2Proof.Laws

/-! ## What a write of memory leaves as it reads (R358, R361) -/

theorem smapFind_filter {α : Type} {m : SMap α} (sorted : smapSorted m = true) (p : Nat → Bool) (k : Nat) :
    smapFind (m.filter fun e => p e.1) k = if p k then smapFind m k else none := by
  induction m with
  | nil => simp [smapFind]
  | cons e m ih =>
    obtain ⟨j, w⟩ := e
    obtain ⟨above, sorted⟩ := smapSorted_cons sorted
    have ih := ih sorted
    by_cases eq : j = k
    · subst eq
      cases pj : p j <;> simp [smapFind, pj, ih]
    · by_cases lt : k < j
      · have gone : smapFind m k = none := smapFind_above above (by omega)
        cases pj : p j <;> simp [smapFind, pj, ih, eq, lt, gone]
      · cases pj : p j <;> simp [smapFind, pj, ih, eq, lt]

theorem mem_natSetErase_other {m : NatSet} {k x : Nat} (other : x ≠ k) : x ∈ natSetErase m k ↔ x ∈ m := by
  induction m with
  | nil => simp [natSetErase]
  | cons j m ih =>
    unfold natSetErase
    split
    · next eq => simp [show x ≠ j by omega]
    · split
      · rfl
      · simp [ih]

theorem mem_natSetInsert {m : NatSet} {k x : Nat} : x ∈ natSetInsert m k ↔ x = k ∨ x ∈ m := by
  induction m with
  | nil => simp [natSetInsert]
  | cons j m ih =>
    unfold natSetInsert
    split
    · simp
    · split
      · next eq => simp [eq]
      · simp only [List.mem_cons, ih]
        tauto

section
variable {m m' : Mem} {line x : Nat}

/-- What a byte reads as follows from its group, the marks of its line and the byte that stands there. -/
theorem read_congr (groups : m'.groups = m.groups) (poison : x / 256 ∈ m'.poison ↔ x / 256 ∈ m.poison)
    (errs : smapFind m'.errs (x / 256) = smapFind m.errs (x / 256)) (byte : m'.byte x = m.byte x) : m'.read x = m.read x := by
  have critical : m'.lineCritical (x / 256) = m.lineCritical (x / 256) := by
    simp only [Mem.lineCritical, Mem.groupOfLine, Mem.active, Mem.activeCount, Mem.group, groups]
  simp only [Mem.read, Mem.linePoison, Mem.lineLost, critical, errs, byte, List.contains_eq_mem, poison]

theorem read_setByte (ok : m.wf = true) {a : Nat} {b : Byte} (other : x ≠ a) : (m.setByte a b).read x = m.read x := by
  have byte : (m.setByte a b).byte x = m.byte x := by rw [byte_setByte ((mem_wf_iff m).1 ok).1, if_neg other]
  unfold Mem.setByte at byte ⊢
  split at byte
  · next blank =>
    rw [if_pos blank]
    exact read_congr rfl .rfl rfl byte
  · next kept =>
    rw [if_neg kept]
    exact read_congr rfl .rfl rfl byte

theorem read_putBytes (ok : m.wf = true) {base : Nat} {bs : List (Nat × Byte)} (other : ∀ e ∈ bs, x ≠ base + e.1) :
    (m.putBytes base bs).read x = m.read x := by
  unfold Mem.putBytes
  induction bs generalizing m with
  | nil => rfl
  | cons e bs ih =>
    rw [List.foldl_cons, ih (setByte_wf ok _ _) fun e he => other e (.tail _ he), read_setByte ok (other e (.head _))]

theorem read_poisonLine (ok : m.wf = true) (other : x / 256 ≠ line) : (m.poisonLine line).read x = m.read x := by
  refine read_congr rfl ?_ ?_ rfl
  · simp [Mem.poisonLine, mem_natSetInsert, other]
  · simp only [Mem.poisonLine]
    rw [smapFind_erase ((mem_wf_iff m).1 ok).2.2.2, if_neg other]

/-- The marks of a line taken away. -/
theorem read_unmark (ok : m.wf = true) (other : x / 256 ≠ line) :
    Mem.read { m with poison := natSetErase m.poison line, errs := smapErase m.errs line } x = m.read x := by
  refine read_congr rfl (mem_natSetErase_other other) ?_ rfl
  simp only
  rw [smapFind_erase ((mem_wf_iff m).1 ok).2.2.2, if_neg other]

/-- One line opened is no other line. -/
theorem read_openLine (ok : m.wf = true) {seed : Nat} (other : x / 256 ≠ line) :
    (m.openArea (line * 256) 256 seed).read x = m.read x := by
  obtain ⟨cells, -, -, errs⟩ := (mem_wf_iff m).1 ok
  have outside : (decide (line * 256 ≤ x) && decide (x < line * 256 + 256)) = false := by
    simp only [Bool.and_eq_false_iff, decide_eq_false_iff_not]
    omega
  refine read_congr rfl ?_ ?_ ?_
  · simp only [Mem.openArea]
    simp
    omega
  · have keeps := smapFind_filter errs
      (fun l => !(decide (line * 256 ≤ l * 256) && decide (l * 256 + 256 ≤ line * 256 + 256))) (x / 256)
    simp only [Mem.openArea]
    rw [if_neg (by decide), keeps, if_pos]
    simp
    omega
  · have keeps := smapFind_filter cells (fun a => !(decide (line * 256 ≤ a) && decide (a < line * 256 + 256))) x
    simp only [Mem.openArea, Mem.byte, Mem.unlisted, Mem.areaAt]
    rw [if_neg (by decide), keeps]
    simp [outside]

theorem read_rewriteLine (ok : m.wf = true) (other : x / 256 ≠ line) : (m.rewriteLine line).read x = m.read x := by
  unfold Mem.rewriteLine
  dsimp only
  split
  · rw [read_openLine (unmark_wf ok _) other, read_unmark ok other]
  · exact read_unmark ok other

theorem read_writeLine_other (ok : m.wf = true) {bs : List (Nat × Byte)} {p : Bool} (offsets : ∀ e ∈ bs, e.1 < 256)
    (other : x / 256 ≠ line) : (m.writeLine line bs p).read x = m.read x := by
  unfold Mem.writeLine
  split
  · rfl
  · split
    · exact read_poisonLine ok other
    · have apart : ∀ e ∈ bs, x ≠ line * 256 + e.1 := fun e he => by
        have := offsets e he
        omega
      rw [read_putBytes (rewriteLine_wf ok _) apart, read_rewriteLine ok other]

theorem natSetErase_of_not_mem {m : NatSet} {k : Nat} (out : k ∉ m) : natSetErase m k = m := by
  induction m with
  | nil => rfl
  | cons j m ih =>
    obtain ⟨ne, out⟩ := not_or.1 (List.mem_cons.not.1 out)
    simp [natSetErase, Ne.symm ne, ih out]

/-- A line opened reads as free bytes, where its group is not CRITICAL. -/
theorem read_openLine_self (ok : m.wf = true) {seed : Nat} (critical : m.lineCritical (x / 256) = false) :
    (m.openArea (x / 256 * 256) 256 seed).read x = Config.freeByte seed x := by
  obtain ⟨cells, -, -, errs⟩ := (mem_wf_iff m).1 ok
  generalize opened : m.openArea (x / 256 * 256) 256 seed = m'
  have groups : m'.groups = m.groups := by rw [← opened]; rfl
  have poison : x / 256 ∉ m'.poison := by
    rw [← opened]
    simp [Mem.openArea]
  have unread : smapFind m'.errs (x / 256) = none := by
    rw [← opened]
    simp only [Mem.openArea]
    rw [if_neg (by decide)]
    dsimp only
    rw [smapFind_filter errs (fun l => !(decide (x / 256 * 256 ≤ l * 256) && decide (l * 256 + 256 ≤ x / 256 * 256 + 256))), if_neg]
    simp
  have byte : m'.byte x = Config.freeByte seed x := by
    have inside : x / 256 * 256 ≤ x ∧ x < x / 256 * 256 + 256 := by omega
    rw [← opened]
    simp only [Mem.openArea, Mem.byte, Mem.unlisted, Mem.areaAt]
    rw [if_neg (by decide)]
    dsimp only
    rw [smapFind_filter cells (fun a => !(decide (x / 256 * 256 ≤ a) && decide (a < x / 256 * 256 + 256)))]
    simp [inside]
  have critical' : m'.lineCritical (x / 256) = false := by
    simpa only [Mem.lineCritical, Mem.groupOfLine, Mem.active, Mem.activeCount, Mem.group, groups] using critical
  simp [Mem.read, Mem.linePoison, Mem.lineLost, critical', unread, byte, poison]

/-- A line without poison that the codec rewrites as it has read it reads the same. -/
theorem read_rewriteLine_self (ok : m.wf = true) (clean : m.linePoison (x / 256) = false) :
    (m.rewriteLine (x / 256)).read x = m.read x := by
  have marks : (x / 256 ∉ m.poison ∧ m.lineCritical (x / 256) = false) ∧ m.lineLost (x / 256) = false := by
    simpa [Mem.linePoison] using clean
  obtain ⟨⟨poison, critical⟩, lost⟩ := marks
  cases found : smapFind m.errs (x / 256) with
  | none =>
    refine read_congr ?_ ?_ ?_ ?_ <;> simp [Mem.rewriteLine, found, natSetErase_of_not_mem poison, Mem.byte, Mem.unlisted, Mem.areaAt]
    rw [smapFind_erase ((mem_wf_iff m).1 ok).2.2.2, if_pos rfl]
  | some e =>
    cases e with
    | none => simp [Mem.lineLost, found] at lost
    | some seed =>
      have before : m.read x = Config.freeByte seed x := by simp [Mem.read, clean, found]
      have unmarked := unmark_wf ok (x / 256)
      rw [before]
      simp only [Mem.rewriteLine, found]
      exact read_openLine_self unmarked critical

/-- A part of a line written: the other bytes read as before. -/
theorem read_writeLine_self (ok : m.wf = true) {bs : List (Nat × Byte)} (part : bs.length ≠ 256)
    (apart : ∀ e ∈ bs, e.1 ≠ x % 256) : (m.writeLine (x / 256) bs false).read x = m.read x := by
  unfold Mem.writeLine
  split
  · rfl
  next writes =>
  obtain ⟨nonempty, critical⟩ : bs.isEmpty = false ∧ m.lineCritical (x / 256) = false := by simpa using writes
  split
  · next poisons =>
    have before : m.linePoison (x / 256) = true := by
      simp [Mem.poisons] at poisons
      exact poisons.2.1
    have after : (m.poisonLine (x / 256)).linePoison (x / 256) = true := by
      simp [Mem.poisonLine, Mem.linePoison, mem_natSetInsert]
    simp only [Mem.read, before, after, if_true]
  · next kept =>
    have clean : m.linePoison (x / 256) = false := by
      simpa [Mem.poisons, nonempty, critical, part] using kept
    have other : ∀ e ∈ bs, x ≠ x / 256 * 256 + e.1 := fun e he => by
      have := apart e he
      omega
    rw [read_putBytes (rewriteLine_wf ok _) other, read_rewriteLine_self ok clean]

end

/-! ### A run of bytes over its lines -/

section
variable {bs : List (Option Byte)} {addr line : Nat}

theorem mem_runInLine {e : Nat × Byte} (h : e ∈ runInLine line addr bs) :
    e.1 < 256 ∧ (some e.2, line * 256 + e.1) ∈ bs.zipIdx addr := by
  obtain ⟨⟨b, a⟩, listed, here⟩ := List.mem_filterMap.1 h
  dsimp only at here
  split at here
  · next eq =>
    obtain ⟨v, rfl, rfl⟩ := Option.map_eq_some_iff.1 here
    have whole : line * 256 + a % 256 = a := by omega
    exact ⟨Nat.mod_lt _ (by decide), by simpa [whole] using listed⟩
  · cases here

theorem runInLine_rises : (runInLine line addr bs).Pairwise fun a b => a.1 < b.1 := by
  have rises : (bs.zipIdx addr).Pairwise fun a b => a.2 < b.2 := by
    rw [← List.pairwise_map (f := Prod.snd) (R := (· < ·))]
    simp [List.zipIdx_map_snd, List.pairwise_lt_range']
  unfold runInLine
  refine List.pairwise_filterMap.2 (rises.imp ?_)
  rintro ⟨b, a⟩ ⟨b', a'⟩ lt e he e' he'
  dsimp only at lt he he'
  split at he
  · split at he'
    · obtain ⟨_, -, rfl⟩ := Option.map_eq_some_iff.1 he
      obtain ⟨_, -, rfl⟩ := Option.map_eq_some_iff.1 he'
      dsimp only
      omega
    · cases he'
  · cases he

/-- A run that leaves out a byte of a line is no write of the whole line. -/
theorem runInLine_length_ne {x : Nat} (apart : ∀ e ∈ runInLine line addr bs, e.1 ≠ x % 256) :
    (runInLine line addr bs).length ≠ 256 := by
  have nodup : ((runInLine line addr bs).map Prod.fst).Nodup := by
    refine (List.pairwise_map.2 runInLine_rises).imp ?_
    exact fun lt => Nat.ne_of_lt lt
  have inside : ((runInLine line addr bs).map Prod.fst).toFinset ⊆ (Finset.range 256).erase (x % 256) := by
    intro k hk
    obtain ⟨e, he, rfl⟩ := List.mem_map.1 (List.mem_toFinset.1 hk)
    exact Finset.mem_erase.2 ⟨apart e he, Finset.mem_range.2 (mem_runInLine he).1⟩
  have card := Finset.card_le_card inside
  rw [List.toFinset_card_of_nodup nodup, List.length_map,
    Finset.card_erase_of_mem (Finset.mem_range.2 (Nat.mod_lt _ (by decide))), Finset.card_range] at card
  omega

/-- A write of a run of bytes leaves a byte that it does not write as it reads, where the run carries no poison or the byte's line is
none of the lines that the run reaches. -/
theorem read_write {m : Mem} (ok : m.wf = true) {p : Bool} {x : Nat} (absent : ∀ b, (some b, x) ∉ bs.zipIdx addr)
    (apart : p = true → x / 256 < addr / 256 ∨ (addr + bs.length - 1) / 256 < x / 256) : (m.write addr bs p).read x = m.read x := by
  unfold Mem.write
  have reached : ∀ k ∈ List.range (if bs.isEmpty then 0 else (addr + bs.length - 1) / 256 - addr / 256 + 1),
      x / 256 = addr / 256 + k → p = false := by
    intro k hk eq
    cases p with
    | false => rfl
    | true =>
      have := apart rfl
      cases bs with
      | nil => simp at hk
      | cons b bs =>
        simp at hk this
        omega
  generalize List.range _ = ks at reached ⊢
  induction ks generalizing m with
  | nil => rfl
  | cons k ks ih =>
    rw [List.foldl_cons, ih (writeLine_wf ok _ _ _) fun k hk => reached k (.tail _ hk)]
    by_cases here : x / 256 = addr / 256 + k
    · have others : ∀ e ∈ runInLine (x / 256) addr bs, e.1 ≠ x % 256 := fun e he eq => by
        have listed := (mem_runInLine he).2
        rw [eq, show x / 256 * 256 + x % 256 = x by omega] at listed
        exact absent _ listed
      rw [reached k (.head _) here, ← here]
      exact read_writeLine_self ok (runInLine_length_ne others) others
    · exact read_writeLine_other ok (fun e he => (mem_runInLine he).1) here

end
end Sys2Proof.Machine
end

section
namespace Sys2Proof.Machine
open Sys2Proof.Laws

/-! ## BAR2, completions and pending messages (O48) -/

section
variable {s : State} {n off len : Nat}

/-- The host may read the whole of a range of BAR2. -/
def BarReadable (s : State) (n off len : Nat) : Prop :=
  s.barServed = true ∧ off + len ≤ s.barSize n ∧ s.barLocal n off + len ≤ s.mem.top ∧
    ∀ i < len, s.vfReach n (s.barLocal n off + i) = true

theorem bar2Read_ignored (dead : s.linkUp = false ∨ s.fnHere n = false ∨ len = 0) : bar2Read n off len s = s := by
  unfold bar2Read
  rw [if_pos]
  simpa using dead

theorem wake_mem : s.wake.mem = s.mem := by
  unfold State.wake
  split <;> rfl

/-- In W4 the read wakes the module. -/
theorem bar2Read_served (up : s.linkUp = true) (here : s.fnHere n = true) (nonempty : len ≠ 0) (ok : BarReadable s n off len) :
    bar2Read n off len s =
      let r := s.mem.readRun (s.barLocal n off) len
      { (if s.power.st = .w4 then s.wake else s) with reply := some (.bytes r.1 r.2) } := by
  obtain ⟨served, inBar, inMem, reach⟩ := ok
  have mem : (if s.power.st = .w4 then s.wake else s).mem = s.mem := by
    split
    · exact wake_mem
    · rfl
  unfold bar2Read
  rw [if_neg (by simp [up, here, nonempty]), if_pos (by simpa [served, inBar, inMem] using reach), ← mem]

theorem bar2Read_unsupported (up : s.linkUp = true) (here : s.fnHere n = true) (nonempty : len ≠ 0) (awake : s.power.st ≠ .w4)
    (bad : ¬BarReadable s n off len) : bar2Read n off len s =
      { s with host := { s.host with aer := s.host.aer ++ [(n, .unsupported)] }, reply := some .unsupported } := by
  unfold bar2Read
  rw [if_neg (by simp [up, here, nonempty]), if_neg, if_neg awake]
  · rfl
  · intro ok
    simp at ok
    exact bad (by simpa [BarReadable, and_assoc] using ok)

/-- A byte of a BAR2 write that the host or the function may not write is none of the bytes written. -/
theorem barBytes_absent {a x : Nat} {bytes : List Byte}
    (out : x < a ∨ a + bytes.length ≤ x ∨ s.mem.hostTop ≤ x ∨ s.vfReach n x = false) (b : Byte) :
    (some b, x) ∉ (s.barBytes n a bytes).zipIdx a := by
  intro written
  obtain ⟨above, below, eq⟩ := List.mem_zipIdx written
  have place : a + (x - a) = x := by omega
  simp [State.barBytes, place] at below eq
  obtain ⟨⟨host, reached⟩, -⟩ := eq
  rcases out with out | out | out | out
  · omega
  · omega
  · omega
  · rw [reached] at out
    cases out

theorem bar2Write_served {bytes : List Byte} (up : s.linkUp = true) (here : s.fnHere n = true) (awake : s.power.st ≠ .w4)
    (served : s.barServed = true) (inBar : off + bytes.length ≤ s.barSize n) : bar2Write n off bytes false s =
      s.memWrite (s.barLocal n off) (s.barBytes n (s.barLocal n off) bytes) false := by
  unfold bar2Write
  rw [if_neg (by simp [up, here]), if_pos (by simp [served, inBar]), if_neg awake]
  rfl

theorem bar2Write_unsupported {bytes : List Byte} (up : s.linkUp = true) (here : s.fnHere n = true) (awake : s.power.st ≠ .w4)
    (bad : s.barServed = false ∨ s.barSize n < off + bytes.length) : bar2Write n off bytes false s =
      { s with host := { s.host with aer := s.host.aer ++ [(n, .unsupported)] } } := by
  unfold bar2Write
  rw [if_neg (by simp [up, here]), if_neg (by simpa [imp_iff_not_or] using bad), if_neg awake]
  rfl

end

section
variable {s : State} {tag : Nat} {r : HostRead}

theorem completion_none (none : s.host.reads.find? (fun r => r.tag == tag) = none) (c : HostCpl) : hostCompletion tag c s = s := by
  unfold hostCompletion
  rw [none]

theorem cplTimeout_none (none : s.host.reads.find? (fun r => r.tag == tag) = none) : pcieCplTimeout tag s = s := by
  unfold pcieCplTimeout
  rw [none]

theorem cplTimeout_eq (found : s.host.reads.find? (fun r => r.tag == tag) = some r) :
    pcieCplTimeout tag s = if s.now < r.sent + s.host.cplTo.toNat * 1000 then s else s.failRead r .cplTimeout := by
  unfold pcieCplTimeout
  rw [found]

theorem completion_error (found : s.host.reads.find? (fun r => r.tag == tag) = some r) {c : HostCpl}
    (error : c = .unsupported ∨ c = .abort) : hostCompletion tag c s = s.failRead r .cplError := by
  unfold hostCompletion
  rw [found]
  rcases error with rfl | rfl <;> rfl

theorem completion_misfit (found : s.host.reads.find? (fun r => r.tag == tag) = some r) {bytes : List Byte} {ep : Bool}
    (misfit : bytes = [] ∨ r.len - r.got < bytes.length) : hostCompletion tag (.data bytes ep) s = s := by
  unfold hostCompletion
  rw [found]
  dsimp only
  rw [if_pos (by simpa using misfit)]

/-- Data for a Peel read (R541): the request ends with its last byte, and poisoned data is noted. -/
theorem completion_peel (found : s.host.reads.find? (fun r => r.tag == tag) = some r) {d e k x off : Nat} {bytes : List Byte} {ep : Bool}
    (peel : r.issuer = .peelRead d e k x off) (nonempty : bytes ≠ []) (fits : r.got + bytes.length ≤ r.len) :
    hostCompletion tag (.data bytes ep) s =
      let left := if r.got + bytes.length = r.len then s.host.reads.filter fun q => q.tag != tag
        else s.host.reads.map fun (q : HostRead) => if q.tag = tag then { q with got := r.got + bytes.length } else q
      let s1 := { s with host := { s.host with reads := left } }
      (if ep then s1.aer r.fn .poisoned else s1).bringData d e k x (off + r.got) bytes ep := by
  have short : ¬r.len - r.got < bytes.length := by omega
  unfold hostCompletion
  rw [found]
  dsimp only
  rw [if_neg (by simp [nonempty, short]), peel]
  rfl

theorem msix_sent {fn v : Nat} (up : s.linkUp = true) (pending : v ∈ (s.fn fn).pend) (can : (s.fn fn).deliverable v = true) :
    msixDeliverable fn v s =
      (s.setFn fn { s.fn fn with pend := natSetErase (s.fn fn).pend v }).emit (.msix fn v) := by
  unfold msixDeliverable
  dsimp only
  rw [if_neg (by simp [up, pending, can])]

theorem msix_waits {fn v : Nat} (waits : s.linkUp = false ∨ v ∉ (s.fn fn).pend ∨ (s.fn fn).deliverable v = false) :
    msixDeliverable fn v s = s := by
  unfold msixDeliverable
  dsimp only
  rw [if_pos (by simpa using waits)]

end

/-- Settles O48: BAR2 by `bar2Read_served` and `bar2Write_served`, with `read_write` for the bytes that a write leaves; completions by
`completion_peel`. -/
theorem hostMemoryAccessAndInterrupts : Obligations.HostMemoryAccessAndInterrupts := by
  refine ⟨fun s fn off len => ⟨fun dead => ?_, fun up here len0 => ?_⟩,
    fun s fn off bytes up here awake => ⟨fun served inBar => ?_, fun bad => ?_⟩,
    fun s tag => ⟨fun none => ⟨fun c => ?_, ?_⟩, fun r found => ?_⟩,
    fun s fn v => ⟨fun up pending can => ?_, fun waits => ?_⟩⟩
  · have zero : len = 0 → len.toNat = 0 := fun h => by simp [h]
    exact congrArg Host.Outcome.next (bar2Read_ignored (dead.imp_right fun dead => dead.imp_right zero))
  · have nonempty : len.toNat ≠ 0 := fun h => len0 (BitVec.eq_of_toNat_eq h)
    refine ⟨fun w4 served inBar inMem reach => ?_, fun awake => ⟨fun served inBar inMem reach => ?_, fun bad => ?_⟩⟩
    · have read := bar2Read_served up here nonempty ⟨served, inBar, inMem, reach⟩
      rw [if_pos w4] at read
      exact congrArg Host.Outcome.next read
    · have read := bar2Read_served up here nonempty ⟨served, inBar, inMem, reach⟩
      rw [if_neg awake] at read
      exact congrArg Host.Outcome.next read
    · refine congrArg Host.Outcome.next (bar2Read_unsupported up here nonempty awake fun ok => ?_)
      obtain ⟨served, inBar, inMem, reach⟩ := ok
      rcases bad with bad | bad | bad | ⟨i, inside, bad⟩
      · rw [served] at bad
        cases bad
      · omega
      · omega
      · rw [reach i inside] at bad
        cases bad
  · obtain ⟨e, c, only⟩ :=
      memWrite_only s (s.barLocal fn.toNat off.toNat) (s.barBytes fn.toNat (s.barLocal fn.toNat off.toNat) bytes) false
    refine ⟨_, congrArg Host.Outcome.next ((bar2Write_served up here awake served inBar).trans only), rfl, rfl, fun ok x out => ?_⟩
    exact read_write ok (barBytes_absent out) fun h => nomatch h
  · exact congrArg Host.Outcome.next (bar2Write_unsupported up here awake bad)
  · exact congrArg Host.Outcome.next (completion_none none c)
  · exact congrArg Host.Outcome.next (cplTimeout_none none)
  · have timeout := cplTimeout_eq found
    refine ⟨fun early => ?_, fun late => ?_, congrArg Host.Outcome.next (completion_error found (.inr rfl)),
      congrArg Host.Outcome.next (completion_error found (.inl rfl)),
      fun bytes ep misfit => congrArg Host.Outcome.next (completion_misfit found misfit),
      fun d e k x off bytes peel nonempty part => ?_, fun d e k x off bytes peel nonempty all => ?_,
      fun d e k x off bytes peel nonempty all => ?_⟩
    · rw [if_pos early] at timeout
      exact congrArg Host.Outcome.next timeout
    · rw [if_neg (Nat.not_lt.2 late)] at timeout
      exact congrArg Host.Outcome.next timeout
    · have brought := completion_peel found (ep := false) peel nonempty part.le
      rw [if_neg part.ne] at brought
      exact congrArg Host.Outcome.next brought
    · have brought := completion_peel found (ep := true) peel nonempty all.le
      rw [if_pos all] at brought
      exact congrArg Host.Outcome.next brought
    · have brought := completion_peel found (ep := false) peel nonempty all.le
      rw [if_pos all] at brought
      exact congrArg Host.Outcome.next brought
  · exact congrArg Host.Outcome.next (msix_sent up pending can)
  · exact congrArg Host.Outcome.next (msix_waits waits)

end Sys2Proof.Machine
end

section
namespace Sys2Proof.Machine
open Sys2Proof.Laws

/-! ## Lines, groups and reform (O54) -/

/-! ### The codec (R351, R360) -/

section
variable {s : State} {line : Nat} {flagged : BitVec 10} {u : Nat}

@[simp] theorem popCount10_zero : popCount10 0#10 = 0 := by decide

theorem decode_healthy_clean {g : MemGroup} (healthy : g.state = 0) : g.decode 0 0 = .clean := by
  simp [MemGroup.decode, healthy]

/-- What R351 gives for a HEALTHY group in which nothing has failed. -/
theorem decode_healthy {g : MemGroup} (healthy : g.state = 0) (whole : g.failed = 0) :
    g.decode 0 0 = .clean ∧ g.decode 0 1 = .corrected ∧ g.decode 1 0 = .corrected ∧ g.decode 3 0 = .corrected ∧
      g.decode 7 0 = .lost ∧ g.decode 1 1 = .lost ∧ g.decode 3 1 = .unsure ∧ g.decode 0 2 = .unsure := by
  simp only [MemGroup.decode, healthy, whole]
  decide

theorem decode_degraded1 {g : MemGroup} (degraded : g.state = 1) : g.decode 0 0 = .corrected ∧ g.decode 0 1 = .lost := by
  simp [MemGroup.decode, degraded]

theorem decode_degraded2 {g : MemGroup} (degraded : g.state = 2) : g.decode 0 0 = .corrected ∧ g.decode 0 1 = .wrong := by
  simp [MemGroup.decode, degraded]

theorem decode_critical {g : MemGroup} (critical : 3 ≤ g.state) : g.decode flagged u = .lost := by
  obtain ⟨n, state⟩ : ∃ n, g.state = n + 3 := ⟨g.state - 3, by omega⟩
  simp only [MemGroup.decode, state]

theorem codecRead_clean (healthy : (s.mem.group (s.mem.groupOfLine line)).state = 0) (written : s.mem.poisonForm line 0 = false) :
    s.codecRead line 0 0 = (.clean, { s with mem := { s.mem with errs := smapErase s.mem.errs line }, free := s.free + 1 }) := by
  have settled : s.settleDecode line 0 .clean = (.clean, s) := by simp only [State.settleDecode, written]; rfl
  unfold State.codecRead
  rw [decode_healthy_clean healthy, settled]
  rfl

/-- A line that the codec loses reads as poison after it. -/
theorem noteRead_lost (m : Mem) (seed : Nat) : (m.noteRead line seed .lost).linePoison line = true := by
  unfold Mem.noteRead
  dsimp only
  split
  · next listed => simp only [Mem.linePoison, listed, Bool.true_or]
  · simp [Mem.linePoison, Mem.lineLost, smapFind_insert]

theorem codecRead_lost (lost : (s.mem.group (s.mem.groupOfLine line)).decode flagged u = .lost) :
    (s.codecRead line flagged u).1 = .lost ∧ (s.codecRead line flagged u).2.mem.linePoison line = true := by
  have settled : s.settleDecode line flagged .lost = (.lost, s) := by simp [State.settleDecode]
  unfold State.codecRead
  rw [lost, settled]
  exact ⟨rfl, noteRead_lost (s.logDecoded line flagged .lost).mem (s.logDecoded line flagged .lost).free⟩

end

/-! ### Reads, writes and scrubs of a line (R355 to R358) -/

section
variable {s s1 : State} {line : Nat} {flagged : BitVec 10} {u : Nat} {v : Decoded}

theorem lineRows_dead {data : MemLine} {mask : BitVec 256} {p : Bool} (dead : s.mem.top ≤ line * 256 ∨ s.mclkRuns = false) :
    memLineRead line flagged u s = s ∧ memLineWrite line data mask p s = s ∧ patrolScrubLine line flagged u s = s := by
  have idle : !s.mclkRuns ∨ s.mem.top ≤ line * 256 := by simpa using dead.symm
  refine ⟨?_, ?_, ?_⟩
  · unfold memLineRead
    rw [if_pos idle]
  · unfold memLineWrite
    rw [if_pos idle]
  · unfold patrolScrubLine
    rw [if_pos (idle.imp_right fun above => .inr (.inl above))]

theorem memLineRead_served (inside : line * 256 < s.mem.top) (clock : s.mclkRuns = true)
    (read : s.codecRead line flagged u = (v, s1)) : memLineRead line flagged u s =
      { s1 with reply := some (.bytes (s1.mem.readRun (line * 256) 256).1 (s1.mem.readRun (line * 256) 256).2) } := by
  unfold memLineRead
  rw [if_neg (by simp [clock, inside]), read]

theorem memLineWrite_served {data : MemLine} {mask : BitVec 256} {p : Bool} (inside : line * 256 < s.mem.top)
    (clock : s.mclkRuns = true) : memLineWrite line data mask p s = s.memWrite (line * 256) (maskedLine data mask) p := by
  unfold memLineWrite
  rw [if_neg (by simp [clock, inside])]

theorem patrolScrubLine_off (off : s.mem.scrubEn = false ∨ s.mem.lineCritical line = true) :
    patrolScrubLine line flagged u s = s := by
  unfold patrolScrubLine
  rw [if_pos]
  rcases off with off | off <;> simp [off]

theorem patrolScrubLine_served (inside : line * 256 < s.mem.top) (clock : s.mclkRuns = true) (on : s.mem.scrubEn = true)
    (critical : s.mem.lineCritical line = false) (read : s.codecRead line flagged u = (v, s1)) :
    (v = .wrong → patrolScrubLine line flagged u s = { s1 with mem := s1.mem.rewriteLine line }) ∧
    (v = .lost → line ∉ s1.mem.poison →
      patrolScrubLine line flagged u s = { s1 with mem := s1.mem.poisonLine line }.logPoison line) ∧
    (v = .lost → line ∈ s1.mem.poison → patrolScrubLine line flagged u s = s1) ∧
    (v = .clean ∨ v = .corrected → patrolScrubLine line flagged u s = s1) := by
  unfold patrolScrubLine
  rw [if_neg (by simp [clock, inside, on, critical]), read]
  refine ⟨?_, ?_, ?_, ?_⟩
  · rintro rfl
    rfl
  · rintro rfl out
    exact if_neg (by simpa using out)
  · rintro rfl listed
    exact if_pos (by simpa using listed)
  · rintro (rfl | rfl) <;> rfl

/-- A write of a line leaves every byte of the other lines as it reads. -/
theorem read_write_line {m : Mem} (ok : m.wf = true) {data : MemLine} {mask : BitVec 256} {p : Bool} {x : Nat}
    (other : x < line * 256 ∨ line * 256 + 256 ≤ x) : (m.write (line * 256) (maskedLine data mask) p).read x = m.read x := by
  have length : (maskedLine data mask).length = 256 := by simp [maskedLine]
  refine read_write ok (fun b written => ?_) fun _ => ?_
  · obtain ⟨above, below, -⟩ := List.mem_zipIdx written
    omega
  · omega

end

/-! ### Failed positions (R352, R480) -/

section
variable {s : State}

theorem ledgerAppend_only (s : State) (d : Nat) (type : Byte) (src : Nat) (payload : List Byte) :
    ∃ l r, s.ledgerAppend d type src payload = { s with log := l, ledger := { s.ledger with regions := r } } := by
  unfold State.ledgerAppend
  dsimp only
  split
  · exact ⟨s.log, _, rfl⟩
  · split
    · exact ⟨_, _, rfl⟩
    · exact ⟨_, _, rfl⟩

theorem spare_only (s : State) (d : Nat) (pool : Pool) (src count sub : Nat) :
    ∃ l r, s.spare d pool src count sub = { s with log := l, ledger := { s.ledger with regions := r } } := by
  obtain ⟨l, r, only⟩ := ledgerAppend_only s d 0x06 src (natBytes 1 pool.code ++ natBytes 1 sub ++ natBytes 2 src ++ natBytes 4 count)
  unfold State.spare
  rw [only]
  exact ⟨_, r, rfl⟩

theorem mapRecord_only (s : State) (off : Nat) (w : Word) :
    ∃ l r, s.mapRecord off w = { s with log := l, ledger := { s.ledger with regions := r } } := by
  unfold State.mapRecord
  split
  · exact ledgerAppend_only ..
  · exact ⟨s.log, s.ledger.regions, rfl⟩

theorem group_setGroup {m : Mem} {v : MemGroup} (listed : v ≠ .reset) (g i : Nat) :
    (m.setGroup g v).group i = if i = g then v else m.group i := by
  simp only [Mem.group, Mem.setGroup, smapSet, if_neg listed, smapGet, smapFind_insert]
  split <;> rfl

theorem ne_reset_of_failed {v : MemGroup} {p : Nat} (failed : v.failed.getLsbD p = true) : v ≠ .reset := by
  rintro rfl
  simp [MemGroup.reset] at failed

theorem state_lt (g : MemGroup) : g.state < 2 ^ 3 := by
  unfold MemGroup.state
  split <;> omega

/-- The word of a group gives its failed positions back (R600). -/
theorem groupWord_failed (m : Mem) (g : Nat) {p : Nat} (pos : p < 10) :
    (BitVec.ofNat 10 (fieldOf (m.groupWord g) 3 10)).getLsbD p = (m.group g).failed.getLsbD p := by
  have state : (m.group g).state.testBit (3 + p) = false :=
    Nat.testBit_lt_two_pow ((state_lt _).trans_le (Nat.pow_le_pow_right (by decide) (by omega)))
  have above : ¬13 ≤ 3 + p := by omega
  have inside : 3 + p < 32 := by omega
  rw [BitVec.getLsbD_ofNat]
  simp only [fieldOf, Mem.groupWord, packWord, List.foldl_cons, List.foldl_nil, BitVec.toNat_or, BitVec.toNat_ofNat,
    Nat.testBit_mod_two_pow, Nat.testBit_shiftRight, Nat.testBit_or, Nat.testBit_shiftLeft]
  simp [pos, state, above, inside, BitVec.testBit_toNat]

/-- A group takes its word. -/
theorem crustTake_group (s : State) {g : Nat} (isGroup : g < 40) (w : Word) :
    (s.crustTake (groupMapOffset g, w)).mem = s.mem.setGroup g { s.mem.group g with
      failed := BitVec.ofNat 10 (fieldOf w 3 10), retired := fieldOf w 13 6 == 63 } ∧
    (s.crustTake (groupMapOffset g, w)).ledger.otp = s.ledger.otp ∧
    (s.crustTake (groupMapOffset g, w)).crust.commits = s.crust.commits := by
  have inGroups : 0x060_3000 ≤ groupMapOffset g ∧ groupMapOffset g < 0x060_30A0 := by
    unfold groupMapOffset
    omega
  have noMap : isMapOffset (groupMapOffset g) = false := by
    simp only [isMapOffset, Bool.or_eq_false_iff, Bool.and_eq_false_iff, decide_eq_false_iff_not]
    omega
  have place : (groupMapOffset g - 0x060_3000) / 4 = g := by
    unfold groupMapOffset
    omega
  obtain ⟨l, r, record⟩ := mapRecord_only s (groupMapOffset g) w
  unfold State.crustTake State.crustPut
  dsimp only
  rw [record, noMap, Bool.false_and, if_neg (by decide), if_pos inGroups, place]
  exact ⟨rfl, rfl, rfl⟩

theorem commitWords_one (s : State) {off : Nat} (w : Word) (small : off < 2 ^ 32) : ∃ ws crc, s.commitWords [(off, w)] =
    let s1 := (s.stage ws crc).crustTake (off, w)
    { s1 with crust := { s1.crust with commits := satAdd32 s1.crust.commits 1 } } := by
  let ws := [(BitVec.ofNat 32 off, w)]
  have one : s.commitWords [(off, w)] =
      let s1 := (s.stage ws (crc32 (stagedBytes ws))).crustTake ((BitVec.ofNat 32 off).toNat, w)
      { s1 with crust := { s1.crust with commits := satAdd32 s1.crust.commits 1 } } := rfl
  rw [BitVec.toNat_ofNat, Nat.mod_eq_of_lt small] at one
  exact ⟨ws, crc32 (stagedBytes ws), one⟩

/-- A commit of one group's word sets the group by it, and is counted. -/
theorem commitWords_group (s : State) {g : Nat} (isGroup : g < 40) (w : Word) :
    (s.commitWords [(groupMapOffset g, w)]).mem = s.mem.setGroup g { s.mem.group g with
      failed := BitVec.ofNat 10 (fieldOf w 3 10), retired := fieldOf w 13 6 == 63 } ∧
    (s.commitWords [(groupMapOffset g, w)]).ledger.otp = s.ledger.otp ∧
    (s.commitWords [(groupMapOffset g, w)]).crust.commits = satAdd32 s.crust.commits 1 := by
  have small : groupMapOffset g < 2 ^ 32 := by
    unfold groupMapOffset
    omega
  obtain ⟨ws, crc, one⟩ := commitWords_one s w small
  obtain ⟨mem, otp, commits⟩ := crustTake_group (s.stage ws crc) isGroup w
  rw [one]
  exact ⟨mem, otp, congrArg (satAdd32 · 1) commits⟩

/-- What a note of a group's new state may change: the flag of memory, and nothing of OTP or the Crust registers (R354). -/
def GroupNoted (s t : State) : Prop :=
  (∃ b, t.mem = { s.mem with stateChanged := b }) ∧ t.ledger.otp = s.ledger.otp ∧ t.crust = s.crust

theorem ledgerFlag_noted (s : State) (d src flag : Nat) : GroupNoted s (s.ledgerFlag d src flag) := by
  obtain ⟨l, r, record⟩ := ledgerAppend_only s d 0x08 src (natBytes 4 flag)
  unfold State.ledgerFlag
  rw [record]
  exact ⟨⟨s.mem.stateChanged, rfl⟩, rfl, rfl⟩

theorem alert_noted (s : State) : GroupNoted s s.alert := by
  obtain ⟨h, p, o, a, alert⟩ := alert_only s
  rw [alert]
  exact ⟨⟨s.mem.stateChanged, rfl⟩, rfl, rfl⟩

theorem GroupNoted.trans {a b c : State} (h : GroupNoted a b) (k : GroupNoted b c) : GroupNoted a c := by
  obtain ⟨⟨_, mem⟩, otp, crust⟩ := h
  obtain ⟨⟨f, mem'⟩, otp', crust'⟩ := k
  exact ⟨⟨f, by rw [mem', mem]⟩, otp'.trans otp, crust'.trans crust⟩

theorem groupChanged_noted (s : State) (g old : Nat) : GroupNoted s (s.groupChanged g old) := by
  have same : GroupNoted s s := ⟨⟨s.mem.stateChanged, rfl⟩, rfl, rfl⟩
  unfold State.groupChanged
  dsimp only
  split
  · exact same
  · generalize changed : State.event _ (srcGroup g) 0x0401 _ = s1
    have noted : GroupNoted s s1 := by
      subst changed
      exact ⟨⟨true, rfl⟩, rfl, rfl⟩
    generalize flagged : (if (s.mem.group g).state = 2 then _ else s1) = s2
    have noted : GroupNoted s s2 := by
      subst flagged
      split
      · exact noted.trans (ledgerFlag_noted ..)
      · exact noted
    split
    · exact noted.trans (alert_noted s2)
    · exact noted

theorem positionFail_none {g p : Nat} (none : 40 ≤ g ∨ 10 ≤ p ∨ (s.mem.group g).failed.getLsbD p = true) :
    s.positionFail g p = s := by
  unfold State.positionFail
  rw [if_pos none]

/-- A position in service fails: it is marked in its group, fused, and its group's word committed. -/
theorem positionFail_done {g p : Nat} (isGroup : g < 40) (isPos : p < 10) (serves : (s.mem.group g).failed.getLsbD p = false) :
    (∃ v b, v.failed.getLsbD p = true ∧ (s.positionFail g p).mem = { s.mem.setGroup g v with stateChanged := b }) ∧
    (s.positionFail g p).ledger.otp.positions = s.ledger.otp.positions ||| BitVec.ofNat 400 (2 ^ (10 * g + p)) ∧
    (s.positionFail g p).crust.commits = satAdd32 s.crust.commits 1 := by
  have due : ¬(40 ≤ g ∨ 10 ≤ p ∨ (s.mem.group g).failed.getLsbD p = true) := by
    simp only [serves, Bool.false_eq_true, or_false]
    omega
  let y : MemGroup := { s.mem.group g with failed := (s.mem.group g).failed ||| BitVec.ofNat 10 (2 ^ p) }
  have failed : y.failed.getLsbD p = true := by
    simp only [y, BitVec.getLsbD_or, BitVec.getLsbD_ofNat, Nat.testBit_two_pow_self]
    simp [isPos]
  obtain ⟨l, r, spare⟩ := spare_only (s.otp fun o => { o with positions := o.positions ||| BitVec.ofNat 400 (2 ^ (10 * g + p)) })
    (5 + g / 8) .memory (srcChannel g p) (popCount10 y.failed) 0
  generalize fused : State.spare _ (5 + g / 8) .memory (srcChannel g p) (popCount10 y.failed) 0 = s1 at spare
  have step : s.positionFail g p =
      let s2 := s1.event (srcGroup g) 0x0402 (detail3 g p 0)
      (s2.commitWords [(groupMapOffset g, (s2.mem.setGroup g y).groupWord g)]).groupChanged g (s.mem.group g).state := by
    rw [← fused]
    exact if_neg due
  have mem : s1.mem = s.mem := by rw [spare]; rfl
  have crust : s1.crust = s.crust := by rw [spare]; rfl
  have positions : s1.ledger.otp.positions = s.ledger.otp.positions ||| BitVec.ofNat 400 (2 ^ (10 * g + p)) := by rw [spare]; rfl
  obtain ⟨groups, otp, commits⟩ := commitWords_group (s1.event (srcGroup g) 0x0402 (detail3 g p 0)) isGroup
    (((s1.event (srcGroup g) 0x0402 (detail3 g p 0)).mem.setGroup g y).groupWord g)
  rw [step]
  dsimp only
  generalize State.commitWords _ _ = s3 at groups otp commits ⊢
  obtain ⟨⟨b, after⟩, otp', crust'⟩ := groupChanged_noted s3 g (s.mem.group g).state
  refine ⟨⟨_, b, ?_, by rw [after, groups, event_mem, mem]⟩, by rw [otp', otp, event_ledger, positions],
    by rw [crust', commits, event_crust, crust]⟩
  dsimp only
  rw [groupWord_failed _ _ isPos, group_setGroup (ne_reset_of_failed failed), if_pos rfl, failed]

/-- No byte and no mark of poison differs. -/
def SameLines (s t : State) : Prop := t.mem.cells = s.mem.cells ∧ t.mem.poison = s.mem.poison

theorem SameLines.trans {a b c : State} (h : SameLines a b) (k : SameLines b c) : SameLines a c :=
  ⟨k.1.trans h.1, k.2.trans h.2⟩

theorem positionFail_lines (s : State) (g p : Nat) : SameLines s (s.positionFail g p) := by
  by_cases none : 40 ≤ g ∨ 10 ≤ p ∨ (s.mem.group g).failed.getLsbD p = true
  · rw [positionFail_none none]
    exact ⟨rfl, rfl⟩
  · obtain ⟨isGroup, isPos, serves⟩ : g < 40 ∧ p < 10 ∧ (s.mem.group g).failed.getLsbD p = false := by simpa using none
    obtain ⟨⟨v, b, -, mem⟩, -⟩ := positionFail_done isGroup isPos serves
    exact ⟨by rw [mem]; rfl, by rw [mem]; rfl⟩

/-- After a position of a group has failed, it is failed, as is each position of its number that was so before. -/
theorem positionFail_failed {g p i : Nat} (isGroup : g < 40) (isPos : p < 10)
    (was : i = g ∨ (s.mem.group i).failed.getLsbD p = true) : ((s.positionFail g p).mem.group i).failed.getLsbD p = true := by
  cases serves : (s.mem.group g).failed.getLsbD p with
  | true =>
    rw [positionFail_none (.inr (.inr serves))]
    rcases was with rfl | was
    · exact serves
    · exact was
  | false =>
    obtain ⟨⟨v, b, failed, mem⟩, -⟩ := positionFail_done isGroup isPos serves
    have after : (s.positionFail g p).mem.group i = if i = g then v else s.mem.group i := by
      rw [mem, ← group_setGroup (ne_reset_of_failed failed)]
      rfl
    rw [after]
    split
    · exact failed
    · next other => exact was.resolve_left other

theorem positionFails_failed {p i : Nat} (isPos : p < 10) {gs : List Nat} (groups : ∀ g ∈ gs, g < 40)
    (was : i ∈ gs ∨ (s.mem.group i).failed.getLsbD p = true) :
    ((gs.foldl (fun s g => s.positionFail g p) s).mem.group i).failed.getLsbD p = true := by
  induction gs generalizing s with
  | nil => exact was.resolve_left (by simp)
  | cons g gs ih =>
    have next := positionFail_failed (s := s) (i := i) (groups g (.head _)) isPos
    refine ih (fun g hg => groups g (.tail _ hg)) ?_
    rcases was with listed | was
    · rcases List.mem_cons.1 listed with first | later
      · exact .inr (next (.inl first))
      · exact .inl later
    · exact .inr (next (.inr was))

/-- A failed package takes its position in all eight groups of its die (R353). -/
theorem packageFail_failed {g p j : Nat} (isGroup : g < 40) (isPos : p < 10) (inDie : j < 8) :
    ((s.packageFail g p).mem.group (8 * (g / 8) + j)).failed.getLsbD p = true := by
  have groups : ∀ i ∈ (List.range 8).map (8 * (g / 8) + ·), i < 40 := by
    intro i hi
    obtain ⟨k, hk, rfl⟩ := List.mem_map.1 hi
    have := List.mem_range.1 hk
    omega
  have failed := positionFails_failed (s := s) isPos groups (.inl (List.mem_map.2 ⟨j, List.mem_range.2 inDie, rfl⟩))
  rwa [List.foldl_map] at failed

theorem packageFail_lines (s : State) (g p : Nat) : SameLines s (s.packageFail g p) :=
  foldl_keeps SameLines (fun _ => ⟨rfl, rfl⟩) (fun _ _ _ => .trans) _ (fun s _ => positionFail_lines s _ p) _ _

theorem packageFail_none {g p : Nat} (none : 40 ≤ g) : s.packageFail g p = s := by
  refine List.foldl_fixed' (fun j => positionFail_none (.inl ?_)) _
  omega

end

/-! ### Refresh and reform (R359, R366, R367) -/

section
variable {s : State}

theorem hotRefresh_done {ch : Nat} (isChannel : ch < 400) : hotRefresh ch s =
    ({ s with mem := { s.mem with hotRefresh := true } }).event (srcNo (5 + ch / 80) 0x090) 0x0403 (detail3 ch 0 0) :=
  if_neg (Nat.not_le.2 isChannel)

theorem memReformStart_runs (runs : s.mem.reforming.isSome = true) : memReformStart s = s := if_pos runs

theorem memReformStart_refused (idle : s.mem.reforming = none) (error : s.reformError ≠ 0) : memReformStart s =
    ({ s with mem := { s.mem with reformDone := true, reformError := BitVec.ofNat 2 s.reformError } }).hwSet 0x020_0014 2 := by
  unfold memReformStart
  rw [if_neg (by simp [idle])]
  exact if_pos error

theorem recordRetired_only (s : State) (gs : List Nat) : ∃ l c, gs.foldl (fun s g =>
    (s.otp fun o => { o with groups := o.groups ||| BitVec.ofNat 40 (2 ^ g) }).spare (5 + g / 8) .memory (srcGroup g) 0) s =
      { s with log := l, ledger := c } := by
  refine foldl_keeps (fun s t => ∃ l c, t = { s with log := l, ledger := c }) (fun s => ⟨s.log, s.ledger, rfl⟩)
    (fun _ _ _ ⟨_, _, h⟩ ⟨l, c, k⟩ => ⟨l, c, by rw [k, h]⟩) _ (fun s g => ?_) _ _
  obtain ⟨l, r, spare⟩ := spare_only (s.otp fun o => { o with groups := o.groups ||| BitVec.ofNat 40 (2 ^ g) }) (5 + g / 8) .memory
    (srcGroup g) 0 0
  exact ⟨l, _, spare⟩

/-- A reform begins: the retirement is recorded, and memory works on (R367). -/
theorem memReformStart_begins (idle : s.mem.reforming = none) (error : s.reformError = 0) :
    (memReformStart s).mem = { s.mem with reforming := some s.mem.reformMask, reformError := 0 } ∧
      (memReformStart s).cores = s.cores ∧ (memReformStart s).parts = s.parts := by
  obtain ⟨l, c, recorded⟩ := recordRetired_only s (maskGroups s.mem.reformMask)
  unfold memReformStart
  rw [if_neg (by simp [idle])]
  dsimp only
  rw [if_neg (by simp [error]), recorded]
  exact ⟨rfl, rfl, rfl⟩

theorem memReformDone_none (none : s.mem.reforming = none) : memReformDone s = s := by
  unfold memReformDone
  rw [none]

theorem logPoisons_mem (ls : List Nat) : (ls.foldl State.logPoison s).mem = s.mem := by
  obtain ⟨e, c, only⟩ := logPoisons_only s ls
  rw [only]

theorem logPoisons_crumbLog (ls : List Nat) : (ls.foldl State.logPoison s).crumbLog = s.crumbLog := by
  obtain ⟨e, c, only⟩ := logPoisons_only s ls
  rw [only]

/-- The end of a reform (R366): its registers, and a Crumb log of its own. -/
theorem memReformDone_ends {mask : BitVec 40} (runs : s.mem.reforming = some mask) :
    let t := memReformDone s
    t.mem.reforming = none ∧ t.mem.reformDone = true ∧ t.mem.reformError = 0 ∧ t.crumbLog.head = 0 ∧ t.crumbLog.tail = 0 ∧
      t.crumbLog.lost = 0 := by
  unfold memReformDone
  rw [runs]
  dsimp only
  rw [logPoisons_mem, logPoisons_crumbLog]
  exact ⟨rfl, rfl, rfl, rfl, rfl, rfl⟩

end

/-- Settles O54: the codec by `decode_healthy` and its neighbours, a written line by `read_write_line`, failed positions by
`positionFail_done`, which takes the group's word through its commit, and packages by `packageFail_failed`. -/
theorem memoryLinesGroupsAndReform : Obligations.MemoryLinesGroupsAndReform := by
  refine ⟨fun s line flagged u data mask p => ⟨fun dead => ?_, fun inside clock =>
      ⟨fun v s1 read => ⟨?_, fun on critical => ?_⟩, codecRead_clean, codecRead_lost, ?_, fun off => ?_⟩⟩,
    fun g => ⟨decode_healthy, decode_degraded1, decode_degraded2, fun critical _ _ => decode_critical critical⟩,
    fun s group pos => ?_, fun s ch => ?_, fun s => ?_⟩
  · obtain ⟨read, write, scrub⟩ := lineRows_dead (u := u.toNat) dead
    exact ⟨congrArg Host.Outcome.next read, congrArg Host.Outcome.next write, congrArg Host.Outcome.next scrub⟩
  · exact congrArg Host.Outcome.next (memLineRead_served inside clock read)
  · obtain ⟨wrong, lost, poisoned, kept⟩ := patrolScrubLine_served inside clock on critical read
    exact ⟨fun h => congrArg Host.Outcome.next (wrong h), fun h out => congrArg Host.Outcome.next (lost h out),
      fun h listed => congrArg Host.Outcome.next (poisoned h listed), fun h => congrArg Host.Outcome.next (kept h)⟩
  · obtain ⟨e, c, only⟩ := memWrite_only s (line.toNat * 256) (maskedLine data mask) p
    exact ⟨_, congrArg Host.Outcome.next ((memLineWrite_served inside clock).trans only), rfl, rfl,
      fun ok x other => read_write_line ok other⟩
  · exact congrArg Host.Outcome.next (patrolScrubLine_off off)
  · refine ⟨fun none => congrArg Host.Outcome.next (positionFail_none none), fun reaches => ?_, fun isGroup isPos serves => ?_,
      fun none => congrArg Host.Outcome.next (packageFail_none none), fun isGroup isPos => ?_⟩
    · exact ⟨_, congrArg Host.Outcome.next (hostReg_served _ reaches.1 reaches.2), rfl⟩
    · obtain ⟨-, positions, commits⟩ := positionFail_done isGroup isPos serves
      have lines := positionFail_lines s group.toNat pos.toNat
      exact ⟨_, rfl, commits, positionFail_failed isGroup isPos (.inl rfl), positions, lines⟩
    · have lines := packageFail_lines s group.toNat pos.toNat
      exact ⟨_, rfl, fun j inDie => packageFail_failed isGroup isPos inDie, lines⟩
  · exact ⟨rfl, fun isChannel => congrArg Host.Outcome.next (hotRefresh_done isChannel),
      fun none => congrArg Host.Outcome.next (if_pos none), rfl⟩
  · refine ⟨fun reaches runs => ?_, fun reaches idle error => ?_, fun reaches idle error => ?_,
      fun none => congrArg Host.Outcome.next (memReformDone_none none), fun mask runs => ⟨_, rfl, memReformDone_ends runs⟩⟩
    · exact congrArg Host.Outcome.next ((hostReg_served _ reaches.1 reaches.2).trans (memReformStart_runs runs))
    · exact congrArg Host.Outcome.next ((hostReg_served _ reaches.1 reaches.2).trans (memReformStart_refused idle error))
    · exact ⟨_, congrArg Host.Outcome.next (hostReg_served _ reaches.1 reaches.2), memReformStart_begins idle error⟩

end Sys2Proof.Machine
end

section
namespace Sys2Proof.Machine
open Sys2Proof.Laws

/-! ## Registers of the fabric and MANAGE (O52) -/

/-- A write of a fabric register that reaches it has its effect. -/
theorem next_fabReg {s t : State} {off : Nat} {f : State → State} (reaches : FabReaches s off) (h : f s = t) :
    Host.Outcome.next (s.fabReg off f) = (.next t : Out) :=
  congrArg Host.Outcome.next ((fabReg_served f reaches.1 reaches.2).trans h)

section
variable {s : State} {v : Word}

/-! ### The node ID and the groups (R389, R416) -/

/-- R389: FAB_NODE_ID takes this ID. -/
def NodeIdTaken (s : State) (node : NodeId) : Prop :=
  (s.fab.node = 0 ∨ ∀ n < 16, (s.part n).inReset = true) ∧ node ≠ 0xFFFF

theorem nodeIdTaken_iff {node : NodeId} : NodeIdTaken s node ↔
    ((s.fab.node == 0 || (List.range 16).all fun n => (s.part n).inReset) && node != 0xFFFF) = true := by
  simp [NodeIdTaken]

theorem fabNodeIdWrite_taken (taken : NodeIdTaken s ((s.clears 0x030_0000 v).extractLsb' 0 16)) : fabNodeIdWrite v s =
    ({ s with fab := { s.fab with
      node := (s.clears 0x030_0000 v).extractLsb' 0 16
      writeIgnored := s.fab.writeIgnored && !(s.clears 0x030_0000 v).getLsbD 16 } }).elect :=
  if_pos (nodeIdTaken_iff.1 taken)

theorem fabNodeIdWrite_ignored (refused : ¬NodeIdTaken s ((s.clears 0x030_0000 v).extractLsb' 0 16)) : fabNodeIdWrite v s =
    { s with fab := { s.fab with writeIgnored := true } }.hwSet 0x030_0000 0x1_0000 :=
  if_neg (mt nodeIdTaken_iff.2 refused)

/-- The group entry that COLL_GRP_SEL names. -/
def selectedGroup (s : State) : CollGroup := smapGet CollGroup.reset s.fab.groups s.fab.grpSel.toNat

/-- A group entry with one of its fields written. -/
def CollGroup.withField (g : CollGroup) (v : Word) : CollField → CollGroup
  | .grpId => { g with id := v }
  | .size => { g with pTotal := v.extractLsb' 0 16, nNodes := v.extractLsb' 16 12, valid := v.getLsbD 28 }
  | .place => { g with localPt := v.extractLsb' 0 16, nlBase := v.extractLsb' 16 16 }

theorem collGroupEntryWrite_valid {f : CollField} (valid : (selectedGroup s).valid = true) (keeps : clearsValid f v = false) :
    collGroupEntryWrite f v s = s :=
  if_pos (Bool.and_eq_true_iff.2 ⟨valid, congrArg not keeps⟩)

theorem collGroupEntryWrite_open {f : CollField} (free : (selectedGroup s).valid = false ∨ clearsValid f v = true) :
    collGroupEntryWrite f v s = { s with fab := { s.fab with
      groups := smapSet .reset s.fab.groups s.fab.grpSel.toNat ((selectedGroup s).withField v f) } } := by
  have passes : ¬((selectedGroup s).valid && !clearsValid f v) = true := by
    rcases free with free | clears
    · simp [free]
    · simp [clears]
  cases f <;> exact if_neg passes

/-! ### The host's one-sided operation (R404) -/

/-- The operation with the kind and the length that a write of FAB_OP_GO names. -/
def opNamed (s : State) (v : Word) : FabOp := { s.fab.op with kind := v.extractLsb' 0 2, len := v.extractLsb' 2 11 }

/-- The state with the operation that a write names. -/
def withOp (s : State) (v : Word) : State := { s with fab := { s.fab with op := opNamed s v } }

/-- The state in which the operation that a write names runs. -/
def opBegun (s : State) (v : Word) : State :=
  { s with fab := { s.fab with op := { opNamed s v with busy := true, error := 0 } } }

/-- The length in bytes of the operation that a write names. -/
def opLen (s : State) (v : Word) : Nat := (opNamed s v).len.toNat + 1

/-- The node that the operation's fabric address names. -/
def opNode (s : State) : NodeId := s.fab.op.addr.extractLsb' 48 16

/-- What the operation takes from memory, with its poison: nothing for a READ. -/
def opSource (s : State) (v : Word) : List Byte × Bool :=
  if (opNamed s v).kind = 0 then ([], false) else s.mem.readRun s.fab.op.localAddr.toNat (opLen s v)

theorem opSource_read (read : (opNamed s v).kind = 0) : opSource s v = ([], false) := if_pos read

theorem opSource_bytes (bytes : (opNamed s v).kind ≠ 0) :
    opSource s v = s.mem.readRun s.fab.op.localAddr.toNat (opLen s v) := if_neg bytes

/-- The packet kind of the operation's request (R386). -/
def opRequest (s : State) (v : Word) : Byte :=
  if (opNamed s v).kind = 0 then 0x01 else if (opNamed s v).kind = 1 then 0x03 else 0x04

theorem opRequest_read (read : (opNamed s v).kind = 0) : opRequest s v = 0x01 := if_pos read

theorem opRequest_write (write : (opNamed s v).kind = 1) : opRequest s v = 0x03 :=
  (if_neg (ne_of_eq_of_ne write (by decide))).trans (if_pos write)

theorem opRequest_add (add : (opNamed s v).kind = 2) : opRequest s v = 0x04 :=
  (if_neg (ne_of_eq_of_ne add (by decide))).trans (if_neg (ne_of_eq_of_ne add (by decide)))

theorem fabOpBad_iff {len : Nat} : s.fabOpBad len = true ↔ s.mem.hostTop < s.fab.op.localAddr.toNat + len ∨ s.fab.op.kind = 3 ∨
    (s.fab.op.kind = 2 ∧ (len % 12 ≠ 0 ∨ s.fab.op.addr.toNat % 4 ≠ 0)) := by
  simp [State.fabOpBad, or_assoc]

theorem fabOpGo_running (busy : s.fab.op.busy = true) (go : v.getLsbD 31 = true) : fabOpGo v s = s := if_pos ⟨busy, go⟩

theorem fabOpGo_fields (noGo : v.getLsbD 31 = false) : fabOpGo v s = withOp s v :=
  (if_neg fun h => Bool.eq_false_iff.1 noGo h.2).trans (if_pos (by rw [noGo]; rfl))

section
variable (idle : s.fab.op.busy = false) (go : v.getLsbD 31 = true)
include idle go

theorem fabOpGo_starts : fabOpGo v s =
    if (withOp s v).fabOpBad (opLen s v) then (withOp s v).finishFabOp 3
    else if s.namesSelf (opNode s) then
      (opBegun s v).localOp (s.fab.op.addr.toNat % 2 ^ 48) (opLen s v) (opSource s v).1 (opSource s v).2
    else if s.fab.node = 0 then (opBegun s v).finishFabOp 1
    else (opBegun s v).sendReq (opNode s) (opRequest s v) 0 0 (BitVec.ofNat 64 (s.fab.op.addr.toNat % 2 ^ 48)) (opLen s v)
      (opSource s v).1 (opSource s v).2 (.fabOp s.fab.op.localAddr.toNat) :=
  (if_neg fun h => Bool.eq_false_iff.1 idle h.1).trans (if_neg (by rw [go]; decide))

theorem fabOpGo_bad (bad : (withOp s v).fabOpBad (opLen s v) = true) : fabOpGo v s = (withOp s v).finishFabOp 3 :=
  (fabOpGo_starts idle go).trans (if_pos bad)

variable (good : (withOp s v).fabOpBad (opLen s v) = false)
include good

theorem fabOpGo_self (self : s.namesSelf (opNode s) = true) : fabOpGo v s =
    (opBegun s v).localOp (s.fab.op.addr.toNat % 2 ^ 48) (opLen s v) (opSource s v).1 (opSource s v).2 := by
  rw [fabOpGo_starts idle go, if_neg (Bool.eq_false_iff.1 good), if_pos self]

variable (away : s.namesSelf (opNode s) = false)
include away

theorem fabOpGo_nameless (nameless : s.fab.node = 0) : fabOpGo v s = (opBegun s v).finishFabOp 1 := by
  rw [fabOpGo_starts idle go, if_neg (Bool.eq_false_iff.1 good), if_neg (Bool.eq_false_iff.1 away), if_pos nameless]

theorem fabOpGo_sends (named : s.fab.node ≠ 0) : fabOpGo v s =
    (opBegun s v).sendReq (opNode s) (opRequest s v) 0 0 (BitVec.ofNat 64 (s.fab.op.addr.toNat % 2 ^ 48)) (opLen s v)
      (opSource s v).1 (opSource s v).2 (.fabOp s.fab.op.localAddr.toNat) := by
  rw [fabOpGo_starts idle go, if_neg (Bool.eq_false_iff.1 good), if_neg (Bool.eq_false_iff.1 away), if_neg named]

end
end

/-! ### MANAGE (R392) -/

section
variable {s : State} {n : Nat} {p : Packet}

theorem manage_ignored (dead : (s.port n).linked = false ∨ p.kind ≠ 0x21) : manage n p s = s := by
  have unfit : (!(s.port n).linked) = true ∨ p.kind ≠ 0x21 ∨ 15 < p.tag.toNat :=
    dead.imp (congrArg not) .inl
  exact if_pos (.inr (.inr unfit))

theorem manage_taken (up : s.power.routes = true) (hn : n < 40) (linked : (s.port n).linked = true) (kind : p.kind = 0x21)
    (short : p.tag.toNat ≤ 15) : manage n p s =
      if p.tag.toNat ≤ p.hops then s.manageHere n p
      else s.sendDirected (pathHop (packetPath p) p.hops)
        { withPath p (setHop (packetPath p) p.hops n) with hops := p.hops + 1 } :=
  if_neg (by simp [up, linked, kind, hn, short])

end

/-- Settles O52: each register's row by the law of its case, the host's operation by `fabOpGo_starts`, a MANAGE packet by
`manage_taken`. That a packet sent on has its arrival port in the place of the hop it used is the model's choice (log 34). -/
theorem fabricRegistersAndManage : Obligations.FabricRegistersAndManage := by
  refine ⟨fun s v reaches => next_fabReg reaches rfl,
    fun s v reaches => ⟨fun taken => next_fabReg reaches (fabNodeIdWrite_taken taken),
      fun refused => next_fabReg reaches (fabNodeIdWrite_ignored refused)⟩,
    fun s v reaches => ⟨fun valid => ?_, fun free => ?_, fun free => ?_⟩,
    fun s v reaches => ⟨fun busy go => next_fabReg reaches (fabOpGo_running busy go),
      fun noGo => next_fabReg reaches (fabOpGo_fields noGo), fun idle go => ⟨fun bad => ?_, fun good => ?_⟩⟩,
    fun s port p => ⟨fun dead => congrArg Host.Outcome.next (manage_ignored dead), fun up hn linked kind short => ?_⟩⟩
  · exact ⟨next_fabReg reaches (collGroupEntryWrite_valid valid rfl), next_fabReg reaches (collGroupEntryWrite_valid valid rfl),
      fun stays => next_fabReg reaches (collGroupEntryWrite_valid valid (congrArg not stays))⟩
  · exact ⟨next_fabReg reaches (collGroupEntryWrite_open (.inl free)), next_fabReg reaches (collGroupEntryWrite_open (.inl free))⟩
  · exact next_fabReg reaches (collGroupEntryWrite_open (free.imp_right (congrArg not)))
  · exact next_fabReg reaches (fabOpGo_bad idle go (fabOpBad_iff.2 bad))
  · refine ⟨fun away nameless => next_fabReg reaches (fabOpGo_nameless idle go good away nameless), fun self => ?_,
      fun away named => ?_⟩
    · have served := fabOpGo_self idle go good self
      refine ⟨fun read => ?_, fun bytes => ?_⟩
      · rw [opSource_read read] at served
        exact next_fabReg reaches served
      · rw [opSource_bytes bytes] at served
        exact next_fabReg reaches served
    · have sent := fabOpGo_sends idle go good away named
      refine ⟨fun read => ?_, fun write => ?_, fun add => ?_⟩
      · rw [opSource_read read, opRequest_read read] at sent
        exact next_fabReg reaches sent
      · rw [opSource_bytes (ne_of_eq_of_ne write (by decide)), opRequest_write write] at sent
        exact next_fabReg reaches sent
      · rw [opSource_bytes (ne_of_eq_of_ne add (by decide)), opRequest_add add] at sent
        exact next_fabReg reaches sent
  · have taken := manage_taken up hn linked kind short
    exact ⟨fun last => congrArg Host.Outcome.next (taken.trans (if_pos last)),
      fun onward => congrArg Host.Outcome.next (taken.trans (if_neg (Nat.not_le.2 onward)))⟩

end Sys2Proof.Machine
end

section
namespace Sys2Proof.Machine
open Sys2Proof.Laws

/-! ## Ports and links (O50) -/

section
variable {p : Port} {now : Nat}

theorem train_starts (off : p.st = .off) (en : p.en = true) (signal : p.signal = true) (ready : p.backoff = none) :
    p.train now = { p with st := .train, trainStart := now } :=
  if_pos (by simp [off, en, signal, ready])

theorem train_stays (h : p.st ≠ .off ∨ p.en = false ∨ p.backoff ≠ none) : p.train now = p := by
  refine if_neg ?_
  rcases h with on | off | waits
  · simp [on]
  · simp [off]
  · simp [waits]

theorem linked_of_link (link : p.st = .link) : p.linked = true := by simp [Port.linked, link]

theorem linked_of_up (up : p.st = .up) : p.linked = true := by simp [Port.linked, up]

end

section
variable {s : State} {n : Nat} (up : s.power.routes = true) (hn : n < 40)
include up hn

/-! ### Training (R376, R377) -/

theorem portSignalDetect_eq : portSignalDetect n s = s.setPort n ({ s.port n with signal := true }.train s.now) :=
  atPort_powered hn up _

theorem portTrainComplete_links {lanes w : Nat} {fast : Bool} (training : (s.port n).st = .train)
    (enough : widthFor n (min lanes (portLanes n)) = some w) (lit : 32 ≤ n ∨ (smapGet Bay.reset s.bays (n / 8)).on = true)
    (clean : s.crust.read (laneOffset n) = 0) : portTrainComplete n lanes fast s =
      (s.setPort n { (s.port n).down with
        st := .link, signal := true, width := w, rate := fast && (s.port n).rateCap, lanes := min lanes (portLanes n)
        lastHello := s.now, owed := [(0, 256), (1, 256), (2, 512), (3, 32)] }).pumpPort n := by
  have fit : ¬((s.port n).st ≠ .train ∨ (n < 32 ∧ (!(smapGet Bay.reset s.bays (n / 8)).on) = true)) := by
    rintro (other | ⟨optical, dark⟩)
    · exact other training
    · rcases lit with electrical | on
      · omega
      · simp [on] at dark
  rw [portTrainComplete, atPort_powered hn up]
  dsimp only
  rw [enough]
  dsimp only
  rw [if_neg fit, if_pos clean]
  rfl

theorem portTrainComplete_stays {lanes : Nat} {fast : Bool} (unfit : (s.port n).st ≠ .train ∨
    widthFor n (min lanes (portLanes n)) = none ∨ (n < 32 ∧ (smapGet Bay.reset s.bays (n / 8)).on = false)) :
    portTrainComplete n lanes fast s = s := by
  rw [portTrainComplete, atPort_powered hn up]
  dsimp only
  split
  · rfl
  · next w enough =>
    refine if_pos ?_
    rcases unfit with other | few | ⟨optical, dark⟩
    · exact .inl other
    · rw [enough] at few
      cases few
    · exact .inr ⟨optical, congrArg not dark⟩

theorem portTrainTimeout_due (training : (s.port n).st = .train) (due : (s.port n).trainStart + trainLimit n ≤ s.now) :
    portTrainTimeout n s = s.setPort n { (s.port n).down with
      signal := (s.port n).signal, backoff := some s.now, trainFails := min 65535 ((s.port n).trainFails + 1) } := by
  rw [portTrainTimeout, atPort_powered hn up]
  exact if_neg (not_or.2 ⟨not_not.2 training, Nat.not_lt.2 due⟩)

theorem portTrainTimeout_stays (h : (s.port n).st ≠ .train ∨ s.now < (s.port n).trainStart + trainLimit n) :
    portTrainTimeout n s = s := by
  rw [portTrainTimeout, atPort_powered hn up]
  exact if_pos h

theorem trainBackoffEnd_none (none : (s.port n).backoff = none) : trainBackoffEnd n s = s := by
  rw [trainBackoffEnd, atPort_powered hn up]
  dsimp only
  rw [none]

theorem trainBackoffEnd_some {t : Nat} (waits : (s.port n).backoff = some t) : trainBackoffEnd n s =
    if s.now < t + 100000000 then s else s.setPort n ({ s.port n with backoff := none }.train s.now) := by
  rw [trainBackoffEnd, atPort_powered hn up]
  dsimp only
  rw [waits]

/-! ### Hellos (R376, R384, R390, R391) -/

theorem helloReceive_unlinked {h : HelloInfo} (down : (s.port n).linked = false) : helloReceive n h s = s := by
  rw [helloReceive, atPort_powered hn up]
  exact if_pos (congrArg not down)

/-- A hello on a port in LINK: the module's own, an announced end, or the peer's. -/
theorem helloReceive_link {h : HelloInfo} (link : (s.port n).st = .link) : helloReceive n h s =
    if h.uid = s.fuse.uid then s.setPort n { s.port n with loopback := true, lastHello := s.now }
    else if h.goingDown then s.linkLoss n 3
    else (((({ s with time := { s.time with upFirst := some (s.time.upFirst.getD s.now) } }).setPort n
      ((s.port n).hear h s.now)).dupCheck h).elect).pumpPort n := by
  rw [helloReceive, atPort_powered hn up]
  dsimp only
  rw [if_neg (by simp [linked_of_link link]), if_neg]
  cases (s.port n).peerUid <;> simp [link]

theorem helloReceive_stranger {h : HelloInfo} {u : DWord} (isUp : (s.port n).st = .up) (peer : (s.port n).peerUid = some u)
    (other : u ≠ h.uid) : helloReceive n h s =
      (s.linkLoss n 3).updPort n fun q => ({ q with signal := true }).train s.now := by
  rw [helloReceive, atPort_powered hn up]
  dsimp only
  rw [if_neg (by simp [linked_of_up isUp]), if_pos]
  simp [peer, isUp, other]

theorem helloTimeout_eq : helloTimeout n s = if s.now < (s.port n).lastHello + 300000 then s else s.linkLoss n 2 :=
  atPort_powered hn up _

/-! ### Flits (R379, R381, R384) -/

theorem flitReceive_unlinked {f : MemLine} (down : (s.port n).linked = false) : flitReceive n f s = s := by
  rw [flitReceive, atPort_powered hn up]
  exact if_pos (congrArg not down)

section
variable {f : MemLine} (linked : (s.port n).linked = true)
include linked

theorem flitReceive_replays
    (bad : flitGood f = false ∨ (flitField f 2 2 = 0 ∧ flitField f 4 12 ≠ (s.port n).rxSeq.toNat)) :
    flitReceive n f s = s.requestReplay n := by
  rw [flitReceive, atPort_powered hn up]
  dsimp only
  rw [if_neg (by simp [linked]), if_pos (by simpa using bad)]

variable (good : flitGood f = true)
include good

theorem flitReceive_data (data : flitField f 2 2 = 0) (inTurn : flitField f 4 12 = (s.port n).rxSeq.toNat)
    (noNak : flitField f 28 1 = 0) :
    flitReceive n f s = (s.setPort n (((s.port n).acked f).taken f)).pumpPort n := by
  rw [flitReceive, atPort_powered hn up]
  dsimp only
  rw [if_neg (by simp [linked]), if_neg (by simp [good, inTurn]), if_pos noNak, if_pos (by simp [data])]

/-- A flit without data has its acknowledgement taken; a NAK replays what is left, up to eight times (log 29). -/
theorem flitReceive_control (control : flitField f 2 2 ≠ 0) : flitReceive n f s =
    let s1 := s.setPort n ((s.port n).acked f)
    if flitField f 28 1 = 0 then s1.pumpPort n
    else if ((s.port n).acked f).sent.any fun x => decide (8 ≤ x.replays) then s1.linkLoss n 1
    else (s1.replay n).pumpPort n := by
  rw [flitReceive, atPort_powered hn up]
  have kind : (flitField f 2 2 == 0) = false := beq_eq_false_iff_ne.2 control
  dsimp only
  rw [kind, if_neg (by simp [linked]), if_neg (by simp [good])]
  rfl

section
variable (control : flitField f 2 2 ≠ 0) (nak : flitField f 28 1 = 1)
include control nak

theorem flitReceive_nak (few : ∀ x ∈ ((s.port n).acked f).sent, x.replays < 8) :
    flitReceive n f s = ((s.setPort n ((s.port n).acked f)).replay n).pumpPort n := by
  rw [flitReceive_control up hn linked good control]
  dsimp only
  rw [if_neg (by simp [nak]), if_neg (by simpa using few)]

theorem flitReceive_worn (worn : ∃ x ∈ ((s.port n).acked f).sent, 8 ≤ x.replays) :
    flitReceive n f s = (s.setPort n ((s.port n).acked f)).linkLoss n 1 := by
  rw [flitReceive_control up hn linked good control]
  dsimp only
  rw [if_neg (by simp [nak]), if_pos (by simpa using worn)]

end
end
end

/-! ### Lanes (R383) -/

section
variable {s : State} {n l : Nat}

/-- The lanes of a port that are out once this one is. -/
def lanesOutWith (s : State) (n l : Nat) : NatSet := natSetInsert (s.port n).lanesOut l

/-- The width that a port's lanes allow without this one. -/
def widthWithout (s : State) (n l : Nat) : Option Nat := widthFor n ((s.port n).lanes - (lanesOutWith s n l).length)

/-- The lane has left service: counted, spared, and written to its Crust register. -/
def laneOut (s : State) (n l : Nat) : State :=
  (((s.setPort n { s.port n with lanesOut := lanesOutWith s n l }).countLinks (srcPort n) 0 1).spare (srcLane n l / 2048) .fabricLanes
    (srcLane n l) ((widthWithout s n l).getD 0)).commitWords
      [(laneOffset n, BitVec.ofNat 32 (((lanesOutWith s n l).map fun i => 2 ^ i).sum))]

/-- The port takes the width that its lanes allow, or loses its link. -/
def fitWidth (s : State) (n old : Nat) : Option Nat → State
  | none => s.linkLoss n 0
  | some w =>
    if w = old then s
    else ((s.updPort n fun q => { q with width := w, widthChanged := true }).hwSet (portStatOff n) 0x400).event (srcPort n) 0x0502
      (detail3 w 0 0)

theorem fitWidth_same {old : Nat} {w : Option Nat} (same : w = some old) : fitWidth s n old w = s := by
  rw [same]
  exact if_pos rfl

theorem fitWidth_none {old : Nat} {w : Option Nat} (none : w = none) : fitWidth s n old w = s.linkLoss n 0 := by
  rw [none]
  rfl

theorem fitWidth_changed {old v : Nat} {w : Option Nat} (some : w = some v) (changed : v ≠ old) : fitWidth s n old w =
    ((s.updPort n fun q => { q with width := v, widthChanged := true }).hwSet (portStatOff n) 0x400).event (srcPort n) 0x0502
      (detail3 v 0 0) := by
  rw [some]
  exact if_neg changed

theorem laneRetire_guard {p : Port} : ((!p.linked) = true ∨ portLanes n ≤ l ∨ p.lanesOut.contains l = true) ↔
    (p.linked = false ∨ portLanes n ≤ l ∨ l ∈ p.lanesOut) := by simp

variable (up : s.power.routes = true) (hn : n < 40)
include up hn

theorem laneRetire_stays (h : (s.port n).linked = false ∨ portLanes n ≤ l ∨ l ∈ (s.port n).lanesOut) : laneRetire n l s = s := by
  rw [laneRetire, atPort_powered hn up]
  exact if_pos (laneRetire_guard.2 h)

theorem laneRetire_retires (linked : (s.port n).linked = true) (inside : l < portLanes n) (inService : l ∉ (s.port n).lanesOut) :
    laneRetire n l s = fitWidth (laneOut s n l) n (s.port n).width (widthWithout s n l) := by
  rw [laneRetire, atPort_powered hn up]
  exact if_neg (mt laneRetire_guard.1 (by simp [linked, inside, inService]))

/-! ### Link loss (R384) -/

theorem linkLost_unlinked (down : (s.port n).linked = false) : linkLost n s = s := by
  rw [linkLost, atPort_powered hn up]
  exact if_pos (congrArg not down)

theorem linkLost_idle (linked : (s.port n).linked = true) (idle : (s.port n).queue = []) : linkLost n s =
    (((s.setPort n { (s.port n).down with downSeen := true }).hwSet (portStatOff n) 0x200).event (srcPort n) 0x0503
      (detail3 (Config.causeCode 0x0503 0 0).toNat 0 0)).elect := by
  rw [linkLost, atPort_powered hn up, State.linkLoss]
  dsimp only
  rw [if_neg (by simp [linked]), idle]
  rfl

end

/-! ### The hellos that the module sends (R390) -/

section
variable {s : State}

theorem helloSend_powered (up : s.power.routes = true) : helloSend s = (List.range 40).foldl (fun z n =>
    if (z.port n).linked then z.portSend n (z.linkPacket 0xFFFF 0x20 (z.helloBytes n false)) else z) s :=
  if_neg (by simp [up])

theorem natBytes_length (k v : Nat) : (natBytes k v).length = k := by
  induction k generalizing v with
  | zero => rfl
  | succ k ih => simp [natBytes, ih]

theorem bytesNat_natBytes (k v : Nat) : bytesNat (natBytes k v) = v % 256 ^ k := by
  induction k generalizing v with
  | zero => simp [natBytes, bytesNat, Nat.mod_one]
  | succ k ih =>
    rw [natBytes, bytesNat, ih, Nat.pow_succ', Nat.mod_mul (a := 256)]
    rfl

theorem helloBytes_length (n : Nat) (down : Bool) : (s.helloBytes n down).length = 64 := by
  simp [State.helloBytes, natBytes_length]

theorem helloBytes_uid (n : Nat) (down : Bool) : bytesNat ((s.helloBytes n down).take 8) = s.fuse.uid.toNat := by
  have head : (s.helloBytes n down).take 8 = natBytes 8 s.fuse.uid.toNat := by
    simp only [State.helloBytes, List.append_assoc]
    exact List.take_left' (natBytes_length 8 _)
  rw [head, bytesNat_natBytes]
  exact Nat.mod_eq_of_lt s.fuse.uid.isLt

end

/-- Settles O50: each row by the law of its case. What idle and control flits carry, that a flit leaves its buffer at once, and what
a NAK of a flit replayed eight times does are the model's choice (log 29). -/
theorem portsTrainAndLinksAreKept : Obligations.PortsTrainAndLinksAreKept := by
  refine ⟨fun s port up hn => ⟨?signal, ?signalOnly, ?trained, ?untrained, ?timeout, ?inTime, ?noBackoff, ?backoff, ?loopback, ?peer,
      ?goesDown, ?stranger, ?noLink, ?quiet, ?silent, ?flits, ?noFlits, ?lanes, ?noLanes, ?noLoss, ?loss,
      fun h now => ⟨rfl, rfl, rfl, rfl⟩, rfl, rfl⟩,
    fun s up => congrArg Host.Outcome.next (helloSend_powered up),
    fun s n d => ⟨helloBytes_length n d, helloBytes_uid n d⟩, by decide⟩
  case signal =>
    intro off en ready
    exact congrArg Host.Outcome.next ((portSignalDetect_eq up hn).trans (congrArg _ (train_starts off en rfl ready)))
  case signalOnly =>
    intro h
    exact congrArg Host.Outcome.next ((portSignalDetect_eq up hn).trans (congrArg _ (train_stays h)))
  case trained =>
    intro lanes fast w training enough lit clean
    exact congrArg Host.Outcome.next (portTrainComplete_links up hn training enough lit clean)
  case untrained =>
    intro lanes fast unfit
    exact congrArg Host.Outcome.next (portTrainComplete_stays up hn unfit)
  case timeout =>
    intro training due
    exact congrArg Host.Outcome.next (portTrainTimeout_due up hn training due)
  case inTime =>
    intro h
    exact congrArg Host.Outcome.next (portTrainTimeout_stays up hn h)
  case noBackoff =>
    intro none
    exact congrArg Host.Outcome.next (trainBackoffEnd_none up hn none)
  case backoff =>
    intro t waits
    have ends := trainBackoffEnd_some up hn waits
    refine ⟨fun early => congrArg Host.Outcome.next (ends.trans (if_pos early)), fun due off en signal => ?_⟩
    have trains := train_starts (p := { s.port port.toNat with backoff := none }) (now := s.now) off en signal rfl
    have again := congrArg (s.setPort port.toNat) trains
    exact congrArg Host.Outcome.next (ends.trans ((if_neg (Nat.not_lt.2 due)).trans again))
  case loopback =>
    intro h linked link own
    exact congrArg Host.Outcome.next ((helloReceive_link up hn link).trans (if_pos own))
  case peer =>
    intro h link other stays
    exact congrArg Host.Outcome.next ((helloReceive_link up hn link).trans ((if_neg other).trans (if_neg (Bool.eq_false_iff.1 stays))))
  case goesDown =>
    intro h link other down
    exact congrArg Host.Outcome.next ((helloReceive_link up hn link).trans ((if_neg other).trans (if_pos down)))
  case stranger =>
    intro h u isUp peer other
    exact congrArg Host.Outcome.next (helloReceive_stranger up hn isUp peer other)
  case noLink =>
    intro h down
    exact congrArg Host.Outcome.next (helloReceive_unlinked up hn down)
  case quiet =>
    intro early
    exact congrArg Host.Outcome.next ((helloTimeout_eq up hn).trans (if_pos early))
  case silent =>
    intro due
    exact congrArg Host.Outcome.next ((helloTimeout_eq up hn).trans (if_neg (Nat.not_lt.2 due)))
  case flits =>
    intro f linked
    refine ⟨fun bad => congrArg Host.Outcome.next (flitReceive_replays up hn linked bad),
      fun good data inTurn noNak => congrArg Host.Outcome.next (flitReceive_data up hn linked good data inTurn noNak),
      fun good control noNak => ?_, fun good control nak => ⟨fun few => ?_, fun worn => ?_⟩⟩
    · exact congrArg Host.Outcome.next ((flitReceive_control up hn linked good control).trans (if_pos noNak))
    · exact congrArg Host.Outcome.next (flitReceive_nak up hn linked good control nak few)
    · exact congrArg Host.Outcome.next (flitReceive_worn up hn linked good control nak worn)
  case noFlits =>
    intro f down
    exact congrArg Host.Outcome.next (flitReceive_unlinked up hn down)
  case lanes =>
    intro lane linked inside inService
    have retired := laneRetire_retires up hn linked inside inService
    exact ⟨fun same => congrArg Host.Outcome.next (retired.trans (fitWidth_same same)),
      fun none => congrArg Host.Outcome.next (retired.trans (fitWidth_none none)),
      fun v some changed => congrArg Host.Outcome.next (retired.trans (fitWidth_changed some changed))⟩
  case noLanes =>
    intro lane h
    exact congrArg Host.Outcome.next (laneRetire_stays up hn h)
  case noLoss =>
    intro down
    exact congrArg Host.Outcome.next (linkLost_unlinked up hn down)
  case loss =>
    intro linked idle
    exact congrArg Host.Outcome.next (linkLost_idle up hn linked idle)

end Sys2Proof.Machine
end

section
namespace Sys2Proof.Laws
open Sys2Proof.Machine
variable (s : State)

/-! ## What executing a request leaves of those that wait (R402) -/

theorem foldl_fab {α : Type} {f : State → α → State} (hf : ∀ s a, (f s a).fab = s.fab) (l : List α) (s : State) :
    (l.foldl f s).fab = s.fab :=
  foldl_keeps (fun s t => t.fab = s.fab) (fun _ => rfl) (fun _ _ _ h g => g.trans h) f hf l s

@[simp] theorem memWrite_fab (a : Nat) (bs : List (Option Byte)) (p : Bool) : (s.memWrite a bs p).fab = s.fab := by
  obtain ⟨_, _, only⟩ := memWrite_only s a bs p
  rw [only]

@[simp] theorem dssPut_fab (die o : Nat) (bs : List (Option Byte)) (p : Bool) : (s.dssPut die o bs p).fab = s.fab := by
  unfold State.dssPut
  split
  · rfl
  · refine foldl_fab (fun z q => ?_) _ s
    dsimp only
    split
    · rfl
    · rfl

@[simp] theorem putLocal_fab (p : Place) (bs : List Byte) (poison : Bool) : (s.putLocal p bs poison).fab = s.fab := by
  cases p with
  | mem a => exact memWrite_fab s a _ poison
  | dss d o => exact dssPut_fab s d o _ poison
  | remote node a => rfl
  | host a => rfl
  | bad reason => rfl

@[simp] theorem atomicAdd_fab (p : Place) (bs : List Byte) (poison : Bool) : (s.atomicAdd p bs poison).fab = s.fab :=
  foldl_fab (fun z _ => putLocal_fab z _ _ _) _ s

@[simp] theorem deliver_fab (k : Nat) (m : Msg) : (s.deliver k m).fab = s.fab := rfl

@[simp] theorem sendAnswer_early (dst : NodeId) (kind flow : Byte) (seq tag : Word) (addr : DWord) (reason : Word) (bs : List Byte)
    (p : Bool) : (s.sendAnswer dst kind flow seq tag addr reason bs p).fab.early = s.fab.early := by
  unfold State.sendAnswer
  split
  · rfl
  · rfl

@[simp] theorem answerRead_early (p : Packet) : (s.answerRead p).fab.early = s.fab.early := sendAnswer_early ..
@[simp] theorem answerAck_early (p : Packet) : (s.answerAck p).fab.early = s.fab.early := sendAnswer_early ..
@[simp] theorem tellRefuse_early (p : Packet) (reason : Nat) : (s.tellRefuse p reason).fab.early = s.fab.early := sendAnswer_early ..

theorem oneSided_early (p : Packet) : (s.oneSided p).fab.early = s.fab.early := by
  unfold State.oneSided
  dsimp only
  split
  · exact tellRefuse_early s p _
  · split
    · exact answerRead_early s p
    · simp
    · simp

theorem takeMessage_early (p : Packet) : (s.takeMessage p).fab.early = s.fab.early := by
  unfold State.takeMessage
  dsimp only
  iterate 3
    split
    · exact tellRefuse_early s p _
  split
  · exact tellRefuse_early s p _
  · split
    · exact sendAnswer_early ..
    · simp

theorem runRequest_early (p : Packet) : (s.runRequest p).fab.early = s.fab.early := by
  unfold State.runRequest
  dsimp only
  split
  · exact takeMessage_early _ p
  · exact oneSided_early _ p

end Sys2Proof.Laws
end

section
namespace Sys2Proof.Machine
open Sys2Proof.Laws

/-! ## Requests from peers and their answers (O51)

### Sequence order (R393, R402) -/

/-- A row that acts on packets of one kind alone changes nothing where its act does not. -/
theorem next_unless {c : Prop} [Decidable c] {s t : State} (h : t = s) :
    Host.Outcome.next (if c then t else s) = (.next s : Out) := by rw [h, ite_self]

section
variable {s : State} {p : Packet}

theorem forMe_iff : s.forMe p = true ↔ s.fab.node ≠ 0 ∧ p.dst = s.fab.node := by simp [State.forMe]

/-- How far a request is ahead of its turn, modulo 2^32 (R402). -/
def ahead (s : State) (p : Packet) : Nat := (p.seq - smapGet 0 s.fab.execSeq p.src.toNat).toNat

/-- The state in which the turn has passed to the request after this one. -/
def nextTurn (s : State) (p : Packet) : State :=
  { s with fab := { s.fab with execSeq := smapSet 0 s.fab.execSeq p.src.toNat (p.seq + 1) } }

/-- None of a source's requests waits for its turn. -/
def NoneEarly (s : State) (src : NodeId) : Prop := ∀ q ∈ s.fab.early, q.src ≠ src

theorem runEarly_none {src : NodeId} (alone : NoneEarly s src) (n : Nat) : s.runEarly src n = s := by
  cases n with
  | zero => rfl
  | succ n =>
    have none : s.fab.early.find? (fun q => q.src == src && q.seq == smapGet 0 s.fab.execSeq src.toNat) = none :=
      List.find?_eq_none.2 fun q waits => by simp [alone q waits]
    unfold State.runEarly
    rw [none]

theorem arriveRequest_elsewhere (elsewhere : s.forMe p = false) : s.arriveRequest p = s := by
  refine if_pos ?_
  by_cases nameless : s.fab.node = 0
  · exact .inl nameless
  · exact .inr (.inl fun here => Bool.eq_false_iff.1 elsewhere (forMe_iff.2 ⟨nameless, here⟩))

variable (mine : s.forMe p = true) (up : s.power.routes = true)
include mine up

theorem arriveRequest_eq : s.arriveRequest p =
    if ahead s p = 0 then (s.runRequest p).runEarly p.src 64
    else if 2 ^ 31 ≤ ahead s p then s.answerAgain p
    else
      let waiting := s.fab.early.filter fun q => q.src == p.src
      if 64 ≤ waiting.length ∨ waiting.any (fun q => q.seq == p.seq) then s
      else { s with fab := { s.fab with early := s.fab.early ++ [p] } } := by
  obtain ⟨named, here⟩ := forMe_iff.1 mine
  exact if_neg (not_or.2 ⟨named, not_or.2 ⟨not_not.2 here, by rw [up]; decide⟩⟩)

theorem arriveRequest_inTurn (inTurn : p.seq = smapGet 0 s.fab.execSeq p.src.toNat) (alone : NoneEarly s p.src) :
    s.arriveRequest p = s.runRequest p := by
  have now : ahead s p = 0 := by simp [ahead, inTurn]
  have still : NoneEarly (s.runRequest p) p.src := by
    rw [NoneEarly, runRequest_early]
    exact alone
  rw [arriveRequest_eq mine up, if_pos now, runEarly_none still]

theorem arriveRequest_early (early : 0 < ahead s p) (near : ahead s p < 2 ^ 31) (alone : NoneEarly s p.src) :
    s.arriveRequest p = { s with fab := { s.fab with early := s.fab.early ++ [p] } } := by
  have none : (s.fab.early.filter fun q => q.src == p.src) = [] :=
    List.filter_eq_nil_iff.2 fun q waits => by simp [alone q waits]
  rw [arriveRequest_eq mine up, if_neg early.ne', if_neg (Nat.not_le.2 near)]
  dsimp only
  rw [none]
  rfl

theorem arriveRequest_again (again : 2 ^ 31 ≤ ahead s p) : s.arriveRequest p = s.answerAgain p := by
  have other : ahead s p ≠ 0 := by omega
  rw [arriveRequest_eq mine up, if_neg other, if_pos again]

end

/-- A duplicate that heard neither a refusal nor NOT_READY, and is no READ, is acknowledged again. -/
theorem answerAgain_acked {s : State} {p : Packet} (untold : ∀ t ∈ s.fab.told, t.src ≠ p.src ∨ t.seq ≠ p.seq)
    (kind : p.kind = 0x03) : s.answerAgain p = s.answerAck p := by
  have none : s.fab.told.find? (fun t => t.src == p.src && t.seq == p.seq) = none :=
    List.find?_eq_none.2 fun t told => by simpa [imp_iff_not_or] using untold t told
  unfold State.answerAgain
  rw [none]
  exact if_pos (by rw [kind]; decide)

/-! ### One-sided access (R399 to R401, R403, R414) -/

section
variable {s : State} {p : Packet}

theorem runRequest_oneSided (kind : p.kind ≠ 0x06) : s.runRequest p = (nextTurn s p).oneSided p := if_neg kind

theorem oneSided_refused (refused : s.judge p ≠ 0) : s.oneSided p = s.tellRefuse p (s.judge p) := if_pos refused

theorem oneSided_admitted (admitted : s.judge p = 0) : s.oneSided p =
    match p.kind.toNat with
    | 0x01 => s.answerRead p
    | 0x03 => (s.putLocal (s.fabLocal p.addr.toNat p.payload.length) p.payload p.poison).answerAck p
    | _ => (s.atomicAdd (s.fabLocal p.addr.toNat p.payload.length) p.payload p.poison).answerAck p :=
  if_neg (not_not.2 admitted)

theorem oneSided_read (kind : p.kind = 0x01) (admitted : s.judge p = 0) : s.oneSided p = s.answerRead p := by
  rw [oneSided_admitted admitted, kind]
  rfl

theorem oneSided_write (kind : p.kind = 0x03) (admitted : s.judge p = 0) : s.oneSided p =
    (s.putLocal (s.fabLocal p.addr.toNat p.payload.length) p.payload p.poison).answerAck p := by
  rw [oneSided_admitted admitted, kind]
  rfl

theorem oneSided_add (kind : p.kind = 0x04) (admitted : s.judge p = 0) : s.oneSided p =
    (s.atomicAdd (s.fabLocal p.addr.toNat p.payload.length) p.payload p.poison).answerAck p := by
  rw [oneSided_admitted admitted, kind]
  rfl

theorem judge_unserved (mem : s.servesMem = false) (dss : s.servesDss = false) : s.judge p = 4 := by
  unfold State.judge
  dsimp only
  rw [if_pos (by simp [mem, dss])]

/-- A local address leads to memory, to a DSS, or nowhere (R399). -/
theorem fabLocal_cases (s : State) (a len : Nat) :
    (∃ b, s.fabLocal a len = .mem b) ∨ (∃ d o, s.fabLocal a len = .dss d o) ∨ ∃ r, s.fabLocal a len = .bad r := by
  unfold State.fabLocal
  split
  · split
    · exact .inl ⟨_, rfl⟩
    · exact .inr (.inr ⟨_, rfl⟩)
  · split
    · split
      · exact .inr (.inl ⟨_, _, rfl⟩)
      · exact .inr (.inr ⟨_, rfl⟩)
    · exact .inr (.inr ⟨_, rfl⟩)

theorem judge_noWindow (mem : s.servesMem = true) (dss : s.servesDss = true)
    (closed : ∀ k < 16, (smapGet FabWin.reset s.fab.wins k).en = false) : s.judge p = 2 := by
  have shut (len : Nat) : ((List.range 16).any fun k =>
      (smapGet FabWin.reset s.fab.wins k).admits p.src.toNat p.kind.toNat p.addr.toNat len) = false :=
    List.any_eq_false.2 fun k inside => by simp [FabWin.admits, closed k (List.mem_range.1 inside)]
  unfold State.judge
  dsimp only
  rw [if_neg, if_neg (Bool.eq_false_iff.1 (shut _))]
  rcases fabLocal_cases s p.addr.toNat (if p.kind = 0x01 then p.len else p.payload.length) with
    ⟨b, place⟩ | ⟨d, o, place⟩ | ⟨r, place⟩
  · rw [place]
    simp [State.servesPlace, mem]
  · rw [place]
    simp [State.servesPlace, mem, dss]
  · rw [place]
    simp [mem]

theorem answerAck_outbox (named : s.fab.node ≠ 0) : (s.answerAck p).fab.outbox = s.fab.outbox ++ [{
    dst := p.src, src := s.fab.node, kind := 0x05, flow := p.flow, len := 0, seq := p.seq, tag := p.tag, addr := p.addr, reason := 0
    poison := false, hops := 0, payload := [] }] :=
  congrArg (fun t : State => t.fab.outbox) (if_neg named)

end

/-! ### Messages (R405) -/

/-- The partition that a message names. -/
def msgPt (p : Packet) : Nat := (messageOf p).dst.pt.toNat

/-- The logical core that a message names. -/
def msgCore (p : Packet) : Nat := (messageOf p).dst.core.toNat

/-- The sender of a message has been told NOT_READY for its core and not yet XQ_FREE. -/
def toldBusy (s : State) (p : Packet) : Bool := s.fab.owed.any fun o => o.1 == p.src && o.2.2 == (msgPt p, msgCore p)

theorem toldBusy_fresh {s : State} {p : Packet} (untold : ∀ o ∈ s.fab.owed, o.1 ≠ p.src ∨ o.2.2 ≠ (msgPt p, msgCore p)) :
    toldBusy s p = false :=
  List.any_eq_false.2 fun o told => by simpa [imp_iff_not_or] using untold o told

section
variable {s : State} {p : Packet}

theorem runRequest_message (kind : p.kind = 0x06) : s.runRequest p = (nextTurn s p).takeMessage p := if_pos kind

theorem takeMessage_unserved (unserved : s.servesCores = false) : s.takeMessage p = s.tellRefuse p 4 :=
  if_pos (congrArg not unserved)

variable (served : s.servesCores = true)
include served

theorem takeMessage_filtered (filtered : s.filterAdmits (msgPt p) p.src.toNat = false) : s.takeMessage p = s.tellRefuse p 5 :=
  (if_neg (by rw [served]; decide)).trans (if_pos (congrArg not filtered))

variable (admits : s.filterAdmits (msgPt p) p.src.toNat = true)
include admits

/-- A message that is served and admitted: its shape is checked, then its target, then the room for it (log 30). -/
theorem takeMessage_admitted : s.takeMessage p =
    if p.payload.length % 128 ≠ 0 ∨ p.payload.length = 0 ∨ 2048 < p.payload.length then s.tellRefuse p 3
    else match s.target (messageOf p).dst with
      | none => s.tellRefuse p 4
      | some k =>
        if 16 ≤ (s.core k).recvXq.length ∨ s.holdsMessages (msgPt p) (msgCore p) ∨ toldBusy s p then
          ({ s with fab := { s.fab with
            owed := if toldBusy s p then s.fab.owed else s.fab.owed ++ [(p.src, p.flow, msgPt p, msgCore p)]
            told := s.fab.told ++ [(⟨p.src, p.seq, 0x07, 0⟩ : Told)] } }).sendAnswer p.src 0x07 p.flow p.seq p.tag p.addr 0 [] false
        else (s.deliver k (messageOf p)).answerAck p := by
  have shape : (p.payload.length % 128 ≠ 0 ∨ p.payload.length = 0 ∨ 2048 < p.payload.length) =
      ((decide (p.payload.length % 128 ≠ 0) || decide (p.payload.length = 0) || decide (2048 < p.payload.length)) = true) := by
    simp [or_assoc]
  have passes : s.filterAdmits (messageOf p).dst.pt.toNat p.src.toNat = true := admits
  simp only [shape]
  exact (if_neg (by rw [served]; decide)).trans (if_neg (by rw [passes]; decide))

theorem takeMessage_misshapen (bad : p.payload.length % 128 ≠ 0 ∨ p.payload.length = 0 ∨ 2048 < p.payload.length) :
    s.takeMessage p = s.tellRefuse p 3 := (takeMessage_admitted served admits).trans (if_pos bad)

variable (lines : p.payload.length % 128 = 0) (nonempty : 0 < p.payload.length) (fits : p.payload.length ≤ 2048)
include lines nonempty fits

theorem takeMessage_noTarget (nobody : s.target (messageOf p).dst = none) : s.takeMessage p = s.tellRefuse p 4 := by
  rw [takeMessage_admitted served admits, if_neg (by omega), nobody]

variable {k : Nat} (target : s.target (messageOf p).dst = some k)
  (untold : ∀ o ∈ s.fab.owed, o.1 ≠ p.src ∨ o.2.2 ≠ (msgPt p, msgCore p))
include target untold

theorem takeMessage_delivers (room : (s.core k).recvXq.length < 16) (takes : s.holdsMessages (msgPt p) (msgCore p) = false) :
    s.takeMessage p = (s.deliver k (messageOf p)).answerAck p := by
  rw [takeMessage_admitted served admits, if_neg (by omega), target]
  dsimp only
  rw [toldBusy_fresh untold, takes, if_neg (by simpa using room)]

theorem takeMessage_full (full : 16 ≤ (s.core k).recvXq.length) : s.takeMessage p =
    ({ s with fab := { s.fab with
      owed := s.fab.owed ++ [(p.src, p.flow, msgPt p, msgCore p)]
      told := s.fab.told ++ [(⟨p.src, p.seq, 0x07, 0⟩ : Told)] } }).sendAnswer p.src 0x07 p.flow p.seq p.tag p.addr 0 [] false := by
  rw [takeMessage_admitted served admits, if_neg (by omega), target]
  dsimp only
  rw [toldBusy_fresh untold, if_pos (.inl full)]
  rfl

end

/-! ### Answers (R393, R402, R403, R405) -/

section
variable {s : State} {p : Packet}

theorem answers_elsewhere (elsewhere : s.forMe p = false) :
    readData p s = s ∧ ackReceive p s = s ∧ notReadyReceive p s = s ∧ xqFreeReceive p s = s ∧ refuseReceive p s = s := by
  have other : (!s.forMe p) = true := congrArg not elsewhere
  refine ⟨?_, ?_, ?_, if_pos (.inl other), if_pos (.inl other)⟩
  · unfold readData
    split
    · rfl
    · exact if_pos (.inl other)
  · unfold ackReceive
    split
    · rfl
    · exact if_pos (.inl other)
  · unfold notReadyReceive
    split
    · rfl
    · exact if_pos (.inl other)

section
variable (none : s.findReq p.src p.seq = none)
include none

theorem answers_unmatched : readData p s = s ∧ ackReceive p s = s ∧ notReadyReceive p s = s := by
  refine ⟨?_, ?_, ?_⟩
  · unfold readData
    rw [none]
  · unfold ackReceive
    rw [none]
  · unfold notReadyReceive
    rw [none]

theorem refuse_unmatched (mine : s.forMe p = true) (kind : p.kind = 0x09) :
    refuseReceive p s = s.failColl p.tag p.seq.toNat p.reason.toNat := by
  unfold refuseReceive
  rw [if_neg (by simp [mine, kind]), none]

end

section
variable {q : FabReq} (found : s.findReq p.src p.seq = some q) (mine : s.forMe p = true)
include found mine

section
variable (read : q.pkt.kind = 0x01) (whole : p.payload.length = q.pkt.len)
include read whole

theorem readData_fabOp {a : Nat} (issuer : q.issuer = .fabOp a) : readData p s =
    ((s.dropReq q.dst q.seq).memWrite a (p.payload.map some) p.poison).finishFabOp 0 := by
  unfold readData
  rw [found]
  dsimp only
  rw [if_neg (by simp [mine, read, whole]), issuer]

theorem readData_peel {d e k x off : Nat} (issuer : q.issuer = .peelRead d e k x off) : readData p s =
    (s.dropReq q.dst q.seq).bringData d e k x off p.payload p.poison := by
  unfold readData
  rw [found]
  dsimp only
  rw [if_neg (by simp [mine, read, whole]), issuer]

end

section
variable (written : q.pkt.kind ≠ 0x01)
include written

theorem ackReceive_fabOp {a : Nat} (issuer : q.issuer = .fabOp a) :
    ackReceive p s = (s.dropReq q.dst q.seq).finishFabOp 0 := by
  have other : ¬((!s.forMe p) = true ∨ q.pkt.kind = 0x01) := not_or.2 ⟨by rw [mine]; decide, written⟩
  unfold ackReceive
  rw [found]
  dsimp only
  rw [if_neg other, issuer]

theorem ackReceive_message {k x : Nat} (issuer : q.issuer = .message k x) :
    ackReceive p s = ((s.dropReq q.dst q.seq).updCore k fun c => c.sent x).offerMessages k := by
  have other : ¬((!s.forMe p) = true ∨ q.pkt.kind = 0x01) := not_or.2 ⟨by rw [mine]; decide, written⟩
  unfold ackReceive
  rw [found]
  dsimp only
  rw [if_neg other, issuer]

end

theorem notReadyReceive_holds (message : q.pkt.kind = 0x06) : notReadyReceive p s =
    { s.dropReq q.dst q.seq with fab :=
      { (s.dropReq q.dst q.seq).fab with held := s.fab.held ++ [⟨q.dst, q.pkt.tag, q.pkt.addr.toNat % 512⟩] } } := by
  unfold notReadyReceive
  rw [found]
  exact if_neg (by simp [mine, message])

/-- A refusal of a request is told by its tag from one of collective traffic with the same number (log 16). -/
theorem refuseReceive_matched (kind : p.kind = 0x09) : refuseReceive p s =
    if p.tag = q.pkt.tag then s.failReq q p.reason.toNat else s.failColl p.tag p.seq.toNat p.reason.toNat := by
  unfold refuseReceive
  rw [if_neg (by simp [mine, kind]), found]

end

theorem xqFreeReceive_offers (mine : s.forMe p = true) (kind : p.kind = 0x08) : xqFreeReceive p s =
    (List.range 104).foldl State.offerMessages { s with fab := { s.fab with
      held := s.fab.held.filter fun h => !(h.dst == p.src && h.core == p.addr.toNat % 512) } } :=
  if_neg (by simp [mine, kind])

end

/-! ### Requests without an answer (R402) -/

section
variable {s : State} {dst : NodeId} {seq : Word}

theorem requestLimits_none (none : s.findReq dst seq = none) : requestResend dst seq s = s ∧ requestTimeout dst seq s = s := by
  unfold requestResend requestTimeout
  rw [none]
  exact ⟨rfl, rfl⟩

variable {q : FabReq} (found : s.findReq dst seq = some q)
include found

theorem requestResend_stays (h : s.now < q.last + 50000 ∨ s.fab.node = 0) : requestResend dst seq s = s := by
  unfold requestResend
  rw [found]
  exact if_pos h

theorem requestResend_sends (due : q.last + 50000 ≤ s.now) (named : s.fab.node ≠ 0) : requestResend dst seq s =
    { s with fab := { s.fab with
      reqs := s.fab.reqs.map fun x => if x.dst = dst ∧ x.seq = seq then { x with last := s.now } else x
      outbox := s.fab.outbox ++ [q.pkt] } } := by
  unfold requestResend
  rw [found]
  exact if_neg (not_or.2 ⟨Nat.not_lt.2 due, named⟩)

theorem requestTimeout_found : requestTimeout dst seq s = if s.now < q.first + reqLimit then s else s.failReq q 1 := by
  unfold requestTimeout
  rw [found]

end

/-! ### Transit (R386, R395 to R397) -/

section
variable {s : State} {port : Nat} {p : Packet}

theorem packetForward_stays (h : s.power.routes = false ∨ p.kind.toNat ∈ linkKinds) : packetForward port p s = s :=
  if_pos (h.imp_left (congrArg not))

/-- No kind is carried both by the routing tables and on one link. -/
theorem routed_not_link : ∀ k ∈ routedKinds, k ∉ linkKinds := by decide

variable (up : s.power.routes = true)
include up

theorem packetForward_unassigned (kind : p.kind.toNat ∉ routedKinds ++ linkKinds) :
    packetForward port p s = s.countDiscard port := by
  obtain ⟨routed, link⟩ := not_or.1 (mt List.mem_append.2 kind)
  exact (if_neg (not_or.2 ⟨by rw [up]; decide, link⟩)).trans (if_pos routed)

theorem packetForward_routed (routed : p.kind.toNat ∈ routedKinds) : packetForward port p s =
    if s.forMe p then s.takePacket p
    else if p.dst = 0xFFFF then s.countDiscard port
    else if 32 ≤ p.hops + 1 then ({ s with fab := { s.fab with ttlDrop := true } }.hwSet 0x030_0010 2).countDiscard port
    else s.sendVia port { p with hops := p.hops + 1 } :=
  (if_neg (not_or.2 ⟨by rw [up]; decide, routed_not_link _ routed⟩)).trans (if_neg (not_not.2 routed))

end

/-! ### Collective traffic (R406 to R408, R414) -/

section
variable {s : State} {group k : Word} {node : NodeId} {m : CollMsg}

/-- An entry in force lists this node once, and the sender (R407). -/
def CollListed (s : State) (group : Word) (node : NodeId) : Prop :=
  ∃ g, s.groupEntry group = some g ∧ s.groupLists g = true ∧ node ∈ s.otherNodes group

theorem collectiveArrive_mute (h : s.fab.node = 0 ∨ s.power.routes = false) : collectiveArrive group k node m s = s :=
  if_pos (h.imp_right (congrArg not))

variable (named : s.fab.node ≠ 0) (up : s.power.routes = true)
include named up

theorem collectiveArrive_unserved (unserved : s.servesCores = false) : collectiveArrive group k node m s =
    ({ s with fab := { s.fab with refused := true } }.hwSet 0x030_0010 4).sendAnswer node 0x09
      (0xC0#8 + (Config.collectiveFlow group).setWidth 8) k group 0 4 [] false :=
  (if_neg (not_or.2 ⟨named, by rw [up]; decide⟩)).trans (if_pos (congrArg not unserved))

variable (served : s.servesCores = true)
include served

theorem collectiveArrive_listed (listed : CollListed s group node) : collectiveArrive group k node m s =
    if k.toNat < s.collDoneOf group then s else s.takeCollective group k.toNat node m := by
  obtain ⟨g, entry, once, sender⟩ := listed
  unfold collectiveArrive
  dsimp only
  rw [if_neg (not_or.2 ⟨named, by rw [up]; decide⟩), if_neg (by rw [served]; decide), if_neg]
  rw [entry]
  simp [once, sender]

theorem collectiveArrive_unlisted (unlisted : ¬CollListed s group node) : collectiveArrive group k node m s =
    let s1 := match s.findRun group k.toNat with
      | some u => s.failRun u
      | none => s
    if m = .mismatch then s1 else s1.collTell group k.toNat [node] .mismatch := by
  refine (if_neg (not_or.2 ⟨named, by rw [up]; decide⟩)).trans ((if_neg (by rw [served]; decide)).trans (if_pos ?_))
  split
  · next g entry =>
    refine congrArg not (Bool.eq_false_iff.2 fun lists => ?_)
    obtain ⟨once, sender⟩ := Bool.and_eq_true_iff.1 lists
    exact unlisted ⟨g, entry, once, List.contains_iff_mem.1 sender⟩
  · rfl

end

/-! ### The clauses of O51 -/

section
variable {s : State} {p : Packet}

theorem exec_read (kind : p.kind = 0x01) : exec (.read p) s = .next (s.arriveRequest p) := congrArg Host.Outcome.next (if_pos kind)
theorem exec_write (kind : p.kind = 0x03) : exec (.write p) s = .next (s.arriveRequest p) := congrArg Host.Outcome.next (if_pos kind)
theorem exec_atomicAdd (kind : p.kind = 0x04) : exec (.atomicAdd p) s = .next (s.arriveRequest p) :=
  congrArg Host.Outcome.next (if_pos kind)
theorem exec_message (kind : p.kind = 0x06) : exec (.message p) s = .next (s.arriveRequest p) :=
  congrArg Host.Outcome.next (if_pos kind)

end

/-- Settles O51: a request by its place in its source's order (`arriveRequest_eq`), then by the law of its case; every other packet by
the law of its row. The order of the checks (log 30), the four kinds of collective message and what a REFUSE of one names (log 16)
are the model's choice. -/
theorem peersReadAndWriteInSequence : Obligations.PeersReadAndWriteInSequence := by
  refine ⟨fun s p => ?requests, fun s p elsewhere => ?elsewhere, fun s p q found mine => ?answers, fun s p none => ?unmatched,
    fun s p mine kind => congrArg Host.Outcome.next (xqFreeReceive_offers mine kind), fun s dst seq => ?limits,
    fun s port p => ?transit, fun s group k node m => ?collective, fun s p named => answerAck_outbox named⟩
  case requests =>
    intro seq s1 pl n c mine up
    refine ⟨fun inTurn alone => ?_, fun early near alone => ?_, fun again untold kind => ?_⟩
    · have turn := arriveRequest_inTurn mine up inTurn alone
      have sided (other : p.kind ≠ 0x06) : s.arriveRequest p = s1.oneSided p := turn.trans (runRequest_oneSided other)
      refine ⟨fun kind ok => ?_, fun kind ok => ?_, fun kind ok => ?_,
        fun refused => ⟨fun kind => ?_, fun kind => ?_, fun kind => ?_⟩, judge_unserved, judge_noWindow, fun kind => ?_⟩
      · rw [exec_read kind, sided (by rw [kind]; decide), oneSided_read kind ok]
      · rw [exec_write kind, sided (by rw [kind]; decide), oneSided_write kind ok]
      · rw [exec_atomicAdd kind, sided (by rw [kind]; decide), oneSided_add kind ok]
      · rw [exec_read kind, sided (by rw [kind]; decide), oneSided_refused refused]
      · rw [exec_write kind, sided (by rw [kind]; decide), oneSided_refused refused]
      · rw [exec_atomicAdd kind, sided (by rw [kind]; decide), oneSided_refused refused]
      · have message : exec (.message p) s = .next (s1.takeMessage p) :=
          (exec_message kind).trans (congrArg Host.Outcome.next (turn.trans (runRequest_message kind)))
        rw [message]
        have served (h : s.servesCores = true) : s1.servesCores = true := h
        refine ⟨fun unserved => congrArg Host.Outcome.next (takeMessage_unserved unserved), fun serves =>
          ⟨fun filtered => congrArg Host.Outcome.next (takeMessage_filtered (served serves) filtered), fun admits =>
          ⟨fun bad => congrArg Host.Outcome.next (takeMessage_misshapen (served serves) admits bad), fun lines nonempty fits =>
          ⟨fun nobody => ?_, fun k target => ⟨fun room takes untold => ?_, fun full untold => ?_⟩⟩⟩⟩⟩
        · exact congrArg Host.Outcome.next (takeMessage_noTarget (served serves) admits lines nonempty fits nobody)
        · exact congrArg Host.Outcome.next
            (takeMessage_delivers (served serves) admits lines nonempty fits target untold room takes)
        · exact congrArg Host.Outcome.next (takeMessage_full (served serves) admits lines nonempty fits target untold full)
    · have waits := arriveRequest_early mine up early near alone
      refine ⟨fun kind => ?_, fun kind => ?_, fun kind => ?_, fun kind => ?_⟩
      · rw [exec_message kind, waits]
      · rw [exec_read kind, waits]
      · rw [exec_write kind, waits]
      · rw [exec_atomicAdd kind, waits]
    · rw [exec_write kind, arriveRequest_again mine up again, answerAgain_acked untold kind]
  case elsewhere =>
    have request := arriveRequest_elsewhere elsewhere
    obtain ⟨data, ack, busy, free, refuse⟩ := answers_elsewhere elsewhere
    exact ⟨next_unless request, next_unless request, next_unless request, next_unless request, congrArg Host.Outcome.next refuse,
      congrArg Host.Outcome.next free, next_unless data, next_unless ack, next_unless busy⟩
  case answers =>
    refine ⟨fun a kind read whole issuer => ?_, fun d e k x off kind read whole issuer => ?_, fun a kind written issuer => ?_,
      fun k x kind written issuer => ?_, fun kind message => ?_, fun kind tag => ?_, fun kind tag => ?_⟩
    · exact congrArg Host.Outcome.next ((if_pos kind).trans (readData_fabOp found mine read whole issuer))
    · exact congrArg Host.Outcome.next ((if_pos kind).trans (readData_peel found mine read whole issuer))
    · exact congrArg Host.Outcome.next ((if_pos kind).trans (ackReceive_fabOp found mine written issuer))
    · exact congrArg Host.Outcome.next ((if_pos kind).trans (ackReceive_message found mine written issuer))
    · exact congrArg Host.Outcome.next ((if_pos kind).trans (notReadyReceive_holds found mine message))
    · exact congrArg Host.Outcome.next ((refuseReceive_matched found mine kind).trans (if_pos tag))
    · exact congrArg Host.Outcome.next ((refuseReceive_matched found mine kind).trans (if_neg tag))
  case unmatched =>
    obtain ⟨data, ack, busy⟩ := answers_unmatched none
    exact ⟨next_unless data, next_unless ack, next_unless busy,
      fun mine kind => congrArg Host.Outcome.next (refuse_unmatched none mine kind)⟩
  case limits =>
    refine ⟨fun none => ?_, fun q found => ⟨fun h => congrArg Host.Outcome.next (requestResend_stays found h), fun due named => ?_,
      fun early => congrArg Host.Outcome.next ((requestTimeout_found found).trans (if_pos early)),
      fun due => congrArg Host.Outcome.next ((requestTimeout_found found).trans (if_neg (Nat.not_lt.2 due)))⟩⟩
    · obtain ⟨resend, timeout⟩ := requestLimits_none none
      exact ⟨congrArg Host.Outcome.next resend, congrArg Host.Outcome.next timeout⟩
    · exact ⟨_, congrArg Host.Outcome.next (requestResend_sends found due named), rfl, rfl⟩
  case transit =>
    refine ⟨fun dark => congrArg Host.Outcome.next (packetForward_stays (.inl dark)),
      fun link => congrArg Host.Outcome.next (packetForward_stays (.inr link)),
      fun up kind => congrArg Host.Outcome.next (packetForward_unassigned up kind), fun up kind => ?_⟩
    have routed := packetForward_routed (port := port.toNat) up kind
    have onward := fun elsewhere : s.forMe p = false => routed.trans (if_neg (Bool.eq_false_iff.1 elsewhere))
    exact ⟨fun mine => congrArg Host.Outcome.next (routed.trans (if_pos mine)),
      fun elsewhere dst => congrArg Host.Outcome.next ((onward elsewhere).trans (if_pos dst)),
      fun elsewhere dst few => congrArg Host.Outcome.next
        ((onward elsewhere).trans ((if_neg dst).trans (if_neg (Nat.not_le.2 few)))),
      fun elsewhere dst spent => congrArg Host.Outcome.next ((onward elsewhere).trans ((if_neg dst).trans (if_pos spent)))⟩
  case collective =>
    refine ⟨fun h => congrArg Host.Outcome.next (collectiveArrive_mute h), fun named up =>
      ⟨fun unserved => congrArg Host.Outcome.next (collectiveArrive_unserved named up unserved), fun served unlisted none => ?_,
      fun served unlisted u run other => ?_, fun served listed ended => ?_, fun served listed runs => ?_⟩⟩
    · have told := collectiveArrive_unlisted (k := k) (m := m) named up served unlisted
      rw [none] at told
      exact ⟨fun mismatch => congrArg Host.Outcome.next (told.trans (if_pos mismatch)),
        fun other => congrArg Host.Outcome.next (told.trans (if_neg other))⟩
    · have told := collectiveArrive_unlisted (k := k) (m := m) named up served unlisted
      rw [run] at told
      exact congrArg Host.Outcome.next (told.trans (if_neg other))
    · exact congrArg Host.Outcome.next ((collectiveArrive_listed named up served listed).trans (if_pos ended))
    · exact congrArg Host.Outcome.next ((collectiveArrive_listed named up served listed).trans (if_neg (Nat.not_lt.2 runs)))

end Sys2Proof.Machine
end

section
namespace Sys2Proof.Machine
open Sys2Proof.Laws

/-! ## Weight generations (O43)

What a manifest names is said once (`namedGen`, `shardCount`), and so are the conditions under which it is taken (`ManifestFits`) and
what the check of a shard's bytes decides (`State.shardChecked`); each command then has one law for each of its cases. -/

/-- A command that is the host's access to a register has the register's effect where the access arrives. -/
theorem next_hostReg {s t : State} {off : Nat} {f : State → State} (reaches : HostReaches s off) (h : f s = t) :
    Host.Outcome.next (s.hostReg off f) = (.next t : Out) :=
  congrArg Host.Outcome.next ((hostReg_served f reaches.1 reaches.2).trans h)

/-! ### Manifests (R438, R439, R441) -/

/-- The model slot that GEN_SEL names. -/
def selectedModel (s : State) : ModelSlot := s.model s.bs.genSel.toNat

/-- The generation that the slot's manifest names. -/
def namedGen (s : State) (m : ModelSlot) : GenInfo :=
  ⟨BitVec.ofNat 32 (s.mem.field m.manifest.toNat 4), m.region, BitVec.ofNat 64 (s.mem.field (m.manifest.toNat + 8) 8)⟩

/-- The number of shards that the slot's manifest names. -/
def shardCount (s : State) (m : ModelSlot) : Nat := s.mem.field (m.manifest.toNat + 6) 2

/-- The slot's manifest verifies, names a generation and slot `i`, and its region lies in the host region. -/
def ManifestFits (s : State) (m : ModelSlot) (i : Nat) : Prop :=
  s.manifestOk m.manifest.toNat (shardCount s m) = true ∧ s.mem.field m.manifest.toNat 4 ≠ 0 ∧
    s.mem.field (m.manifest.toNat + 4) 2 = i ∧ (namedGen s m).base.toNat + (namedGen s m).len.toNat ≤ s.mem.hostTop

/-- A generation overlaps another, where there is another. -/
def GenInfo.meets (g : GenInfo) : Option GenInfo → Bool
  | some x => g.overlaps x
  | none => false

/-- A generation overlaps one that is in service in the slot. -/
def ModelSlot.meets (m : ModelSlot) (g : GenInfo) : Bool := g.meets m.cur || g.meets m.old

theorem meets_of_inService {m : ModelSlot} {g x : GenInfo} (inService : m.cur = some x ∨ m.old = some x)
    (overlap : g.overlaps x = true) : m.meets g = true := by
  rcases inService with cur | old
  · simp [ModelSlot.meets, GenInfo.meets, cur, overlap]
  · simp [ModelSlot.meets, GenInfo.meets, old, overlap]

theorem meets_none {m : ModelSlot} {g : GenInfo} (cur : m.cur = none) (old : m.old = none) : m.meets g = false := by
  simp [ModelSlot.meets, GenInfo.meets, cur, old]

/-- The slot in state `st` once its manifest has been taken. -/
def ModelSlot.withLoad (m : ModelSlot) (s : State) (st : GenState) : ModelSlot :=
  { m with
    st := st, shard := 0, loadStart := s.now, load := some (namedGen s m)
    shards := (List.range (shardCount s m)).map (s.mem.shard m.manifest.toNat), activate := false }

section
variable {s : State}

theorem genLoad_busy (unready : (selectedModel s).st ≠ .none) (unfailed : (selectedModel s).st ≠ .failed) : genLoad s = s :=
  if_pos ⟨unready, unfailed⟩

section
variable (idle : (selectedModel s).st = .none ∨ (selectedModel s).st = .failed)
include idle

theorem genLoad_refused (misfit : ¬ManifestFits s (selectedModel s) s.bs.genSel.toNat) :
    genLoad s = s.setModel s.bs.genSel.toNat ((selectedModel s).fail 0) := by
  refine (if_neg fun h => idle.elim h.1 h.2).trans (if_pos ?_)
  by_contra fits
  simp only [not_or, Bool.not_eq_true, Bool.not_eq_false', not_not, not_lt] at fits
  obtain ⟨named, slot, signed, inside⟩ := fits
  exact misfit ⟨signed, named, slot, inside⟩

theorem genLoad_taken (fits : ManifestFits s (selectedModel s) s.bs.genSel.toNat) :
    genLoad s = s.setModel s.bs.genSel.toNat ((selectedModel s).withLoad s
      (if shardCount s (selectedModel s) = 0 then .verified
       else if (selectedModel s).meets (namedGen s (selectedModel s)) then .waitMemory else .loading)) := by
  obtain ⟨signed, named, slot, inside⟩ := fits
  refine (if_neg fun h => idle.elim h.1 h.2).trans (if_neg ?_)
  rintro (unnamed | other | unsigned | outside)
  · exact named unnamed
  · exact other slot
  · exact Bool.false_ne_true ((congrArg not signed).symm.trans unsigned)
  · exact absurd inside (Nat.not_le.2 outside)

variable (fits : ManifestFits s (selectedModel s) s.bs.genSel.toNat) (shards : 0 < shardCount s (selectedModel s))
include fits shards

theorem genLoad_loading (clear : (selectedModel s).meets (namedGen s (selectedModel s)) = false) :
    genLoad s = s.setModel s.bs.genSel.toNat ((selectedModel s).withLoad s .loading) := by
  rw [genLoad_taken idle fits, if_neg shards.ne', if_neg (Bool.eq_false_iff.1 clear)]

theorem genLoad_waits (meets : (selectedModel s).meets (namedGen s (selectedModel s)) = true) :
    genLoad s = s.setModel s.bs.genSel.toNat ((selectedModel s).withLoad s .waitMemory) := by
  rw [genLoad_taken idle fits, if_neg shards.ne', if_pos meets]

end

/-! ### The end of a load (R440 to R442) -/

/-- The slot without its load. -/
def ModelSlot.cancelled (m : ModelSlot) : ModelSlot :=
  { m with st := .none, shard := 0, load := none, shards := [], activate := false, closed := false, closeReq := false }

theorem genCancel_verified (verified : (selectedModel s).st = .verified) :
    genCancel s = s.setModel s.bs.genSel.toNat (selectedModel s).cancelled := by
  have whole : ¬((selectedModel s).st = .loading ∨ (selectedModel s).st = .waitMemory) := by simp [verified]
  exact (if_neg whole).trans (if_pos verified)

theorem genCancel_underWay (underWay : (selectedModel s).st = .loading ∨ (selectedModel s).st = .waitMemory) :
    genCancel s = ((selectedModel s).openRanges.foldl (fun z r => z.writeOpen r.1 r.2) s).setModel s.bs.genSel.toNat
      (selectedModel s).cancelled := if_pos underWay

theorem genCancel_idle (idle : (selectedModel s).st = .none ∨ (selectedModel s).st = .failed) : genCancel s = s := by
  have stopped : ¬((selectedModel s).st = .loading ∨ (selectedModel s).st = .waitMemory) ∧ (selectedModel s).st ≠ .verified := by
    rcases idle with idle | idle
    · simp [idle]
    · simp [idle]
  exact (if_neg stopped.1).trans (if_neg stopped.2)

end

/-! ### Shards (R438, R439) -/

/-- What the check of bytes as shard `k` of model slot `i` makes of the state: the shard is done, or fetched again while fetches are
left, or its load fails. -/
def State.shardChecked (z : State) (i k : Nat) (m : ModelSlot) (x : ShardInfo) (bs : List Byte) : State :=
  if BitVec.ofNat 512 (Config.sha512 bs).toNat = x.hash then z.setModel i (m.setShard k { x with done := true })
  else match x.retry with
    | some y => z.setModel i (m.setShard k y)
    | none => z.setModel i (m.fail k)

section
variable {z : State} {i k : Nat} {m : ModelSlot} {x : ShardInfo} {bs : List Byte}

theorem shardChecked_matches (hash : BitVec.ofNat 512 (Config.sha512 bs).toNat = x.hash) :
    z.shardChecked i k m x bs = z.setModel i (m.setShard k { x with done := true }) := if_pos hash

section
variable (other : BitVec.ofNat 512 (Config.sha512 bs).toNat ≠ x.hash)
include other

theorem shardChecked_primary (left : x.primary < 3) :
    z.shardChecked i k m x bs = z.setModel i (m.setShard k { x with primary := x.primary + 1 }) := by
  have again : x.retry = some { x with primary := x.primary + 1 } := if_pos left
  exact (if_neg other).trans (by rw [again])

variable (spent : 3 ≤ x.primary)
include spent

theorem shardChecked_replica (left : x.replica < 3) :
    z.shardChecked i k m x bs = z.setModel i (m.setShard k { x with replica := x.replica + 1 }) := by
  have again : x.retry = some { x with replica := x.replica + 1 } := (if_neg (Nat.not_lt.2 spent)).trans (if_pos left)
  exact (if_neg other).trans (by rw [again])

theorem shardChecked_spent (noneLeft : 3 ≤ x.replica) : z.shardChecked i k m x bs = z.setModel i (m.fail k) := by
  have never : x.retry = none := (if_neg (Nat.not_lt.2 spent)).trans (if_neg (Nat.not_lt.2 noneLeft))
  exact (if_neg other).trans (by rw [never])

end
end

section
variable {s : State} {i k : Nat} {g : GenInfo} {x : ShardInfo} (load : (s.model i).load = some g)
  (shard : (s.model i).shards[k]? = some x)
include load shard

theorem genShardArrive_late {f : ShardFetch} (late : (s.model i).st ≠ .loading ∨ x.done = true) : genShardArrive i k f s = s := by
  simp only [genShardArrive, load, shard]
  exact if_pos late

variable (loading : (s.model i).st = .loading) (missing : x.done = false)
include loading missing

theorem genShardArrive_data {bs : List Byte} : genShardArrive i k (.data bs) s =
    (s.memPut (g.base.toNat + x.offset) (bs.take x.length)).shardChecked i k (s.model i) x bs := by
  simp only [genShardArrive, load, shard]
  exact if_neg (by simp [loading, missing])

theorem genShardArrive_inPlace : genShardArrive i k .inPlace s =
    s.shardChecked i k (s.model i) x (s.mem.readRun (g.base.toNat + x.offset) x.length).1 := by
  simp only [genShardArrive, load, shard]
  exact if_neg (by simp [loading, missing])

theorem genShardArrive_refused : genShardArrive i k .refused s = s.setModel i ((s.model i).fail k) := by
  simp only [genShardArrive, load, shard]
  exact if_neg (by simp [loading, missing])

end

/-! ### The clauses of O43 -/

/-- Settles O43. That a LOAD out of state changes nothing (log 21), which manifests end a load FAILED, and how often a shard is
fetched again (log 22) are the model's choices. -/
theorem generationsLoadActivateAndRelease : Obligations.GenerationsLoadActivateAndRelease := by
  refine ⟨?slot, ?shard, fun s slot => rfl⟩
  case slot =>
    intro s reaches i m off
    refine ⟨fun unready unfailed => next_hostReg reaches (genLoad_busy unready unfailed), fun idle => ⟨fun misfit => ?_,
        fun signed named slot shards inside cur old => ?_, fun x signed named slot shards inside inService overlap => ?_⟩,
      next_hostReg reaches rfl, next_hostReg reaches rfl, fun verified => next_hostReg reaches (genCancel_verified verified),
      fun underWay => next_hostReg reaches (genCancel_underWay underWay), fun idle => next_hostReg reaches (genCancel_idle idle)⟩
    · refine next_hostReg reaches (genLoad_refused idle ?_)
      rintro ⟨signed, named, slot, inside⟩
      rcases misfit with unsigned | unnamed | other | outside
      · exact absurd (signed.symm.trans unsigned) (by decide)
      · exact named unnamed
      · exact other slot
      · exact absurd inside (Nat.not_le.2 outside)
    · exact next_hostReg reaches (genLoad_loading idle ⟨signed, named, slot, inside⟩ shards (meets_none cur old))
    · exact next_hostReg reaches (genLoad_waits idle ⟨signed, named, slot, inside⟩ shards (meets_of_inService inService overlap))
  case shard =>
    intro s slot shard g x m load here
    refine ⟨fun late f => congrArg Host.Outcome.next (genShardArrive_late load here late), fun loading missing bs other => ?_,
      fun loading missing => ?_⟩
    · have data := genShardArrive_data load here loading missing (bs := bs)
      exact ⟨fun left => congrArg Host.Outcome.next (data.trans (shardChecked_primary other left)),
        fun spent left => congrArg Host.Outcome.next (data.trans (shardChecked_replica other spent left)),
        fun spent noneLeft => congrArg Host.Outcome.next (data.trans (shardChecked_spent other spent noneLeft))⟩
    · exact ⟨congrArg Host.Outcome.next (genShardArrive_refused load here loading missing),
        fun bs hash => congrArg Host.Outcome.next
          ((genShardArrive_data load here loading missing).trans (shardChecked_matches hash)),
        fun hash => congrArg Host.Outcome.next
          ((genShardArrive_inPlace load here loading missing).trans (shardChecked_matches hash))⟩

end Sys2Proof.Machine
end

section
namespace Sys2Proof.Machine
open Sys2Proof.Laws

/-! ## The configuration of the serving block (O33) -/

/-- A fold over steps that each leave the state alone leaves it alone. -/
theorem foldl_of_forall_fixed {α β : Type} {f : β → α → β} {l : List α} {b : β} (fixed : ∀ a ∈ l, f b a = b) : l.foldl f b = b := by
  induction l with
  | nil => rfl
  | cons a l ih =>
    rw [List.foldl_cons, fixed a List.mem_cons_self]
    exact ih fun a' h => fixed a' (List.mem_cons_of_mem a h)

section
variable {s : State} {v : Word}

/-! ### CTX_CFG (R418, R444) -/

/-- No partition holds context `cn` any longer. -/
def State.unbind (s : State) (cn : Nat) : State :=
  (List.range 16).foldl (fun z n => if (z.part n).ctx = some cn then z.updPart n fun p => { p with ctx := none } else z) s

theorem unbind_unbound {cn : Nat} (unbound : ∀ n < 16, (s.part n).ctx ≠ some cn) : s.unbind cn = s :=
  foldl_of_forall_fixed fun n hn => if_neg (unbound n (List.mem_range.1 hn))

/-- A context with the fields that a write of CTX_CFG names. -/
def Ctx.configured (c : Ctx) (v : Word) : Ctx :=
  { c with
    pt := v.extractLsb' 0 4, pt2 := v.extractLsb' 4 4, express := v.getLsbD 8, loaf := v.extractLsb' 9 4
    model := v.extractLsb' 13 4, ctxlen := v.extractLsb' 17 2, en := v.getLsbD 31 }

/-- A context that has just been created: IDLE, with no state of an earlier one (R418). -/
def Ctx.created (c : Ctx) : Ctx :=
  { c with
    st := .idle, bad := false, unpaired := false, code := 0, lastCopy := false, jrnlFull := false, rewinds := 0, ckptGtb := 0
    saved := [], saved2 := [], ckpt := none, journal := [], replay := [], ckptRun := none, since := [], redo := [], stopped := false
    lost1 := false, lost2 := false }

/-- The context that CTX_SEL names. -/
def selectedCtx (s : State) : Ctx := s.ctx s.bs.ctxSel.toNat

section
variable (en : v.getLsbD 31 = true)
include en

theorem ctxCfgWrite_live (occupied : (selectedCtx s).st ≠ .free) (alive : (selectedCtx s).st ≠ .dead) : ctxCfgWrite v s = s :=
  (if_neg (not_or.2 ⟨occupied, alive⟩)).trans (if_neg (by simp [en]))

variable (vacant : (selectedCtx s).st = .free ∨ (selectedCtx s).st = .dead)
include vacant

theorem ctxCfgWrite_refused (bad : s.ctxBad ((selectedCtx s).configured v) = true) : ctxCfgWrite v s =
    (s.unbind s.bs.ctxSel.toNat).setCtx s.bs.ctxSel.toNat { (selectedCtx s).configured v with st := .free, bad := true } :=
  (if_pos vacant).trans ((if_neg (by simp [en])).trans (if_pos bad))

theorem ctxCfgWrite_creates (good : s.ctxBad ((selectedCtx s).configured v) = false) : ctxCfgWrite v s =
    (s.unbind s.bs.ctxSel.toNat).setCtx s.bs.ctxSel.toNat ((selectedCtx s).configured v).created :=
  (if_pos vacant).trans ((if_neg (by simp [en])).trans (if_neg (Bool.eq_false_iff.1 good)))

end

/-! ### BS_CFG (R444) -/

/-- A Batch Sheet of `size` entries may start: both sizes are good, and both tables lie in the host region. -/
def State.sheetFits (s : State) (size : BitVec 13) : Bool :=
  sizeOk size.toNat && sizeOk s.bs.ctSize.toNat && decide (size.toNat ≤ s.bs.ctSize.toNat) &&
    decide (s.bs.base.toNat + 256 * size.toNat ≤ s.mem.hostTop) &&
    decide (s.bs.ctBase.toNat + 32 * s.bs.ctSize.toNat ≤ s.mem.hostTop)

theorem bsCfgWrite_enabled (en : s.bs.en = true) : bsCfgWrite v s = { s with bs := { s.bs with en := v.getLsbD 16 } } := if_pos en

section
variable (off : s.bs.en = false)
include off

theorem bsCfgWrite_refused (start : v.getLsbD 16 = true) (misfit : s.sheetFits (v.extractLsb' 0 13) = false) : bsCfgWrite v s =
    ({ s with bs := { s.bs with size := v.extractLsb' 0 13, cfgBad := true } }).hwSet 0x080_000C 0x8000_0000 := by
  have refused : (v.getLsbD 16 && !s.sheetFits (v.extractLsb' 0 13)) = true := by rw [start, misfit]; rfl
  exact (if_neg (Bool.eq_false_iff.1 off)).trans (if_pos refused)

theorem bsCfgWrite_taken (sound : v.getLsbD 16 = false ∨ s.sheetFits (v.extractLsb' 0 13) = true) :
    bsCfgWrite v s = { s with bs := { s.bs with size := v.extractLsb' 0 13, en := v.getLsbD 16 } } := by
  have taken : (v.getLsbD 16 && !s.sheetFits (v.extractLsb' 0 13)) = false := by
    rcases sound with stays | fits
    · rw [stays, Bool.false_and]
    · rw [fits, Bool.not_true, Bool.and_false]
  exact (if_neg (Bool.eq_false_iff.1 off)).trans (if_neg (Bool.eq_false_iff.1 taken))

end

/-! ### LOAF_CTL (R419, R569) -/

section
variable {m : Mem} {base : Nat} {h : LoafHead} {slots : SMap (Option (List Byte))}

/-- The Loaf at an address carries both signatures under the keys `ks` (R554). -/
def Mem.loafSignedBy (m : Mem) (base : Nat) (h : LoafHead) (ks : List Byte) : Bool :=
  verifyBoth ks "DXLOAF01" (m.readRun base h.signatures.off.toNat).1 (m.readRun (base + h.signatures.off.toNat + 4) 64).1
    (m.readRun (base + h.signatures.off.toNat + 68) 3309).1 == 0

theorem loafSigned_filled {ks : List Byte} (filled : smapGet none slots (m.field (base + h.signatures.off.toNat) 1) = some ks) :
    m.loafSigned base h slots = m.loafSignedBy base h ks := by
  simp only [Mem.loafSigned, filled]
  rfl

theorem loafSigned_empty (empty : smapGet none slots (m.field (base + h.signatures.off.toNat) 1) = none) :
    m.loafSigned base h slots = false := by
  simp only [Mem.loafSigned, empty]

end

section
variable {i : Nat} {h : LoafHead}

theorem loafVerifyDone_idle (idle : (s.loaf i).st ≠ .verifying) : loafVerifyDone i h s = s := if_pos idle

variable (verifying : (s.loaf i).st = .verifying)
include verifying

theorem loafVerifyDone_ready (signed : s.mem.loafSigned (s.loaf i).base.toNat h (s.loaf i).keys = true) (recipe : h.recipe = recipeId) :
    loafVerifyDone i h s = s.setLoaf i { s.loaf i with
      st := .ready, image := some ⟨h, h.table.filterMap (s.mem.kernel (s.loaf i).base.toNat h)⟩, keys := [] } :=
  (if_neg (not_not.2 verifying)).trans (if_pos (by rw [signed, recipe]; decide))

theorem loafVerifyDone_refused (wrong : ¬(s.mem.loafSigned (s.loaf i).base.toNat h (s.loaf i).keys = true ∧ h.recipe = recipeId)) :
    loafVerifyDone i h s = s.setLoaf i { s.loaf i with st := .refused, image := none, keys := [] } :=
  (if_neg (not_not.2 verifying)).trans (if_neg (by simpa using wrong))

end
end

/-! ### The clauses of O33 -/

/-- Settles O33: each register's row by the law of its case. -/
theorem servingBlockIsConfigured : Obligations.ServingBlockIsConfigured := by
  refine ⟨?context, ?sheet, ?slot, ?verify⟩
  case context =>
    intro s v reaches cn c new unbound
    refine ⟨fun vacant en bad => ?_, fun vacant en good => ?_, fun occupied alive en =>
      next_hostReg reaches (ctxCfgWrite_live en occupied alive)⟩
    · have refused := ctxCfgWrite_refused en vacant bad
      rw [unbind_unbound unbound] at refused
      exact next_hostReg reaches refused
    · have creates := ctxCfgWrite_creates en vacant good
      rw [unbind_unbound unbound] at creates
      exact ⟨_, next_hostReg reaches creates, rfl, rfl, rfl, rfl, rfl, rfl, rfl, rfl, rfl, rfl⟩
  case sheet =>
    intro s v reaches b size good
    exact ⟨fun en => next_hostReg reaches (bsCfgWrite_enabled en),
      fun off start misfit => next_hostReg reaches (bsCfgWrite_refused off start misfit),
      fun off sound => next_hostReg reaches (bsCfgWrite_taken off sound)⟩
  case slot =>
    intro s reaches i l
    exact ⟨next_hostReg reaches rfl, next_hostReg reaches rfl⟩
  case verify =>
    intro s slot h l base at' bytes
    refine ⟨fun idle => congrArg Host.Outcome.next (loafVerifyDone_idle idle), fun verifying keys filled =>
      congrArg Host.Outcome.next ?_, fun verifying empty => congrArg Host.Outcome.next (loafVerifyDone_refused verifying ?_)⟩
    · have signed_iff : s.mem.loafSigned base h l.keys = true ↔
          verifyBoth keys "DXLOAF01" (bytes base h.signatures.off.toNat) (bytes (at' + 4) 64) (bytes (at' + 68) 3309) = 0 := by
        rw [loafSigned_filled filled]
        exact beq_iff_eq
      split
      · next right =>
        obtain ⟨signed, recipe⟩ := right
        exact loafVerifyDone_ready verifying (signed_iff.2 signed) recipe
      · next wrong => exact loafVerifyDone_refused verifying (mt (And.imp_left signed_iff.1) wrong)
    · rw [loafSigned_empty empty]
      simp

end Sys2Proof.Machine
end

section
namespace Sys2Proof.Machine
open Sys2Proof.Laws

/-! ## Switches, yields, Express pairs and aborts (O32)

What a switch can change is said once (`OnlyHeld`): of the partitions, only the one that is switched. The comparison of two copies is
the table of R434 (`compare_…`), and two laws say what its verdict makes of the entry and its context (`expressCompare_done`,
`expressCompare_fails`). -/

/-! ### What a switch can change (R420) -/

/-- Changes of cores, each read from the state that it finds, change nothing but cores. -/
theorem foldl_updCore_only (f : State → Nat × Nat → Core → Core) (l : List (Nat × Nat)) (s : State) :
    OnlyCores s (l.foldl (fun z e => z.updCore e.2 (f z e)) s) :=
  foldl_keeps OnlyCores (fun z => ⟨z.cores, rfl⟩) (fun _ _ _ ⟨_, h⟩ ⟨d, g⟩ => ⟨d, by rw [g, h]⟩)
    (fun z e => z.updCore e.2 (f z e)) (fun z e => ⟨smapSet .reset z.cores e.2 (f z e (z.core e.2)), rfl⟩) l s

/-- Only cores, contexts, memory, and of the partitions `n` can differ. -/
def OnlyHeld (n : Nat) (s t : State) : Prop :=
  ∃ c x m f p, t = { s with cores := c, ctxs := x, mem := m, free := f, parts := p } ∧
    (smapSorted s.parts = true → smapSorted p = true ∧ ∀ v, smapSet .reset p n v = smapSet .reset s.parts n v)

section
variable {s t u : State} {n : Nat}

theorem OnlyHeld.refl : OnlyHeld n s s := ⟨_, _, _, _, _, rfl, fun sorted => ⟨sorted, fun _ => rfl⟩⟩

theorem OnlyHeld.trans (h : OnlyHeld n s t) (g : OnlyHeld n t u) : OnlyHeld n s u := by
  obtain ⟨_, _, _, _, _, rfl, first⟩ := h
  obtain ⟨_, _, _, _, _, rfl, second⟩ := g
  refine ⟨_, _, _, _, _, rfl, fun sorted => ?_⟩
  obtain ⟨sorted, one⟩ := first sorted
  obtain ⟨sorted, two⟩ := second sorted
  exact ⟨sorted, fun v => (two v).trans (one v)⟩

theorem OnlyHeld.ite {c : Prop} [Decidable c] (h : OnlyHeld n s t) (g : OnlyHeld n s u) : OnlyHeld n s (if c then t else u) := by
  split
  · exact h
  · exact g

theorem onlyCores_held (h : OnlyCores s t) : OnlyHeld n s t := by
  obtain ⟨c, rfl⟩ := h
  exact ⟨_, _, _, _, _, rfl, fun sorted => ⟨sorted, fun _ => rfl⟩⟩

theorem setPart_held (v : Part) : OnlyHeld n s (s.setPart n v) :=
  ⟨_, _, _, _, _, rfl, fun sorted => ⟨smapSet_sorted _ sorted _ _, smapSet_set _ sorted n v⟩⟩

theorem setCtx_held (cn : Nat) (c : Ctx) : OnlyHeld n s (s.setCtx cn c) :=
  ⟨_, _, _, _, _, rfl, fun sorted => ⟨sorted, fun _ => rfl⟩⟩

theorem writeOpen_held (base len : Nat) : OnlyHeld n s (s.writeOpen base len) :=
  ⟨_, _, _, _, _, rfl, fun sorted => ⟨sorted, fun _ => rfl⟩⟩

theorem endRun_held : OnlyHeld n s (s.endRun n) := (onlyCores_held (updCoresOf_only s n _)).trans (setPart_held _)

theorem loadCores_held (m : SMap SavedCore) : OnlyHeld n s (s.loadCores n m) :=
  onlyCores_held (foldl_updCore_only (fun _ e k => k.load (smapGet .fresh m e.1)) _ s)

/-- The context `cn` on partition `n` is saved to its area, unless it is DEAD. -/
def State.saveOn (s : State) (n cn : Nat) : State :=
  if (s.ctx cn).live then
    (s.setCtx cn ({ s.ctx cn with st := .idle }.setSaved n (s.snapshot n))).writeOpen ((s.ctx cn).areaOn n)
      ((s.part n).count.toNat * corePart)
  else s

theorem saveOn_held (cn : Nat) : OnlyHeld n s (s.saveOn n cn) := ((setCtx_held _ _).trans (writeOpen_held _ _)).ite .refl

theorem takeCores_eq (cn : Nat) : s.takeCores n cn =
    let z := (s.switchOut n).loadCores n ((s.ctx cn).savedOn n)
    (z.setPart n { z.part n with ctx := some cn }).setCtx cn { z.ctx cn with st := .resident } := rfl

section
variable (idle : (s.part n).run = none)
include idle

theorem switchOut_saves {cn : Nat} (held : (s.part n).ctx = some cn) :
    s.switchOut n = ((s.saveOn n cn).endRun n).updPart n fun p => { p with ctx := none } := by
  simp only [State.switchOut, held, idle]
  rfl

theorem switchOut_held : OnlyHeld n s (s.switchOut n) := by
  cases held : (s.part n).ctx with
  | none =>
    have stays : s.switchOut n = s := by simp only [State.switchOut, held]
    rw [stays]
    exact .refl
  | some cn =>
    rw [switchOut_saves idle held]
    exact ((saveOn_held cn).trans endRun_held).trans (setPart_held _)

/-- A switch of a partition without a run changes cores, contexts, memory and that partition, which then holds the incoming context. -/
theorem takeCores_takes (ok : UnitsOk s) (cn : Nat) :
    let t := s.takeCores n cn
    t = { s with cores := t.cores, parts := smapSet .reset s.parts n (t.part n), ctxs := t.ctxs, mem := t.mem, free := t.free } ∧
      (t.part n).ctx = some cn ∧ (t.ctx cn).st = .resident ∧
      t.cores = ((s.switchOut n).loadCores n ((s.ctx cn).savedOn n)).cores := by
  have only := (switchOut_held idle).trans (loadCores_held ((s.ctx cn).savedOn n))
  obtain ⟨-, -, parts, ctxs, -⟩ := (ok.switchOut (n := n)).loadCores (n := n) (m := (s.ctx cn).savedOn n)
  obtain ⟨-, -, sorted, -⟩ := ok
  rw [takeCores_eq]
  generalize (s.switchOut n).loadCores n ((s.ctx cn).savedOn n) = z at only parts ctxs ⊢
  dsimp only
  rw [setCtx_at_part, setPart_part_self z parts, setCtx_ctx_self (z.setPart n _) ctxs]
  refine ⟨?_, rfl, rfl, rfl⟩
  obtain ⟨_, _, _, _, _, rfl, one⟩ := only
  rw [← (one sorted).2]
  rfl

end

/-! ### CONTEXT_SWITCH (R420, R428) -/

/-- Partition `n` stands ready to take context `cn`, and runs no kernel. -/
structure SwitchReady (s : State) (n cn : Nat) : Prop where
  out : (s.part n).inReset = false
  thawed : (s.part n).frozen = false
  unhalted : (s.part n).halted = false
  unstopped : s.stoppedOn n = false
  replayed : (s.part n).replay = []
  idle : (s.part n).run = none
  live : (s.ctx cn).live = true
  bound : n ∈ (s.ctx cn).pts

section
variable {cn : Nat}

theorem switchTo_there (here : (s.part n).ctx = some cn) (fresh : s.suspendedEntry cn = none) : s.switchTo n cn = s := by
  simp [State.switchTo, here, fresh]

theorem SwitchReady.passes (ready : SwitchReady s n cn) :
    ((s.part n).inReset || (s.part n).frozen || (s.part n).halted || s.stoppedOn n || !(s.part n).replay.isEmpty ||
      ((s.part n).run.isSome && !((s.part n).atYield && (s.part n).bgRun)) || !(s.ctx cn).live ||
      !(s.ctx cn).pts.contains n) = false := by
  obtain ⟨out, thawed, unhalted, unstopped, replayed, idle, live, bound⟩ := ready
  simp [out, thawed, unhalted, unstopped, replayed, idle, live, bound]

theorem switchTo_takes (ready : SwitchReady s n cn) (away : (s.part n).ctx ≠ some cn) (fresh : s.suspendedEntry cn = none) :
    s.switchTo n cn = s.takeCores n cn := by
  simp only [State.switchTo, ready.passes, fresh, Option.bind_none, Bool.false_eq_true, if_false]
  exact if_neg (by simpa using away)

theorem switchTo_resumes (ready : SwitchReady s n cn) {a : Admitted} {i : RunInfo} (suspended : s.suspendedEntry cn = some a)
    (saved : a.saved = some i) (none : s.waitingDeadline n = none) :
    s.switchTo n cn = (if (s.part n).ctx = some cn then s else s.takeCores n cn).resumeRun n a i := by
  simp only [State.switchTo, ready.passes, suspended, saved, none, Option.bind_some, Option.map_some, beq_iff_eq]
  rfl

end

/-! ### BACKGROUND_YIELD (R428) -/

theorem mustYield_iff : s.mustYield n = true ↔
    (s.part n).atYield = true ∧ (s.part n).bgRun = true ∧ ∃ a ∈ s.waiting n, a.deadline ≠ 0 := by
  simp [State.mustYield, State.waitingDeadline, and_assoc]

end

/-! ### The comparison of two copies (R434, R435) -/

/-- A copy has ended, or is lost. -/
def CopyEnd.ended (e : CopyEnd) : Bool := e != .waiting && e != .running

theorem comparable_eq (a : Admitted) : a.comparable = (a.primary.ended && a.secondary.ended) := rfl

theorem copyView_halted (e : CopyEnd) : copyView .halted e = .halted := rfl

/-- A copy that is lost, or the only one that consumed poison, counts as lost. -/
theorem copyView_lost {e : CopyEnd} (gone : e = .lost ∨ e = .fault 0x20) : copyView e .halted = .lost := by
  rcases gone with rfl | rfl
  · rfl
  · rfl

theorem copyView_sameFault (x : Nat) : copyView (.fault x) (.fault x) = .fault x := if_neg fun h => h.2 h.1

theorem copyView_otherFault {x : Nat} (other : x ≠ 0x20) (e : CopyEnd) : copyView (.fault x) e = .fault x :=
  if_neg fun h => other (CopyEnd.fault.inj h.1)

theorem ended_of_gone {e : CopyEnd} (gone : e = .lost ∨ e = .fault 0x20) : e.ended = true := by
  rcases gone with rfl | rfl
  · rfl
  · rfl

section
variable {s : State} {idx : Nat}

theorem expressCompare_unknown (unknown : s.bs.run.find? (fun a => a.idx == idx && a.express) = none) : expressCompare idx s = s := by
  simp only [expressCompare, unknown]

/-- A context after a comparison that ended with status 0: it is without the copies that were lost (R435). -/
def Ctx.compared (c : Ctx) (a : Admitted) : Ctx :=
  let l1 := c.lost1 || copyView a.primary a.secondary == .lost
  let l2 := c.lost2 || copyView a.secondary a.primary == .lost
  { c with unpaired := c.unpaired || l1 || l2, lost1 := l1, lost2 := l2 }

section
variable {a : Admitted} (found : s.bs.run.find? (fun a => a.idx == idx && a.express) = some a)
include found

theorem expressCompare_early (early : a.comparable = false) : expressCompare idx s = s := by
  simp only [expressCompare, found, early]
  rfl

variable (ended : a.comparable = true)
include ended

theorem expressCompare_done {flags : Nat} (done : a.compare = (0, 0, flags)) : expressCompare idx s =
    (s.setCtx a.ctx ((s.ctx a.ctx).compared a)).complete (if a.primary = .halted then a else { a with slip := a.slip2 }) 0 0 flags := by
  simp only [expressCompare, found, ended, done]
  rfl

theorem expressCompare_fails {status code : Nat} (fails : a.compare = (status, code, 0)) (failed : status ≠ 0) :
    expressCompare idx s = (s.setCtx a.ctx { s.ctx a.ctx with st := .dead }).complete a status code 0 := by
  simp only [expressCompare, found, ended, fails]
  exact if_neg failed

end

section
variable {a : Admitted} {c : Ctx}

section
variable (first : a.primary = .halted) (second : a.secondary = .halted)
include first second

theorem compare_agree (same : a.crumbs1 = a.crumbs2) : a.compare = (0, 0, 0) := by
  simp only [Admitted.compare, first, second, copyView_halted, if_pos same]

theorem compare_differ (other : a.crumbs1 ≠ a.crumbs2) : a.compare = (4, 0, 0) := by
  simp only [Admitted.compare, first, second, copyView_halted, if_neg other]

theorem compared_agree (lost1 : c.lost1 = false) (lost2 : c.lost2 = false) : c.compared a = c := by
  cases c
  cases lost1
  cases lost2
  simp [Ctx.compared, first, second, copyView_halted]

end

section
variable (halted : a.primary = .halted) (gone : a.secondary = .lost ∨ a.secondary = .fault 0x20)
include halted gone

theorem compare_secondaryLost : a.compare = (0, 0, 4) := by
  simp only [Admitted.compare, halted, copyView_halted, copyView_lost gone]

theorem compared_secondaryLost : c.compared a = { c with unpaired := true, lost2 := true } := by
  simp [Ctx.compared, halted, copyView_halted, copyView_lost gone]

end

section
variable (halted : a.secondary = .halted) (gone : a.primary = .lost ∨ a.primary = .fault 0x20)
include halted gone

theorem compare_primaryLost : a.compare = (0, 0, 6) := by
  simp only [Admitted.compare, halted, copyView_halted, copyView_lost gone]

theorem compared_primaryLost : c.compared a = { c with unpaired := true, lost1 := true } := by
  simp [Ctx.compared, halted, copyView_halted, copyView_lost gone]

end

theorem compare_sameFault {x : Nat} (first : a.primary = .fault x) (second : a.secondary = .fault x) : a.compare = (1, x, 0) := by
  simp only [Admitted.compare, first, second, copyView_sameFault, if_true]

/-- A fault other than POISON_CONSUMED beside a copy that has halted. -/
theorem compare_faultBeside {x : Nat} (other : x ≠ 0x20)
    (beside : a.primary = .halted ∧ a.secondary = .fault x ∨ a.primary = .fault x ∧ a.secondary = .halted) : a.compare = (4, 0, 0) := by
  rcases beside with ⟨first, second⟩ | ⟨first, second⟩
  · simp only [Admitted.compare, first, second, copyView_halted, copyView_otherFault other]
  · simp only [Admitted.compare, first, second, copyView_halted, copyView_otherFault other]

end
end

/-! ### EXPRESS_REPAIR (R435) -/

/-- The partition of a context's lost copy. -/
def Ctx.lostPt (c : Ctx) : Pt := if c.lost1 then c.pt else c.pt2

/-- The partition of the copy that is left. -/
def Ctx.leftPt (c : Ctx) : Pt := if c.lost1 then c.pt2 else c.pt

theorem lostPt_toNat (c : Ctx) : (if c.lost1 then c.pt.toNat else c.pt2.toNat) = c.lostPt.toNat := (apply_ite BitVec.toNat _ _ _).symm

theorem leftPt_toNat (c : Ctx) : (if c.lost1 then c.pt2.toNat else c.pt.toNat) = c.leftPt.toNat := (apply_ite BitVec.toNat _ _ _).symm

/-- Context `cn` has lost one copy and holds no entry, and partition `n` can take that copy. -/
structure RepairReady (s : State) (cn n : Nat) : Prop where
  express : (s.ctx cn).express = true
  unpaired : (s.ctx cn).unpaired = true
  survives : (s.ctx cn).lost1 = false ∨ (s.ctx cn).lost2 = false
  idle : s.ctxBusy cn = false
  live : (s.ctx cn).live = true
  out : (s.part n).inReset = false
  healthy : (s.part n).quarantined = false
  die : (s.part n).die = (s.part (s.ctx cn).lostPt.toNat).die
  count : (s.part n).count = (s.part (s.ctx cn).leftPt.toNat).count
  serves : smapGet false s.bs.ptExpress n = true

/-- The context once its lost copy has been bound to partition `pt` with the saved cores `data`. -/
def Ctx.repaired (c : Ctx) (pt : Pt) (data : SMap SavedCore) : Ctx :=
  if c.lost1 then { c with pt := pt, saved := data, lost1 := false, unpaired := false }
  else { c with pt2 := pt, saved2 := data, lost2 := false, unpaired := false }

section
variable {s : State} {cn : Nat}

theorem expressRepair_idle {n : Nat}
    (paired : (s.ctx cn).unpaired = false ∨ (s.ctx cn).express = false ∨ s.ctxBusy cn = true) : expressRepair cn n s = s := by
  refine if_pos ?_
  rcases paired with paired | bulk | busy
  · simp [paired]
  · simp [bulk]
  · simp [busy]

theorem RepairReady.passes {n : Nat} (ready : RepairReady s cn n) :
    (!(s.ctx cn).express || !(s.ctx cn).unpaired || ((s.ctx cn).lost1 && (s.ctx cn).lost2) || s.ctxBusy cn || !(s.ctx cn).live ||
      (s.part n).inReset || (s.part n).quarantined || (s.part n).die != (s.part (s.ctx cn).lostPt.toNat).die ||
      (s.part n).count != (s.part (s.ctx cn).leftPt.toNat).count || !smapGet false s.bs.ptExpress n) = false := by
  obtain ⟨express, unpaired, survives, idle, live, out, healthy, die, count, serves⟩ := ready
  have oneLeft : ((s.ctx cn).lost1 && (s.ctx cn).lost2) = false := by
    rcases survives with first | second
    · rw [first, Bool.false_and]
    · rw [second, Bool.and_false]
  simp [express, unpaired, oneLeft, idle, live, out, healthy, die, count, serves]

theorem expressRepair_repairs {pt : Pt} (ready : RepairReady s cn pt.toNat) (held : (s.part (s.ctx cn).leftPt.toNat).ctx = some cn)
    (gone : (s.part (s.ctx cn).lostPt.toNat).ctx ≠ some cn) :
    expressRepair cn pt.toNat s = s.setCtx cn ((s.ctx cn).repaired pt (s.snapshot (s.ctx cn).leftPt.toNat)) := by
  simp only [expressRepair, lostPt_toNat, leftPt_toNat, ready.passes, held, gone, if_true, if_false, Bool.false_eq_true,
    BitVec.ofNat_toNat, BitVec.setWidth_eq]
  rfl

end

/-! ### BS_ABORT (R430) -/

/-- The kernels of an aborted entry end on every partition of its context. -/
def State.abortRuns (s : State) (a : Admitted) : State :=
  (s.ctx a.ctx).pts.foldl (fun z n =>
    if (z.part n).ctx = some a.ctx ∧ (z.part n).run.isSome = true then z.abortPart n (srcHub 0x350) else z) (s.complete a 3 0x30 0)

section
variable {s : State} {idx : Nat}

theorem bsAbort_unknown (unknown : s.bs.run.find? (fun a => a.idx == idx) = none) : bsAbort idx s = s := by
  simp only [bsAbort, unknown]

section
variable {a : Admitted} (found : s.bs.run.find? (fun a => a.idx == idx) = some a)
include found

theorem bsAbort_waiting (waiting : a.started = false) : bsAbort idx s = s.complete a 3 0 0 := by
  simp only [bsAbort, found, waiting]
  rfl

theorem bsAbort_started (started : a.started = true) : bsAbort idx s =
    let z := (s.abortRuns a).setCtx a.ctx { (s.abortRuns a).ctx a.ctx with st := .dead, code := 0x30 }
    { z with ladder := { z.ladder with steps := z.ladder.steps ++ [⟨.ctx a.ctx, s.now⟩] } } := by
  simp only [bsAbort, found, started, Bool.and_eq_true, decide_eq_true_eq]
  rfl

end
end

/-! ### The clauses of O32 -/

/-- Settles O32. A yield to a deadline entry of the kernel's own context is the model's choice (log 42). -/
theorem contextsSwitchAndExpressCopiesAreCompared : Obligations.ContextsSwitchAndExpressCopiesAreCompared := by
  refine ⟨?switch, fun s idx unknown => congrArg Host.Outcome.next (expressCompare_unknown unknown), ?compare, ?repair, ?abort⟩
  case switch =>
    intro s pt ctx n p
    refine ⟨fun here fresh => congrArg Host.Outcome.next (switchTo_there here fresh),
      fun fresh ok out thawed unhalted unstopped replayed idle away live bound => ?_,
      fun a i suspended saved none out thawed unhalted unstopped replayed idle live bound => ?_,
      fun background boundary waits => congrArg Host.Outcome.next (if_pos (mustYield_iff.2 ⟨boundary, background, waits⟩)),
      fun stays => congrArg Host.Outcome.next (if_neg (mt mustYield_iff.1 ?_))⟩
    · exact ⟨_, congrArg Host.Outcome.next
        (switchTo_takes ⟨out, thawed, unhalted, unstopped, replayed, idle, live, bound⟩ away fresh), takeCores_takes idle ok _⟩
    · exact congrArg Host.Outcome.next
        (switchTo_resumes ⟨out, thawed, unhalted, unstopped, replayed, idle, live, bound⟩ suspended saved none)
    · rintro ⟨boundary, background, a, waits, deadline⟩
      rcases stays with foreground | inside | none
      · exact absurd (background.symm.trans foreground) (by decide)
      · exact absurd (boundary.symm.trans inside) (by decide)
      · exact deadline (none a waits)
  case compare =>
    intro s idx a found c
    refine ⟨fun early => congrArg Host.Outcome.next (expressCompare_early found early),
      fun first second same lost1 lost2 => ⟨c, congrArg Host.Outcome.next ?_, rfl⟩,
      fun halted gone => congrArg Host.Outcome.next ?_, fun halted gone => congrArg Host.Outcome.next ?_,
      fun x first second => congrArg Host.Outcome.next ?_, fun first second other => congrArg Host.Outcome.next ?_,
      fun x other beside => congrArg Host.Outcome.next ?_⟩
    · have ended : a.comparable = true := by rw [comparable_eq, first, second]; rfl
      rw [expressCompare_done found ended (compare_agree first second same), compared_agree first second lost1 lost2, if_pos first]
    · have ended : a.comparable = true := by rw [comparable_eq, halted, ended_of_gone gone]; rfl
      rw [expressCompare_done found ended (compare_secondaryLost halted gone), compared_secondaryLost halted gone, if_pos halted]
    · have ended : a.comparable = true := by rw [comparable_eq, halted, ended_of_gone gone]; rfl
      have notFirst : a.primary ≠ .halted := by
        rcases gone with gone | gone
        · simp [gone]
        · simp [gone]
      rw [expressCompare_done found ended (compare_primaryLost halted gone), compared_primaryLost halted gone, if_neg notFirst]
    · have ended : a.comparable = true := by rw [comparable_eq, first, second]; rfl
      exact expressCompare_fails found ended (compare_sameFault first second) (by decide)
    · have ended : a.comparable = true := by rw [comparable_eq, first, second]; rfl
      exact expressCompare_fails found ended (compare_differ first second other) (by decide)
    · have ended : a.comparable = true := by
        rcases beside with ⟨first, second⟩ | ⟨first, second⟩
        · rw [comparable_eq, first, second]; rfl
        · rw [comparable_eq, first, second]; rfl
      exact expressCompare_fails found ended (compare_faultBeside other beside) (by decide)
  case repair =>
    intro s ctx pt c p lost live
    exact ⟨fun paired => congrArg Host.Outcome.next (expressRepair_idle paired),
      fun express unpaired survives idle alive out healthy die count serves held gone => congrArg Host.Outcome.next
        (expressRepair_repairs ⟨express, unpaired, survives, idle, alive, out, healthy, die, count, serves⟩ held gone)⟩
  case abort =>
    intro s idx reaches
    exact ⟨fun unknown => next_hostReg reaches (bsAbort_unknown unknown),
      fun a found waiting => next_hostReg reaches (bsAbort_waiting found waiting),
      fun a found started => ⟨_, next_hostReg reaches (bsAbort_started found started), rfl, rfl, rfl, rfl, rfl⟩⟩

end Sys2Proof.Machine
end

section
namespace Sys2Proof.Machine
open Sys2Proof.Laws

/-! ## Admission, the start and the completion of kernels (O31)

The state that a tick's generations leave, the cores, the partition, the entry and the context of a kernel that starts, what is left
of one that has ended, and the state with a completion record written each have a name; a law says which of them a command answers. -/

/-! ### ADMISSION_TICK (R39, R425, R499, R524) -/

/-- The state at a new tick once the generations have been looked at. -/
def State.ticked (s : State) : State :=
  (List.range 16).foldl State.genTick { s with bs := { s.bs with
    lastTick := tickOf s.now, sawReady := s.entryField s.bs.scan 0 1 == 1 || !s.bs.held.isEmpty } }

/-- The scanner decides on no entry. -/
def State.scanOff (z : State) : Bool := !z.bs.en || !z.bs.scanner || z.bs.paused || z.host.perst || z.sec.boot != 1

/-- What a tick at `g` does beyond the generations: entries are decided in W0, and wake the module in W1 to W3. -/
def State.tickEntries (z : State) (g : Nat) : State :=
  match z.power.st with
  | .w0 =>
    if z.power.exiting then z
    else (z.bs.held.foldl (fun y i => y.applyDecision i true (y.decideEntry i g)) z).scan g 256
  | .w1 | .w2 | .w3 =>
    if z.entryField z.bs.scan 0 1 == 1 || !z.bs.held.isEmpty then
      { z with power := { z.power with exiting := true, target := .w0 }, host := { z.host with l0p := false } } else z
  | _ => z

section
variable {s : State}

theorem admissionTick_served (served : tickOf s.now ≤ s.bs.lastTick) : admissionTick s = s := if_pos served

section
variable (due : s.bs.lastTick < tickOf s.now)
include due

theorem admissionTick_still (off : s.ticked.scanOff = true) : admissionTick s = s.ticked :=
  (if_neg (Nat.not_le.2 due)).trans (if_pos off)

theorem admissionTick_due (on : s.ticked.scanOff = false) : admissionTick s = s.ticked.tickEntries (tickOf s.now) := by
  refine (if_neg (Nat.not_le.2 due)).trans ?_
  dsimp only
  generalize ticked : (List.range 16).foldl State.genTick _ = z
  obtain rfl : s.ticked = z := ticked
  generalize s.ticked = z at on ⊢
  exact if_neg (Bool.eq_false_iff.1 on)

end

section
variable {z : State} {g : Nat}

theorem tickEntries_decides (awake : z.power.st = .w0) (staying : z.power.exiting = false) : z.tickEntries g =
    (z.bs.held.foldl (fun y i => y.applyDecision i true (y.decideEntry i g)) z).scan g 256 := by
  simp only [State.tickEntries, awake, staying, Bool.false_eq_true, if_false]

theorem tickEntries_wakes (asleep : z.power.st = .w1 ∨ z.power.st = .w2 ∨ z.power.st = .w3) : z.tickEntries g =
    if z.entryField z.bs.scan 0 1 = 1 ∨ z.bs.held ≠ [] then
      { z with power := { z.power with exiting := true, target := .w0 }, host := { z.host with l0p := false } }
    else z := by
  have wakes : (z.entryField z.bs.scan 0 1 == 1 || !z.bs.held.isEmpty) = true ↔ z.entryField z.bs.scan 0 1 = 1 ∨ z.bs.held ≠ [] := by
    simp
  rcases asleep with w1 | w2 | w3
  · simp only [State.tickEntries, w1, wakes]
  · simp only [State.tickEntries, w2, wakes]
  · simp only [State.tickEntries, w3, wakes]

end

theorem scanOff_iff {z : State} : z.scanOff = true ↔
    z.bs.en = false ∨ z.bs.scanner = false ∨ z.bs.paused = true ∨ z.host.perst = true ∨ z.sec.boot ≠ 1 := by
  simp [State.scanOff, or_assoc]

/-! ### KERNEL_START (R191, R192, R424, R428) -/

/-- The budget of a kernel's first tile: 20,000 ns where it names none. -/
def firstBudget (kn : Kernel) : Nat := if kn.budget = 0 then 20000 else kn.budget.toNat

/-- The cores of partition `n` at the start of entry `a`'s kernel. -/
def State.startCores (s : State) (n : Nat) (a : Admitted) (kn : Kernel) : State :=
  (s.coresOf n).foldl (fun z e => z.updCore e.2 fun x =>
    x.startKernel (kn.progs.getD e.1 ⟨0, []⟩) a ((s.ctx a.ctx).secondOn n) (s.part n).cyc z.now) s

/-- A partition that starts entry `a`'s kernel at `now`. -/
def Part.starts (p : Part) (a : Admitted) (kn : Kernel) (now : Nat) : Part :=
  { p with
    run := some { entry := a.serial, ctx := a.ctx, kernel := a.kernel, startGtb := now, plan := kn.wcet.cPlan
                  background := a.deadline == 0, tiles := 0, prog0 := p.cycProg, reexec0 := p.cycReexec, budget := firstBudget kn }
    winStart := now, winEnd := some (now + firstBudget kn), budget := firstBudget kn, tileProg0 := p.cycProg
    atYield := false, yieldReq := false, issuedCores := [], rested := false, xbarRel := smapErase p.xbarRel 0 }

/-- An admitted entry when a copy of the entry with a serial number starts at `now`. -/
def Admitted.starts (b : Admitted) (serial : Nat) (second : Bool) (now : Nat) : Admitted :=
  if b.serial ≠ serial then b
  else
    let b := if second then { b with secondary := .running } else { b with primary := .running }
    { b with started := true, startGtb := if b.started then b.startGtb else now }

/-- A context whose entry `a` starts. -/
def Ctx.starts (c : Ctx) (a : Admitted) : Ctx :=
  { c with st := .running, redo := c.redo.drop 1, since := if c.express then [] else c.since ++ [a] }

/-- Writes to cores leave the time, so each may read it from the state that it finds. -/
theorem foldl_updCore_now (f : Nat × Nat → Nat → Core → Core) (l : List (Nat × Nat)) (z : State) :
    l.foldl (fun z e => z.updCore e.2 (f e z.now)) z = l.foldl (fun y e => y.updCore e.2 (f e z.now)) z := by
  induction l generalizing z with
  | nil => rfl
  | cons e l ih => exact ih (z.updCore e.2 (f e z.now))

theorem startCores_only (n : Nat) (a : Admitted) (kn : Kernel) : OnlyCores s (s.startCores n a kn) :=
  foldl_updCore_only (fun z e x =>
    x.startKernel (kn.progs.getD e.1 ⟨0, []⟩) a ((s.ctx a.ctx).secondOn n) (s.part n).cyc z.now) _ _

theorem startCores_eq (n : Nat) (a : Admitted) (kn : Kernel) : s.startCores n a kn =
    (s.coresOf n).foldl (fun z e => z.updCore e.2 fun x =>
      x.startKernel (kn.progs.getD e.1 ⟨0, []⟩) a ((s.ctx a.ctx).secondOn n) (s.part n).cyc s.now) s :=
  foldl_updCore_now (fun e now x =>
    x.startKernel (kn.progs.getD e.1 ⟨0, []⟩) a ((s.ctx a.ctx).secondOn n) (s.part n).cyc now) _ _

/-- The state in which partition `n` has started entry `a`'s kernel. -/
def State.kernelStarted (s : State) (n : Nat) (a : Admitted) (kn : Kernel) : State :=
  let z := s.startCores n a kn
  { z with
    parts := smapSet .reset z.parts n ((s.part n).starts a kn s.now)
    bs := { z.bs with run := z.bs.run.map fun b => b.starts a.serial ((s.ctx a.ctx).secondOn n) s.now }
    ctxs := smapSet .reset z.ctxs a.ctx ((z.ctx a.ctx).starts a) }

section
variable (n : Nat) (a : Admitted) (kn : Kernel)

theorem kernelStarted_eq : s.kernelStarted n a kn = { s with
    cores := (s.startCores n a kn).cores
    parts := smapSet .reset s.parts n ((s.part n).starts a kn s.now)
    bs := { s.bs with run := s.bs.run.map fun b => b.starts a.serial ((s.ctx a.ctx).secondOn n) s.now }
    ctxs := smapSet .reset s.ctxs a.ctx ((s.ctx a.ctx).starts a) } := by
  obtain ⟨c, only⟩ := startCores_only (s := s) n a kn
  rw [State.kernelStarted, only]
  rfl

theorem kernelStarted_part (sorted : smapSorted s.parts = true) :
    (s.kernelStarted n a kn).part n = (s.part n).starts a kn s.now := by
  rw [kernelStarted_eq]
  exact smapGet_set_self _ sorted _ _

theorem kernelStarted_ctx (sorted : smapSorted s.ctxs = true) :
    (s.kernelStarted n a kn).ctx a.ctx = (s.ctx a.ctx).starts a := by
  rw [kernelStarted_eq]
  exact smapGet_set_self _ sorted _ _

end

/-- Where an entry starts, the one with that serial number has started. -/
theorem started_of_starts {b : Admitted} {serial : Nat} {second : Bool} {now : Nat}
    (named : (b.starts serial second now).serial = serial) : (b.starts serial second now).started = true := by
  unfold Admitted.starts at named ⊢
  split at named
  · next other => exact absurd named other
  · next same => rw [if_neg same]

section
variable {n : Nat}

theorem kernelStart_idle (idle : s.canStart n = false ∨ s.nextEntry n = none) : kernelStart n s = s := by
  unfold kernelStart
  rcases idle with held | empty
  · rw [held]
    rfl
  · rw [empty]
    exact ite_self s

variable {a : Admitted} (free : s.canStart n = true) (turn : s.nextEntry n = some a)
include free turn

theorem kernelStart_dead (dead : (s.ctx a.ctx).live = false) : kernelStart n s = s.complete a 1 (s.ctx a.ctx).code.toNat 0 := by
  simp only [kernelStart, free, turn, dead]
  rfl

theorem kernelStart_starts {kn : Kernel} (live : (s.ctx a.ctx).live = true) (held : (s.part n).ctx = some a.ctx)
    (kernel : s.kernelOf (s.ctx a.ctx) a.kernel = some kn) : kernelStart n s = s.kernelStarted n a kn := by
  simp only [kernelStart, free, turn, live, kernel, Bool.not_true, Bool.false_eq_true, if_false]
  exact if_neg (not_not.2 held)

end

/-! ### KERNEL_COMPLETE (R212, R318, R363, R432) -/

/-- A Crumb accumulator of partition `n` carries poison. -/
def State.crumbPoison (s : State) (n : Nat) : Bool := (s.crumbGroups n).any fun g => g.2.2.poison

/-- The result of entry `a` on partition `n` is poisoned. -/
def State.poisoned (s : State) (n : Nat) (i : RunInfo) (a : Admitted) : Bool :=
  s.crumbPoison n || (if (s.ctx i.ctx).isPrimary n then a.poison1 else a.poison2)

/-- The state with the Crumbs of partition `n` logged, and kept with its entry `a`. -/
def State.crumbsKept (s : State) (n : Nat) (i : RunInfo) (a : Admitted) : State :=
  (s.logCrumbs n i.kernel i.ctx).updEntry a.idx fun b =>
    let b := b.ended ((s.ctx i.ctx).isPrimary n) (s.part n).slipOf (s.crumbGroups n)
    if s.crumbPoison n then b.poison ((s.ctx i.ctx).isPrimary n) else b

/-- The state with the run of partition `n` over, and its context RESIDENT. -/
def State.kernelOver (s : State) (n : Nat) (i : RunInfo) : State :=
  let z := (s.endRun n).updCoresOf n fun q => { q with seq := .noKernel }
  z.setCtx i.ctx { z.ctx i.ctx with st := .resident }

section
variable {n : Nat} {i : RunInfo} (runs : (s.part n).run = some i)
include runs

theorem kernelComplete_busy (busy : s.allHalted n = false) : kernelComplete n s = s := by
  simp only [kernelComplete, runs, busy]
  rfl

variable {a : Admitted} (entry : s.runningEntry n = some a) (halted : s.allHalted n = true)
include entry halted

theorem kernelComplete_halted : kernelComplete n s =
    if s.poisoned n i a then (s.crumbsKept n i a).raisePart n 0x20 (s.poisonedCore n).2 (s.poisonedCore n).1
    else if a.express then ((s.crumbsKept n i a).kernelOver n i).updEntry a.idx fun b => b.endCopy ((s.ctx i.ctx).isPrimary n) .halted
    else ((s.crumbsKept n i a).kernelOver n i).complete
      (a.ended ((s.ctx i.ctx).isPrimary n) (s.part n).slipOf (s.crumbGroups n)) 0 0 0 := by
  simp only [kernelComplete, runs, entry, halted, Bool.not_true, Bool.false_eq_true, if_false]
  rfl

theorem kernelComplete_poisoned (poisoned : s.poisoned n i a = true) : kernelComplete n s =
    (s.crumbsKept n i a).raisePart n 0x20 (s.poisonedCore n).2 (s.poisonedCore n).1 :=
  (kernelComplete_halted runs entry halted).trans (if_pos poisoned)

variable (clean : s.poisoned n i a = false)
include clean

theorem kernelComplete_express (express : a.express = true) : kernelComplete n s =
    ((s.crumbsKept n i a).kernelOver n i).updEntry a.idx fun b => b.endCopy ((s.ctx i.ctx).isPrimary n) .halted :=
  (kernelComplete_halted runs entry halted).trans ((if_neg (Bool.eq_false_iff.1 clean)).trans (if_pos express))

theorem kernelComplete_bulk (bulk : a.express = false) : kernelComplete n s = ((s.crumbsKept n i a).kernelOver n i).complete
    (a.ended ((s.ctx i.ctx).isPrimary n) (s.part n).slipOf (s.crumbGroups n)) 0 0 0 :=
  (kernelComplete_halted runs entry halted).trans
    ((if_neg (Bool.eq_false_iff.1 clean)).trans (if_neg (Bool.eq_false_iff.1 bulk)))

end

/-! ### COMPLETION_WRITE (R431, R436, R543) -/

theorem logPoisons_withBs (b : BatchSheet) (l : List Nat) (z : State) :
    l.foldl State.logPoison { z with bs := b } = { l.foldl State.logPoison z with bs := b } := by
  induction l generalizing z with
  | nil => rfl
  | cons line l ih => exact ih (z.logPoison line)

/-- A write of memory does not touch the Batch Sheet block. -/
theorem memPut_withBs (s : State) (b : BatchSheet) (addr : Nat) (bs : List Byte) :
    ({ s with bs := b }).memPut addr bs = { s.memPut addr bs with bs := b } :=
  logPoisons_withBs b (s.mem.poisonedBy addr (bs.map some) false) { s with mem := s.mem.write addr (bs.map some) false }

/-- The state with record `c` written while `cs` wait: CT_HEAD moves on, and its sequences are free. -/
def State.recordWritten (s : State) (c : Completion) (cs : List Completion) : State :=
  { (s.memPut (s.bs.ctBase.toNat + 32 * s.bs.ctHead) (c.bytes s.now)).memPut (s.bs.base.toNat + 256 * c.idx)
      [if c.reject then 3 else 4] with
    bs := { s.bs with
      due := cs, ctHead := (s.bs.ctHead + 1) % max s.bs.ctSize.toNat 1
      seqBusy := s.bs.seqBusy.filter fun q => !(c.seqFirst ≤ q && q < c.seqFirst + c.seqCount) } }

/-- The state with the messages sent that a record's entry and its context ask for. -/
def State.recordTold (s : State) (c : Completion) : State :=
  let z := c.msix.elim s (s.sendMsix 0)
  c.ctx.elim z fun cn => z.sendMsix ((z.ctx cn).pt.toNat + 1) 2

theorem completionWrite_none (none : s.bs.due = []) : completionWrite s = s := by simp only [completionWrite, none]

theorem completionWrite_writes {c : Completion} {cs : List Completion} (oldest : s.bs.due = c :: cs) :
    completionWrite s = ((s.recordWritten c cs).recordTold c).genRelease c.model := by
  simp only [completionWrite, oldest, State.writeCompletion, memPut_withBs, State.recordTold]
  cases c.msix <;> cases c.ctx <;> rfl

end

/-! ### The clauses of O31 -/

/-- Settles O31. That the entry of a context that has died completes with the context's code, and which core a POISON_CONSUMED result
names, are the model's choices (DEDUCED, log 42). -/
theorem entriesAreAdmittedStartedAndCompleted : Obligations.EntriesAreAdmittedStartedAndCompleted := by
  refine ⟨fun s served => congrArg Host.Outcome.next (admissionTick_served served), ?tick,
    fun s pt idle => congrArg Host.Outcome.next (kernelStart_idle idle),
    fun s pt a free turn dead => congrArg Host.Outcome.next (kernelStart_dead free turn dead), ?start, ?complete,
    fun s none => congrArg Host.Outcome.next (completionWrite_none none),
    fun s c cs oldest => congrArg Host.Outcome.next (completionWrite_writes oldest)⟩
  case tick =>
    intro s g s0 s1 due
    refine ⟨fun off => congrArg Host.Outcome.next (admissionTick_still due (scanOff_iff.2 off)),
      fun en scanner unpaused link boot => ?_⟩
    have on : s.ticked.scanOff = false := by
      rw [Bool.eq_false_iff, ne_eq, scanOff_iff]
      rintro (off | off | off | off | off)
      · exact absurd (en.symm.trans off) (by decide)
      · exact absurd (scanner.symm.trans off) (by decide)
      · exact absurd (unpaused.symm.trans off) (by decide)
      · exact absurd (link.symm.trans off) (by decide)
      · exact off boot
    exact ⟨fun awake staying => congrArg Host.Outcome.next ((admissionTick_due due on).trans (tickEntries_decides awake staying)),
      fun asleep => congrArg Host.Outcome.next ((admissionTick_due due on).trans (tickEntries_wakes asleep))⟩
  case start =>
    intro s pt a kn n p free turn live held kernel budget ok
    obtain ⟨-, -, parts, ctxs, -⟩ := ok
    refine ⟨_, congrArg Host.Outcome.next (kernelStart_starts free turn live held kernel), ?_⟩
    have cores := congrArg State.cores (startCores_eq (s := s) n a kn)
    rw [kernelStarted_part n a kn parts, kernelStarted_ctx n a kn ctxs, kernelStarted_eq]
    refine ⟨rfl, rfl, rfl, rfl, ⟨_, rfl, rfl, rfl, rfl, rfl, rfl⟩, fun b runs named => ?_, cores⟩
    obtain ⟨b, -, rfl⟩ := List.mem_map.1 runs
    exact started_of_starts named
  case complete =>
    intro s pt i a n runs entry prim groups crumb bad s1 s2 s3
    exact ⟨fun busy => congrArg Host.Outcome.next (kernelComplete_busy runs busy),
      fun halted poisoned => ⟨_, _, congrArg Host.Outcome.next (kernelComplete_poisoned runs entry halted poisoned)⟩,
      fun halted clean express => congrArg Host.Outcome.next (kernelComplete_express runs entry halted clean express),
      fun halted clean bulk => congrArg Host.Outcome.next (kernelComplete_bulk runs entry halted clean bulk)⟩

end Sys2Proof.Machine
end

section
namespace Sys2Proof.Machine
open Sys2Proof.Laws

/-! ## Abandoned tiles (O30)

What an abandon changes before its partition is only cores and the queues of the Peel engines (`OnlyPipes`); the partition that it
leaves has a name (`Part.abandoned`). A core is restored from its commit state because the rows of an XRECV that it puts down first
leave that state alone. -/

/-- Only cores and hearth dies can differ. -/
def OnlyPipes (s t : State) : Prop := ∃ c d, t = { s with cores := c, dies := d }

section
variable {s t u : State}

theorem OnlyPipes.refl (s : State) : OnlyPipes s s := ⟨s.cores, s.dies, rfl⟩

theorem OnlyPipes.trans (h : OnlyPipes s t) (g : OnlyPipes t u) : OnlyPipes s u := by
  obtain ⟨_, _, rfl⟩ := h
  obtain ⟨c, d, rfl⟩ := g
  exact ⟨c, d, rfl⟩

theorem OnlyPipes.parts (h : OnlyPipes s t) : t.parts = s.parts := by
  obtain ⟨_, _, rfl⟩ := h
  rfl

theorem filterDescs_pipes (s : State) (d : Nat) (keep : PeelDesc → Bool) : OnlyPipes s (s.filterDescs d keep) :=
  foldl_keeps OnlyPipes .refl (fun _ _ _ => .trans) _ (fun s _ => ⟨s.cores, _, rfl⟩) _ _

theorem updCores_pipes (s : State) (l : List (Nat × Nat)) (f : Nat × Nat → Core → Core) :
    OnlyPipes s (l.foldl (fun z e => z.updCore e.2 (f e)) s) :=
  foldl_keeps OnlyPipes .refl (fun _ _ _ => .trans) _ (fun s _ => ⟨_, s.dies, rfl⟩) _ _

end

/-! ### A core at an abandon (R459, R460) -/

/-- The row of an XRECV that a delayed effect still owes is put down; other effects leave the core alone. -/
def Core.landRow (q : Core) (w : Delayed) : Core :=
  match w.act with
  | .land x i d p => q.landLine x i d p
  | _ => q

theorem flushRecv_eq (q : Core) : q.flushRecv =
    let z := q.writes.foldl Core.landRow q
    { z with xfers := z.xfers.filter fun x => x.kind != .xrecv } := rfl

theorem landRow_only (q : Core) (w : Delayed) : ∃ b, q.landRow w = { q with bench := b } := by
  unfold Core.landRow
  split
  · unfold Core.landLine
    split
    · split
      · exact ⟨_, rfl⟩
      · exact ⟨q.bench, rfl⟩
    · exact ⟨q.bench, rfl⟩
  · exact ⟨q.bench, rfl⟩

theorem landRows_only (ws : List Delayed) (q : Core) : ∃ b, ws.foldl Core.landRow q = { q with bench := b } := by
  induction ws generalizing q with
  | nil => exact ⟨q.bench, rfl⟩
  | cons w ws ih =>
    obtain ⟨b, first⟩ := landRow_only q w
    rw [List.foldl_cons, first]
    exact ih { q with bench := b }

theorem flushRecv_only (q : Core) : ∃ b x, q.flushRecv = { q with bench := b, xfers := x } := by
  obtain ⟨b, rows⟩ := landRows_only q.writes q
  rw [flushRecv_eq, rows]
  exact ⟨b, _, rfl⟩

@[simp] theorem flushRecv_commit (q : Core) : q.flushRecv.commit = q.commit := by
  obtain ⟨_, _, only⟩ := flushRecv_only q
  rw [only]

@[simp] theorem flushRecv_seq (q : Core) : q.flushRecv.seq = q.seq := by
  obtain ⟨_, _, only⟩ := flushRecv_only q
  rw [only]

/-! ### The partition at an abandon (R458, R459, R463) -/

/-- A partition that abandons its tile at `now`: thawed, in a new window, the cycles of the abandoned execution counted. -/
def Part.abandoned (p : Part) (now : Nat) : Part :=
  { p.chargeFreeze with
    holdNow := false, stall := 0, winStart := now, winEnd := some (now + p.budget)
    cycReexec := satAdd64 p.cycReexec ((p.cycProg : Int) - p.tileProg0 + p.thisCycle).toNat
    tileProg0 := p.cycProg + p.thisCycle, abandons := p.abandons + 1, atYield := false, abandonNow := true
    issuedCores := [], rested := false }

section
variable {s : State} {n : Nat} (src : Nat)

theorem abandonTile_idle (idle : (s.part n).run = none) : s.abandonTile n src = s := if_pos (by rw [idle]; rfl)

theorem abandonTile_runs (runs : (s.part n).run.isSome = true) : ∃ z, OnlyPipes s z ∧ s.abandonTile n src =
    ((z.setPart n ((s.part n).abandoned s.now)).life (s.part n).die.toNat fun l =>
      { l with abandons := satAdd64 l.abandons 1 }).event src 0x0202 (detail3 n (Config.causeCode 0x0202 src s.now).toNat 0) := by
  have unhalted : ¬(s.part n).run.isNone = true := by simp [Option.isSome_iff_ne_none.1 runs]
  exact ⟨_, ((filterDescs_pipes _ _ _).trans (updCores_pipes _ _ _)).trans (updCores_pipes _ _ _), if_neg unhalted⟩

end

/-- Settles O30. That the program cycle of the abandon itself counts among the re-executed ones is the model's choice (DEDUCED,
log 47). -/
theorem tilesAreAbandonedAndReexecuted : Obligations.TilesAreAbandonedAndReexecuted := by
  refine ⟨?idle, ?runs, ?core⟩
  case idle =>
    intro s pt src still
    refine congrArg Host.Outcome.next ?_
    split
    · next named => exact abandonTile_idle _ (still.resolve_right (by simp [named]))
    · rfl
  case runs =>
    intro s pt src n p runs named ok
    obtain ⟨z, only, abandons⟩ := abandonTile_runs src.toNat runs
    obtain ⟨-, -, parts, -⟩ := ok
    refine ⟨_, congrArg Host.Outcome.next ((if_pos named).trans abandons), ?_⟩
    rw [event_at_part, life_at_part, setPart_part_self z (only.parts ▸ parts)]
    obtain ⟨c, d, rfl⟩ := only
    refine ⟨rfl, rfl, rfl, rfl, rfl, rfl, rfl, ?_, _, rfl, rfl, rfl⟩
    show satAdd64 p.cycReexec ((p.cycProg : Int) - p.tileProg0 + p.thisCycle).toNat = _
    rw [Part.thisCycle, Nat.cast_ite]
    rfl
  case core =>
    intro q at' z
    rw [← flushRecv_commit, ← flushRecv_seq]
    exact ⟨rfl, rfl, rfl, rfl, rfl, rfl, rfl, rfl, rfl, rfl, fun runs => if_neg runs, fun halted => if_pos halted, rfl, rfl, rfl, rfl⟩

end Sys2Proof.Machine
end

section
namespace Sys2Proof.Machine
open Sys2Proof.Laws

/-! ## SRAM errors (O34)

An error that is found is counted first (`State.eccCounted`), which leaves every unit as it is; what it then does has one law for each
structure of R445 that acts by itself. -/

/-- The state with an uncorrectable error counted and logged, and nothing done to the place it stands in. -/
def State.eccCounted (s : State) (e : EccAt) : State :=
  (s.life ((s.eccUnit e).2 / 2048) fun l =>
    { l with eccUncorrectable := smapUpd 0 l.eccUncorrectable (s.eccUnit e).1 (satAdd64 · 1)
             poison := if eccPoisons e then satAdd64 l.poison 1 else l.poison }).event (s.eccUnit e).2 0x0302 (eccDetail e)

/-- A port whose packet `i` is poisoned. -/
def Port.poisonPacket (p : Port) (i : Nat) : Port :=
  { p with queue := p.queue.zipIdx.map fun e => if e.2 = i then { e.1 with poison := true } else e.1 }

theorem poisonPacket_queue (p : Port) (i j : Nat) : (p.poisonPacket i).queue[j]? =
    p.queue[j]?.map fun q => if j = i then { q with poison := true } else q := by
  simp [Port.poisonPacket, List.getElem?_zipIdx, Function.comp_def]

/-- An operation of the collective engine with every payload that it holds poisoned. -/
def CollRun.poisoned (u : CollRun) : CollRun :=
  { u with
    locals := u.locals.map fun m => { m with inp := { m.inp with poison := true } }
    shares := u.shares.map fun x => (x.1, x.2.1, { x.2.2 with poison := true })
    results := u.results.map fun r => { r with share := { r.share with poison := true } } }

/-- Operation `j` of group `g` is the one that an error poisons. -/
def CollRun.struck (u : CollRun) (g j : Word) : CollRun := if u.group = g ∧ u.idx = j.toNat then u.poisoned else u

theorem struck_poison {u : CollRun} {g j : Word} (group : (u.struck g j).group = g) (idx : (u.struck g j).idx = j.toNat)
    {m : CollMember} (member : m ∈ (u.struck g j).locals) : m.inp.poison = true := by
  unfold CollRun.struck at group idx member
  split at member
  · obtain ⟨_, -, rfl⟩ := List.mem_map.1 member
    rfl
  · next other =>
    rw [if_neg other] at group idx
    exact absurd ⟨group, idx⟩ other

section
variable {s : State} {e : EccAt}

theorem sramEccError_absent (absent : s.eccHere e = false) (u : Bool) : sramEccError e u s = s := by
  simp [sramEccError, absent]

variable (here : s.eccHere e = true)
include here

theorem sramEccError_corrected : sramEccError e false s =
    if (s.eccUnit e).1 = 4 then s
    else (s.life ((s.eccUnit e).2 / 2048) fun l =>
      { l with eccCorrected := smapUpd 0 l.eccCorrected (s.eccUnit e).1 (satAdd64 · 1) }).eventAgg (s.eccUnit e).2 0x0301 := by
  simp [sramEccError, here]

theorem sramEccError_uncorrectable : sramEccError e true s = (s.eccCounted e).eccEffect (s.eccUnit e).2 e := by
  simp [sramEccError, here, State.eccCounted]

end

section
variable {s : State} {src : Nat}

section
variable {pt : Pt} {c : LCore} {k : Nat} (core : s.phys pt.toNat c.toNat = some k)
include core

theorem eccEffect_bench (l : BitVec 16) : s.eccEffect src (.bench pt c l) =
    if ((s.core k).line l.toNat).st = .invalid then s
    else s.setCore k ((s.core k).setLine l.toNat { (s.core k).line l.toNat with poison := true }) := by
  simp only [State.eccEffect, core, updCore_eq]

theorem eccEffect_bank (a : ArrayNo) (b : BitVec 1) : s.eccEffect src (.bank pt c a b) = s.setCore k ((s.core k).setArray a.toNat
    (((s.core k).array a.toNat).setBank b.toNat { ((s.core k).array a.toNat).bank b.toNat with suspect := true })) := by
  simp only [State.eccEffect, core, updCore_eq]

theorem eccEffect_proofBuffer (v : BitVec 3) (row col : BitVec 7) : s.eccEffect src (.proofBuffer pt c v row col) =
    s.setCore k ((s.core k).setSlot v.toNat (((s.core k).slot v.toNat).markPsn row.toNat col.toNat)) := by
  simp only [State.eccEffect, core, updCore_eq]

end

theorem eccEffect_router_port (sorted : smapSorted s.fab.ports = true) (n : BitVec 6) (i : Nat) :
    (s.eccEffect src (.router n i)).port n.toNat = (s.port n.toNat).poisonPacket i := smapGet_set_self _ sorted _ _

theorem eccEffect_coll (g j : Word) : s.eccEffect src (.coll g j) =
    { s with fab := { s.fab with runs := s.fab.runs.map (·.struck g j) } } := rfl

theorem eccEffect_eventLog {q : BitVec 14} {n : Nat} {v : Event} (kept : smapFind s.log.ring q.toNat = some (n, v)) :
    s.eccEffect src (.eventLog q) =
      { s with log := { s.log with ring := smapInsert s.log.ring q.toNat (n, { v with corrupt := true }) } } := by
  simp only [State.eccEffect, kept]

end

/-- Settles O34. That a scrub changes nothing is the model's reading (DEDUCED, log 41). -/
theorem sramErrorsAreCountedAndContained : Obligations.SramErrorsAreCountedAndContained := by
  refine ⟨fun s => rfl, fun s e u absent => congrArg Host.Outcome.next (sramEccError_absent absent u), fun s e here => ?_⟩
  have corrected : exec (.sramEccError e false) s = _ := congrArg Host.Outcome.next (sramEccError_corrected here)
  have uncorrectable : exec (.sramEccError e true) s = _ := congrArg Host.Outcome.next (sramEccError_uncorrectable here)
  intro i src counted
  refine ⟨fun pipes => corrected.trans (congrArg Host.Outcome.next (if_pos pipes)),
    fun other => corrected.trans (congrArg Host.Outcome.next (if_neg other)), ?bench, ?dss, ?bank, ?proofBuffer, ?pipeline, ?router,
    ?coll, ?eventLog, ?regs, ?store⟩
  case bench =>
    rintro pt c l k rfl core
    exact uncorrectable.trans (congrArg Host.Outcome.next (eccEffect_bench (s := s.eccCounted _) core l))
  case dss =>
    rintro d l rfl
    exact uncorrectable
  case bank =>
    rintro pt c a b k rfl core
    exact uncorrectable.trans (congrArg Host.Outcome.next (eccEffect_bank (s := s.eccCounted _) core a b))
  case proofBuffer =>
    rintro pt c v row col k rfl core
    exact uncorrectable.trans (congrArg Host.Outcome.next (eccEffect_proofBuffer (s := s.eccCounted _) core v row col))
  case pipeline =>
    rintro pt c rfl
    exact uncorrectable
  case router =>
    rintro n j rfl
    refine ⟨_, uncorrectable, rfl, fun ok i q queued => ?_⟩
    obtain ⟨-, -, -, -, -, -, -, -, -, ports⟩ := ok
    rw [eccEffect_router_port (s := s.eccCounted _) ports, poisonPacket_queue, Option.map_eq_some_iff] at queued
    obtain ⟨q0, stood, rfl⟩ := queued
    exact ⟨q0, stood, rfl⟩
  case coll =>
    rintro g j rfl
    refine ⟨_, uncorrectable.trans (congrArg Host.Outcome.next (eccEffect_coll g j)), rfl, List.length_map _, ?_⟩
    intro u runs group idx m member
    obtain ⟨v, -, rfl⟩ := List.mem_map.1 runs
    exact struck_poison group idx member
  case eventLog =>
    rintro q n v rfl kept
    exact uncorrectable.trans (congrArg Host.Outcome.next (eccEffect_eventLog (s := s.eccCounted _) kept))
  case regs =>
    rintro pt c rfl
    exact uncorrectable
  case store =>
    rintro pt c w rfl
    exact uncorrectable

end Sys2Proof.Machine
end

section
namespace Sys2Proof.Machine
open Sys2Proof.Laws

/-! ## Tasting rounds and quarantine (O36)

A round's check has one law for each case. Four arrays of which no two agree are quarantined one after another; since they stand on
four dies, no later one touches an earlier one. A move of a bypass entry is an insertion into a rising list (`moveColumn_cols`). -/

/-! ### TASTING_ROUND_COMPLETE (R454) -/

theorem ledgerAppend_tele {s : State} {d : Nat} {type : Byte} {src : Nat} {payload : List Byte} :
    (s.ledgerAppend d type src payload).tele = s.tele := by
  obtain ⟨_, _, only⟩ := ledgerAppend_only s d type src payload
  rw [only]

theorem tasteRecord_tele (s : State) (round : Word) (decision : Nat) (xs : List TasteAt) :
    (s.tasteRecord round decision xs).tele = s.tele := by
  unfold State.tasteRecord
  split
  · rfl
  · exact ledgerAppend_tele

theorem toReferee_eq (s : State) (x y : TasteAt) : s.toReferee x y =
    let z := (s.tasteRecord (s.tasteAt x).round 1 [x, y]).event (srcNo x.die.toNat 0x210) 0x0601
      (detail3 (s.tasteAt x).round.toNat 0 0)
    { z with tele := { s.tele with tasteFail := satAdd32 s.tele.tasteFail 1 } } := by
  unfold State.toReferee
  dsimp only
  rw [event_tele, tasteRecord_tele]

section
variable {s : State} {x y z w : TasteAt} {vs : List (List Byte)}

theorem roundComplete_incomparable (incomparable : s.comparable [x, y] = false) : tastingRoundComplete (.pair x y) s = s := by
  simp [tastingRoundComplete, incomparable]

section
variable (comparable : s.comparable [x, y] = true)
include comparable

theorem roundComplete_passes (agree : (s.tasteAt x).agrees (s.tasteAt y) = true) : tastingRoundComplete (.pair x y) s =
    let z := (((s.nextRound x).nextRound y).tasteLife x true).tasteLife y true
    { z with tele := { z.tele with tastePass := satAdd32 z.tele.tastePass 1 } } := by
  simp [tastingRoundComplete, comparable, agree]

theorem roundComplete_refers (differ : (s.tasteAt x).agrees (s.tasteAt y) = false) :
    tastingRoundComplete (.pair x y) s = s.toReferee x y := by
  simp [tastingRoundComplete, comparable, differ]

end

theorem referee_convicts (comparable : s.comparable [x, y, z] = true) (differ : (s.tasteAt x).agrees (s.tasteAt y) = false)
    (decides : (s.tasteAt x).agrees (s.tasteAt z) = true ∨ (s.tasteAt y).agrees (s.tasteAt z) = true)
    (choice : s.choiceOk z [x, y] vs = true) : tastingRoundComplete (.referee x y z vs) s = s.convictAll z [x, y] vs := by
  have decides : ((s.tasteAt x).agrees (s.tasteAt z) || (s.tasteAt y).agrees (s.tasteAt z)) = true := by simpa using decides
  simp [tastingRoundComplete, comparable, differ, decides, choice]

theorem referee_idle (idle : s.comparable [x, y, z] = false ∨ (s.tasteAt x).agrees (s.tasteAt y) = true ∨
    (s.tasteAt x).agrees (s.tasteAt z) = false ∧ (s.tasteAt y).agrees (s.tasteAt z) = false) :
    tastingRoundComplete (.referee x y z vs) s = s := by
  refine if_pos ?_
  rcases idle with incomparable | agree | ⟨first, second⟩
  · simp [incomparable]
  · simp [agree]
  · simp [first, second]

section
variable (comparable : s.comparable [x, y, z, w] = true) (xy : (s.tasteAt x).agrees (s.tasteAt y) = false)
  (xz : (s.tasteAt x).agrees (s.tasteAt z) = false) (yz : (s.tasteAt y).agrees (s.tasteAt z) = false)
include comparable xy xz yz

theorem fourth_unresolved (alone : ∀ v ∈ [x, y, z], (s.tasteAt v).agrees (s.tasteAt w) = false) :
    tastingRoundComplete (.fourth x y z w vs) s = s.unresolved [x, y, z, w] := by
  have alone : ([x, y, z].any fun v => (s.tasteAt v).agrees (s.tasteAt w)) = false :=
    List.any_eq_false.2 fun v listed => by simp [alone v listed]
  simp only [tastingRoundComplete, comparable, xy, xz, yz, alone]
  rfl

theorem fourth_convicts (decides : ∃ v ∈ [x, y, z], (s.tasteAt v).agrees (s.tasteAt w) = true)
    (choice : s.choiceOk w [x, y, z] vs = true) :
    tastingRoundComplete (.fourth x y z w vs) s = s.convictAll w [x, y, z] vs := by
  have decides : ([x, y, z].any fun v => (s.tasteAt v).agrees (s.tasteAt w)) = true := List.any_eq_true.2 decides
  simp only [tastingRoundComplete, comparable, xy, xz, yz, decides, choice]
  rfl

end
end

/-! ### Four arrays of which no two agree (R454) -/

/-- An array fails a round that nothing decides: it is quarantined. -/
def State.quarantineArray (s : State) (x : TasteAt) : State :=
  ((s.tasteLife x false).nextRound x).updTaste x fun t => { t with quarantined := true }

theorem unresolved_eq (s : State) (xs : List TasteAt) : s.unresolved xs =
    let z := xs.foldl State.quarantineArray (s.tasteRecord ((xs.head?.map fun x => (s.tasteAt x).round).getD 0) 3 xs)
    { z with tele := { z.tele with tasteUnresolved := true } }.hwSet 0x050_0704 1 := rfl

theorem unresolved_tele (s : State) (xs : List TasteAt) : (s.unresolved xs).tele = { s.tele with tasteUnresolved := true } := by
  have kept := foldl_keeps (fun s t => t.tele = s.tele) (fun _ => rfl) (fun _ _ _ h g => g.trans h) State.quarantineArray
    (fun _ _ => rfl) xs (s.tasteRecord ((xs.head?.map fun x => (s.tasteAt x).round).getD 0) 3 xs)
  rw [tasteRecord_tele] at kept
  rw [unresolved_eq, hwSet_tele, ← kept]

section
variable {s : State} (ok : UnitsOk s)
include ok

theorem UnitsOk.quarantineArray {x : TasteAt} : UnitsOk (s.quarantineArray x) := ok.tasteLife.nextRound.updTaste

theorem updTaste_die {x : TasteAt} {f : TasteArr → TasteArr} {d : Nat} : (s.updTaste x f).die d =
    if d = x.die.toNat then
      { s.die d with taste := smapUpd .reset (s.die d).taste (4 * x.p.toNat + x.a.toNat) f } else s.die d := by
  obtain ⟨-, dies, -⟩ := ok
  split
  · next here =>
    subst here
    exact setDie_die_self s dies _ _
  · next away => exact setDie_die_other s dies _ _ away _

theorem quarantineArray_self {x : TasteAt} : ((s.quarantineArray x).tasteAt x).quarantined = true := by
  rw [State.quarantineArray, State.tasteAt, updTaste_die ok.tasteLife.nextRound, if_pos rfl]
  exact congrArg TasteArr.quarantined
    (smapGet_set_listed (fun reset => Bool.noConfusion (congrArg TasteArr.quarantined reset)) _ _)

theorem quarantineArray_other {x v : TasteAt} (away : v.die ≠ x.die) : (s.quarantineArray x).tasteAt v = s.tasteAt v := by
  have away : v.die.toNat ≠ x.die.toNat := fun same => away (BitVec.eq_of_toNat_eq same)
  simp only [State.quarantineArray, State.nextRound, State.tasteAt, updTaste_die ok.tasteLife.updTaste, updTaste_die ok.tasteLife,
    if_neg away]
  rfl

theorem quarantineArrays_other {xs : List TasteAt} {v : TasteAt} (away : ∀ x ∈ xs, v.die ≠ x.die) :
    (xs.foldl State.quarantineArray s).tasteAt v = s.tasteAt v := by
  induction xs generalizing s with
  | nil => rfl
  | cons x xs ih =>
    rw [List.forall_mem_cons] at away
    exact (ih ok.quarantineArray away.2).trans (quarantineArray_other ok away.1)

/-- Arrays of different dies are all quarantined. -/
theorem quarantineArrays_all {xs : List TasteAt} (apart : (xs.map fun x => x.die).Nodup) :
    ∀ v ∈ xs, ((xs.foldl State.quarantineArray s).tasteAt v).quarantined = true := by
  induction xs generalizing s with
  | nil => simp
  | cons x xs ih =>
    rw [List.map_cons, List.nodup_cons] at apart
    obtain ⟨alone, apart⟩ := apart
    refine List.forall_mem_cons.2 ⟨?_, ih ok.quarantineArray apart⟩
    rw [List.foldl_cons, quarantineArrays_other ok.quarantineArray fun v listed same => alone (List.mem_map.2 ⟨v, listed, same.symm⟩)]
    exact quarantineArray_self ok

theorem unresolved_quarantined {xs : List TasteAt} (comparable : s.comparable xs = true) :
    ∀ v ∈ xs, ((s.unresolved xs).tasteAt v).quarantined = true := by
  simp only [State.comparable, Bool.and_eq_true, decide_eq_true_eq] at comparable
  obtain ⟨⟨apart, -⟩, -⟩ := comparable
  exact quarantineArrays_all ok.tasteRecord apart

end

/-! ### The moves of a repair map (R130, R132) -/

/-- The four columns that a repair map bypasses. -/
def mapCols (w : Word) : List Nat := (List.range 4).map fun i => fieldOf w (8 * i) 8

/-- The columns of a map with `failed` in the place of `spare`, in the order of the map. -/
def movedCols (w : Word) (failed spare : Nat) : List Nat := (mapCols w).map fun c => if c = spare then failed else c

theorem repairMapOk_iff {w : Word} : repairMapOk w = true ↔ (mapCols w).Pairwise (· < ·) ∧ ∀ c ∈ mapCols w, c < 132 := by
  simp only [repairMapOk, mapCols, List.range, List.range.loop, List.map, Bool.and_eq_true, decide_eq_true_eq, List.pairwise_cons,
    List.forall_mem_cons, List.not_mem_nil, false_imp_iff, implies_true, List.Pairwise.nil, and_true]
  omega

theorem moveOk_iff {fixed : NatSet} {w : Word} {f v : Nat} : moveOk fixed w f v = true ↔
    v ∈ mapCols w ∧ 128 ≤ v ∧ v ∉ fixed ∧ f ∉ mapCols w ∧ f < 132 := by
  simp [moveOk, mapCols, and_assoc]

theorem mem_insertAll {xs m : List Nat} {c : Nat} : c ∈ xs.foldl natSetInsert m ↔ c ∈ xs ∨ c ∈ m := by
  induction xs generalizing m with
  | nil => simp
  | cons x xs ih =>
    rw [List.foldl_cons, ih, mem_natSetInsert, List.mem_cons]
    tauto

theorem insertAll_rises {xs m : List Nat} (rises : m.Pairwise (· < ·)) : (xs.foldl natSetInsert m).Pairwise (· < ·) := by
  induction xs generalizing m with
  | nil => exact rises
  | cons x xs ih => exact ih (natSetInsert_rises x rises)

/-- Numbers without repeats are as many in order. -/
theorem insertAll_length {xs : List Nat} (once : xs.Nodup) : (xs.foldl natSetInsert []).length = xs.length := by
  have rises : (xs.foldl natSetInsert []).Pairwise (· < ·) := insertAll_rises .nil
  exact ((List.perm_ext_iff_of_nodup (rises.imp Nat.ne_of_lt) once).2 fun c => by simp [mem_insertAll]).length_eq

/-- Fields that do not meet add up. -/
theorem or_shiftLeft {x k : Nat} (below : x < 2 ^ k) (y : Nat) : x ||| y <<< k = x + 2 ^ k * y := by
  rw [Nat.or_comm, ← Nat.shiftLeft_add_eq_or_of_lt below, Nat.shiftLeft_eq, Nat.mul_comm, Nat.add_comm]

section
variable {a b c d : Nat} (ha : a < 256) (hb : b < 256) (hc : c < 256) (hd : d < 256)
include ha hb hc hd

theorem packWord_toNat : (packWord [(a, 0), (b, 8), (c, 16), (d, 24)]).toNat = a + 2 ^ 8 * b + 2 ^ 16 * c + 2 ^ 24 * d := by
  have fits {x k : Nat} (byte : x < 256) (le : k ≤ 24) : (BitVec.ofNat 32 (x <<< k)).toNat = x <<< k := by
    have : 2 ^ k ≤ 2 ^ 24 := Nat.pow_le_pow_right (by decide) le
    rw [BitVec.toNat_ofNat, Nat.shiftLeft_eq]
    exact Nat.mod_eq_of_lt (by nlinarith)
  simp only [packWord, List.foldl_cons, List.foldl_nil, BitVec.toNat_or, fits ha (Nat.zero_le _), fits hb (by decide : 8 ≤ 24),
    fits hc (by decide : 16 ≤ 24), fits hd le_rfl]
  rw [show (0 : Word).toNat = 0 from rfl, Nat.zero_or, Nat.shiftLeft_zero, or_shiftLeft (k := 8) ha, or_shiftLeft (k := 16) (by omega),
    or_shiftLeft (k := 24) (by omega)]

/-- The columns packed into a map are those that it names. -/
theorem mapCols_pack : mapCols (packWord [(a, 0), (b, 8), (c, 16), (d, 24)]) = [a, b, c, d] := by
  have toNat := packWord_toNat ha hb hc hd
  generalize packWord [(a, 0), (b, 8), (c, 16), (d, 24)] = w at toNat ⊢
  simp only [mapCols, fieldOf, toNat, Nat.shiftRight_eq_div_pow, List.range, List.range.loop, List.map, List.cons.injEq, and_true]
  omega

end

theorem moveColumn_eq (w : Word) (f v : Nat) : moveColumn w f v =
    packWord (((movedCols w f v).foldl natSetInsert []).zipIdx.map fun (c, i) => (c, 8 * i)) := rfl

section
variable {w : Word} {f v : Nat}

theorem mem_movedCols (spare : v ∈ mapCols w) {c : Nat} : c ∈ movedCols w f v ↔ c = f ∨ c ∈ mapCols w ∧ c ≠ v := by
  rw [movedCols, List.mem_map]
  constructor
  · rintro ⟨x, listed, rfl⟩
    split
    · exact .inl rfl
    · next other => exact .inr ⟨listed, other⟩
  · rintro (rfl | ⟨listed, other⟩)
    · exact ⟨v, spare, if_pos rfl⟩
    · exact ⟨c, listed, if_neg other⟩

theorem movedCols_nodup (once : (mapCols w).Nodup) (fresh : f ∉ mapCols w) : (movedCols w f v).Nodup := by
  refine once.map_on fun x hx y hy same => ?_
  split at same
  · next first =>
    split at same
    · next second => exact first.trans second.symm
    · exact absurd (same ▸ hy) fresh
  · split at same
    · exact absurd (same ▸ hx) fresh
    · exact same

section
variable {fixed : NatSet} (map : repairMapOk w = true) (move : moveOk fixed w f v = true)
include map move

/-- A move names the columns of the map with the failed one inserted in the spare's place. -/
theorem moveColumn_cols : mapCols (moveColumn w f v) = (movedCols w f v).foldl natSetInsert [] := by
  obtain ⟨rises, below⟩ := repairMapOk_iff.1 map
  obtain ⟨spare, -, -, fresh, inside⟩ := moveOk_iff.1 move
  have length : ((movedCols w f v).foldl natSetInsert []).length = 4 :=
    insertAll_length (movedCols_nodup (rises.imp Nat.ne_of_lt) fresh)
  have small : ∀ c ∈ (movedCols w f v).foldl natSetInsert [], c < 256 := fun c listed => by
    rcases (mem_movedCols spare).1 ((mem_insertAll.1 listed).resolve_right List.not_mem_nil) with rfl | ⟨old, -⟩
    · omega
    · exact (below c old).trans (by decide)
  rw [moveColumn_eq]
  generalize (movedCols w f v).foldl natSetInsert [] = cols at length small ⊢
  match cols, length with
  | [a, b, c, d], _ =>
    simp only [List.forall_mem_cons] at small
    obtain ⟨ha, hb, hc, hd, -⟩ := small
    exact mapCols_pack ha hb hc hd

theorem mem_moveColumn {c : Nat} : c ∈ mapCols (moveColumn w f v) ↔ c = f ∨ c ∈ mapCols w ∧ c ≠ v := by
  obtain ⟨spare, -⟩ := moveOk_iff.1 move
  rw [moveColumn_cols map move, mem_insertAll, mem_movedCols spare]
  simp

theorem repairMapOk_moveColumn : repairMapOk (moveColumn w f v) = true := by
  obtain ⟨-, below⟩ := repairMapOk_iff.1 map
  obtain ⟨-, -, -, -, inside⟩ := moveOk_iff.1 move
  refine repairMapOk_iff.2 ⟨moveColumn_cols map move ▸ insertAll_rises .nil, fun c listed => ?_⟩
  rcases (mem_moveColumn map move).1 listed with rfl | ⟨old, -⟩
  · exact inside
  · exact below c old

end
end

/-! ### TASTING_PERIOD_END (R456) -/

/-- A die at the begin of a period: its arrays have completed no round in it. -/
def State.periodBegun (s : State) (d : Nat) : State :=
  s.setDie d { s.die d with
    taste := ((s.die d).taste.map fun e => (e.1, { e.2 with doneThisPeriod := false })).filter fun e => e.2 != TasteArr.reset }

/-- No array of a die has completed a round in this period. -/
def State.freshPeriod (s : State) (d : Nat) : Prop := ∀ e ∈ (s.die d).taste, e.2.doneThisPeriod = false

/-- The number of arrays that have completed no round in the period that ends. -/
def State.starved (s : State) : Nat :=
  ((List.range 4).flatMap fun d => (List.range (s.exposed d)).flatMap fun l => (List.range 4).filter fun a =>
    decide (s.mapCore d l < 26) && !(smapGet TasteArr.reset (s.die d).taste (4 * s.mapCore d l + a)).doneThisPeriod).length

theorem tastingPeriodEnd_eq (s : State) : tastingPeriodEnd s =
    let z := (List.range 4).foldl State.periodBegun s
    { z with tele := { z.tele with tasteStarved := min 255 s.starved } } := rfl

theorem periodsBegun_only (s : State) (ds : List Nat) : ∃ d, ds.foldl State.periodBegun s = { s with dies := d } :=
  foldl_keeps (fun s t => ∃ d, t = { s with dies := d }) (fun s => ⟨s.dies, rfl⟩)
    (fun _ _ _ ⟨_, h⟩ ⟨d, g⟩ => ⟨d, by rw [g, h]⟩) State.periodBegun (fun _ _ => ⟨_, rfl⟩) ds s

section
variable {s : State} (sorted : smapSorted s.dies = true) {d : Nat}
include sorted

theorem periodBegun_fresh : (s.periodBegun d).freshPeriod d := by
  intro e listed
  rw [State.periodBegun, setDie_die_self s sorted] at listed
  obtain ⟨_, -, rfl⟩ := List.mem_map.1 (List.mem_of_mem_filter listed)
  rfl

theorem periodsBegun_fresh {ds : List Nat} (fresh : d ∈ ds ∨ s.freshPeriod d) : (ds.foldl State.periodBegun s).freshPeriod d := by
  induction ds generalizing s with
  | nil => exact fresh.resolve_left List.not_mem_nil
  | cons i ds ih =>
    refine ih (smapSet_sorted _ sorted _ _) ?_
    by_cases here : d = i
    · subst here
      exact .inr (periodBegun_fresh sorted)
    · refine (fresh.imp_left fun listed => (List.mem_cons.1 listed).resolve_left here).imp_right fun fresh => ?_
      rwa [State.freshPeriod, State.periodBegun, setDie_die_other s sorted _ _ here]

end

/-! ### PARTITION_QUARANTINE and QUARANTINE_TESTS_DONE (R455, R596) -/

section
variable {s : State} {n : Nat}

theorem partitionQuarantine_busy (busy : s.entriesOn n ≠ [] ∨ (s.part n).quarantined = true) : partitionQuarantine n s = s :=
  if_pos (by simpa using busy)

section
variable (idle : s.entriesOn n = []) (outside : (s.part n).quarantined = false)
include idle outside

theorem partitionQuarantine_held (held : (s.part n).releasedNow = false) : partitionQuarantine n s =
    let z := s.setPart n { s.part n with quarantined := true }
    if (s.part n).inReset then z else z.startPartReset n := by
  simp [partitionQuarantine, idle, outside, held]

theorem partitionQuarantine_released (released : (s.part n).releasedNow = true) : partitionQuarantine n s =
    (s.setPart n { s.part n with quarantined := true, hold := true, inReset := true, refused := true }).hwSet
      (0x010_0000 + 0x1_0000 * n) 4 := by
  simp [partitionQuarantine, idle, outside, released]

end

theorem quarantineTestsDone_open (outside : (s.part n).quarantined = false) (c : Option LCore) : quarantineTestsDone n c s = s :=
  if_pos (by simp [outside])

/-- The TASTING record of the end of a quarantine, with its decision. -/
def State.quarantineRecord (s : State) (n : Nat) (decision : Byte) : State :=
  s.ledgerAppend (s.part n).die.toNat 0x05 (srcNo (s.part n).die.toNat 0x210) [0, 0, 0, 0, 0xFF, decision, BitVec.ofNat 8 n]

theorem quarantineRecord_part (decision : Byte) : (s.quarantineRecord n decision).part n = s.part n := by
  obtain ⟨_, _, only⟩ := ledgerAppend_only s (s.part n).die.toNat 0x05 (srcNo (s.part n).die.toNat 0x210)
    [0, 0, 0, 0, 0xFF, decision, BitVec.ofNat 8 n]
  rw [State.quarantineRecord, only]
  rfl

section
variable (quarantined : (s.part n).quarantined = true)
include quarantined

theorem quarantineTestsDone_passed : quarantineTestsDone n none s = (s.quarantineRecord n 4).setPart n { s.part n with
    quarantined := false
    inReset := (s.part n).hold || (s.part n).bad || (s.part n).outOfService || !(s.part n).en ||
      s.ladder.steps.any fun t => t.target == .part n } := by
  have released : quarantineTestsDone n none s = (s.quarantineRecord n 4).updPart n fun q =>
      if s.ladder.steps.any fun t => t.target == .part n then { q with quarantined := false, inReset := true }
      else ({ q with quarantined := false } : Part).leaveReset := by
    simp only [quarantineTestsDone, quarantined]
    rfl
  rw [released, updPart_eq, quarantineRecord_part]
  cases s.ladder.steps.any fun t => t.target == .part n
  · simp [Part.leaveReset]
  · simp

theorem quarantineTestsDone_convicts {c : LCore} {k : Nat} (core : s.phys n c.toNat = some k) : quarantineTestsDone n (some c) s =
    ((s.quarantineRecord n 5).event (srcCore k 0) 0x0602 (detail3 k 0 0)).coreFail (k / 26) (k % 26) := by
  simp only [quarantineTestsDone, quarantined, core]
  rfl

end
end

/-- Settles O36. That a fourth array which agrees with one convicts the rest is the model's choice (DEDUCED, log 25). -/
theorem tastingRoundsAndQuarantine : Obligations.TastingRoundsAndQuarantine := by
  refine ⟨?rounds, fun s z x xs vs => ⟨rfl, fun agree => if_pos agree, fun differ => if_neg (Bool.eq_false_iff.1 differ)⟩, ?convict,
    ?moves, ?period, ?quarantine⟩
  case rounds =>
    intro s x y t
    refine ⟨fun incomparable => congrArg Host.Outcome.next (roundComplete_incomparable incomparable),
      fun comparable agree => congrArg Host.Outcome.next (roundComplete_passes comparable agree),
      fun comparable differ => congrArg Host.Outcome.next
        ((roundComplete_refers comparable differ).trans (toReferee_eq s x y)),
      fun z vs comparable differ decides choice => congrArg Host.Outcome.next (referee_convicts comparable differ decides choice),
      fun z vs idle => congrArg Host.Outcome.next (referee_idle idle), fun z w vs comparable xy xz yz =>
        ⟨fun alone => ?_, fun decides choice => congrArg Host.Outcome.next (fourth_convicts comparable xy xz yz decides choice)⟩⟩
    exact ⟨_, congrArg Host.Outcome.next (fourth_unresolved comparable xy xz yz alone), unresolved_tele s _,
      fun ok => unresolved_quarantined ok comparable⟩
  case convict =>
    intro s x z vs cols s1
    refine ⟨fun few spares => if_pos ⟨few, spares⟩, fun beyond => if_neg ?_⟩
    rintro ⟨few, spares⟩
    rcases beyond with many | scarce
    · exact many few
    · exact absurd spares (Nat.not_le.2 scarce)
  case moves =>
    intro fixed w f v map move cols
    obtain ⟨-, high, free, -⟩ := moveOk_iff.1 move
    exact ⟨repairMapOk_moveColumn map move, free, high, fun c => mem_moveColumn map move⟩
  case period =>
    intro s
    refine ⟨_, congrArg Host.Outcome.next (tastingPeriodEnd_eq s), ?_⟩
    have fresh : UnitsOk s → ∀ d < 4, ((List.range 4).foldl State.periodBegun s).freshPeriod d := fun ok d inside =>
      have ⟨_, dies, _⟩ := ok
      periodsBegun_fresh dies (.inl (List.mem_range.2 inside))
    obtain ⟨d, only⟩ := periodsBegun_only s (List.range 4)
    rw [only] at fresh ⊢
    exact ⟨rfl, rfl, Nat.min_le_left _ _, fresh⟩
  case quarantine =>
    intro s pt p
    refine ⟨fun busy => congrArg Host.Outcome.next (partitionQuarantine_busy busy),
      fun idle outside held => congrArg Host.Outcome.next (partitionQuarantine_held idle outside held),
      fun idle outside released => congrArg Host.Outcome.next (partitionQuarantine_released idle outside released),
      fun outside c => congrArg Host.Outcome.next (quarantineTestsDone_open outside c), fun quarantined => ?_⟩
    exact ⟨⟨_, congrArg Host.Outcome.next (quarantineTestsDone_passed quarantined), rfl⟩,
      fun c k core => congrArg Host.Outcome.next (quarantineTestsDone_convicts quarantined core)⟩

end Sys2Proof.Machine
end

section
namespace Sys2Proof.Machine
open Sys2Proof.Laws

/-! ## Failed cores, the journal and rewind (O37)

Each command has one law for each of its cases. A core that fails is marked first, and what follows is read from the state so marked
(`State.markFailed`). -/

/-! ### CORE_FAIL (R464, R470, R476, R479) -/

/-- The state with a core marked failed. -/
def State.markFailed (s : State) (k : Nat) : State := s.updCore k fun q => { q with failed := true }

/-- Core `p` of die `d` is there and in service. -/
structure CoreSound (s : State) (d p : Nat) : Prop where
  inside : p < 26
  unfailed : (s.core (26 * d + p)).failed = false
  unretired : (s.core (26 * d + p)).retired = false
  fitted : s.fusedOff d p = false

section
variable {s : State} {d p : Nat}

theorem coreFail_idle (idle : (s.core (26 * d + p)).failed = true ∨ (s.core (26 * d + p)).retired = true ∨ 26 ≤ p ∨
    s.fusedOff d p = true) : coreFail d p s = s := by
  refine if_pos ?_
  rcases idle with failed | retired | beyond | fused
  · exact .inr (.inl failed)
  · exact .inr (.inr (.inl retired))
  · exact .inl beyond
  · exact .inr (.inr (.inr fused))

section
variable (sound : CoreSound s d p)
include sound

theorem CoreSound.passes : ¬(26 ≤ p ∨ (s.core (26 * d + p)).failed = true ∨ (s.core (26 * d + p)).retired = true ∨
    s.fusedOff d p = true) := by
  obtain ⟨inside, unfailed, unretired, fitted⟩ := sound
  simp [inside, unfailed, unretired, fitted]

variable {z : State} (marked : s.markFailed (26 * d + p) = z)
include marked

theorem coreFail_alone (alone : z.ptOfCore (26 * d + p) = none) : coreFail d p s =
    if (s.logicalOf d p).isNone = true ∧ (s.die d).sparesLeft ≠ 0 then z.retireCore d p true else z := by
  unfold State.markFailed at marked
  simp only [coreFail, State.coreFail, if_neg sound.passes, marked, alone]

variable {n : Nat} (member : z.ptOfCore (26 * d + p) = some n)
include member

theorem coreFail_last (last : z.spareCores d = []) : coreFail d p s = z.noSpare n d p := by
  unfold State.markFailed at marked
  simp only [coreFail, State.coreFail, if_neg sound.passes, marked, member, last, List.isEmpty_nil, if_true]

variable (spare : z.spareCores d ≠ [])
include spare

theorem coreFail_idlePart (idle : (z.part n).ctx = none) : coreFail d p s = z := by
  unfold State.markFailed at marked
  simp only [coreFail, State.coreFail, if_neg sound.passes, marked, member, List.isEmpty_iff, if_neg spare, idle]

theorem coreFail_stops {cn : Nat} (held : (z.part n).ctx = some cn) : coreFail d p s =
    if (z.ctx cn).rewindable = true then z.stopForRewind n else (z.killContext n fcPtReset true).withdraw n := by
  unfold State.markFailed at marked
  simp only [coreFail, State.coreFail, if_neg sound.passes, marked, member, List.isEmpty_iff, if_neg spare, held]

end
end

/-! ### JOURNAL_APPEND (R467, R468) -/

section
variable {s : State} {n cn : Nat} {e : JrnlEvent}

theorem journalAppend_none (none : (s.part n).ctx = none) (full : Bool) : journalAppend n e full s = s := by
  simp only [journalAppend, none]

section
variable (held : (s.part n).ctx = some cn)
include held

theorem journalAppend_closed (closed : (s.ctx cn).express = true ∨ (s.ctx cn).live = false ∨ (s.ctx cn).jrnlFull = true) (full : Bool) :
    journalAppend n e full s = s := by
  have closed : (s.ctx cn).express = true ∨ (!(s.ctx cn).live) = true ∨ (s.ctx cn).jrnlFull = true := by simpa using closed
  simp only [journalAppend, held, if_pos closed]

variable (bulk : (s.ctx cn).express = false) (live : (s.ctx cn).live = true) (room : (s.ctx cn).jrnlFull = false)
include bulk live room

theorem journalAppend_full : journalAppend n e true s = (s.setCtx cn { s.ctx cn with jrnlFull := true }).hwSet (rwdStatKey cn) 4 := by
  simp [journalAppend, held, bulk, live, room]

theorem journalAppend_appends {x : JrnlRec} (record : s.journalRec n e = some x) : journalAppend n e false s =
    let z := s.setCtx cn { s.ctx cn with journal := (s.ctx cn).journal ++ [x] }
    if (s.ctx cn).journal = [] then
      z.writeOpen ((s.ctx cn).rwd.toNat + 2 * ((s.part n).count.toNat * corePart)) ((s.ctx cn).jsize.toNat * mib) else z := by
  simp [journalAppend, held, bulk, live, room, record]

end
end

/-! ### REWIND (R470, R476, R479) -/

section
variable {s : State} {n : Nat} {tests : List Bool}

theorem rewind_inReset (inReset : (s.part n).inReset = true) : rewind n tests s = s := if_pos inReset

section
variable (out : (s.part n).inReset = false)
include out

theorem rewind_restores (sound : s.failedOf n = []) {cn : Nat} (held : (s.part n).ctx = some cn) (stopped : (s.ctx cn).stopped = true)
    {m : SMap SavedCore} (saved : (s.ctx cn).ckpt = some m) : rewind n tests s =
      ({ s with bs := { s.bs with run := s.bs.run.map fun (a : Admitted) =>
        if a.ctx = cn then (s.ctx cn).again a else a } }).restoreCtx n cn m := by
  simp [rewind, out, sound, held, stopped, saved]

variable {l q : Nat} {x : List (Nat × Nat)} (failed : s.failedOf n = (l, q) :: x)
include failed

theorem rewind_replaces {v : Nat} {vs : List Nat} (spares : s.spareCores (s.part n).die.toNat = v :: vs) (idle : (s.part n).ctx = none) :
    rewind n (true :: tests) s =
      (s.retireCore (s.part n).die.toNat q true).moveCore (s.part n).die.toNat l q v := by
  simp [rewind, out, failed, spares, idle, State.takeSpare]

theorem rewind_noSpare (none : s.spareCores (s.part n).die.toNat = []) : rewind n tests s = s.noSpare n (s.part n).die.toNat q := by
  simp [rewind, out, failed, none, State.takeSpare]

end
end

/-! ### REPLAY_END (R471) -/

/-- The records that a core of a context has still to replay. -/
def Ctx.replayOf (c : Ctx) (i : Nat) : List JrnlRec := c.replay.filter fun x => x.core == some i

/-- A record is a message. -/
def JrnlRec.isMsg : JrnlRec → Bool
  | .msg .. => true
  | _ => false

theorem isMsg_iff {x : JrnlRec} : x.isMsg = true ↔ ∃ i m, x = .msg i m := by
  cases x <;> simp [JrnlRec.isMsg]

section
variable {s : State} {r : CoreRef}

theorem replayEnd_live (live : r.c ∉ (s.part r.pt).replay) : replayEnd s r = s := if_pos (by simpa using live)

variable (replaying : r.c ∈ (s.part r.pt).replay)
include replaying

theorem replayEnd_idle (idle : (s.part r.pt).ctx = none) : replayEnd s r =
    s.setPart r.pt { s.part r.pt with replay := natSetErase (s.part r.pt).replay r.c } := by
  simp [replayEnd, replaying, idle]

variable {cn : Nat} (held : (s.part r.pt).ctx = some cn)
include held

theorem replayEnd_owes (owes : ∃ x ∈ (s.ctx cn).replayOf r.c, ∀ i m, x ≠ .msg i m) : replayEnd s r = s := by
  obtain ⟨x, listed, other⟩ := owes
  have beside : ((s.ctx cn).replayOf r.c).all JrnlRec.isMsg = false :=
    List.all_eq_false.2 ⟨x, listed, isMsg_iff.not.2 (by simpa using other)⟩
  simp only [replayEnd, held]
  refine (if_neg (by simpa using replaying)).trans (if_pos ?_)
  show (!((s.ctx cn).replayOf r.c).all JrnlRec.isMsg) = true
  rw [beside]
  rfl

theorem replayEnd_ends {ms : List Msg} (rest : (s.ctx cn).replayOf r.c = ms.map (.msg r.c)) : replayEnd s r =
    (((s.setCtx cn { s.ctx cn with replay := (s.ctx cn).replay.filter fun x => x.core != some r.c && x.core.isSome }).setCore r.k
      { s.core r.k with recvXq := (s.core r.k).recvXq ++ ms }).setPart r.pt
        { s.part r.pt with replay := natSetErase (s.part r.pt).replay r.c }) := by
  unfold Ctx.replayOf at rest
  simp [replayEnd, replaying, held, rest]

end

/-! ### CHECKPOINT (R466) -/

/-- A bench line once a checkpoint holds it in the copy `copy`. -/
def BenchLine.checkpointed (l : BenchLine) (copy : Bool) : BenchLine :=
  if copy then { l with dirty1 := false } else { l with dirty0 := false }

/-- A core whose lines a checkpoint holds. -/
def Core.checkpointed (q : Core) (copy : Bool) : Core :=
  { q with bench := (q.bench.map fun e => (e.1, e.2.checkpointed copy)).filter fun e => e.2 != .empty }

/-- A context at a checkpoint of its cores, between two of its kernels. -/
def Ctx.checkpointed (c : Ctx) (cores : SMap SavedCore) (now : Nat) : Ctx :=
  { c with
    ckpt := some cores, lastCopy := !c.lastCopy, jrnlFull := false, journal := [], ckptGtb := now, since := [], ckptRun := none }

section
variable {s : State} {n : Nat}

/-- A context replaced, cores changed and an open area written leave the rest of the state. -/
theorem updCores_writeOpen_only {cn : Nat} (sorted : smapSorted s.ctxs = true) (c : Ctx) (f : Core → Core) {base len : Nat} :
    let t := ((s.setCtx cn c).updCoresOf n f).writeOpen base len
    t = { s with cores := t.cores, ctxs := smapSet .reset s.ctxs cn c, mem := t.mem, free := s.free + 1 } ∧ t.ctx cn = c := by
  obtain ⟨_, only⟩ := updCoresOf_only (s.setCtx cn c) n f
  dsimp only
  rw [only]
  exact ⟨rfl, setCtx_ctx_self s sorted cn c⟩

theorem checkpoint_none (none : (s.part n).ctx = none) : s.checkpoint n = s := by simp only [State.checkpoint, none]

theorem checkpoint_takes {cn : Nat} (held : (s.part n).ctx = some cn) (bulk : (s.ctx cn).express = false)
    (live : (s.ctx cn).live = true) (runs : (s.ctx cn).stopped = false) (replayed : (s.part n).replay = [])
    (idle : (s.part n).run = none) (free : (s.bs.run.any fun a => a.deadline != 0 && (s.ctx a.ctx).pts.contains n) = false) :
    s.checkpoint n =
      ((s.setCtx cn ((s.ctx cn).checkpointed (s.snapshot n) s.now)).updCoresOf n (·.checkpointed (!(s.ctx cn).lastCopy))).writeOpen
        ((s.ctx cn).rwd.toNat + b2n (!(s.ctx cn).lastCopy) * ((s.part n).count.toNat * corePart))
        ((s.part n).count.toNat * corePart) := by
  simp only [State.checkpoint, held, idle]
  refine if_neg ?_
  rw [bulk, live, runs, replayed, free]
  simp

end

/-- Settles O37. That the journal's bytes and a checkpoint's stand in open areas (DESIGN CHOICE, log 9), and which context is rewound and
which goes to R479 (DEDUCED, log 43), are the model's choices. -/
theorem failedCoresAndRewind : Obligations.FailedCoresAndRewind := by
  refine ⟨?fail, ?journal, ?closed, ?rewind, ?replay, ?checkpoint⟩
  case fail =>
    intro s die p k s0
    refine ⟨fun idle => congrArg Host.Outcome.next (coreFail_idle idle),
      fun inside unfailed unretired fitted alone =>
        congrArg Host.Outcome.next (coreFail_alone ⟨inside, unfailed, unretired, fitted⟩ rfl alone),
      fun inside unfailed unretired fitted n member => ?_⟩
    have sound : CoreSound s die.toNat p.toNat := ⟨inside, unfailed, unretired, fitted⟩
    exact ⟨fun last => congrArg Host.Outcome.next (coreFail_last sound rfl member last),
      fun spare idle => congrArg Host.Outcome.next (coreFail_idlePart sound rfl member spare idle),
      fun cn spare held => congrArg Host.Outcome.next (coreFail_stops sound rfl member spare held)⟩
  case journal =>
    intro s pt e cn c held bulk live room
    refine ⟨congrArg Host.Outcome.next (journalAppend_full held bulk live room),
      fun x record begun => congrArg Host.Outcome.next ?_, fun x record empty => congrArg Host.Outcome.next ?_⟩
    · exact (journalAppend_appends held bulk live room record).trans (if_neg begun)
    · refine (journalAppend_appends held bulk live room record).trans ((if_pos empty).trans ?_)
      rw [empty]
      rfl
  case closed =>
    rintro s pt e full (none | ⟨cn, held, closed⟩)
    · exact congrArg Host.Outcome.next (journalAppend_none none full)
    · exact congrArg Host.Outcome.next (journalAppend_closed held closed full)
  case rewind =>
    intro s pt tests n d
    refine ⟨fun l q v vs x out failed spares idle => congrArg Host.Outcome.next (rewind_replaces out failed spares idle),
      fun inReset => congrArg Host.Outcome.next (rewind_inReset inReset),
      fun cn m out sound held stopped saved => congrArg Host.Outcome.next (rewind_restores out sound held stopped saved),
      fun out failed none => ?_⟩
    obtain ⟨⟨l, q⟩, x, failed⟩ := List.exists_cons_of_ne_nil failed
    exact ⟨l, q, by rw [failed]; rfl, congrArg Host.Outcome.next (rewind_noSpare out failed none)⟩
  case replay =>
    intro s pt c k core p
    have runs : exec (.replayEnd pt c) s = .next (replayEnd s ⟨pt.toNat, c.toNat, k⟩) := onCore_some _ core
    refine ⟨fun live => runs.trans (congrArg Host.Outcome.next (replayEnd_live live)),
      fun replaying idle => runs.trans (congrArg Host.Outcome.next (replayEnd_idle replaying idle)), fun cn replaying held => ?_⟩
    intro mine
    exact ⟨fun owes => runs.trans (congrArg Host.Outcome.next (replayEnd_owes replaying held owes)),
      fun ms rest => runs.trans (congrArg Host.Outcome.next (replayEnd_ends replaying held rest))⟩
  case checkpoint =>
    intro s pt n p
    refine ⟨fun none => congrArg Host.Outcome.next (checkpoint_none none),
      fun cn held bulk live runs replayed idle free ok => ?_⟩
    obtain ⟨-, -, -, ctxs, -⟩ := ok
    obtain ⟨only, taken⟩ := updCores_writeOpen_only ctxs ((s.ctx cn).checkpointed (s.snapshot n) s.now)
      (·.checkpointed (!(s.ctx cn).lastCopy)) (base := (s.ctx cn).rwd.toNat + b2n (!(s.ctx cn).lastCopy) * (p.count.toNat * corePart))
      (len := p.count.toNat * corePart) (n := n)
    refine ⟨_, congrArg Host.Outcome.next (checkpoint_takes held bulk live runs replayed idle free), ?_⟩
    rw [taken]
    exact ⟨only, rfl, rfl, rfl, rfl, rfl⟩

end Sys2Proof.Machine
end

section
namespace Sys2Proof.Machine
open Sys2Proof.Laws
variable {s : State}

/-! ## What accesses, wake events and alerts do

The commands of the ladder, of dumps, of power, of security and of the logs share these: a command that is an access to a register, the
wake event (R524) and ALERT_N (R604). -/

/-- An access that arrives has its effect. -/
theorem HostReaches.takes {off : Nat} (h : HostReaches s off) (f : State → State) : s.hostReg off f = f s := by
  obtain ⟨link, served⟩ := h
  exact hostReg_served f link served

/-- A wake event starts the exit (R524): the module sleeps, and it may leave W5 where it is there. -/
def State.wakes (s : State) : Prop := s.power.st ≠ .w0 ∧ s.power.alwaysOn = true ∧ (s.power.st = .w5 → s.mayLeaveW5 = true)

theorem wake_starts (h : s.wakes) :
    s.wake = { s with power := { s.power with exiting := true, target := .w0 }, host := { s.host with l0p := false } } := by
  obtain ⟨asleep, on, leaves⟩ := h
  exact if_neg (by simpa [asleep, on] using leaves)

theorem wake_idle (h : ¬s.wakes) : s.wake = s := by
  refine if_pos ?_
  by_contra awake
  simp only [not_or, not_and, Bool.not_eq_true', Bool.not_eq_false] at awake
  exact h awake

theorem wake_only (s : State) : ∃ p h, s.wake = { s with power := p, host := h } := by
  unfold State.wake
  split
  · exact ⟨s.power, s.host, rfl⟩
  · exact ⟨_, _, rfl⟩

/-- ALERT_N asserted, which changes nothing of power but WAKE_N. -/
theorem alert_wakeN (s : State) : ∃ h w o a,
    s.alert = { s with host := h, power := { s.power with wakeN := w }, out := o, alertN := a } := by
  unfold State.alert
  split
  · obtain ⟨h, w, o, sent⟩ := sendMsix_wake s 0 s.host.evtVec.toNat
    exact ⟨h, w, o, s.alertN, sent⟩
  · obtain ⟨h, w, o, sent⟩ := sendMsix_wake (({ s with alertN := true }.emit (.pin "ALERT_N" true)).emit (.ibi 2)) 0
      s.host.evtVec.toNat
    exact ⟨h, w, o, true, sent⟩

theorem settleAlert_wakeN (s : State) : ∃ h w o a,
    s.settleAlert = { s with host := h, power := { s.power with wakeN := w }, out := o, alertN := a } := by
  unfold State.settleAlert
  split
  · split
    · exact ⟨s.host, s.power.wakeN, s.out, s.alertN, rfl⟩
    · exact alert_wakeN s
  · split
    · exact ⟨s.host, s.power.wakeN, _, false, rfl⟩
    · exact ⟨s.host, s.power.wakeN, s.out, s.alertN, rfl⟩

end Sys2Proof.Machine
end

section
namespace Sys2Proof.Machine
open Sys2Proof.Laws

/-! ## The queue and the fused identity (O60) -/

/-- SVN_COMMIT where it burns fuses (R558, R559). -/
theorem svnCommit_burns {s : State} (on : s.power.alwaysOn = true) (runs : s.sec.boot = 1) (above : s.fuse.svn < s.sec.svnTarget) :
    svnCommit s = { s with fuse := { s.fuse with svn := min 64 s.sec.svnTarget, revoked := s.fuse.revoked ||| s.sec.revokeTarget } } :=
  if_neg (by simp [on, runs, above])

/-- SVN_COMMIT of a target that is not above the fused SVN. -/
theorem svnCommit_held {s : State} (low : s.sec.svnTarget ≤ s.fuse.svn) : svnCommit s = s := if_pos (.inr (.inr low))

/-- What the fuses `b` keep of the fuses `a` that they were: all but the SVN and the revoked root slots, of which neither goes back, the
SVN not beyond its 64 fuses (R558, R559). -/
structure FusesKept (a b : Fuse) : Prop where
  identity : b = { a with svn := b.svn, revoked := b.revoked }
  rises : a.svn ≤ b.svn
  most : b.svn ≤ 64
  revoked : ∀ k, a.revoked.getLsbD k = true → b.revoked.getLsbD k = true

/-- A higher SVN within its fuses and more revoked slots keep what the fuses kept. -/
theorem FusesKept.burn {a b : Fuse} (h : FusesKept a b) {n : Nat} {r : BitVec 4} (above : b.svn ≤ n) (most : n ≤ 64) :
    FusesKept a { b with svn := n, revoked := b.revoked ||| r } where
  identity := by rw [h.identity]
  rises := h.rises.trans above
  most := most
  revoked k was := by simp [h.revoked k was]

theorem FusesKept.svnCommit {a : Fuse} {s : State} (h : FusesKept a s.fuse) : FusesKept a (svnCommit s).fuse := by
  unfold Machine.svnCommit
  split
  · exact h
  · next goes =>
    have above : s.fuse.svn < s.sec.svnTarget := not_le.1 fun low => goes (.inr (.inr low))
    exact h.burn (le_min h.most above.le) (min_le_left _ _)

/-- SVN_COMMIT changes nothing but fuses. -/
theorem svnCommit_only (s : State) : ∃ f, svnCommit s = { s with fuse := f } := by
  unfold svnCommit
  split
  · exact ⟨_, rfl⟩
  · exact ⟨_, rfl⟩

theorem OtpGrows.trans {a b c : Otp} (h : OtpGrows a b) (g : OtpGrows b c) : OtpGrows a c := by
  obtain ⟨positions, groups, retire⟩ := h
  obtain ⟨positions', groups', retire'⟩ := g
  exact ⟨fun k was => positions' k (positions k was), fun k was => groups' k (groups k was), fun was => retire' (retire was)⟩

/-- The property that the queue is that of `s₀`, and that the fuses and the OTP still hold what they held there. -/
def fusedInv (s₀ : State) : Inv where
  holds s := s.pending = s₀.pending ∧ FusesKept s₀.fuse s.fuse ∧ OtpGrows s₀.ledger.otp s.ledger.otp
  same _ pending fuse otp h := by rwa [pending, fuse, otp]
  mem _ h := h
  otp grows h := by
    obtain ⟨queue, fuses, grown⟩ := h
    exact ⟨queue, fuses, grown.trans grows⟩
  svn {s} h := by
    obtain ⟨queue, fuses, grown⟩ := h
    have fuses := fuses.svnCommit
    obtain ⟨f, only⟩ := svnCommit_only s
    rw [only] at fuses ⊢
    exact ⟨queue, fuses, grown⟩

/-- Settles O60: of the four kinds of change that a command is made of (`Inv`), only SVN_COMMIT and an addition to the OTP touch what
is fused, and neither takes anything back. -/
theorem commandsKeepTheQueueAndTheFusedIdentity : Obligations.CommandsKeepTheQueueAndTheFusedIdentity := by
  intro i s t most ht
  have now : Kept (fusedInv s) s := ⟨rfl, ⟨rfl, le_rfl, most, fun _ => id⟩, fun _ => id, fun _ => id, id⟩
  have kept : OutKept (fusedInv s) (exec i s) := .exec now
  rw [ht] at kept
  obtain ⟨queue, fuses, positions, groups, retire⟩ := kept
  exact ⟨queue, fuses.identity, fuses.rises, fuses.most, fuses.revoked, positions, groups, retire⟩

/-! ## The step of the front command and the state after reset (O1, O57) -/

/-- Settles O1: a step that finds a command in the queue is that command's `exec`. -/
theorem stepRunsFrontCommand : Obligations.StepRunsFrontCommand := by
  intro s c rest
  rfl

/-- After reset no numbered unit is listed. -/
theorem unitsOk_reset : UnitsOk State.reset := ⟨rfl, rfl, rfl, rfl, rfl, rfl, rfl, rfl, rfl, rfl⟩

/-- Settles O57: each register is read in the one state after reset. Which moment that state is, with the main rails off and the link
down, is the model's choice (DESIGN CHOICE, log 1). -/
theorem resetLeavesTheStatedValues : Obligations.ResetLeavesTheStatedValues := by
  unfold Obligations.ResetLeavesTheStatedValues
  intro s field
  refine ⟨?hangPeriod, ?engPeriod, ?ceil, ?ramp, ?vinMin, ?floorMhz, ?genTimeout, ?ckptPeriod, ?tasteEn, ?binUs, ?cplTo, ?ltrValue, ?sweep,
    ?scratch, rfl, rfl, rfl, rfl, rfl, rfl, rfl, rfl, fun _ => rfl, rfl, rfl, mem_reset_wf, unitsOk_reset⟩
  all_goals decide

end Sys2Proof.Machine
end

section
namespace Sys2Proof.Machine
open Sys2Proof.Laws
variable {s : State}

/-! ## The reset ladder (O39) -/

/-! ### Steps (R487, R488, R492) -/

/-- A step that begins stands last, after the running ones that it does not cover. -/
theorem beginStep_steps (s : State) (u : LadderUnit) :
    (s.beginStep u).ladder.steps = s.ladder.steps.filter (fun t => !s.covers u t.target) ++ [⟨u, s.now⟩] := by
  obtain ⟨_, _, woken⟩ := wake_only
    { s with ladder := { s.ladder with steps := s.ladder.steps.filter (fun t => !s.covers u t.target) ++ [⟨u, s.now⟩] } }
  simp only [State.beginStep, woken]
  rfl

section
variable {i : Nat}

theorem ladderStepComplete_none (none : s.ladder.steps.length ≤ i) : ladderStepComplete i s = s := by
  simp only [ladderStepComplete, List.getElem?_eq_none none]

theorem ladderStepTimeout_none (none : s.ladder.steps.length ≤ i) : ladderStepTimeout i s = s := by
  simp only [ladderStepTimeout, List.getElem?_eq_none none]

variable {t : LadderStep} (runs : s.ladder.steps[i]? = some t)
include runs

theorem ladderStepComplete_ends : ladderStepComplete i s = ((s.dropStep i).stepDone t.target).ladderEvent t.target 1 := by
  simp only [ladderStepComplete, runs]

theorem ladderStepTimeout_early (early : s.now < t.start + t.target.limit) : ladderStepTimeout i s = s := by
  simp only [ladderStepTimeout, runs, if_pos early]

theorem ladderStepTimeout_escalates (late : t.start + t.target.limit ≤ s.now) :
    let z := (s.dropStep i).ladderEvent t.target 2
    ladderStepTimeout i s = ({ z with ladder := { z.ladder with escalated := true } }.hwSet 0x003_0004 0x10).escalate t.target := by
  simp only [ladderStepTimeout, runs, if_neg (Nat.not_lt.2 late)]

end

/-! ### CONTEXT_ABORT (R487 to R489, R494) -/

section
variable {cn : Nat}

/-- A context that is no suspect is aborted on every partition that it is on. -/
theorem contextAbort_innocent (innocent : ∀ x ∈ s.ladder.suspects, x.ctx ≠ cn) : contextAbort cn s =
    ((s.residentPts cn).foldl (fun z n => z.abortPart n (srcNo (z.part n).die.toNat 0)) s).beginStep (.ctx cn) := by
  have unlisted : s.ladder.suspects.find? (fun x => x.ctx == cn) = none :=
    List.find?_eq_none.2 fun x listed => by simpa using innocent x listed
  simp only [contextAbort, unlisted]

theorem contextAbort_suspect {x : Suspect} (listed : s.ladder.suspects.find? (fun x => x.ctx == cn) = some x) :
    contextAbort cn s = (s.abortSuspect x).beginStep (.ctx cn) := by
  simp only [contextAbort, listed]

end

/-! ### POWER_CYCLE (R500) -/

theorem powerCycle_idle (h : s.power.pwrEn = true ∨ s.ladder.pwrReq = false) : powerCycle s = s :=
  if_pos (by simpa using h)

theorem powerCycle_cycles (low : s.power.pwrEn = false) (asked : s.ladder.pwrReq = true) :
    powerCycle s = s.flushMaps.cutReform.powerCycled.emit (.pin "PWR_CYCLE_REQ_N" false) :=
  if_neg (by simp [low, asked])

/-! ### The clauses of O39 -/

/-- Settles O39: a partition reset, by either row, is one test of the running steps, and each other row has a law for each of its cases.
A reset that acts at once, before its step completes, is the model's choice (DEDUCED, log 43). -/
theorem ladderStepsResetUnits : Obligations.LadderStepsResetUnits := by
  refine ⟨fun s ctx innocent => congrArg Host.Outcome.next (contextAbort_innocent innocent),
    fun s ctx x listed => congrArg Host.Outcome.next (contextAbort_suspect listed), fun s e => rfl,
    ?part, ?upper, beginStep_steps, ?steps,
    rfl, rfl, rfl, rfl⟩
  case part =>
    intro s pt covered
    exact ⟨rfl, fun reaches => congrArg Host.Outcome.next (reaches.takes _)⟩
  case upper =>
    exact fun s => ⟨rfl, fun reaches => ⟨congrArg Host.Outcome.next (reaches.takes _), congrArg Host.Outcome.next (reaches.takes _)⟩,
      fun idle => congrArg Host.Outcome.next (powerCycle_idle idle),
      fun low asked => congrArg Host.Outcome.next (powerCycle_cycles low asked)⟩
  case steps =>
    intro s idx
    refine ⟨fun none => ⟨congrArg Host.Outcome.next (ladderStepComplete_none none),
      congrArg Host.Outcome.next (ladderStepTimeout_none none)⟩, fun t runs => ?_⟩
    exact ⟨congrArg Host.Outcome.next (ladderStepComplete_ends runs),
      fun early => congrArg Host.Outcome.next (ladderStepTimeout_early runs early),
      fun late => congrArg Host.Outcome.next (ladderStepTimeout_escalates runs late)⟩

end Sys2Proof.Machine
end

section
namespace Sys2Proof.Machine
open Sys2Proof.Laws
variable {s : State}

/-! ## Crash dumps (O42) -/

/-! ### The start of a dump (R501, R504, R524) -/

section
variable {tr : Nat} {scope : DumpScope} (idle : s.ladder.dump = none)
include idle

theorem startDump_skips (held : s.ladder.full = true) (keeps : s.ladder.overwrite = false) :
    s.startDump tr scope = { s with ladder := { s.ladder with skipped := min 255 (s.ladder.skipped + 1) } } := by
  simp [State.startDump, idle, held, keeps]

theorem startDump_begins (free : s.ladder.full = false ∨ s.ladder.overwrite = true) : s.startDump tr scope =
    { s with ladder := { s.ladder with dump := some ⟨tr, scope, s.now, [], s.memDieDead, s.ladder.sram⟩ } }.wake := by
  have taken : ¬(s.ladder.full && !s.ladder.overwrite) = true := by
    rcases free with none | again
    · simp [none]
    · simp [again]
  simp only [State.startDump, idle, Option.isSome_none, Bool.false_eq_true, if_false, if_neg taken]

end

theorem dumpStart_manual {pt : Option Pt} {cycle : Bool} (manual : s.ladder.auto = false) : dumpStart pt cycle s = s :=
  if_pos (by simp [manual])

theorem dumpStart_auto {pt : Option Pt} {cycle : Bool} (auto : s.ladder.auto = true) : dumpStart pt cycle s =
    match pt with
    | some n => s.startDump 1 (.part n)
    | none => s.startDump (if cycle then 3 else 2) .module := if_neg (by simp [auto])

theorem dumpGo_scope {u : DumpScope} (scope : s.ladder.dumpScope = some u) : dumpGo s = s.startDump 0 u := by
  simp only [dumpGo, scope]

theorem dumpGo_noScope (scope : s.ladder.dumpScope = none) : dumpGo s = s := by simp only [dumpGo, scope]

/-! ### Holes (R502, R503) -/

section
variable {src : Nat}

theorem dumpUnitTimeout_idle (idle : s.ladder.dump = none) : dumpUnitTimeout src s = s := by simp only [dumpUnitTimeout, idle]

/-- One unit of the scope that has not answered is one hole more. -/
theorem dumpUnitTimeout_hole {r : DumpRun} (runs : s.ladder.dump = some r) (unit : src % 2048 ≠ 0)
    (listed : (dieUnits (src / 2048)).contains (src % 2048) = true) (inside : s.inScope r.scope src = true) (new : src ∉ r.holes) :
    dumpUnitTimeout src s = { s with ladder := { s.ladder with dump := some { r with holes := r.holes ++ [src] } } } := by
  simp only [dumpUnitTimeout, runs, if_neg unit, listed, if_true, decide_eq_false unit, Bool.false_and, Bool.or_false]
  simp [inside, new]

end

/-! ### What stands in the dump SRAM (R505) -/

/-- A run of bytes put into a sparse memory. -/
def putBytesAt (m : SMap Byte) (e : Nat × List Byte) : SMap Byte :=
  e.2.zipIdx.foldl (fun m b => smapInsert m (e.1 + b.2) b.1) m

theorem smapFind_putBytesFrom (bs : List Byte) (m : SMap Byte) (a n i : Nat) :
    smapFind ((bs.zipIdx n).foldl (fun m b => smapInsert m (a + b.2) b.1) m) i =
      if a + n ≤ i ∧ i < a + n + bs.length then bs[i - (a + n)]? else smapFind m i := by
  induction bs generalizing m n with
  | nil => simp
  | cons b bs ih =>
    rw [List.zipIdx_cons, List.foldl_cons, ih, smapFind_insert, List.length_cons]
    rcases lt_trichotomy i (a + n) with below | rfl | above
    · rw [if_neg (by omega), if_neg (by omega), if_neg (by omega)]
    · rw [if_neg (by omega), if_pos rfl, if_pos (by omega), Nat.sub_self]
      rfl
    · have next : i - (a + n) = (i - (a + (n + 1))) + 1 := by omega
      by_cases inside : i < a + n + (bs.length + 1)
      · rw [if_pos (by omega), if_pos (by omega), next, List.getElem?_cons_succ]
      · rw [if_neg (by omega), if_neg (by omega), if_neg (by omega)]

theorem smapFind_putBytesAt (m : SMap Byte) (e : Nat × List Byte) (i : Nat) :
    smapFind (putBytesAt m e) i = if e.1 ≤ i ∧ i < e.1 + e.2.length then e.2[i - e.1]? else smapFind m i :=
  smapFind_putBytesFrom e.2 m e.1 0 i

/-- Runs that begin above a place leave it as it is. -/
theorem smapFind_putPieces_below {ps : List (Nat × List Byte)} {i : Nat} (above : ∀ e ∈ ps, i < e.1) (m : SMap Byte) :
    smapFind (ps.foldl putBytesAt m) i = smapFind m i := by
  induction ps generalizing m with
  | nil => rfl
  | cons e ps ih =>
    rw [List.foldl_cons, ih fun x later => above x (List.mem_cons_of_mem _ later), smapFind_putBytesAt,
      if_neg fun inside => absurd (above e List.mem_cons_self) (Nat.not_lt.2 inside.1)]

/-- Of runs that are put in turn, the first is read where the later ones begin above it. -/
theorem smapFind_putPieces_first {e : Nat × List Byte} {ps : List (Nat × List Byte)} {i : Nat} (inside : i < e.2.length)
    (above : ∀ x ∈ ps, e.1 + i < x.1) (m : SMap Byte) : smapFind ((e :: ps).foldl putBytesAt m) (e.1 + i) = some e.2[i] := by
  rw [List.foldl_cons, smapFind_putPieces_below above, smapFind_putBytesAt, if_pos (by omega), Nat.add_sub_cancel_left,
    List.getElem?_eq_getElem inside]

theorem header_length (r : DumpRun) (now records bytes : Nat) : (r.header now records bytes).length = 64 := by
  simp [DumpRun.header, natBytes_length]

theorem dumpHead_length (x : DumpRec) : (dumpHead x).length = 16 := by simp [dumpHead, natBytes_length]

/-- No piece of a list of records begins before the list. -/
theorem dumpPieces_from {o : Nat} {xs : List DumpRec} {e : Nat × List Byte} (h : e ∈ dumpPieces o xs) : o ≤ e.1 := by
  induction xs generalizing o with
  | nil => exact nomatch h
  | cons x xs ih =>
    rcases List.mem_cons.1 h with rfl | h
    · exact le_rfl
    · rcases List.mem_cons.1 h with rfl | h
      · exact (Nat.le_add_right o 16).trans (Nat.le_add_right _ _)
      · exact (Nat.le_add_right _ _).trans (ih h)

/-- After the header of a first record the pieces that follow it begin. -/
theorem dumpPieces_tail {o : Nat} {x : DumpRec} {ys : List DumpRec} {e : Nat × List Byte}
    (h : e ∈ (o + 16 + x.len.toNat, List.replicate (dumpSize x - 16 - x.len.toNat) 0) :: dumpPieces (o + dumpSize x) ys) :
    o + 16 ≤ e.1 := by
  rcases List.mem_cons.1 h with rfl | h
  · exact Nat.le_add_right _ _
  · have least : 16 ≤ dumpSize x := Nat.le_add_right 16 _
    have := dumpPieces_from h
    omega

/-! ### The end of a dump (R503, R505, R540) -/

/-- The ladder once a dump that ended holds its destination; `bs` is what stands in the dump SRAM, and `seed` the seed of its open bytes. -/
def Ladder.dumped (l : Ladder) (toSram cut : Bool) (bs : SMap Byte) (seed : Option Nat) : Ladder :=
  { l with dump := none, full := true, inSram := toSram, truncated := cut, sramBytes := bs, sramSeed := seed }

/-- The pieces of a dump: its header, and what is known of its records. -/
def State.dumpPieces (s : State) (r : DumpRun) (xs : List DumpRec) (bytes : Nat) : List (Nat × List Byte) :=
  (0, r.header s.now xs.length bytes) :: Machine.dumpPieces 64 xs

theorem copyDump_only (s : State) (bytes : Nat) : ∃ o, s.copyDump bytes = { s with out := o } := by
  unfold State.copyDump
  split
  · exact ⟨s.out, rfl⟩
  · exact foldl_keeps (fun a b => ∃ o, b = { a with out := o }) (fun a => ⟨a.out, rfl⟩)
      (fun _ _ _ ⟨_, h⟩ ⟨o, g⟩ => ⟨o, by rw [g, h]⟩) _ (fun a r => ⟨_, rfl⟩) _ s

theorem memPuts_only (ps : List (Nat × List Byte)) (s : State) :
    OnlyMemory s (ps.foldl (fun z e => z.memPut (z.mem.dumpBase + e.1) e.2) s) :=
  foldl_keeps OnlyMemory (fun s => ⟨s.mem, s.log, s.ledger, rfl⟩)
    (fun _ _ _ ⟨_, _, _, h⟩ ⟨m, l, c, g⟩ => ⟨m, l, c, by rw [g, h]⟩) _
    (fun s e => let ⟨l, c, only⟩ := memWrite_only s (s.mem.dumpBase + e.1) (e.2.map some) false; ⟨_, l, c, only⟩) _ s

theorem dumpEnd_idle {xs : List DumpRec} (idle : s.ladder.dump = none) : dumpEnd xs s = s := by simp only [dumpEnd, idle]

section
variable {r : DumpRun} {xs : List DumpRec} (runs : s.ladder.dump = some r)
include runs

theorem dumpEnd_refused (h : s.recordsOk r xs = false ∨ r.room < 64 + (xs.map dumpSize).sum) : dumpEnd xs s = s := by
  simp only [dumpEnd, runs]
  refine if_pos ?_
  rcases h with other | large
  · exact .inl (by simp [other])
  · exact .inr (.inl large)

variable (ok : s.recordsOk r xs = true) {bytes : Nat} (size : 64 + (xs.map dumpSize).sum = bytes) (fits : bytes ≤ r.room) {cut : Bool}
  (part : (xs.any fun x => x.status == 2) = cut)
  (whole : cut = false ∨ r.began + s.ladder.limit.toNat * 1000000 ≤ s.now ∨ r.room < bytes + 16)
include ok size fits part whole

theorem dumpEnd_ends :
    let z := s.storeDump r xs bytes
    let y := { z with ladder := { z.ladder with dump := none, full := true, inSram := r.toSram, truncated := cut } }
    dumpEnd xs s = (if r.toSram then y.copyDump bytes else y).hwSet 0x003_0104 2 := by
  subst size part
  simp only [dumpEnd, runs]
  refine if_neg ?_
  rintro (other | large | ⟨cut, early, room⟩)
  · simp [ok] at other
  · exact absurd fits (Nat.not_le.2 large)
  · rcases whole with full | late | tight
    · exact absurd cut (ne_true_of_eq_false full)
    · exact absurd late (Nat.not_le.2 early)
    · exact absurd room (Nat.not_le.2 tight)

/-- A dump that ends in the dump SRAM changes the ladder, and sends what the copy to the host takes. -/
theorem dumpEnd_sram (sram : r.toSram = true) : ∃ o y, dumpEnd xs s =
    { s with free := s.free + 1, out := o, sets := y
             ladder := s.ladder.dumped true cut ((s.dumpPieces r xs bytes).foldl putBytesAt []) (some s.free) } ∧
    (s.ladder.dumpHost = 0 → o = s.out) := by
  have ends := dumpEnd_ends runs ok size fits part whole
  have stored : s.storeDump r xs bytes = { s with
      free := s.free + 1
      ladder := { s.ladder with sramSeed := some s.free, sramBytes := (s.dumpPieces r xs bytes).foldl putBytesAt [] } } := if_pos sram
  rw [stored, sram] at ends
  dsimp only at ends
  rw [ends, if_pos rfl]
  by_cases kept : s.ladder.dumpHost = 0
  · exact ⟨s.out, _, congrArg (State.hwSet · 0x003_0104 2) (if_pos (.inl kept)), fun _ => rfl⟩
  · obtain ⟨o, only⟩ := copyDump_only { s with
      free := s.free + 1
      ladder := s.ladder.dumped true cut ((s.dumpPieces r xs bytes).foldl putBytesAt []) (some s.free) } bytes
    exact ⟨o, _, congrArg (State.hwSet · 0x003_0104 2) only, fun none => absurd none kept⟩

/-- A dump that ends in memory changes memory, with what a write of it logs and counts, and the ladder. -/
theorem dumpEnd_memory (memory : r.toSram = false) : ∃ m l c y, dumpEnd xs s =
    { s with free := s.free + 1, mem := m, log := l, ledger := c, sets := y
             ladder := s.ladder.dumped false cut s.ladder.sramBytes s.ladder.sramSeed } := by
  have ends := dumpEnd_ends runs ok size fits part whole
  obtain ⟨m, l, c, only⟩ := memPuts_only (s.dumpPieces r xs bytes)
    { s with free := s.free + 1, mem := s.mem.openArea s.mem.dumpBase bytes s.free }
  have stored : s.storeDump r xs bytes = { s with free := s.free + 1, mem := m, log := l, ledger := c } := by
    simp only [← only, State.storeDump, memory, Bool.false_eq_true, if_false, State.dumpPieces]
  rw [stored, memory] at ends
  exact ⟨m, l, c, _, ends⟩

end

/-- A byte of the dump SRAM that a piece of the dump gives. -/
theorem sramByte_dumped {l : Ladder} {toSram cut : Bool} {bs : SMap Byte} {seed : Option Nat} {a : Nat} {b : Byte}
    (found : smapFind bs a = some b) : (l.dumped toSram cut bs seed).sramByte a = b := by
  simp [Ladder.sramByte, Ladder.dumped, found]

section
variable {r : DumpRun} {xs : List DumpRec} {bytes i : Nat}

/-- The header of R505 stands first. -/
theorem dumpPieces_header (inside : i < 64) : smapFind ((s.dumpPieces r xs bytes).foldl putBytesAt []) i =
    some ((r.header s.now xs.length bytes).getD i 0) := by
  have short : i < (r.header s.now xs.length bytes).length := by rwa [header_length]
  have first := smapFind_putPieces_first (e := (0, r.header s.now xs.length bytes)) (ps := Machine.dumpPieces 64 xs) short
    (fun x later => by have := dumpPieces_from later; omega) []
  rwa [Nat.zero_add, ← List.getD_eq_getElem _ 0 short] at first

/-- After it the header of the first record stands. -/
theorem dumpPieces_firstHead {x : DumpRec} {ys : List DumpRec} (inside : i < 16) :
    smapFind ((s.dumpPieces r (x :: ys) bytes).foldl putBytesAt []) (64 + i) = some ((dumpHead x).getD i 0) := by
  have short : i < (dumpHead x).length := by rwa [dumpHead_length]
  rw [List.getD_eq_getElem _ _ short, State.dumpPieces, List.foldl_cons]
  exact smapFind_putPieces_first (e := (64, dumpHead x)) short (fun x later => by have := dumpPieces_tail later; omega) _

end

/-! ### The clauses of O42 -/

/-- Settles O42. Which records end a dump, that others change nothing, and that a cut dump ends only at its limit or where its
destination is full are the model's choice (DEDUCED, log 39). -/
theorem crashDumpsAreTakenAndRead : Obligations.CrashDumpsAreTakenAndRead := by
  refine ⟨fun s scope tr idle => ⟨startDump_skips idle, startDump_begins idle⟩, fun s pt cycle => ?auto, fun s reaches => ?go,
    fun s src => ?hole, fun s xs idle => congrArg Host.Outcome.next (dumpEnd_idle idle), fun s xs r runs => ?ends,
    fun s on => congrArg Host.Outcome.next (if_pos on), fun r now records bytes => ⟨header_length r now records bytes, rfl⟩⟩
  case auto =>
    exact ⟨fun manual => congrArg Host.Outcome.next (dumpStart_manual manual),
      fun auto => congrArg Host.Outcome.next (dumpStart_auto auto), fun n auto => congrArg Host.Outcome.next (dumpStart_auto auto)⟩
  case go =>
    exact ⟨fun u scope => congrArg Host.Outcome.next ((reaches.takes _).trans (dumpGo_scope scope)),
      fun scope => congrArg Host.Outcome.next ((reaches.takes _).trans (dumpGo_noScope scope))⟩
  case hole =>
    exact ⟨fun idle => congrArg Host.Outcome.next (dumpUnitTimeout_idle idle), fun r runs unit listed inside new =>
      congrArg Host.Outcome.next (dumpUnitTimeout_hole runs unit listed inside new)⟩
  case ends =>
    intro bytes cut
    refine ⟨fun refused => congrArg Host.Outcome.next (dumpEnd_refused runs refused), fun ok fits whole => ?_⟩
    refine ⟨_, rfl, ?_⟩
    cases sram : r.toSram with
    | true =>
      obtain ⟨o, y, ended, kept⟩ := dumpEnd_sram runs ok rfl fits rfl whole sram
      rw [ended]
      refine ⟨rfl, rfl, rfl, rfl, rfl, rfl, fun _ none => by rw [kept none], fun _ => ⟨fun i inside =>
        sramByte_dumped (dumpPieces_header inside), fun x ys first i inside => ?_⟩⟩
      subst first
      exact sramByte_dumped (dumpPieces_firstHead inside)
    | false =>
      obtain ⟨m, l, c, y, ended⟩ := dumpEnd_memory runs ok rfl fits rfl whole sram
      rw [ended]
      exact ⟨rfl, rfl, rfl, rfl, rfl, rfl, (nomatch ·), (nomatch ·)⟩

end Sys2Proof.Machine
end

section
namespace Sys2Proof.Machine
open Sys2Proof.Laws
variable {s : State}

/-! ## Wake states (O46) -/

/-! ### A change of state and its LTR message (R521, R546) -/

/-- The state with a W-state taken and no exit under way. -/
def State.inW (s : State) (w : WState) : State :=
  { s with power := { s.power with st := w, target := w, exiting := false } }

theorem setW_same {w : WState} (same : s.power.st = w) : s.setW w = s.inW w := by
  subst same
  exact if_pos rfl

theorem setW_down {w : WState} (down : s.host.gen = 0) : s.setW w = s.inW w := by
  by_cases same : s.power.st = w
  · exact setW_same same
  · exact (if_neg same).trans (if_pos down)

theorem code_le_one_iff (w : WState) : w.code ≤ 1 ↔ w = .w0 ∨ w = .w1 := by cases w <;> decide

theorem below_w5 {w : WState} (other : w ≠ .w5) : w.code < WState.code .w5 := by revert other; cases w <;> decide

theorem above_w0 {w : WState} (other : w ≠ .w0) : WState.code .w1 ≤ w.code := by revert other; cases w <;> decide

theorem setW_up {w : WState} (up : s.host.gen ≠ 0) (other : s.power.st ≠ w) : s.setW w =
    (s.inW w).emit (.ltr (if w = .w0 ∨ w = .w1 then some (s.host.ltrValue.toNat, s.host.ltrScale.toNat) else none)) := by
  rw [← if_congr (code_le_one_iff w) rfl rfl]
  exact (if_neg other).trans (if_neg up)

/-- A W-state is taken whether or not the host hears of it. -/
theorem setW_only (s : State) (w : WState) : ∃ o, s.setW w = { s.inW w with out := o } := by
  by_cases down : s.host.gen = 0
  · exact ⟨s.out, setW_down down⟩
  · by_cases same : s.power.st = w
    · exact ⟨s.out, setW_same same⟩
    · exact ⟨_, setW_up down same⟩

/-! ### Entry (R522, R528) -/

theorem wStateEnter_idle (h : s.power.idleFrom = none ∨ s.power.exiting = true ∨ s.idle = false) : wStateEnter s = s := by
  unfold wStateEnter
  split
  · rfl
  · next t from' =>
    split
    · rfl
    · have busy : s.power.exiting = true ∨ s.idle = false := h.resolve_left (by simp [from'])
      exact if_pos (busy.imp_right fun works => .inl (by simp [works]))

section
variable {t : Nat} (from' : s.power.idleFrom = some t)
include from'

theorem wStateEnter_none (none : s.power.deepest (s.now - t) = none) : wStateEnter s = s := by
  simp only [wStateEnter, from', none]

variable {w : WState} (deepest : s.power.deepest (s.now - t) = some w)
include deepest

/-- A state that is not deeper than the present one is not entered. -/
theorem wStateEnter_shallow (shallow : w.code ≤ s.power.st.code) : wStateEnter s = s := by
  simp only [wStateEnter, from', deepest]
  exact if_pos (.inr (.inr shallow))

variable (stays : s.power.exiting = false) (idle : s.idle = true) (deeper : s.power.st.code < w.code)
include stays idle deeper

/-- A deeper state is entered through every shallower one. -/
theorem wStateEnter_deeper : wStateEnter s =
    if w = .w5 then s.enterW5
    else
      let z := if s.power.st.code ≤ 1 ∧ w = .w2 then s.updAllCores Core.gated else s
      (if s.power.st.code ≤ 2 ∧ 3 ≤ w.code then z.enterW3 else z).setW w := by
  have enters : ¬(s.power.exiting = true ∨ (!s.idle) = true ∨ w.code ≤ s.power.st.code) := by
    simpa [stays, idle] using deeper
  simp only [wStateEnter, from', deepest, if_neg enters]

end

/-! ### The way back (R524, R525, R528) -/

theorem wStateExitDone_stays (stays : s.power.exiting = false) : wStateExitDone s = s := if_pos (by simp [stays])

theorem wStateExitDone_exits (exits : s.power.exiting = true) : wStateExitDone s =
    match s.power.st with
    | .w5 => if s.power.rails && s.mayLeaveW5 then (s.leaveW5.setW .w0).enableScanner else s
    | .w4 | .w3 => s.leaveW3.setW .w0
    | _ => s.setW .w0 := if_neg (by simp [exits])

theorem pwrWakeTolWrite_on {v : Word} (on : s.power.alwaysOn = true) : pwrWakeTolWrite v s =
    let z := { s with power := { s.power with wakeTol := v } }
    if v.toNat < s.power.st.latency then z.wake else z := if_neg (by simp [on])

/-- What a W-state asks for before it is entered (R521, R522). -/
theorem allows_iff (p : Power) (idle : Nat) (w : WState) : p.allows idle w = true ↔ w.dwell ≤ idle ∧ w.latency ≤ p.wakeTol.toNat ∧
    (w = .w3 ∨ w = .w4 → p.w3Save ≠ 0) ∧ (w = .w5 → p.allowW5 = true) := by
  cases w <;> simp [Power.allows, and_assoc]

/-! ### The clauses of O46 -/

/-- Settles O46. That the deepest state is entered at once, what W1 and W2 gate, and what the exit from W5 resets and when, are the
model's choice (DEDUCED, log 31). -/
theorem wakeStatesAreEnteredAndLeft : Obligations.WakeStatesAreEnteredAndLeft := by
  refine ⟨fun s => ⟨fun idle => congrArg Host.Outcome.next (wStateEnter_idle idle), ?enter,
    fun stays => congrArg Host.Outcome.next (wStateExitDone_stays stays), fun w down => setW_down down,
    fun w up other => setW_up up other, ?exit⟩, ?wake, allows_iff, rfl⟩
  case enter =>
    intro t from' stays idle
    have enters {w : WState} {z : State} (deepest : s.power.deepest (s.now - t) = some w) (below : s.power.st.code < w.code)
        (through : _ = z) : exec .wStateEnter s = .next z :=
      congrArg Host.Outcome.next ((wStateEnter_deeper from' deepest stays idle below).trans through)
    refine ⟨fun deepest awake => enters deepest ?_ rfl, fun deepest st => ?_, fun deepest st => ?_, fun w deep deepest st => ?_,
      fun deepest st => ?_, fun deepest awake => congrArg Host.Outcome.next (wStateEnter_shallow from' deepest ?_),
      fun none => congrArg Host.Outcome.next (wStateEnter_none from' none)⟩
    · exact below_w5 awake
    · exact enters deepest (by simp [st, WState.code]) (by simp [st, WState.code])
    · rcases st with st | st
      · exact enters deepest (by simp [st, WState.code]) (by simp [st, WState.code])
      · exact enters deepest (by simp [st, WState.code]) (by simp [st, WState.code])
    · have shallow : s.power.st.code ≤ 2 := by rcases st with st | st | st <;> simp [st, WState.code]
      obtain ⟨far, notW2, notW5⟩ : 3 ≤ w.code ∧ w ≠ .w2 ∧ w ≠ .w5 := by rcases deep with rfl | rfl <;> decide
      exact enters deepest (Nat.lt_of_le_of_lt shallow far) (by simp [shallow, far, notW2, notW5])
    · exact enters deepest (by simp [st, WState.code]) (by simp [st, WState.code])
    · exact above_w0 awake
  case exit =>
    intro exits
    refine ⟨fun st => ?_, fun st => ?_, fun st rails leaves => ?_⟩
    all_goals refine congrArg Host.Outcome.next ((wStateExitDone_exits exits).trans ?_)
    · rcases st with st | st <;> rw [st]
    · rcases st with st | st <;> rw [st]
    · rw [st, rails, leaves]
      rfl
  case wake =>
    intro s woken wakes
    refine ⟨fun h => ⟨congrArg Host.Outcome.next (wake_starts h),
        fun reaches => congrArg Host.Outcome.next ((reaches.takes _).trans (wake_starts h))⟩,
      fun h => ⟨congrArg Host.Outcome.next (wake_idle h),
        fun reaches => congrArg Host.Outcome.next ((reaches.takes _).trans (wake_idle h))⟩, fun v reaches on => ?_⟩
    have written := (reaches.takes fun s => pwrWakeTolWrite v s).trans (pwrWakeTolWrite_on on)
    exact ⟨fun tolerated => congrArg Host.Outcome.next (written.trans (if_neg (Nat.not_lt.2 tolerated))),
      fun below => congrArg Host.Outcome.next (written.trans (if_pos below))⟩

end Sys2Proof.Machine
end

section
namespace Sys2Proof.Machine
open Sys2Proof.Laws
variable {s : State}

/-! ## The link to the host (O47) -/

/-! ### PERST_N, training and the link (R531, R545, R546, R548, R549) -/

theorem failReads_none (none : s.host.reads = []) (e : AerErr) : s.failReads e = s := by
  unfold State.failReads
  rw [none]
  rfl

theorem perstAssert_held (held : s.host.perst = true) : perstAssert s = s := if_pos held

theorem perstAssert_asserts (released : s.host.perst = false) : perstAssert s =
    let z := s.failReads .cplTimeout
    { z with host := { z.host.controllerReset with perst := true } } := if_neg (ne_true_of_eq_false released)

theorem perstDeassert_idle (released : s.host.perst = false) : perstDeassert s = s := if_pos (by simp [released])

theorem perstDeassert_releases (held : s.host.perst = true) :
    perstDeassert s = { s with host := { s.host with perst := false }, bs := { s.bs with paused := true } } := if_neg (by simp [held])

theorem pcieTrainRetry_enough {lanes : Nat} (enough : 4 ≤ lanes) : pcieTrainRetry lanes s = s := if_pos (.inr (.inr enough))

theorem pcieTrainRetry_logs {lanes : Nat} (live : s.portLive = true) (down : s.host.gen = 0) (few : lanes < 4) :
    pcieTrainRetry lanes s = s.event (srcHub 0x040) 0x0505 (detail3 lanes 0 0) := if_neg (by simp [live, down, few])

section
variable {gen : BitVec 3} {width : BitVec 5} {flit : Bool}

theorem pcieLinkUp_refused (h : s.portLive = false ∨ linkModeOk gen width flit = false) : pcieLinkUp gen width flit s = s :=
  if_pos (by simpa using h)

theorem pcieLinkUp_takes (live : s.portLive = true) (ok : linkModeOk gen width flit = true) : pcieLinkUp gen width flit s =
    { s with host := { s.host with gen := gen, width := width, flit := flit, l0p := false, trained := true } } :=
  if_neg (by simp [live, ok])

end

theorem pcieLinkDown_idle (down : s.host.gen = 0) : pcieLinkDown s = s := if_pos down

theorem pcieLinkDown_loses (up : s.host.gen ≠ 0) : pcieLinkDown s =
    let z := s.failReads .surpriseDown
    { z with host := { z.host with
      gen := 0, width := 0, flit := false, l0p := false, aer := z.host.aer ++ [(0, .surpriseDown)] } } := if_neg up

theorem pcieReplay_idle (down : s.host.gen = 0) : pcieReplay s = s := if_pos down

theorem pcieReplay_counts (up : s.host.gen ≠ 0) : pcieReplay s = { s with host :=
    { s.host with replayCnt := satAdd32 s.host.replayCnt 1, aer := s.host.aer ++ [(0, .replay)] } } := if_neg up

theorem l0pRequest_eq (b : Bool) : l0pRequest b s = if s.linkUp then { s with host := { s.host with l0p := b } } else s := by
  unfold l0pRequest
  cases s.linkUp <;> rfl

/-! ### Function level resets (R536) -/

theorem pfFlr_down (down : s.linkUp = false) : pfFlr s = s := if_pos (by simp [down])

theorem pfFlr_resets (up : s.linkUp = true) : pfFlr s = { s with
    host := { s.host with vfEnable := false, fns := [], bar2Log := 11, vfBar2Log := 0, maxPayload := 0, relaxed := true, doe := false }
    bs := { s.bs with paused := true } } := if_neg (by simp [up])

theorem vfFlr_down {vf : Nat} (h : s.host.vfEnable = false ∨ s.linkUp = false) : vfFlr vf s = s :=
  if_pos (by simpa using h.symm)

theorem vfFlr_resets {vf : Nat} (up : s.linkUp = true) (enabled : s.host.vfEnable = true) :
    vfFlr vf s = partitionReset vf (s.setFn (vf + 1) .reset) := if_neg (by simp [up, enabled])

/-! ### Configuration writes (R534, R537, R549, R608) -/

theorem pcieConfigWrite_refused {n : Nat} {c : CfgWrite} (h : s.linkUp = false ∨ s.fnHere n = false) : pcieConfigWrite n c s = s :=
  if_pos (by simpa using h)

/-- WAKE_N that is not asserted is not released. -/
theorem releaseWake_quiet (quiet : s.power.wakeN = false) : s.releaseWake = s := if_neg (by simp [quiet])

theorem releaseWake_releases (asserted : s.power.wakeN = true) (bme : (s.fn 0).bme = true) (awake : (s.fn 0).d3hot = false) :
    s.releaseWake = { s with power := { s.power with wakeN := false } }.emit (.pin "WAKE_N" false) :=
  if_pos (by simp [asserted, bme, awake])

theorem resumeHost_held (held : (s.fn 0).bme = false) : s.resumeHost = s := if_pos (by simp [held])

theorem resumeHost_resumes (bme : (s.fn 0).bme = true) : s.resumeHost =
    { s with bs := { s.bs with paused := false }, parts := s.parts.map fun e => (e.1, { e.2 with perstHold := false }) } :=
  if_neg (by simp [bme])

theorem setFn_fn_self (sorted : smapSorted s.host.fns = true) (n : Nat) (f : PcieFn) : (s.setFn n f).fn n = f :=
  smapGet_set_self _ sorted _ _

section
variable {n : Nat} (up : s.linkUp = true) (here : s.fnHere n = true)
include up here

theorem pcieConfigWrite_served (c : CfgWrite) : pcieConfigWrite n c s =
    match c with
    | .bme b =>
      let z := s.setFn n { s.fn n with bme := b }
      if n = 0 then z.resumeHost.releaseWake else z
    | .mse b => s.setFn n { s.fn n with mse := b }
    | .msixEnable b => s.setFn n { s.fn n with msixEn := b }
    | .d3hot b => (s.setFn n { s.fn n with d3hot := b }).releaseWake
    | .vfEnable b =>
      if n ≠ 0 then s
      else { s with host := { s.host with vfEnable := b, fns := if b then s.host.fns else s.host.fns.filter fun e => e.1 == 0 } }
    | .barSize b => if n = 0 ∧ b.toNat ≤ 11 then { s with host := { s.host with bar2Log := b } } else s
    | .maxPayload b => if n = 0 ∧ b.toNat ≤ 2 then { s with host := { s.host with maxPayload := b } } else s
    | .relaxed b => if n = 0 then { s with host := { s.host with relaxed := b } } else s
    | .vfBarSize b => if n = 0 ∧ b.toNat ≤ 8 then { s with host := { s.host with vfBar2Log := b } } else s := by
  cases c <;> exact if_neg (by simp [up, here])

end

/-- The host's work resumes where the PF's Bus Master Enable is set (R549). -/
def State.resumed (s : State) : State :=
  { s with bs := { s.bs with paused := false }, parts := s.parts.map fun e => (e.1, { e.2 with perstHold := false }) }

section
variable (up : s.linkUp = true) (sorted : smapSorted s.host.fns = true)
include up

theorem pfConfigWrite_bme (b : Bool) : pcieConfigWrite 0 (.bme b) s = (s.setFn 0 { s.fn 0 with bme := b }).resumeHost.releaseWake := by
  rw [pcieConfigWrite_served up rfl]
  rfl

include sorted

theorem pfConfigWrite_bme_on : pcieConfigWrite 0 (.bme true) s = (s.setFn 0 { s.fn 0 with bme := true }).resumed.releaseWake := by
  rw [pfConfigWrite_bme up, resumeHost_resumes (by rw [setFn_fn_self sorted])]
  rfl

theorem pfConfigWrite_bme_off (quiet : s.power.wakeN = false) :
    pcieConfigWrite 0 (.bme false) s = s.setFn 0 { s.fn 0 with bme := false } := by
  rw [pfConfigWrite_bme up, resumeHost_held (by rw [setFn_fn_self sorted])]
  exact releaseWake_quiet quiet

end

/-! ### The clauses of O47 -/

/-- Settles O47. The payload size and relaxed ordering after a function level reset (PRESUMED) and configuration that stays over a loss of
the link (DEDUCED) are the model's choice (log 35). -/
theorem hostLinkComesAndGoes : Obligations.HostLinkComesAndGoes := by
  refine ⟨?pins, ?train, ?link, fun s b => congrArg Host.Outcome.next (l0pRequest_eq b), ?config,
    fun s vf up enabled => congrArg Host.Outcome.next (vfFlr_resets up enabled),
    fun s vf dead => congrArg Host.Outcome.next (vfFlr_down dead)⟩
  case pins =>
    exact fun s => ⟨fun held => congrArg Host.Outcome.next (perstAssert_held held),
      fun released => congrArg Host.Outcome.next (perstAssert_asserts released), failReads_none,
      ⟨rfl, rfl, rfl, rfl, rfl, rfl, rfl, rfl, rfl, rfl, rfl, rfl⟩,
      fun released => congrArg Host.Outcome.next (perstDeassert_idle released),
      fun held => congrArg Host.Outcome.next (perstDeassert_releases held),
      fun down => ⟨congrArg Host.Outcome.next (pcieLinkDown_idle down), congrArg Host.Outcome.next (pcieReplay_idle down)⟩,
      fun up => congrArg Host.Outcome.next (pcieLinkDown_loses up), fun up => congrArg Host.Outcome.next (pcieReplay_counts up),
      fun up => congrArg Host.Outcome.next (pfFlr_resets up), fun down => congrArg Host.Outcome.next (pfFlr_down down)⟩
  case train =>
    exact fun s lanes => ⟨fun live down few => congrArg Host.Outcome.next (pcieTrainRetry_logs live down few),
      fun enough => congrArg Host.Outcome.next (pcieTrainRetry_enough enough)⟩
  case link =>
    exact fun s gen width flit => ⟨fun live ok => congrArg Host.Outcome.next (pcieLinkUp_takes live ok),
      fun refused => congrArg Host.Outcome.next (pcieLinkUp_refused refused)⟩
  case config =>
    intro s fn c n f
    refine ⟨fun refused => congrArg Host.Outcome.next (pcieConfigWrite_refused refused), fun up here => ?_⟩
    have served (c : CfgWrite) := congrArg (Host.Outcome.next (φ := Fault) (ρ := Refusal)) (pcieConfigWrite_served up here c)
    have pf (first : n = 0) (b : Bool) : exec (.pcieConfigWrite fn (.bme b)) s = .next (pcieConfigWrite 0 (.bme b) s) := by
      rw [← first]
      rfl
    refine ⟨fun b => served _, fun b => served _, fun b quiet => (served _).trans (congrArg Host.Outcome.next (releaseWake_quiet quiet)),
      fun b vf => (served _).trans (congrArg Host.Outcome.next (if_neg vf)), fun first ok quiet => ?on, fun first ok quiet => ?off,
      fun first asserted awake ok => ?wakeN, fun b first => (served _).trans (congrArg Host.Outcome.next (if_neg (not_not.2 first))),
      fun b => served _, fun b => served _, fun b => served _, fun b => served _⟩
    all_goals
      obtain ⟨_, _, _, _, _, _, _, _, fns, _⟩ := ok
      have here0 : f = s.fn 0 := congrArg s.fn first
      rw [pf first]
    case on =>
      rw [pfConfigWrite_bme_on up fns, here0]
      exact congrArg Host.Outcome.next (releaseWake_quiet quiet)
    case off => rw [pfConfigWrite_bme_off up fns quiet, here0]
    case wakeN =>
      have after : (s.setFn 0 { s.fn 0 with bme := true }).resumed.fn 0 = { s.fn 0 with bme := true } := setFn_fn_self fns _ _
      rw [here0] at awake
      have released := releaseWake_releases (s := (s.setFn 0 { s.fn 0 with bme := true }).resumed) asserted (by rw [after])
        (by rw [after]; exact awake)
      rw [pfConfigWrite_bme_on up fns, released]
      exact ⟨_, rfl, rfl, rfl, congrArg PcieFn.bme after, rfl⟩

end Sys2Proof.Machine
end

section
namespace Sys2Proof.Machine
open Sys2Proof.Laws
variable {s : State}

/-! ## Power up, power down and the lasers (O44) -/

/-! ### What a flush of maps and a cut reform change (R131, R368) -/

/-- Only the Crust registers, memory, and what a MAP record logs and appends can differ. -/
def OnlyMaps (s t : State) : Prop := ∃ c m l r, t = { s with crust := c, mem := m, log := l, ledger := { s.ledger with regions := r } }

theorem OnlyMaps.refl (s : State) : OnlyMaps s s := ⟨_, _, _, _, rfl⟩

theorem OnlyMaps.trans {a b c : State} (h : OnlyMaps a b) (g : OnlyMaps b c) : OnlyMaps a c := by
  obtain ⟨_, _, _, _, rfl⟩ := h
  obtain ⟨c, m, l, r, rfl⟩ := g
  exact ⟨c, m, l, r, rfl⟩

theorem crustPut_maps (s : State) (off : Nat) (w : Word) : OnlyMaps s (s.crustPut off w) := by
  simp only [State.crustPut]
  split
  · exact ⟨_, _, _, _, rfl⟩
  · exact ⟨_, _, _, _, rfl⟩

theorem crustTake_maps (s : State) (e : Nat × Word) : OnlyMaps s (s.crustTake e) := by
  obtain ⟨_, _, record⟩ := mapRecord_only s e.1 e.2
  have recorded : OnlyMaps s (s.mapRecord e.1 e.2) := ⟨_, _, _, _, record⟩
  simp only [State.crustTake]
  split
  · exact recorded.trans ⟨_, _, _, _, rfl⟩
  · exact recorded.trans (crustPut_maps _ _ _)

theorem commitWords_maps (s : State) (es : List (Nat × Word)) : OnlyMaps s (s.commitWords es) := by
  have taken (z : State) : OnlyMaps z (z.crust.staged.foldl (fun z e => z.crustTake (e.1.toNat, e.2)) z) :=
    foldl_keeps OnlyMaps .refl (fun _ _ _ => .trans) _ (fun z e => crustTake_maps z _) _ _
  exact OnlyMaps.trans ⟨_, _, _, _, rfl⟩ ((taken _).trans ⟨_, _, _, _, rfl⟩)

theorem flushMaps_maps (s : State) : OnlyMaps s s.flushMaps :=
  (foldl_keeps OnlyMaps .refl (fun _ _ _ => .trans) _ (fun z e => crustPut_maps z e.1 e.2) s.crust.waiting s).trans
    ⟨_, _, _, _, rfl⟩

theorem cutReform_maps (s : State) : OnlyMaps s s.cutReform := by
  unfold State.cutReform
  split
  · exact .refl s
  · exact commitWords_maps s _

/-- What goes before a loss of power: the maps that wait take effect, and a reform is cut. -/
theorem flushed_maps (s : State) : OnlyMaps s s.flushMaps.cutReform := (flushMaps_maps s).trans (cutReform_maps _)

/-! ### W5 and the power cycle (R500, R521, R523) -/

theorem settleAlert_calm (calm : s.alertLevel = false) : s.settleAlert.alertN = false := by
  simp only [State.settleAlert, calm, Bool.false_eq_true, if_false]
  split
  · rfl
  · next low => simpa using low

theorem setPwrGood_only (s : State) (b : Bool) : ∃ o, s.setPwrGood b = { s with power := { s.power with pwrGood := b }, out := o } := by
  unfold State.setPwrGood
  split
  · next same => exact ⟨s.out, by rw [← same]⟩
  · exact ⟨_, rfl⟩

theorem setPwrGood_changes {b : Bool} (other : s.power.pwrGood ≠ b) :
    s.setPwrGood b = { s with power := { s.power with pwrGood := b } }.emit (.pin "PWR_GOOD" b) := if_neg other

/-- Power in W5: the rails are off and nothing is under way. -/
def Power.inW5 (p : Power) (wakeN : Bool) : Power :=
  { p with
    st := .w5, target := .w5, exiting := false, rails := false, pwrGood := false, idleFrom := none, w3Ctx := [], wakeN := wakeN }

/-- The fall into W5: no partition is configured, and time and fuses are as they were. -/
theorem enterW5_falls (s : State) : ∃ w, s.enterW5.power = s.power.inW5 w ∧ s.enterW5.parts = [] ∧ s.enterW5.time = s.time ∧
    s.enterW5.fuse = s.fuse := by
  obtain ⟨_, _, _, _, flushed⟩ := flushed_maps s
  obtain ⟨_, w, _, _, alert⟩ := settleAlert_wakeN s.railsLost
  obtain ⟨_, good⟩ := setPwrGood_only s.railsLost.settleAlert false
  obtain ⟨_, fallen⟩ := setW_only (s.railsLost.settleAlert.setPwrGood false) .w5
  rw [State.enterW5, fallen, good, alert]
  refine ⟨w, rfl, rfl, ?_, ?_⟩
  · show s.flushMaps.cutReform.time = s.time
    rw [flushed]
  · show s.flushMaps.cutReform.fuse = s.fuse
    rw [flushed]

/-- A power cycle leaves ALERT_N released, nothing configured, and PWR_EN and the fuses as they were. -/
theorem powerCycled_clears (s : State) : s.powerCycled.alertN = false ∧ s.powerCycled.parts = [] ∧ s.powerCycled.ctxs = [] ∧
    s.powerCycled.fuse = s.fuse ∧ s.powerCycled.power.rails = false ∧ s.powerCycled.power.pwrGood = false ∧
    s.powerCycled.power.pwrEn = s.power.pwrEn := by
  refine ⟨settleAlert_calm ?_, ?_⟩
  · have mem : s.mem.afterReset.initialise.stateChanged = false := by
      simp only [Mem.afterReset]
      split <;> rfl
    simp only [State.alertLevel, mem, Bool.and_false]
    rfl
  · unfold State.powerCycled
    obtain ⟨_, _, _, _, alert⟩ := settleAlert_wakeN _
    rw [alert]
    exact ⟨rfl, rfl, rfl, rfl, rfl, rfl⟩

/-! ### The input (R611, R612) -/

theorem powerOn_eq (slot : BitVec 4) : powerOn slot s =
    if s.power.alwaysOn then s else { s with power := { s.power with alwaysOn := true, slotId := slot } } := rfl

theorem inputUndervoltage_dark (dark : s.power.alwaysOn = false) : inputUndervoltage s = s := if_pos (by simp [dark])

/-- Only what is sent can differ. -/
def OnlySent (s t : State) : Prop := ∃ o, t = { s with out := o }

theorem OnlySent.trans {a b c : State} (h : OnlySent a b) (g : OnlySent b c) : OnlySent a c := by
  obtain ⟨_, rfl⟩ := h
  obtain ⟨o, rfl⟩ := g
  exact ⟨o, rfl⟩

theorem emitIf_sent (s : State) (c : Prop) [Decidable c] (o : Output) : OnlySent s (if c then s.emit o else s) := by
  split
  · exact ⟨_, rfl⟩
  · exact ⟨s.out, rfl⟩

/-- A lit module whose input goes is darkened, once PWR_GOOD has fallen and its other pins are at their idle levels. -/
theorem inputUndervoltage_darkens (on : s.power.alwaysOn = true) :
    ∃ z, inputUndervoltage s = z.darkened ∧ OnlySent (s.setPwrGood false) z :=
  ⟨_, if_neg (by simp [on]), (emitIf_sent _ _ _).trans ((emitIf_sent _ _ _).trans ((emitIf_sent _ _ _).trans (emitIf_sent _ _ _)))⟩

theorem darkened_dark (s : State) : s.darkened.power.alwaysOn = false ∧ s.darkened.power.rails = false ∧
    s.darkened.power.pwrGood = false ∧ s.darkened.alertN = false ∧ s.darkened.fab = Fabric.reset ∧ s.darkened.parts = [] ∧
    s.darkened.ctxs = [] ∧ s.darkened.fuse = s.fuse ∧ s.darkened.power.pwrEn = s.power.pwrEn := by
  obtain ⟨_, _, _, _, flushed⟩ := flushed_maps s
  obtain ⟨alertN, parts, ctxs, fuse, rails, good, pwrEn⟩ := powerCycled_clears s.flushMaps.cutReform
  refine ⟨rfl, rails, good, alertN, rfl, parts, ctxs, fuse.trans ?_, pwrEn.trans ?_⟩
  · rw [flushed]
  · rw [flushed]

section
variable (on : s.power.alwaysOn = true)
include on

theorem overvoltageCutoff_cuts (sound : s.power.ovp = false) : overvoltageCutoff s =
    let z := { s with power := { s.power with ovp := true, ovpSeen := true } }
    (if s.power.tripped then z else z.enterW5).hwSet 0x001_0080 2 := if_neg (by simp [on, sound])

end

theorem overvoltageCutoff_idle (h : s.power.alwaysOn = false ∨ s.power.ovp = true) : overvoltageCutoff s = s :=
  if_pos (by simpa using h.symm)

theorem overvoltageRecover_idle (sound : s.power.ovp = false) : overvoltageRecover s = s := if_pos (by simp [sound])

theorem overvoltageRecover_recovers (cut : s.power.ovp = true) :
    overvoltageRecover s = { s with power := { s.power with ovp := false } }.wake := if_neg (by simp [cut])

/-! ### PWR_EN (R523, R614, R617) -/

section
variable {cool : Bool}

theorem tripOver_iff (p : Power) : p.tripOver cool = true ↔ p.tripped = true ∧ p.tripPin = false ∧ cool = true := by
  simp [Power.tripOver, and_assoc]

theorem pwrEnRise_rises (on : s.power.alwaysOn = true) (low : s.power.pwrEn = false) : pwrEnRise cool s =
    { s with power := { s.power with
      pwrEn := true, pwrEnAt := s.now, tripped := s.power.tripped && (s.power.tripPin || !cool) } }.wake := by
  have trip : (s.power.tripped && !s.power.tripOver cool) = (s.power.tripped && (s.power.tripPin || !cool)) := by
    unfold Power.tripOver
    cases s.power.tripped <;> simp
  rw [← trip]
  refine (if_neg (by simp [on, low])).trans ?_
  simp [State.updPower, low]

theorem pwrEnRise_endsTrip (on : s.power.alwaysOn = true) (high : s.power.pwrEn = true) (tripped : s.power.tripped = true)
    (released : s.power.tripPin = false) : pwrEnRise true s = { s with power := { s.power with tripped := false } }.wake := by
  have ends : s.power.tripOver true = true := (tripOver_iff _).2 ⟨tripped, released, rfl⟩
  refine (if_neg (by simp [on, ends])).trans ?_
  simp [State.updPower, ends, high]

theorem pwrEnRise_idle (h : s.power.alwaysOn = false ∨
    s.power.pwrEn = true ∧ (s.power.tripped = false ∨ s.power.tripPin = true ∨ cool = false)) : pwrEnRise cool s = s := by
  refine if_pos ?_
  rcases h with dark | ⟨high, trip⟩
  · exact .inl (by simp [dark])
  · refine .inr ⟨high, ?_⟩
    simpa [Power.tripOver, or_assoc] using trip

end

theorem pwrEnFall_idle (h : s.power.alwaysOn = false ∨ s.power.pwrEn = false) : pwrEnFall s = s :=
  if_pos (by simpa using h.symm)

theorem pwrEnFall_falls (on : s.power.alwaysOn = true) (high : s.power.pwrEn = true) : pwrEnFall s =
    let z := { s with power := { s.power with pwrEn := false, pwrEnAt := s.now } }
    if s.power.tripped then z else z.endAllEntries.enterW5 := if_neg (by simp [on, high])

/-! ### The main rails and the thermal trip (R604, R612, R614, R616, R617) -/

theorem mainRails_rise (off : s.power.rails = false) (st : s.power.st = .w5) (exits : s.power.exiting = true)
    (low : s.power.pwrGood = false) : mainRailsInRegulation s =
      { s with power := { s.power with rails := true, pwrGood := true } }.emit (.pin "PWR_GOOD" true) := by
  refine (if_neg (by simp [off])).trans ((if_pos ⟨st, exits⟩).trans ?_)
  exact setPwrGood_changes (s := { s with power := { s.power with rails := true } }) (by simp [low])

theorem thermalTrip_idle {d : BitVec 5} (h : s.power.tripPin = true ∨ s.power.alwaysOn = false) : thermalTrip d s = s :=
  if_pos (h.imp_right fun dark => .inl (by simp [dark]))

theorem setHoldover_frame (s : State) (b : Bool) : ∃ t l, s.setHoldover b = { s with time := t, log := l } := by
  unfold State.setHoldover
  split
  · exact ⟨s.time, s.log, rfl⟩
  · exact ⟨_, _, rfl⟩

theorem elect_frame (s : State) : ∃ t l, s.elect = { s with time := t, log := l } := by
  unfold State.elect
  dsimp only
  split
  · exact setHoldover_frame _ _
  · split
    · exact setHoldover_frame _ _
    · exact ⟨_, s.log, rfl⟩

/-- A trip: the module is in W5 with its fabric at reset, and the pin is asserted. -/
theorem thermalTrip_trips {d : BitVec 5} (on : s.power.alwaysOn = true) (fresh : s.power.tripPin = false) (inside : d.toNat < 20) :
    ∃ w, (thermalTrip d s).power = ({ s.power with tripSeen := true, tripDie := d, tripped := true, tripPin := true } : Power).inW5 w ∧
      (thermalTrip d s).fab = Fabric.reset ∧ .pin "THERM_TRIP_N" true ∈ (thermalTrip d s).out := by
  let z := s.updPower fun p => { p with tripSeen := true, tripDie := d, tripped := true, tripPin := true }
  let y := { z.enterW5 with fab := .reset, host := { HostPort.reset with perst := s.host.perst } }
  have trips : thermalTrip d s = ((y.elect.emit (.pin "THERM_TRIP_N" true)).emit (.ibi 3)).hwSet 0x001_0080 8 :=
    if_neg (by simpa [on, fresh] using inside)
  obtain ⟨w, power, -⟩ := enterW5_falls z
  obtain ⟨_, _, elected⟩ := elect_frame y
  rw [trips, elected]
  exact ⟨w, power, rfl, by simp⟩

theorem thermTripRelease_waits (high : s.power.pwrEn = true) : thermTripRelease s = s := if_pos (.inr (.inl high))

theorem thermTripRelease_releases (pin : s.power.tripPin = true) (low : s.power.pwrEn = false)
    (late : s.power.pwrEnAt + 500000000 ≤ s.now) : thermTripRelease s =
      { s with power := { s.power with tripPin := false } }.emit (.pin "THERM_TRIP_N" false) :=
  if_neg (by simpa [pin, low] using late)

/-! ### Lasers (R374, R475, R478, R609) -/

section
variable {e spares : Nat}

theorem laserBayOpen_open (isOpen : (s.bay e).latched = false) : laserBayOpen e s = s := if_pos (by simp [isOpen])

theorem laserBayOpen_latched (latched : (s.bay e).latched = true) : laserBayOpen e s =
    (List.range 8).foldl (fun z p => z.atPort (8 * e + p) fun z => z.linkLoss (8 * e + p) 0)
      (s.setBay e { s.bay e with latched := false, on := false }) := if_neg (by simp [latched])

theorem laserSourceInsert_latched (latched : (s.bay e).latched = true) : laserSourceInsert e spares s = s := if_pos latched

theorem laserSourceInsert_open (isOpen : (s.bay e).latched = false) : laserSourceInsert e spares s =
    s.setBay e { latched := true, on := true, spares := min 2 spares, lost := 0, failed := 0 } := if_neg (by simp [isOpen])

variable {l : Nat}

theorem laserFail_idle (h : s.laserPlace e l = none ∨ (s.bay e).on = false ∨ (s.bay e).failed.getLsbD l = true) :
    laserFail e l s = s := by
  unfold laserFail
  split
  · rfl
  · next k place =>
    refine if_pos ?_
    simpa using h.resolve_left (by simp [place])

variable {k : Nat} (place : s.laserPlace e l = some k) (on : (s.bay e).on = true) (works : (s.bay e).failed.getLsbD l = false)
include place on works

/-- A healthy spare takes the place of a laser that fails. -/
theorem laserFail_spared {x : Nat} (left : (s.bay e).spares ≠ 0)
    (spare : [8, 9].find? (fun x => !((s.bay e).failed ||| BitVec.ofNat 10 (2 ^ l)).getLsbD x && (s.laserPlace e x).isNone) = some x) :
    laserFail e l s =
      let b := { s.bay e with failed := (s.bay e).failed ||| BitVec.ofNat 10 (2 ^ l), spares := (s.bay e).spares - 1 }
      let z := ((laserLanes e k).foldl (fun z x => laneRetire x.1 x.2 z) s).setBay e b
      ((z.spare (14 + e) .lasers (srcNo (14 + e) (0x200 + l)) b.spares).otp fun o =>
        { o with lasers := smapUpd 0 o.lasers e fun n => min 2 (n + 1) }).commitWords
          [(laserOffset e, setNibble (s.crust.read (laserOffset e)) k x)] := by
  simp only [laserFail, place, if_neg left, spare]
  refine if_neg ?_
  simp [on, works]

/-- With no spare left its wavelength is lost. -/
theorem laserFail_lost (none : (s.bay e).spares = 0) : laserFail e l s =
    let w : BitVec 4 := BitVec.ofNat 4 (2 ^ (k % 4))
    let b := { s.bay e with failed := (s.bay e).failed ||| BitVec.ofNat 10 (2 ^ l), lost := (s.bay e).lost ||| w }
    let z := ((laserLanes e k).foldl (fun z x => laneRetire x.1 x.2 z) s).setBay e b
    (z.spare (14 + e) .lasers (srcNo (14 + e) (0x200 + l)) 0 (16 + k % 4)).otp fun o =>
      { o with waves := smapUpd 0 o.waves e (· ||| w) } := by
  simp only [laserFail, place, if_pos none]
  refine if_neg ?_
  simp [on, works]

end

/-! ### The clauses of O44 -/

/-- Settles O44. That PWR_EN_RISE of a module whose PWR_EN is high already ends its trip, once its sensors are cool, is the model's
choice (DESIGN CHOICE, log 31). -/
theorem powerComesUpAndGoesDown : Obligations.PowerComesUpAndGoesDown := by
  refine ⟨fun s slot => congrArg Host.Outcome.next (powerOn_eq slot), ?input, ?trip, ?release, ?lasers⟩
  case input =>
    intro s
    refine ⟨fun dark => congrArg Host.Outcome.next (inputUndervoltage_dark dark), ?under,
      fun on sound whole => congrArg Host.Outcome.next ((overvoltageCutoff_cuts on sound).trans ?whole),
      fun on sound tripped => congrArg Host.Outcome.next ((overvoltageCutoff_cuts on sound).trans ?tripped),
      fun idle => congrArg Host.Outcome.next (overvoltageCutoff_idle idle),
      fun cut => congrArg Host.Outcome.next (overvoltageRecover_recovers cut),
      fun sound => congrArg Host.Outcome.next (overvoltageRecover_idle sound),
      fun cool on low => congrArg Host.Outcome.next (pwrEnRise_rises on low),
      fun on high tripped released => congrArg Host.Outcome.next (pwrEnRise_endsTrip on high tripped released),
      fun cool idle => congrArg Host.Outcome.next (pwrEnRise_idle idle),
      fun on high tripped => congrArg Host.Outcome.next ((pwrEnFall_falls on high).trans (if_pos tripped)),
      fun idle => congrArg Host.Outcome.next (pwrEnFall_idle idle),
      fun on high whole => congrArg Host.Outcome.next ((pwrEnFall_falls on high).trans (if_neg (ne_true_of_eq_false whole))),
      fun off st exits low => congrArg Host.Outcome.next (mainRails_rise off st exits low),
      fun good => congrArg Host.Outcome.next (setPwrGood_changes (b := false) (by simp [good])), ?w5⟩
    case under =>
      intro on
      obtain ⟨z, darkens, o, sent⟩ := inputUndervoltage_darkens on
      obtain ⟨_, good⟩ := setPwrGood_only s false
      rw [good] at sent
      obtain ⟨dark, rails, low, alertN, fab, parts, ctxs, fuse, pwrEn⟩ := darkened_dark z
      refine ⟨_, congrArg Host.Outcome.next darkens, dark, rails, low, alertN, fab, parts, ctxs, fuse.trans ?_, pwrEn.trans ?_⟩
      · rw [sent]
      · rw [sent]
    case whole => exact congrArg (State.hwSet · 0x001_0080 2) (if_neg (ne_true_of_eq_false whole))
    case tripped => exact congrArg (State.hwSet · 0x001_0080 2) (if_pos tripped)
    case w5 =>
      obtain ⟨_, power, parts, time, fuse⟩ := enterW5_falls s
      rw [power]
      exact ⟨rfl, rfl, rfl, parts, time, fuse⟩
  case trip =>
    intro s die
    refine ⟨fun idle => congrArg Host.Outcome.next (thermalTrip_idle idle), fun on fresh inside => ?_⟩
    obtain ⟨w, power, fab, out⟩ := thermalTrip_trips on fresh inside
    refine ⟨_, rfl, ?_⟩
    rw [power]
    exact ⟨rfl, rfl, rfl, rfl, rfl, rfl, fab, out⟩
  case release =>
    exact fun s => ⟨fun pin low late => congrArg Host.Outcome.next (thermTripRelease_releases pin low late),
      fun high => congrArg Host.Outcome.next (thermTripRelease_waits high)⟩
  case lasers =>
    intro s bay spares l
    refine ⟨fun isOpen => ⟨congrArg Host.Outcome.next (laserBayOpen_open isOpen), congrArg Host.Outcome.next (laserSourceInsert_open isOpen)⟩,
      fun latched => ⟨congrArg Host.Outcome.next (laserSourceInsert_latched latched),
        congrArg Host.Outcome.next (laserBayOpen_latched latched)⟩,
      fun idle => congrArg Host.Outcome.next (laserFail_idle idle), fun k place on works => ?_⟩
    intro e b bit src s1 w
    exact ⟨fun x left spare => congrArg Host.Outcome.next (laserFail_spared place on works left spare),
      fun none => congrArg Host.Outcome.next (laserFail_lost place on works none)⟩

end Sys2Proof.Machine
end

section
namespace Sys2Proof.Machine
open Sys2Proof.Laws
variable {s : State}

/-! ## Logs, the Ledger, telemetry and debug (O55) -/

/-! ### The event log (R585, R586, R590) -/

section
variable {i : Nat}

theorem eventDeliver_none (none : s.log.pending.length ≤ i) : eventDeliver i s = s := by
  simp only [eventDeliver, List.getElem?_eq_none none]

variable {e : Event} (waits : s.log.pending[i]? = some e)
include waits

/-- A record waits for those that its source has produced before it (R47). -/
theorem eventDeliver_held (held : ¬∀ x ∈ s.log.pending.take i, x.src ≠ e.src) : eventDeliver i s = s := by
  simp only [eventDeliver, waits]
  exact if_pos (by simpa using held)

theorem eventDeliver_delivers (first : ∀ x ∈ s.log.pending.take i, x.src ≠ e.src) :
    eventDeliver i s = { s with log := { s.log with pending := s.log.pending.eraseIdx i } }.deliverEvent e := by
  simp only [eventDeliver, waits]
  exact if_neg (by simpa using first)

end

theorem deliverEvent_buffers {e : Event} (inPlace : ∀ k, s.log.last = some k → e.before k = false) :
    s.deliverEvent e = { s with log := { s.log with buffer := s.log.buffer ++ [e] } } := by
  unfold State.deliverEvent
  split
  · next k last => exact if_neg (ne_true_of_eq_false (inPlace k last))
  · rfl

theorem deliverEvent_late {e : Event} {k : Nat × Nat} (last : s.log.last = some k) (late : e.before k = true) :
    s.deliverEvent e = s.commitEvent { e with late := true } := by
  simp only [State.deliverEvent, last, if_pos late]

theorem eventCommit_empty (empty : s.log.buffer = []) : eventCommit s = s := by simp only [eventCommit, empty, firstEvent]

section
variable {i : Nat} {e : Event} (first : firstEvent s.log.buffer = some i) (buffered : s.log.buffer[i]? = some e)
include first buffered

theorem eventCommit_early (early : s.now < e.gtb + 4000) : eventCommit s = s := by
  simp only [eventCommit, first, buffered, if_pos early]

theorem eventCommit_commits (due : e.gtb + 4000 ≤ s.now) :
    eventCommit s = { s with log := { s.log with buffer := s.log.buffer.eraseIdx i } }.commitEvent e := by
  simp only [eventCommit, first, buffered, if_neg (Nat.not_lt.2 due)]

end

/-- A record committed with no extension ring (R588). -/
theorem commitEvent_ringless {e : Event} (ringless : s.log.extSize = 0) : s.commitEvent e = { s with log := { s.log with
    next := s.log.next + 1, ring := smapInsert s.log.ring (s.log.next % 16384) (s.log.next, e)
    last := if e.late then s.log.last else some (e.gtb, e.src) } } := by
  refine if_pos ?_
  show s.log.extSize.toNat = 0
  rw [ringless]
  rfl

/-- The record that is committed next has not been committed yet. -/
theorem capture_notYet {l : EventLog} {v : Nat} (next : l.next % 2 ^ 32 = v) : l.capture v = (0, false, true) := by
  refine if_pos (.inl ?_)
  omega

/-! ### The Ledger (R576, R579, R580, R581) -/

/-- Only the Ledger and the event log can differ. -/
def OnlyLedger (s t : State) : Prop := ∃ g l, t = { s with ledger := g, log := l }

theorem OnlyLedger.refl (s : State) : OnlyLedger s s := ⟨s.ledger, s.log, rfl⟩

theorem OnlyLedger.trans {a b c : State} (h : OnlyLedger a b) (g : OnlyLedger b c) : OnlyLedger a c := by
  obtain ⟨_, _, rfl⟩ := h
  obtain ⟨g, l, rfl⟩ := g
  exact ⟨g, l, rfl⟩

theorem ledgerAppend_onlyLedger (s : State) (d : Nat) (type : Byte) (src : Nat) (payload : List Byte) :
    OnlyLedger s (s.ledgerAppend d type src payload) := by
  obtain ⟨l, _, only⟩ := ledgerAppend_only s d type src payload
  exact ⟨_, l, only⟩

theorem writeCounters_onlyLedger (s : State) (d : Nat) : OnlyLedger s (s.writeCounters d) :=
  (ledgerAppend_onlyLedger s d _ _ _).trans
    (foldl_keeps OnlyLedger .refl (fun _ _ _ => .trans) _ (fun z _ => ledgerAppend_onlyLedger z d _ _ _) _ _)

theorem hourOf_onlyLedger (s : State) (d : Nat) : OnlyLedger s (s.hourOf d) :=
  have counted (z : State) (f : LifeCounters → LifeCounters) : OnlyLedger z (z.life d f) := ⟨_, z.log, rfl⟩
  (counted s _).trans ((writeCounters_onlyLedger _ d).trans ((ledgerAppend_onlyLedger _ d _ _ _).trans (counted _ _)))

theorem ledgerHourly_within (within : s.now / 3600000000000 ≤ s.ledger.lastHour) : ledgerHourly s = s := if_pos within

/-- The hour's records change the Ledger, and log what its compactions log. -/
theorem ledgerHourly_writes (ended : s.ledger.lastHour < s.now / 3600000000000) :
    OnlyLedger s (ledgerHourly s) ∧ (ledgerHourly s).ledger.lastHour = s.now / 3600000000000 := by
  obtain ⟨g, l, only⟩ := foldl_keeps OnlyLedger .refl (fun _ _ _ => .trans) State.hourOf hourOf_onlyLedger (List.range 20) s
  have writes : ledgerHourly s = { (List.range 20).foldl State.hourOf s with
      ledger := { ((List.range 20).foldl State.hourOf s).ledger with lastHour := s.now / 3600000000000 } } := if_neg (Nat.not_le.2 ended)
  rw [writes, only]
  exact ⟨⟨_, _, rfl⟩, rfl⟩

section
variable {m : Margin}

theorem measure_nowhere (nowhere : unitOk m.src.toNat = false) : s.measure m = s := if_pos (by simp [nowhere])

variable (there : unitOk m.src.toNat = true)
include there

theorem measure_records (sound : m.warn = false) :
    s.measure m = s.ledgerAppend (m.src.toNat / 2048) 0x01 m.src.toNat (m.measure :: m.values) := by
  simp [State.measure, there, sound]

theorem measure_warns (warns : m.warn = true) (quiet : s.ledger.alertEn = false) :
    let r := s.ledgerAppend (m.src.toNat / 2048) 0x01 m.src.toNat (m.measure :: m.values)
    s.measure m = ({ r with ledger := { r.ledger with marginWarn := true } }.hwSet 0x050_0000 1).event m.src.toNat 0x0801
      (detail3 m.measure.toNat (bytesNat (m.values.take 4)) 0) := by
  obtain ⟨_, _, only⟩ := ledgerAppend_only s (m.src.toNat / 2048) 0x01 m.src.toNat (m.measure :: m.values)
  have off : (s.ledgerAppend (m.src.toNat / 2048) 0x01 m.src.toNat (m.measure :: m.values)).ledger.alertEn = false := by
    rw [only]
    exact quiet
  simp only [State.measure, there, warns, Bool.not_true, Bool.false_eq_true, if_false, if_true]
  exact if_neg (ne_true_of_eq_false off)

end

/-! ### Telemetry bins (R599) -/

/-- A partition's counts of the present bin start anew. -/
def State.binCleared (s : State) (n : Nat) : State := s.setPart n { s.part n with telProg := 0, telFrz := 0 }

theorem binsCleared_only (s : State) (ns : List Nat) : ∃ p, ns.foldl State.binCleared s = { s with parts := p } :=
  foldl_keeps (fun s t => ∃ p, t = { s with parts := p }) (fun s => ⟨s.parts, rfl⟩)
    (fun _ _ _ ⟨_, h⟩ ⟨p, g⟩ => ⟨p, by rw [g, h]⟩) State.binCleared (fun _ _ => ⟨_, rfl⟩) ns s

theorem binsCleared_part (sorted : smapSorted s.parts = true) (ns : List Nat) (n : Nat) :
    (ns.foldl State.binCleared s).part n = if n ∈ ns then { s.part n with telProg := 0, telFrz := 0 } else s.part n := by
  induction ns generalizing s with
  | nil => simp
  | cons m ns ih =>
    rw [List.foldl_cons, ih (smapSet_sorted _ sorted _ _)]
    by_cases here : n = m
    · subst here
      simp [State.binCleared, sorted]
    · simp [State.binCleared, setPart_part_other s sorted _ _ here, here]

theorem telemetryBinEnd_w5 {t : TelSample} (st : s.power.st = .w5) : telemetryBinEnd t s = s := if_pos st

section
variable {t : TelSample} (awake : s.power.st ≠ .w5)
include awake

/-- The bin that the step of the GTB has cut gets its page. -/
theorem telemetryBinEnd_cut {start : Nat} {counts : SMap (Nat × Nat)} (cut : s.tele.cut = some (start, counts)) :
    telemetryBinEnd t s = { s with tele :=
      { s.tele.put (s.telemetryPage t start fun n => smapGet (0, 0) counts n) with cut := none } } := by
  simp only [telemetryBinEnd, if_neg awake, cut]
  rfl

variable (whole : s.tele.cut = none) {e : Nat} (boundary : s.now - s.now % (1000 * s.tele.binUs.toNat) = e)
include whole boundary

theorem telemetryBinEnd_early (early : e ≤ s.tele.binStart) : telemetryBinEnd t s = s := by
  subst boundary
  simp only [telemetryBinEnd, if_neg awake, whole, if_pos early]

theorem telemetryBinEnd_due (due : s.tele.binStart < e) : ∃ page, telemetryBinEnd t s =
    (List.range 16).foldl State.binCleared { s with tele := { s.tele.put page with binStart := e, binUs := s.tele.nextUs } } := by
  subst boundary
  refine ⟨s.telemetryPage t (max s.tele.binStart (s.now - s.now % (1000 * s.tele.binUs.toNat) - 1000 * s.tele.binUs.toNat))
    fun n => ((s.part n).telProg, (s.part n).telFrz), ?_⟩
  simp only [telemetryBinEnd, if_neg awake, whole, if_neg (Nat.not_le.2 due)]
  rfl

end

/-- The page that CUR does not show takes a bin's page, and CUR flips. -/
theorem put_keeps (x : Telemetry) (page : BitVec 8192) : (x.put page).cur = !x.cur ∧ (x.put page).seq = x.seq + 1 ∧
    if x.cur then (x.put page).pageB = x.pageB else (x.put page).pageA = x.pageA := by
  refine ⟨rfl, rfl, ?_⟩
  cases cur : x.cur
  · exact if_neg (ne_true_of_eq_false cur)
  · exact if_pos cur

/-! ### Debug (R158, R159, R602) -/

section
variable {n : Nat}

theorem dbgHaltGo_closed (closed : s.sec.grants 1 = false) : dbgHaltGo n s = s := if_neg (by simp [closed])

theorem dbgHaltGo_asks (granted : s.sec.grants 1 = true) (runs : (s.part n).halted = false) :
    dbgHaltGo n s = s.setPart n { s.part n with dbgReq := true } := if_pos (by simp [granted, runs])

theorem dbgResumeGo_closed (closed : s.sec.grants 1 = false) : dbgResumeGo n s = s := if_neg (by simp [closed])

theorem dbgResumeGo_resumes (granted : s.sec.grants 1 = true) : dbgResumeGo n s = s.resumeDebug n := if_pos granted

end

section
variable {off : Nat}

/-- Outside its scope the window answers zero, and so it does of a partition that is not halted. -/
theorem accWindowRead_closed {bad : Bool} (closed : s.sec.grants 0 = false ∨ (s.part s.dbg.pt.toNat).halted = false) :
    accWindowRead off bad s = { s with reply := some (.word 0) } := by
  have zero : s.readAcc (off - off % 4) bad = 0 := if_pos (by simpa using closed)
  simp only [accWindowRead, zero]
  refine if_neg ?_
  rcases closed with scope | runs
  · simp [scope]
  · simp [runs]

theorem accWindowRead_sound : accWindowRead off false s = { s with reply := some (.word (s.readAcc (off - off % 4) false)) } := rfl

theorem accWindowRead_bad (granted : s.sec.grants 0 = true) (halted : (s.part s.dbg.pt.toNat).halted = true)
    (entry : (s.accEntry (off - off % 4)).isSome = true) : accWindowRead off true s =
      { s with reply := some (.word (s.readAcc (off - off % 4) true)) }.event (s.eccUnit (s.accPlace (off - off % 4))).2 0x0302
        (eccDetail (s.accPlace (off - off % 4))) := if_pos (by simp [granted, halted, entry])

end

/-! ### The clauses of O55 -/

/-- Settles O55. That a failed check in the accumulator window logs 0x0302 is the model's choice (DESIGN CHOICE, log 6); the bytes of the
Ledger's payloads are those of log 23. -/
theorem logsLedgerTelemetryAndDebug : Obligations.LogsLedgerTelemetryAndDebug := by
  refine ⟨?deliver, ?ledger, ?ports, fun s die type src payload => rfl, ?bins, ?debug, ?window⟩
  case deliver =>
    intro s idx
    refine ⟨fun none => congrArg Host.Outcome.next (eventDeliver_none none), fun e waits => ?_⟩
    intro s1 first
    exact ⟨fun held => congrArg Host.Outcome.next (eventDeliver_held waits held),
      fun first inPlace => congrArg Host.Outcome.next ((eventDeliver_delivers waits first).trans (deliverEvent_buffers inPlace)),
      fun first k last late => congrArg Host.Outcome.next ((eventDeliver_delivers waits first).trans (deliverEvent_late last late))⟩
  case ledger =>
    intro s
    refine ⟨fun empty => congrArg Host.Outcome.next (eventCommit_empty empty), fun i e first buffered => ⟨?_, fun due ringless => ?_⟩,
      rfl, fun within => congrArg Host.Outcome.next (ledgerHourly_within within), fun ended => ?hour, rfl, fun m ms => ?sweep,
      fun reaches => congrArg Host.Outcome.next (reaches.takes _)⟩
    · exact fun early => congrArg Host.Outcome.next (eventCommit_early first buffered early)
    · exact congrArg Host.Outcome.next ((eventCommit_commits first buffered due).trans (commitEvent_ringless ringless))
    case hour =>
      obtain ⟨⟨g, l, only⟩, hour⟩ := ledgerHourly_writes ended
      refine ⟨_, rfl, ?_, hour⟩
      rw [only]
    case sweep =>
      exact ⟨rfl, measure_nowhere, measure_records, measure_warns⟩
  case ports =>
    intro s v c
    exact ⟨fun on => congrArg Host.Outcome.next (if_pos on), fun reaches => congrArg Host.Outcome.next (reaches.takes _),
      capture_notYet⟩
  case bins =>
    intro s t e
    refine ⟨fun st => congrArg Host.Outcome.next (telemetryBinEnd_w5 st), fun awake start counts cut => ?cut, fun awake whole =>
      ⟨fun early => congrArg Host.Outcome.next (telemetryBinEnd_early awake whole rfl early), fun due ok => ?due⟩⟩
    case cut =>
      obtain ⟨cur, seq, kept⟩ := put_keeps s.tele (s.telemetryPage t start fun n => smapGet (0, 0) counts n)
      exact ⟨_, congrArg Host.Outcome.next (telemetryBinEnd_cut awake cut), rfl, rfl, cur, seq, rfl, kept⟩
    case due =>
      obtain ⟨-, -, parts, -⟩ := ok
      obtain ⟨page, ended⟩ := telemetryBinEnd_due awake whole rfl due (t := t)
      obtain ⟨cur, seq, kept⟩ := put_keeps s.tele page
      refine ⟨_, congrArg Host.Outcome.next ended, ?_⟩
      have cleared (n : Nat) := binsCleared_part
        (s := { s with tele := { s.tele.put page with binStart := e, binUs := s.tele.nextUs } }) parts (List.range 16) n
      obtain ⟨p, only⟩ := binsCleared_only
        { s with tele := { s.tele.put page with binStart := e, binUs := s.tele.nextUs } } (List.range 16)
      rw [only] at cleared ⊢
      refine ⟨rfl, cur, seq, kept, rfl, rfl, fun n inside => ?_⟩
      rw [cleared n, if_pos (List.mem_range.2 inside)]
      exact ⟨rfl, rfl, rfl⟩
  case debug =>
    intro s pt reaches
    exact ⟨fun closed => ⟨congrArg Host.Outcome.next ((reaches.takes _).trans (dbgHaltGo_closed closed)),
        congrArg Host.Outcome.next ((reaches.takes _).trans (dbgResumeGo_closed closed))⟩,
      fun granted => ⟨congrArg Host.Outcome.next ((reaches.takes _).trans (dbgResumeGo_resumes granted)),
        fun runs => congrArg Host.Outcome.next ((reaches.takes _).trans (dbgHaltGo_asks granted runs))⟩⟩
  case window =>
    intro s off bad reaches o
    exact ⟨fun closed => congrArg Host.Outcome.next ((reaches.takes _).trans (accWindowRead_closed closed)),
      congrArg Host.Outcome.next ((reaches.takes _).trans accWindowRead_sound), fun granted halted entry =>
        congrArg Host.Outcome.next ((reaches.takes _).trans (accWindowRead_bad granted halted entry))⟩

end Sys2Proof.Machine
end

section
namespace Sys2Proof.Machine
open Sys2Proof.Laws
variable {s : State}

/-! ## Firmware, keys, debug and attestation (O49) -/

/-- A row that is an access which arrives answers what the access does. -/
theorem HostReaches.answers {off : Nat} {f : State → State} {t : State} (reaches : HostReaches s off) (h : f s = t) :
    (.next (s.hostReg off f) : Out) = .next t := congrArg Host.Outcome.next ((reaches.takes f).trans h)

/-! ### The Starter ROM (R557, R560) -/

theorem runRom_runs (sound : imageError s.fuse s.flashByte = 0) : s.runRom = (s.startImage s.flashByte, 0) := by
  simp only [State.runRom, if_pos sound]

theorem runRom_fails (bad : imageError s.fuse s.flashByte ≠ 0) : s.runRom =
    ({ s with sec := { s.sec with boot := 2, error := BitVec.ofNat 4 (imageError s.fuse s.flashByte) } },
      imageError s.fuse s.flashByte) := by
  simp only [State.runRom, if_neg bad]
  rfl

theorem starterRomBoot_again (booted : s.sec.boot ≠ 0) : starterRomBoot s = s := if_pos (.inr booted)

theorem starterRomBoot_boots (on : s.power.alwaysOn = true) (first : s.sec.boot = 0) : starterRomBoot s = s.runRom.1 :=
  if_neg (by simp [on, first])

/-! ### The mailbox (R560, R574) -/

section
variable {cmd : Byte} {f : State → State} (on : s.power.alwaysOn = true) (free : s.sec.busy = false)
include on free

theorem mailbox_serves (runs : s.sec.boot = 1) : s.mailbox cmd f = f s :=
  (if_neg (by simp [on, free])).trans (if_pos runs)

theorem mailbox_refuses (closed : s.sec.boot ≠ 1) : s.mailbox cmd f = s.mbxEnd cmd 9 :=
  (if_neg (by simp [on, free])).trans (if_neg closed)

theorem recovery_serves (window : s.sec.boot = 2) : s.recovery cmd f = f s :=
  (if_neg (by simp [on, free])).trans (if_pos window)

theorem recovery_refuses (closed : s.sec.boot ≠ 2) : s.recovery cmd f = s.mbxEnd cmd 9 :=
  (if_neg (by simp [on, free])).trans (if_neg closed)

/-! ### The recovery window's commands (R560) -/

section
variable (window : s.sec.boot = 2)
include window

theorem recoveryChunk_misplaced
    (misplaced : 32768 < s.sec.len.toNat ∨ s.sec.addr.toNat % 32768 ≠ 0 ∨ 16 * 2 ^ 20 < s.sec.addr.toNat + s.sec.len.toNat) :
    recoveryChunk s = s.mbxEnd 0x02 6 := (recovery_serves on free window).trans (if_pos misplaced)

theorem recoveryChunk_writes (short : s.sec.len.toNat ≤ 32768) (aligned : s.sec.addr.toNat % 32768 = 0)
    (fits : s.sec.addr.toNat + s.sec.len.toNat ≤ 16 * 2 ^ 20) : recoveryChunk s =
      (s.flashWrite s.sec.addr.toNat ((List.range s.sec.len.toNat).map fun i => smapGet 0 s.sec.buf i)).mbxEnd 0x02 0 := by
  refine (recovery_serves on free window).trans (if_neg ?_)
  rintro (long | askew | beyond)
  · exact absurd short (Nat.not_le.2 long)
  · exact askew aligned
  · exact absurd fits (Nat.not_le.2 beyond)

theorem recoveryDone_ends {t : State} {e : Nat} (rom : s.runRom = (t, e)) : recoveryDone s = t.mbxEnd 0x03 e :=
  (recovery_serves on free window).trans (by rw [rom])

end

/-! ### The running firmware's commands (R562, R569 to R572) -/

section
variable (runs : s.sec.boot = 1)
include runs

theorem fwUpdate_writes {rd : Nat → Byte} (object : (fun i => if i < s.sec.len.toNat then s.mbxByte i else 0) = rd)
    (inside : s.mbxInside s.sec.len.toNat = true) (whole : 8192 + bodyLen rd ≤ s.sec.len.toNat)
    (sound : imageError s.fuse rd = 0) :
    fwUpdate s = (s.flashWrite 0 (bytesFrom rd 0 (8192 + bodyLen rd))).mbxEnd 0x01 0 := by
  subst object
  refine (mailbox_serves on free runs).trans ((if_neg ?_).trans (if_neg (not_not.2 sound)))
  rintro (outside | cut)
  · simp [inside] at outside
  · exact absurd whole (Nat.not_le.2 cut)

section
variable {k : BitVec 3}

theorem pubWrite_locked {set : Bool} (locked : s.sec.pubLocked = true) :
    s.pubWrite cmd k set = { s with sec := { s.sec with slot := k } }.mbxEnd cmd 9 :=
  (mailbox_serves on free runs).trans (if_pos locked)

variable (unlocked : s.sec.pubLocked = false)
include unlocked

theorem pubWrite_sets (inside : s.mbxInside 1984 = true) : s.pubWrite cmd k true =
    { s with sec := { s.sec with slot := k, pubs := smapSet none s.sec.pubs k.toNat (some (bytesFrom s.mbxByte 0 1984)) } }.mbxEnd
      cmd 0 :=
  have fits : ¬(true && !s.mbxInside 1984) = true := by simp [inside]
  (mailbox_serves on free runs).trans ((if_neg (ne_true_of_eq_false unlocked)).trans (if_neg fits))

theorem pubWrite_clears : s.pubWrite cmd k false =
    { s with sec := { s.sec with slot := k, pubs := smapSet none s.sec.pubs k.toNat none } }.mbxEnd cmd 0 :=
  (mailbox_serves on free runs).trans ((if_neg (ne_true_of_eq_false unlocked)).trans (if_neg (by simp)))

end

/-- A nonce is drawn; which one is free (R570). -/
theorem dbgNonce_draws : ∃ nonce : List Byte, nonce.length = 32 ∧ dbgNonce s = { s with
    free := s.free + 1
    sec := { s.sec with nonce := some (nonce, s.now), buf := smapSetRun 0 s.sec.buf 0 nonce } }.mbxEnd 0x20 0 :=
  ⟨_, natBytes_length 32 (s.draw 256).1.toNat, mailbox_serves on free runs⟩

theorem dbgUnlock_fails (bad : s.tokenError ≠ 0) :
    dbgUnlock s = { s with sec := { s.sec with nonce := none } }.mbxEnd 0x21 s.tokenError :=
  (mailbox_serves on free runs).trans (if_pos bad)

/-- A token that passes opens debug mode, and the seed of the certificates follows it (R563). -/
theorem dbgUnlock_opens (passes : s.tokenError = 0) : dbgUnlock s = ({ s with sec :=
    { s.sec.takeSeed s.fuse (aliasSeed s.fuse s.sec.header s.sec.svnImage true) with
      nonce := none, debug := true, debugSeen := true, scopes := (s.mbxByte 40).extractLsb' 0 2
      token := Config.sha512 (bytesFrom s.mbxByte 0 5553), session := false } }).mbxEnd 0x21 0 :=
  (mailbox_serves on free runs).trans (if_neg (not_not.2 passes))

end
end

/-! ### SEC_CTRL (R562, R569, R573) -/

section
variable (on : s.power.alwaysOn = true)
include on

theorem pubLock_locks : pubLock s = { s with sec := { s.sec with pubLocked := true } } := if_neg (by simp [on])

theorem fwActivate_boots : fwActivate s = s.managementReset := if_neg (by simp [on])

theorem dbgRelock_ends : dbgRelock s = s.endDebug := if_neg (by simp [on])

end

theorem resumeDebug_sec (s : State) (n : Nat) : (s.resumeDebug n).sec = s.sec := by
  unfold State.resumeDebug
  extract_lets p
  split
  · obtain ⟨_, only⟩ := updCoresOf_only
      (s.updPart n fun p => { p with halted := false, dbgReq := false, winStart := s.now, winEnd := some (s.now + p.budget) }) n
      fun k => { k with watched := k.seq == .issuing, lastBeat := s.now }
    rw [only]
    rfl
  · rfl

theorem endDebug_sec (s : State) : s.endDebug.sec = { s.sec with debug := false, scopes := 0 } :=
  foldl_keeps (fun a b => b.sec = a.sec) (fun _ => rfl) (fun _ _ _ h g => g.trans h) State.resumeDebug resumeDebug_sec
    (List.range 16) { s with sec := { s.sec with debug := false, scopes := 0 } }

/-! ### Attestation (R547, R565, R567) -/

/-- The session opens at KEY_EXCHANGE and closes at END_SESSION (R568). -/
def State.sessionAfter (s : State) (code : Byte) : State :=
  if code = 0xE4 then { s with sec := { s.sec with session := true } }
  else if code = 0xEC then { s with sec := { s.sec with session := false } } else s

theorem sessionAfter_kept {code : Byte} (opens : code ≠ 0xE4) (closes : code ≠ 0xEC) : s.sessionAfter code = s :=
  (if_neg opens).trans (if_neg closes)

section
variable {code : Byte} {body nonce : List Byte}

theorem spdmRequest_silent (silent : s.answers = false) : spdmRequest code body s = s := if_pos (by simp [silent])

theorem spdmVendorReport_silent (silent : s.answers = false) : spdmVendorReport nonce s = s := if_pos (by simp [silent])

variable (awake : s.answers = true)
include awake

theorem spdmVendorReport_reports (full : nonce.length = 32) :
    spdmVendorReport nonce s = s.doeAnswer 0x7E (some (s.report nonce)) := (if_neg (by simp [awake])).trans (if_pos full)

theorem spdmVendorReport_refused (short : nonce.length ≠ 32) : spdmVendorReport nonce s = s.doeAnswer spdmError none :=
  (if_neg (by simp [awake])).trans (if_neg short)

theorem spdmRequest_unknown (unknown : spdmAnswer code.toNat = none) : spdmRequest code body s = s.doeAnswer spdmError none := by
  simp only [spdmRequest, awake, unknown]
  rfl

variable {a : Byte} (known : spdmAnswer code.toNat = some a)
include known

theorem spdmRequest_refused (refused : s.spdmBody code body = none) : spdmRequest code body s = s.doeAnswer spdmError none := by
  simp only [spdmRequest, awake, known, refused]
  rfl

theorem spdmRequest_answers {bs : Option (List Byte)} (answer : s.spdmBody code body = some bs) :
    spdmRequest code body s = (s.sessionAfter code).doeAnswer a bs := by
  simp only [spdmRequest, awake, known, answer]
  rfl

end

theorem doeAbort_ends (up : s.linkUp = true) : doeAbort s = { s with host := { s.host with doe := false } } :=
  if_neg (by simp [up])

theorem doeAbort_down (down : s.linkUp = false) : doeAbort s = s := if_pos (by simp [down])

/-! ### The clauses of O49 -/

/-- Settles O49. The codes of SPDM and the layouts of its blocks are presumed from SPDM 1.3 (PRESUMED, log 36); the order in which the ROM
makes its checks, and that SVN_COMMIT is what revokes root slots, are the model's reading (DEDUCED, log 45). -/
theorem firmwareKeysDebugAndAttestation : Obligations.FirmwareKeysDebugAndAttestation := by
  refine ⟨?rom, ?mailbox, ?ctrl, ?ends, ?spdm⟩
  case rom =>
    refine fun s => ⟨fun on first => ⟨fun sound => ?_, ?_⟩, fun booted => congrArg Host.Outcome.next (starterRomBoot_again booted)⟩
    · exact congrArg Host.Outcome.next ((starterRomBoot_boots on first).trans (congrArg Prod.fst (runRom_runs sound)))
    · rintro _ rfl bad
      exact congrArg Host.Outcome.next ((starterRomBoot_boots on first).trans (congrArg Prod.fst (runRom_fails bad)))
  case mailbox =>
    intro s reaches on free
    have does {f : State → State} {t : State} : f s = t → (.next (s.hostReg 0x004_0010 f) : Out) = .next t := reaches.answers
    refine ⟨fun closed => ?closed, fun closed => ⟨does (recovery_refuses on free closed), does (recovery_refuses on free closed)⟩,
      fun window => ⟨fun short aligned fits => does (recoveryChunk_writes on free window short aligned fits), ?fails,
        fun misplaced => does (recoveryChunk_misplaced on free window misplaced),
        fun sound => does (recoveryDone_ends on free window (runRom_runs sound))⟩, fun runs => ?serves⟩
    case closed =>
      exact ⟨does (mailbox_refuses on free closed), does (mailbox_refuses on free closed), does (mailbox_refuses on free closed),
        fun _ => ⟨does (mailbox_refuses on free closed), does (mailbox_refuses on free closed)⟩⟩
    case fails =>
      rintro _ rfl bad
      exact does (recoveryDone_ends on free window (runRom_fails bad))
    case serves =>
      obtain ⟨nonce, length, drawn⟩ := dbgNonce_draws on free runs
      exact ⟨fun inside whole sound => does (fwUpdate_writes on free runs rfl inside whole sound),
        fun k unlocked inside => does (pubWrite_sets on free runs unlocked inside),
        fun k unlocked => does (pubWrite_clears on free runs unlocked),
        fun k locked => does (pubWrite_locked on free runs locked), ⟨nonce, length, does drawn⟩,
        fun bad => does (dbgUnlock_fails on free runs bad),
        fun passes => ⟨_, does (dbgUnlock_opens on free runs passes), rfl, rfl, rfl, rfl, rfl, rfl⟩⟩
  case ctrl =>
    intro s reaches on
    have does {f : State → State} {t : State} : f s = t → (.next (s.hostReg 0x004_0004 f) : Out) = .next t := reaches.answers
    exact ⟨fun runs above => does (svnCommit_burns on runs above), fun low => does (svnCommit_held low), does (pubLock_locks on),
      does (fwActivate_boots on), does (dbgRelock_ends on)⟩
  case ends =>
    intro s
    rw [endDebug_sec]
    exact ⟨rfl, rfl, rfl⟩
  case spdm =>
    intro s code body nonce
    refine ⟨fun silent => ⟨congrArg Host.Outcome.next (spdmRequest_silent silent),
      congrArg Host.Outcome.next (spdmVendorReport_silent silent)⟩, fun awake => ⟨?_, ?_, ?_, ?_, ?_, ?_, ?_, ?_⟩,
      fun up => congrArg Host.Outcome.next (doeAbort_ends up), fun down => congrArg Host.Outcome.next (doeAbort_down down)⟩
    · exact fun full => congrArg Host.Outcome.next (spdmVendorReport_reports awake full)
    · exact fun unknown => congrArg Host.Outcome.next (spdmRequest_unknown awake unknown)
    · exact fun short => congrArg Host.Outcome.next (spdmVendorReport_refused awake short)
    · intro known refused
      obtain ⟨a, known⟩ := Option.ne_none_iff_exists'.1 known
      exact congrArg Host.Outcome.next (spdmRequest_refused awake known refused)
    · intro a bs known answer opens closes
      refine congrArg Host.Outcome.next ((spdmRequest_answers awake known answer).trans ?_)
      rw [sessionAfter_kept opens closes]
    · exact congrArg Host.Outcome.next (spdmRequest_answers awake rfl rfl)
    · exact congrArg Host.Outcome.next (spdmRequest_answers awake rfl rfl)
    · exact congrArg Host.Outcome.next (spdmRequest_answers awake rfl rfl)

end Sys2Proof.Machine
end
